-- ==== Sys2Proof/Word.lean ====
section
/-!
DEFINITION. Word types of the LZ8: the widths of its registers, buses and stores (R65, R83, R172).
-/

namespace Sys2Proof

/-- A byte of any store. -/
abbrev Byte := BitVec 8

/-- A 64-bit scalar (R65). -/
abbrev Word := BitVec 64

/-- A 72-bit address: address-space id in bits [71:64], address in [63:0] (R65). -/
abbrev Addr := BitVec 72

/-- A vector register, and the vector bus (R65, R83). -/
abbrev VReg := BitVec 2048

/-- A mask register (R65, R67). -/
abbrev MaskReg := BitVec 256

/-- A shape register (R71). -/
abbrev Shape := BitVec 256

/-- The 24 bits of one slot of a bundle (R83, R84). -/
abbrev SlotWord := BitVec 24

/-- A logical bay id within the chip (R15). -/
abbrev BayId := Fin 192

/-- A partition id (R26). -/
abbrev PartId := Fin 8

end Sys2Proof
end

