-- ==== Sys2Proof/Syntax.lean ====
section
/-!
DEFINITION. The LZ8's steps as syntax: the moves of a bundle's slots and the events of its units, fabric, host side
and yard. Instr has one constructor for each row of spec/opcode_table.json.
-/

namespace Sys2Proof

/-- Lane width codes of a vector trigger (R100). -/
inductive Width where
  /-- Code 0: 8-bit lanes. -/
  | w8
  /-- Code 1: 16-bit lanes. -/
  | w16
  /-- Code 2: 32-bit lanes. -/
  | w32
deriving DecidableEq, Repr

/-- Bits of a lane under a width code (R100). -/
def Width.bits : Width → Nat
  | .w8 => 8
  | .w16 => 16
  | .w32 => 32

/-- The engines, in the order in which commands of two engines contend for a peg (R232, R74). -/
inductive Engine where
  | mx | wk0 | wk1 | gate | coll | scarf | jig | peg
deriving DecidableEq, Repr

/-- Result ports of the units, and the two bridges, which behave as result ports of latency 1 (R66, R74, R95, R99). -/
inductive ResPort where
  | xab | xba
  | alu0R | alu1R | mul0R | div0R
  | lsu0R | lsu0Ar | lsu1R | lsu1Ar
  | mem0R
  | vec0S | vec1S | vredS | scarfSt | systemR
  | vec0Vr | vec0Mr | vec1Vr | vec1Mr | vfnVr | vredVr | vredMr
deriving DecidableEq, Repr

/-- Operand ports of the units (R74, R96, R99). -/
inductive OpPort where
  | alu0A | alu0B | alu1A | alu1B | mul0A | div0A
  | lsu0A | lsu0D | lsu1A | lsu1D | mem0A | mem0D
  | mxShx | wk0Shx | wk1Shx
  | vec0Va | vec0Vb | vec0Vm | vec1Va | vec1Vb | vec1Vm
  | vfnVa | vfnVb | vredVa | vredVm
deriving DecidableEq, Repr

/-- The source of a move: an immediate or a source port id of the slot's class (R84, R86, R95, R99, R102, R104). -/
inductive Src where
  /-- IMM 1: the 9-bit signed immediate. -/
  | imm (v : BitVec 9)
  /-- g0 to g63; g0 reads zero. -/
  | g (n : Fin 64)
  | a (n : Fin 16)
  /-- p1 to p7, held as 0 to 6. -/
  | p (n : Fin 7)
  | l (n : Fin 4)
  | lk
  | lim
  | v (n : Fin 32)
  | m (n : Fin 8)
  | res (r : ResPort)
deriving DecidableEq, Repr

/-- The destination of a plain move (R96, R99, R102, R104). Triggers are instructions of their own. -/
inductive Dst where
  /-- g0 discards the value (R64). -/
  | g (n : Fin 64)
  | a (n : Fin 16)
  | p (n : Fin 7)
  | lk
  /-- xab, written by cluster A (R66). -/
  | xab
  /-- xba, written by cluster B (R66). -/
  | xba
  | v (n : Fin 32)
  | m (n : Fin 8)
  | op (o : OpPort)
deriving DecidableEq, Repr

/-- The part that every move of a slot shares: its slot, its GUARD and its source (R84, R85). -/
structure Ctl where
  slot : Fin 8
  guard : BitVec 4
  src : Src
deriving DecidableEq, Repr

/-- What enters a run queue at its release tick (R35, R37, R49). -/
inductive ReleaseKind where
  | story | gated | spawned
deriving DecidableEq, Repr

/-- The causes of R285. -/
inductive Cause where
  | illegalGuard | unimplementedPort | jigCollision | portCollision | controlFlow | reservedField
  | format | alignment | range | privilege | region | loopOverflow | softwareTrap
  | earlyRead | resultCollision | queueFull | slot | bankConflict | writeCollision | channelLine
  | regionBusy | pegOverrun | gangSync | transferMismatch | inFlightLimit | scaleBusy | endState | windowOverflow
  | translation | baySram | lpddr | residue
deriving DecidableEq, Repr

/-- A write or a delivered effect of a pass, as its signature takes it (R292): the cycle offset from the witness, the address, the
data. -/
structure PassEffect where
  cycle : BitVec 32
  addr : Addr
  data : List Byte
deriving DecidableEq, Repr

/-- What one rerun of a window comes to on the bay's hardware (R292, R293): bundles issued, gated writes and line writes, effects delivered
to other parties, the fault it takes: cause, cycle counted from the witness, INFO, and the code address of the bundle that takes it, none for
a fault of no bundle. -/
structure RerunEnd where
  bundles : Nat
  writes : List PassEffect
  escapes : List PassEffect
  fault : Option (Cause × Nat × BitVec 72)
  bundle : Option Nat
deriving DecidableEq, Repr

/-- A hardware fault from outside the program: uncorrectable SRAM or LPDDR-6 word, or residue mismatch (R184, R197, R285), with what the
reruns come to, a pair for each time that they are made, and the effects that the original pass delivered (R292). -/
structure HwFault where
  cause : Cause
  info : BitVec 32
  reruns : List (RerunEnd × RerunEnd)
  escapes : List PassEffect
deriving DecidableEq, Repr

/-- The six Rirax ports, in the order of the link slot tables (R309). -/
inductive Port where
  | xp | xm | yp | ym | zp | zm
deriving DecidableEq, Repr

/-- What one leaf's contribution declares of itself: its leaf number, descriptor and exponent (R318, R319). -/
structure LeafHead where
  leaf : Nat
  desc : BitVec 48
  exp : Int
deriving DecidableEq, Repr

/-- A node value on its way to the router of its parent (R318). lev counts from the base level b0. -/
structure NodeVal where
  slot : Fin 64
  round : Nat
  lev : Nat
  j : Nat
  elems : List Int
  exp : Int
  sat : Bool
  /-- KSEED carried by the value (R361). -/
  seed : Word
  heads : List LeafHead
  /-- W of its descriptor (R316). -/
  w : Nat
deriving DecidableEq, Repr

/-- The root's decision on a round, with the delivered result (R319). -/
structure Verdict where
  slot : Fin 64
  round : Nat
  status : Nat
  missLog : Nat
  missStart : Nat
  exp : Int
  sat : Bool
  elems : List Int
deriving DecidableEq, Repr

/-- The atomics on a 96-bit cell (R346). -/
inductive AtomicOp where
  | add | max | min | or
deriving DecidableEq, Repr

/-- What a tier 5 request asks of its home chip (R312). -/
inductive Tier5Kind where
  | read (n : Nat)
  | write (data : List Byte)
  | atomic (op : AtomicOp) (v : BitVec 96)
  | fetchAdd (v : Word)
  /-- The conditional claim of a QPUT (R262). -/
  | claim
deriving DecidableEq, Repr

/-- A request that reaches this chip as the home of a tier 5 page (R312, R201). -/
structure Tier5Req where
  chip : Nat
  bay : Nat
  /-- The mode in which the asking chip's own table places the VA, none for no region (R225), and the pole cycle in which the access
  performs there, or from which its write is visible (R213, R214). -/
  mode : Option Nat
  stamp : Nat
  id : Nat
  va : Addr
  bent : Fin 8
  pa : Nat
  kind : Tier5Kind
deriving DecidableEq, Repr

/-- A scarf read request served at its source chip (R271, R273). -/
structure ScarfRead where
  chip : Nat
  bay : Nat
  /-- The mode in which the asking chip's own table places the VA, none for no region (R225). -/
  mode : Option Nat
  part : PartId
  /-- The number of the command that asks. -/
  run : Nat
  index : Nat
  va : Addr
  n : Nat
deriving DecidableEq, Repr

/-- What the chips of a pod plan must agree on in a reduction descriptor (R316, R317): all of it but its VAs, with its chip list. -/
structure PodDesc where
  slot : Fin 64
  bc : Bool
  mode : Nat
  w : Nat
  nel : Nat
  n : Nat
  b0 : Nat
  tof : Nat
  pexp : Nat
  phase : Nat
  coff : Nat
  doff : Nat
  stream : Nat
  chips : List Nat
deriving DecidableEq, Repr

/-- What the yards of a pod plan exchange at load (R317): the descriptors of a chip, and the USE of each entry of its six link slot
tables, in the order of R309. -/
structure PodTables where
  descs : List PodDesc
  links : List (List Nat)
deriving DecidableEq, Repr

/-- The event messages of IEEE 1588-2019 (R313). -/
inductive PtpKind where
  | sync | delayReq | delayResp | pdelayReq | pdelayResp
deriving DecidableEq, Repr

/-- A PTP event message and what it tells the time base: the correction in nanoseconds it leads to (R313). -/
structure PtpMsg where
  /-- None: an Ethernet port; some: a Rirax port. -/
  port : Option Port
  received : Bool
  kind : PtpKind
  correction : Int
deriving DecidableEq, Repr

/-- What a flit carries (R310, R311, R313, R315, R317). -/
inductive Msg where
  | node (v : NodeVal)
  | verdict (v : Verdict)
  | tier5 (r : Tier5Req)
  | tier5Answer (bay : Nat) (id : Nat) (data : List Byte)
  | scarfRead (r : ScarfRead)
  | scarfData (part : PartId) (run index : Nat) (data : List Byte)
  | scarfError (part : PartId) (run code : Nat)
  | offset (chip : Nat) (frame : Nat) (offset : Nat)
  | tables (chip : Nat) (t : PodTables)
  /-- A chip's yard has passed or failed the pod-wide checks (R317, R467). -/
  | checked (chip : Nat) (ok : Bool)
  | ptp (m : PtpMsg)
  /-- A chip of the pod is lost (R315, R327). -/
  | lost (chip : Nat)
  /-- Unit u of the chip's reservation, or of its protected memory being rebuilt: bytes of one chip to be taken in by XOR, those that are
  not zero, and whether its frame is dirty (R324, R327). -/
  | unit (parity : Bool) (u : Nat) (cells : List (Nat × Byte)) (dirty : Bool)
deriving DecidableEq, Repr

/-- What a flit of up to 256 bytes carries (R310): what the message carries that it is a part of, and which of the message's flits it is, from
0, of how many. -/
structure Cargo where
  msg : Msg
  ix : Nat
  count : Nat
deriving DecidableEq, Repr

/-- A flit (R310, R311): the logical chip that it goes to, and what it carries. -/
structure Flit where
  dest : Nat
  load : Cargo
deriving DecidableEq, Repr

/-- What the yards of a pod agree on when its plan restarts (R327): the lost logical chip. No chip of the pod is lost where the id is
beyond the pod's: a restart after a bay's retirement (R296). -/
structure Recovery where
  lost : Nat
deriving DecidableEq, Repr

/-- Where host or peer RDMA reaches: a VA of a partition's QUEUE region, by the host (peer 0) or a peer chip on Ethernet (R212), or a
mailbox offset over a connection (R329 to R331). -/
inductive RdmaTarget where
  | memory (peer : Nat) (p : PartId) (va : Addr)
  | mailbox (conn : Nat) (offset : Nat)
deriving DecidableEq, Repr

/-- One step of the part: one row of spec/opcode_table.json. The first 198 are moves of a slot; the rest are events. -/
inductive Instr where
  /-- MOVE (R61): A plain move copies one source register, port or immediate to a destination register or operand port in the issue cycle. -/
  | move (c : Ctl) (d : Dst)
  /-- LIMM (R384): A long-immediate slot 7 loads or accumulates its 20-bit payload into lim. -/
  | limm (v : BitVec 20)
  /-- ADD (R342): Scalar modular addition on alu0 or alu1. -/
  | add (c : Ctl) (u : Fin 2)
  /-- SUB (R342): Scalar modular subtraction on alu0 or alu1. -/
  | sub (c : Ctl) (u : Fin 2)
  /-- ADDS (R344): Scalar signed addition clamped to the symmetric range. -/
  | adds (c : Ctl) (u : Fin 2)
  /-- SUBS (R344): Scalar signed subtraction clamped to the symmetric range. -/
  | subs (c : Ctl) (u : Fin 2)
  /-- AND (R345): Scalar bitwise AND. -/
  | and (c : Ctl) (u : Fin 2)
  /-- OR (R345): Scalar bitwise OR. -/
  | or (c : Ctl) (u : Fin 2)
  /-- XOR (R345): Scalar bitwise XOR. -/
  | xor (c : Ctl) (u : Fin 2)
  /-- ANDN (R345): Scalar bitwise AND with the complement of the trigger value. -/
  | andn (c : Ctl) (u : Fin 2)
  /-- SHL (R420): Scalar logical shift left. -/
  | shl (c : Ctl) (u : Fin 2)
  /-- SHR (R420): Scalar logical shift right. -/
  | shr (c : Ctl) (u : Fin 2)
  /-- SAR (R420): Scalar arithmetic shift right. -/
  | sar (c : Ctl) (u : Fin 2)
  /-- ROTL (R417): Scalar rotate left by t[5:0]. -/
  | rotl (c : Ctl) (u : Fin 2)
  /-- MIN (R390): Scalar signed minimum. -/
  | min (c : Ctl) (u : Fin 2)
  /-- MAX (R390): Scalar signed maximum. -/
  | max (c : Ctl) (u : Fin 2)
  /-- MINU (R390): Scalar unsigned minimum. -/
  | minu (c : Ctl) (u : Fin 2)
  /-- MAXU (R390): Scalar unsigned maximum. -/
  | maxu (c : Ctl) (u : Fin 2)
  /-- ABS (R341): Scalar clamped absolute value. -/
  | abs (c : Ctl) (u : Fin 2)
  /-- CLZ (R355): Scalar count of leading zeros. -/
  | clz (c : Ctl) (u : Fin 2)
  /-- CLS (R355): Scalar count of redundant sign bits. -/
  | cls (c : Ctl) (u : Fin 2)
  /-- POPC (R355): Scalar population count. -/
  | popc (c : Ctl) (u : Fin 2)
  /-- EXT (R368): Scalar bit-field extraction with optional sign extension. -/
  | ext (c : Ctl) (u : Fin 2)
  /-- INS (R368): Scalar bit-field insertion. -/
  | ins (c : Ctl) (u : Fin 2)
  /-- SEL (R421): Scalar selection between two operands on a condition. -/
  | sel (c : Ctl) (u : Fin 2)
  /-- CMPEQ (R356): Scalar equality compare delivering 1 or 0. -/
  | cmpeq (c : Ctl) (u : Fin 2)
  /-- CMPNE (R356): Scalar inequality compare. -/
  | cmpne (c : Ctl) (u : Fin 2)
  /-- CMPLT (R356): Scalar signed less-than compare. -/
  | cmplt (c : Ctl) (u : Fin 2)
  /-- CMPLE (R356): Scalar signed less-or-equal compare. -/
  | cmple (c : Ctl) (u : Fin 2)
  /-- CMPLTU (R356): Scalar unsigned less-than compare. -/
  | cmpltu (c : Ctl) (u : Fin 2)
  /-- CMPLEU (R356): Scalar unsigned less-or-equal compare. -/
  | cmpleu (c : Ctl) (u : Fin 2)
  /-- PAND (R406): Scalar logical AND of truth values. -/
  | pand (c : Ctl) (u : Fin 2)
  /-- POR (R406): Scalar logical OR of truth values. -/
  | por (c : Ctl) (u : Fin 2)
  /-- PXOR (R406): Scalar logical XOR of truth values. -/
  | pxor (c : Ctl) (u : Fin 2)
  /-- PNOT (R406): Scalar logical NOT of a truth value. -/
  | pnot (c : Ctl) (u : Fin 2)
  /-- MUL (R392): Low 64 bits of a 64 by 64 product on mul0. -/
  | mul (c : Ctl)
  /-- MULH (R392): High 64 bits of a signed product. -/
  | mulh (c : Ctl)
  /-- MULHU (R392): High 64 bits of an unsigned product. -/
  | mulhu (c : Ctl)
  /-- MULQ (R393): Scalar Q2.29 multiply with round to nearest. -/
  | mulq (c : Ctl)
  /-- DIV (R364): Signed 64-bit division truncating towards zero. -/
  | div (c : Ctl)
  /-- DIVU (R364): Unsigned 64-bit division. -/
  | divu (c : Ctl)
  /-- REM (R364): Signed remainder with the sign of the dividend. -/
  | rem (c : Ctl)
  /-- DIVQ (R365): Q2.29 division with one rounding point. -/
  | divq (c : Ctl)
  /-- SQRTQ (R427): Q2.29 square root, correctly rounded. -/
  | sqrtq (c : Ctl)
  /-- ADDA (R343): Adds to bits [63:0] of a 72-bit address keeping its address-space id. -/
  | adda (c : Ctl) (u : Fin 2)
  /-- SUBA (R343): Subtracts from bits [63:0] of a 72-bit address keeping its address-space id. -/
  | suba (c : Ctl) (u : Fin 2)
  /-- LD (R380): Scratchpad load of 1 to 8 bytes with latency 4. -/
  | ld (c : Ctl) (u : Fin 2)
  /-- ST (R428): Scratchpad store of 1 to 8 bytes performing at trigger plus 4. -/
  | st (c : Ctl) (u : Fin 2)
  /-- LDG (R380): Load from a virtual address at the tier latency of its page. -/
  | ldg (c : Ctl) (u : Fin 2)
  /-- STG (R428): Gated store to a virtual address at the tier latency. -/
  | stg (c : Ctl) (u : Fin 2)
  /-- LDC (R380): Consumer load of a channel line that sets the line empty. -/
  | ldc (c : Ctl) (u : Fin 2)
  /-- STP (R428): Producer store to a channel line that sets the line full. -/
  | stp (c : Ctl) (u : Fin 2)
  /-- ATADD (R346): Gated atomic 96-bit add to an accumulation cell, saturating and setting CSAT. -/
  | atadd (c : Ctl)
  /-- ATMAX (R346): Gated atomic maximum on a 96-bit cell. -/
  | atmax (c : Ctl)
  /-- ATMIN (R346): Gated atomic minimum on a 96-bit cell. -/
  | atmin (c : Ctl)
  /-- ATOR (R346): Gated atomic OR on a 96-bit cell. -/
  | ator (c : Ctl)
  /-- FETCHADD (R369): Ungated fetch-and-add on a 64-bit word of a QUEUE region returning the old value. -/
  | fetchadd (c : Ctl)
  /-- HAND (R227): Gated change of a region's mode word by its party A, returning the mode word in force. -/
  | hand (c : Ctl)
  /-- TLOOK (R189): Searches the scratchpad tag table for a VA and returns the slot or -1. -/
  | tlook (c : Ctl)
  /-- TFILL (R189): Writes a tag-table entry for a slot unless refused, returning a status. -/
  | tfill (c : Ctl)
  /-- TEVICT (R189): Clears a tag-table entry and returns its former contents. -/
  | tevict (c : Ctl)
  /-- MX_SHW (R71): Writes the mx shadow shape field named by mx.shx. -/
  | mxShw (c : Ctl)
  /-- WK0_SHW (R71): Writes the wk0 shadow shape field named by wk0.shx. -/
  | wk0Shw (c : Ctl)
  /-- WK1_SHW (R71): Writes the wk1 shadow shape field named by wk1.shx. -/
  | wk1Shw (c : Ctl)
  /-- VEC0_ADD (R342): Vector modular lane addition on vec0. -/
  | vec0Add (c : Ctl) (w : Width)
  /-- VEC1_ADD (R342): Vector modular lane addition on vec1. -/
  | vec1Add (c : Ctl) (w : Width)
  /-- VEC0_SUB (R342): Vector modular lane subtraction on vec0. -/
  | vec0Sub (c : Ctl) (w : Width)
  /-- VEC1_SUB (R342): Vector modular lane subtraction on vec1. -/
  | vec1Sub (c : Ctl) (w : Width)
  /-- VEC0_ADDS (R344): Vector clamped lane addition on vec0. -/
  | vec0Adds (c : Ctl) (w : Width)
  /-- VEC1_ADDS (R344): Vector clamped lane addition on vec1. -/
  | vec1Adds (c : Ctl) (w : Width)
  /-- VEC0_SUBS (R344): Vector clamped lane subtraction on vec0. -/
  | vec0Subs (c : Ctl) (w : Width)
  /-- VEC1_SUBS (R344): Vector clamped lane subtraction on vec1. -/
  | vec1Subs (c : Ctl) (w : Width)
  /-- VEC0_AND (R345): Vector bitwise AND on vec0. -/
  | vec0And (c : Ctl) (w : Width)
  /-- VEC1_AND (R345): Vector bitwise AND on vec1. -/
  | vec1And (c : Ctl) (w : Width)
  /-- VEC0_OR (R345): Vector bitwise OR on vec0. -/
  | vec0Or (c : Ctl) (w : Width)
  /-- VEC1_OR (R345): Vector bitwise OR on vec1. -/
  | vec1Or (c : Ctl) (w : Width)
  /-- VEC0_XOR (R345): Vector bitwise XOR on vec0. -/
  | vec0Xor (c : Ctl) (w : Width)
  /-- VEC1_XOR (R345): Vector bitwise XOR on vec1. -/
  | vec1Xor (c : Ctl) (w : Width)
  /-- VEC0_ANDN (R345): Vector bitwise AND-NOT on vec0. -/
  | vec0Andn (c : Ctl) (w : Width)
  /-- VEC1_ANDN (R345): Vector bitwise AND-NOT on vec1. -/
  | vec1Andn (c : Ctl) (w : Width)
  /-- VEC0_SHL (R420): Vector per-lane logical shift left on vec0. -/
  | vec0Shl (c : Ctl) (w : Width)
  /-- VEC1_SHL (R420): Vector per-lane logical shift left on vec1. -/
  | vec1Shl (c : Ctl) (w : Width)
  /-- VEC0_SHR (R420): Vector per-lane logical shift right on vec0. -/
  | vec0Shr (c : Ctl) (w : Width)
  /-- VEC1_SHR (R420): Vector per-lane logical shift right on vec1. -/
  | vec1Shr (c : Ctl) (w : Width)
  /-- VEC0_SAR (R420): Vector per-lane arithmetic shift right on vec0. -/
  | vec0Sar (c : Ctl) (w : Width)
  /-- VEC1_SAR (R420): Vector per-lane arithmetic shift right on vec1. -/
  | vec1Sar (c : Ctl) (w : Width)
  /-- VEC0_MIN (R390): Vector signed lane minimum on vec0. -/
  | vec0Min (c : Ctl) (w : Width)
  /-- VEC1_MIN (R390): Vector signed lane minimum on vec1. -/
  | vec1Min (c : Ctl) (w : Width)
  /-- VEC0_MAX (R390): Vector signed lane maximum on vec0. -/
  | vec0Max (c : Ctl) (w : Width)
  /-- VEC1_MAX (R390): Vector signed lane maximum on vec1. -/
  | vec1Max (c : Ctl) (w : Width)
  /-- VEC0_ABS (R341): Vector clamped lane absolute value on vec0. -/
  | vec0Abs (c : Ctl) (w : Width)
  /-- VEC1_ABS (R341): Vector clamped lane absolute value on vec1. -/
  | vec1Abs (c : Ctl) (w : Width)
  /-- VEC0_SEL (R421): Vector lane selection under a mask on vec0. -/
  | vec0Sel (c : Ctl) (w : Width)
  /-- VEC1_SEL (R421): Vector lane selection under a mask on vec1. -/
  | vec1Sel (c : Ctl) (w : Width)
  /-- VEC0_CMPEQ (R356): Vector equality compare writing a mask on vec0. -/
  | vec0Cmpeq (c : Ctl) (w : Width)
  /-- VEC1_CMPEQ (R356): Vector equality compare writing a mask on vec1. -/
  | vec1Cmpeq (c : Ctl) (w : Width)
  /-- VEC0_CMPNE (R356): Vector inequality compare on vec0. -/
  | vec0Cmpne (c : Ctl) (w : Width)
  /-- VEC1_CMPNE (R356): Vector inequality compare on vec1. -/
  | vec1Cmpne (c : Ctl) (w : Width)
  /-- VEC0_CMPLT (R356): Vector signed less-than compare on vec0. -/
  | vec0Cmplt (c : Ctl) (w : Width)
  /-- VEC1_CMPLT (R356): Vector signed less-than compare on vec1. -/
  | vec1Cmplt (c : Ctl) (w : Width)
  /-- VEC0_CMPLE (R356): Vector signed less-or-equal compare on vec0. -/
  | vec0Cmple (c : Ctl) (w : Width)
  /-- VEC1_CMPLE (R356): Vector signed less-or-equal compare on vec1. -/
  | vec1Cmple (c : Ctl) (w : Width)
  /-- VEC0_CMPLTU (R356): Vector unsigned less-than compare on vec0. -/
  | vec0Cmpltu (c : Ctl) (w : Width)
  /-- VEC1_CMPLTU (R356): Vector unsigned less-than compare on vec1. -/
  | vec1Cmpltu (c : Ctl) (w : Width)
  /-- VEC0_CMPLEU (R356): Vector unsigned less-or-equal compare on vec0. -/
  | vec0Cmpleu (c : Ctl) (w : Width)
  /-- VEC1_CMPLEU (R356): Vector unsigned less-or-equal compare on vec1. -/
  | vec1Cmpleu (c : Ctl) (w : Width)
  /-- VEC0_PAND (R406): Mask AND on vec0. -/
  | vec0Pand (c : Ctl) (w : Width)
  /-- VEC1_PAND (R406): Mask AND on vec1. -/
  | vec1Pand (c : Ctl) (w : Width)
  /-- VEC0_POR (R406): Mask OR on vec0. -/
  | vec0Por (c : Ctl) (w : Width)
  /-- VEC1_POR (R406): Mask OR on vec1. -/
  | vec1Por (c : Ctl) (w : Width)
  /-- VEC0_PXOR (R406): Mask XOR on vec0. -/
  | vec0Pxor (c : Ctl) (w : Width)
  /-- VEC1_PXOR (R406): Mask XOR on vec1. -/
  | vec1Pxor (c : Ctl) (w : Width)
  /-- VEC0_PNOT (R406): Mask complement on vec0. -/
  | vec0Pnot (c : Ctl) (w : Width)
  /-- VEC1_PNOT (R406): Mask complement on vec1. -/
  | vec1Pnot (c : Ctl) (w : Width)
  /-- VEC0_MULW (R394): Widening exact multiply of one half of the lanes on vec0. -/
  | vec0Mulw (c : Ctl) (w : Width)
  /-- VEC1_MULW (R394): Widening exact multiply of one half of the lanes on vec1. -/
  | vec1Mulw (c : Ctl) (w : Width)
  /-- VEC0_MULQ (R393): Vector fixed-point multiply with rnd and clamp on vec0. -/
  | vec0Mulq (c : Ctl) (w : Width)
  /-- VEC1_MULQ (R393): Vector fixed-point multiply with rnd and clamp on vec1. -/
  | vec1Mulq (c : Ctl) (w : Width)
  /-- VEC0_MACW (R389): Pairwise multiply-accumulate into wider lanes on vec0. -/
  | vec0Macw (c : Ctl) (w : Width)
  /-- VEC1_MACW (R389): Pairwise multiply-accumulate into wider lanes on vec1. -/
  | vec1Macw (c : Ctl) (w : Width)
  /-- VEC0_SHRS (R423): Stochastic per-lane shift with kerf bits on vec0. -/
  | vec0Shrs (c : Ctl) (w : Width)
  /-- VEC1_SHRS (R423): Stochastic per-lane shift with kerf bits on vec1. -/
  | vec1Shrs (c : Ctl) (w : Width)
  /-- VEC0_NARROW (R400): Scaled write narrowing lanes to half width through a scale register on vec0. -/
  | vec0Narrow (c : Ctl) (w : Width)
  /-- VEC1_NARROW (R400): Scaled write narrowing lanes to half width through a scale register on vec1. -/
  | vec1Narrow (c : Ctl) (w : Width)
  /-- VEC0_WIDEN (R440): Extends one half of the lanes to double width on vec0. -/
  | vec0Widen (c : Ctl) (w : Width)
  /-- VEC1_WIDEN (R440): Extends one half of the lanes to double width on vec1. -/
  | vec1Widen (c : Ctl) (w : Width)
  /-- VEC0_BCAST (R348): Broadcasts a clamped scalar into every lane on vec0. -/
  | vec0Bcast (c : Ctl) (w : Width)
  /-- VEC1_BCAST (R348): Broadcasts a clamped scalar into every lane on vec1. -/
  | vec1Bcast (c : Ctl) (w : Width)
  /-- VEC0_SWAPP (R432): Exchanges adjacent lane pairs with optional negation on vec0. -/
  | vec0Swapp (c : Ctl) (w : Width)
  /-- VEC1_SWAPP (R432): Exchanges adjacent lane pairs with optional negation on vec1. -/
  | vec1Swapp (c : Ctl) (w : Width)
  /-- VEC0_LDV (R383): Loads 256 scratchpad bytes into a vector on vec0. -/
  | vec0Ldv (c : Ctl) (w : Width)
  /-- VEC1_LDV (R383): Loads 256 scratchpad bytes into a vector on vec1. -/
  | vec1Ldv (c : Ctl) (w : Width)
  /-- VEC0_STV (R431): Stores 256 vector bytes, optionally masked, to the scratchpad on vec0. -/
  | vec0Stv (c : Ctl) (w : Width)
  /-- VEC1_STV (R431): Stores 256 vector bytes, optionally masked, to the scratchpad on vec1. -/
  | vec1Stv (c : Ctl) (w : Width)
  /-- VEC0_MCOUNT (R391): Counts the 1 bits of a mask on vec0. -/
  | vec0Mcount (c : Ctl) (w : Width)
  /-- VEC1_MCOUNT (R391): Counts the 1 bits of a mask on vec1. -/
  | vec1Mcount (c : Ctl) (w : Width)
  /-- VEC0_LANEGET (R378): Reads one lane to the scalar port on vec0. -/
  | vec0Laneget (c : Ctl) (w : Width)
  /-- VEC1_LANEGET (R378): Reads one lane to the scalar port on vec1. -/
  | vec1Laneget (c : Ctl) (w : Width)
  /-- VEC0_LANESET (R378): Replaces one lane with a clamped scalar on vec0. -/
  | vec0Laneset (c : Ctl) (w : Width)
  /-- VEC1_LANESET (R378): Replaces one lane with a clamped scalar on vec1. -/
  | vec1Laneset (c : Ctl) (w : Width)
  /-- REDADD (R412): Exact tree sum of the lanes of a register, delivering level-G nodes and the root. -/
  | redadd (c : Ctl) (w : Width)
  /-- REDMAX (R412): Tree maximum of the lanes of a register. -/
  | redmax (c : Ctl) (w : Width)
  /-- REDMIN (R412): Tree minimum of the lanes of a register. -/
  | redmin (c : Ctl) (w : Width)
  /-- CENSUS (R354): Delivers the census of the lanes of a register. -/
  | census (c : Ctl) (w : Width)
  /-- PERM (R408): Byte gather permutation of a register. -/
  | perm (c : Ctl) (w : Width)
  /-- LANEROT (R379): Rotates the lanes of a register by a signed amount. -/
  | lanerot (c : Ctl) (w : Width)
  /-- HLOOK (R374): Looks up 64 keys in a scratchpad hash table. -/
  | hlook (c : Ctl) (w : Width)
  /-- LUT (R388): Table lookup of each lane in a register table. -/
  | lut (c : Ctl) (w : Width)
  /-- DEC4 (R362): Decodes 256 packed Q4 codes to INT8 lanes. -/
  | dec4 (c : Ctl) (w : Width)
  /-- ENC4 (R363): Encodes 256 INT8 lanes to packed Q4 codes. -/
  | enc4 (c : Ctl) (w : Width)
  /-- EXP2Q (R367): Q8.24 base-2 exponential of 64 lanes. -/
  | exp2q (c : Ctl)
  /-- LOG2Q (R385): Q8.24 base-2 logarithm of 64 lanes. -/
  | log2q (c : Ctl)
  /-- RCPQ (R410): Q8.24 reciprocal of 64 lanes. -/
  | rcpq (c : Ctl)
  /-- RSQQ (R418): Q8.24 reciprocal square root of 64 lanes. -/
  | rsqq (c : Ctl)
  /-- SINQ (R424): Q1.14 sine of 64 angles in turns. -/
  | sinq (c : Ctl)
  /-- COSQ (R359): Q1.14 cosine of 64 angles in turns. -/
  | cosq (c : Ctl)
  /-- OPTM (R403): Stochastically rounded first-moment optimiser update of 64 lanes. -/
  | optm (c : Ctl)
  /-- OPTV (R403): Stochastically rounded second-moment optimiser update of 64 lanes. -/
  | optv (c : Ctl)
  /-- OPTW (R404): Bias-corrected weight step of 64 lanes. -/
  | optw (c : Ctl)
  /-- MXGO (R398): Queues a matrix nest captured from the mx shapes after the checks of R178. -/
  | mxgo (c : Ctl)
  /-- MXDRAIN (R396): Queues a scaled drain of an accumulator handle. -/
  | mxdrain (c : Ctl)
  /-- MXCLR (R395): Queues the clearing of an accumulator handle. -/
  | mxclr (c : Ctl)
  /-- WK0_WALK (R438): Queues a block copy on tile walker wk0. -/
  | wk0Walk (c : Ctl)
  /-- WK0_WALKM (R247): Queues a multicast block copy on wk0 to bays of the bent. -/
  | wk0Walkm (c : Ctl)
  /-- WK1_WALK (R438): Queues a block copy on tile walker wk1. -/
  | wk1Walk (c : Ctl)
  /-- WK1_WALKM (R247): Queues a multicast block copy on wk1. -/
  | wk1Walkm (c : Ctl)
  /-- GATE (R370): Queues a gate SET or ADD command on the gate engine. -/
  | gate (c : Ctl)
  /-- QPUT (R409): Queues a conditional queue claim and packet write. -/
  | qput (c : Ctl)
  /-- SEND (R411): Queues a transfer of scratchpad lines to a gang peer. -/
  | send (c : Ctl)
  /-- RECV (R411): Queues the reception of lines from a gang peer. -/
  | recv (c : Ctl)
  /-- CRED (R360): Queues a contribution to a Rirax reduction slot. -/
  | cred (c : Ctl)
  /-- CBCAST (R353): Queues a contribution to a broadcast reduction slot. -/
  | cbcast (c : Ctl)
  /-- COMMIT (R357): Queues an OR contribution whose delivery promotes or discards shadow shards. -/
  | commit (c : Ctl)
  /-- RESHARD (R282): Queues a re-shard of a tensor by the scarf engine. -/
  | reshard (c : Ctl)
  /-- RSSTAT (R283): Reads the scarf context status word onto scarf.st with latency 2. -/
  | rsstat (c : Ctl)
  /-- JIG (R375): Starts a jig routine from the jig store. -/
  | jig (c : Ctl)
  /-- PEGCLR (R407): Queues the clearing of named pegs. -/
  | pegclr (c : Ctl)
  /-- BR (R349): Relative branch to pc plus a signed bundle offset. -/
  | br (c : Ctl)
  /-- BRM (R350): Branch on a uniform mask register, faulting on a mixed mask. -/
  | brm (c : Ctl)
  /-- CALL (R351): Relative call writing lk. -/
  | call (c : Ctl)
  /-- CALLI (R352): Indirect call to a PAD C target writing lk. -/
  | calli (c : Ctl)
  /-- RET (R415): Transfers control to the code address in lk. -/
  | ret (c : Ctl)
  /-- JMPI (R377): Indirect jump to a PAD J target. -/
  | jmpi (c : Ctl)
  /-- PAD_C (R405): Landing pad for CALLI with no effect. -/
  | padC
  /-- PAD_J (R405): Landing pad for JMPI with no effect. -/
  | padJ
  /-- PAD_E (R405): Landing pad marking the trap entry. -/
  | padE
  /-- LOOP (R386): Pushes a hardware loop level from a loop descriptor. -/
  | loop (c : Ctl)
  /-- END (R366): Ends the task after checking the END state, closing its window. -/
  | endTask (c : Ctl)
  /-- SPAWN (R426): Places a template entry and argument block in a bay's spawn queue. -/
  | spawn (c : Ctl)
  /-- GSYNC (R233): Gang synchronisation checked by the gang's sync checker. -/
  | gsync (c : Ctl)
  /-- WITNESS (R441): Closes the witness window and opens the next. -/
  | witness (c : Ctl)
  /-- TRAP (R436): Software trap, or escalation to the yard when the handler is active. -/
  | trap (c : Ctl)
  /-- RESUME (R300): Ends the trap handler and transfers control. -/
  | resume (c : Ctl)
  /-- RETIRE (R299): Retires the task. -/
  | retire (c : Ctl)
  /-- SYSR (R433): Reads a system register onto system.r. -/
  | sysr (c : Ctl)
  /-- SYSW (R434): Writes a system register from an a-register. -/
  | sysw (c : Ctl)
  /-- TTLD (R206): Reads half of a translation entry with DIRTY or PENDING. -/
  | ttld (c : Ctl)
  /-- TTCLR (R206): Requests a dirty clear of a translation entry at the next frame start. -/
  | ttclr (c : Ctl)
  /-- WHEEL (R439): Inserts a template entry into the timer wheel for a PTP time. -/
  | wheel (c : Ctl)
  /-- JIG_START (R80): Two pole cycles after a JIG command the jig's first bundle merges into the primary bundle. -/
  | jigStart (b : BayId)
  /-- JIG_END (R376): When the last repetition's last bundle commits the jig ends, frees its micro-PC and produces its peg. -/
  | jigEnd (b : BayId) (j : Fin 2)
  /-- RESULT_READY (R63): A unit result becomes ready on its result port at trigger plus latency. -/
  | resultReady (b : BayId) (p : ResPort)
  /-- ACCESS_PERFORM (R213): A memory access performs at its perform cycle with its line-state, slot and ECC checks. -/
  | accessPerform (b : BayId) (id : Nat)
  /-- FRAME_START (R30): A partition frame starts, advancing FRAMEC and running all frame-start work. -/
  | frameStart (p : PartId)
  /-- UNRESPONSIVE (R315): A chip that sends no report for two frames of pod time is reported unresponsive to all yards. -/
  | unresponsive (chip : Nat)
  /-- STORY_RELEASE (R35): At an entry's release tick the story-pole, gated or spawned entry enters its bay's run queue. -/
  | storyRelease (b : BayId) (k : ReleaseKind) (idx : Nat)
  /-- TASK_START (R38): An idle bay with a non-empty run queue starts the head entry, clearing registers and loading arguments. -/
  | taskStart (b : BayId)
  /-- GATE_COMPLETION (R256): A gate whose arrivals reach EXPECT completes one cycle later, toggling PHASE and making armed entries eligible. -/
  | gateCompletion (p : PartId) (gate : Addr)
  /-- HOLD_REFRESH (R196): While the pole clock is stopped each channel issues a refresh every 2,340 clock cycles. -/
  | holdRefresh (ch : Fin 96)
  /-- REFRESH_COMMAND (R195): The controller issues a refresh command at the start of each refresh slot. -/
  | refreshCommand (ch : Fin 96)
  /-- ROLLBACK (R291): A fault handled by rollback stalls the partition while the bay restores its witness and reruns twice. -/
  | rollback (b : BayId) (hw : Option HwFault)
  /-- RETIRED_BAY_IDLE (R299): A retired bay becomes idle once its begun commands have completed. -/
  | retiredBayIdle (b : BayId)
  /-- PREEMPTION (R58): At its next pre-emption point a partition is stopped for a higher-priority plan and its state saved. -/
  | preemption (p : PartId)
  /-- MXGO_BEGIN (R179): An MXGO begins when its pegs are produced and the array and handles are free, reading chunks each step. -/
  | mxgoBegin (b : BayId)
  /-- MX_ADDITION (R176): Products read in a cycle are added into the handle 140 cycles later, with residue, tag and block checks. -/
  | mxAddition (b : BayId)
  /-- MXGO_COMPLETE (R179): An MXGO completes and produces its peg 139 cycles after its last read. -/
  | mxgoComplete (b : BayId)
  /-- MXDRAIN_BEGIN (R179): A drain begins, reads its scale register and starts reading rows. -/
  | mxdrainBegin (b : BayId)
  /-- DRAIN_ROW_LANDING (R181): A drained output row lands at its destination. -/
  | drainRowLanding (b : BayId)
  /-- MXDRAIN_COMPLETE (R181): A drain completes, updating E, CENSUS and SAT and producing its peg. -/
  | mxdrainComplete (b : BayId)
  /-- MXCLR_BEGIN (R395): An MXCLR begins and zeroes and empties its handle in one cycle. -/
  | mxclrBegin (b : BayId)
  /-- WALK_BEGIN (R244): A walk begins once pegs are produced and the previous walk has triggered its last read. -/
  | walkBegin (b : BayId) (k : Fin 2)
  /-- WALK_UNIT_READ (R244): A walker unit's read performs with its translation, region and slot checks. -/
  | walkUnitRead (b : BayId) (k : Fin 2)
  /-- WALK_UNIT_LANDING (R246): A walker unit lands, adds to its gate and on the last unit completes the walk. -/
  | walkUnitLanding (b : BayId) (k : Fin 2)
  /-- SEND_BEGIN (R252): A SEND begins reading lines and presenting them to the receiver 24 cycles later. -/
  | sendBegin (b : BayId)
  /-- RECV_BEGIN (R252): A RECV begins expecting lines from its peer. -/
  | recvBegin (b : BayId)
  /-- RECV_LINE_LANDING (R252): A presented line lands in the receiver, faulting if no matching line or RECV exists. -/
  | recvLineLanding (b : BayId)
  /-- GATE_BEGIN (R257): A GATE or QPUT command begins on the gate engine in queue order. -/
  | gateBegin (b : BayId)
  /-- GATE_PERFORM (R257): A GATE command is applied at the gate's home at its tier latency and produces its peg. -/
  | gatePerform (b : BayId) (id : Nat)
  /-- QPUT_CLAIM (R262): A QPUT claim performs at the header's home, taking a slot if the queue has room. -/
  | qputClaim (b : BayId) (id : Nat)
  /-- QPUT_LANDING (R262): The QPUT result word and packet land and its peg is produced. -/
  | qputLanding (b : BayId) (id : Nat)
  /-- PEGCLR_BEGIN (R407): A PEGCLR begins and sets its named pegs not produced. -/
  | pegclrBegin (b : BayId)
  /-- COLL_BEGIN (R361): A CRED, CBCAST or COMMIT begins at COFF and its contribution is taken. -/
  | collBegin (b : BayId)
  /-- ROUTER_ARRIVAL (R318): A value reaches a router; duplicates and late values are discarded, else a node is formed and forwarded. -/
  | routerArrival (m : NodeVal)
  /-- ROUND_DECISION (R319): At its decision instant the root router decides DELIVERED, TIMEOUT or MISALIGNED and advances the round. -/
  | roundDecision (p : PartId) (slot : Fin 64)
  /-- ROUND_DELIVERY (R319): At DOFF of the delivery frame the status line and result land, pegs are produced and the gate is added to. -/
  | roundDelivery (p : PartId) (slot : Fin 64)
  /-- RESHARD_BEGIN (R276): An idle scarf context begins a RESHARD, entering checking. -/
  | reshardBegin (p : PartId)
  /-- RESHARD_CHECK_END (R271): At the end of its checking time a RESHARD is refused with a code or enters running. -/
  | reshardCheckEnd (p : PartId)
  /-- SCARF_REQUEST (R271): The scarf engine issues a transfer's read request in an allotted bulk slot. -/
  | scarfRequest (p : PartId)
  /-- SCARF_LANDING (R271): A transfer lands at its scheduled cycle and NEXT advances; the last landing completes the command. -/
  | scarfLanding (p : PartId)
  /-- TIMEOUT (R273): A transfer unanswered two frames after its landing cycle stops the engine with TIMEOUT. -/
  | timeout (p : PartId)
  /-- MERGE_PASS (R280): A combining, level or writing pass of a merge processes the staging planes segment by segment. -/
  | mergePass (p : PartId)
  /-- TIER5_REQUEST (R312): A remote tier 5 request or atomic is served at its home chip in order of arrival. -/
  | tier5Request (r : Tier5Req)
  /-- MIGRATION_COPY (R210): The yard copies a MIGRATE or REPLICATE page into local frames until a frame passes without writes. -/
  | migrationCopy (p : PartId) (x : Nat)
  /-- OFFSET_REPORT (R315): A yard receives another yard's pod offset report. -/
  | offsetReport (chip : Nat) (frame : Nat) (offset : Nat)
  /-- PAGE_BRING (R203): After a translation fault the yard brings the page and writes the entry PRESENT. -/
  | pageBring (p : PartId) (x : Nat) (page : Option (List (Nat × Byte)))
  /-- PREEMPTION_RESUME (R60): A pre-empted partition resumes at a frame start with its saved state. -/
  | preemptionResume (p : PartId)
  /-- PLAN_DISPATCH (R58): A queued plan is loaded when its bents become free. -/
  | planDispatch
  /-- ASYNC_UNIT_LANDING (R248): A unit of an asynchronous walk lands in order of arrival and adds to its gate, or fails and is logged. -/
  | asyncUnitLanding (p : PartId) (walk : Nat) (i : Nat) (data : Option (List Byte))
  /-- SOURCE_READ (R273): A source chip serves a scarf read or answers with an error flit. -/
  | sourceRead (r : ScarfRead)
  /-- SCARF_ERROR_FLIT (R273): An error flit stops the engine with REGION, RANGE or ABSENT. -/
  | scarfErrorFlit (p : PartId) (code : Nat)
  /-- LINK_FLIT (R311): A flit is received, corrected or answered with a retry request, and accepted only in sequence. -/
  | linkFlit (port : Port) (seq : BitVec 16) (intact : Bool) (dest : Nat) (m : Cargo)
  /-- REPLAY (R311): On a retry request the sender resends from its replay buffer in reserved flit times. -/
  | replay (port : Port) (next : BitVec 16)
  /-- PTP_EVENT_MESSAGE (R313): A PTP event message is timestamped in hardware. -/
  | ptpEventMessage (m : PtpMsg)
  /-- CHECKPOINT (R325): At a checkpoint frame every partition stops at a pre-emption point and the yard saves bay state. -/
  | checkpoint
  /-- CHECKPOINT_RESUME (R325): When every chip has stopped and parity is written, all chips resume at a common frame start. -/
  | checkpointResume
  /-- POD_RECOVERY (R327): After a chip is lost the yards remap it, rebuild its units from parity and reload from the checkpoint. -/
  | podRecovery (r : Recovery)
  /-- ROCE_CONNECT (R331): The yard accepts a host RoCEv2 connection and returns the mailbox address, key and number. -/
  | roceConnect
  /-- CONNECTION_CLOSE (R331): A closing connection loses its registered region. -/
  | connectionClose (conn : Nat)
  /-- RDMA_WRITE (R259): A host or peer RDMA write reaches a QUEUE region or mailbox slot, adding to the queue's gate when it fills a slot. -/
  | rdmaWrite (t : RdmaTarget) (data : List Byte)
  /-- RDMA_READ (R329): A host RDMA read of a QUEUE region or the mailbox. -/
  | rdmaRead (t : RdmaTarget) (n : Nat)
  /-- ATOMIC_FETCH_AND_ADD (R261): A host or peer 8-byte fetch-and-add claims a queue or mailbox index. -/
  | atomicFetchAndAdd (t : RdmaTarget) (v : Word)
  /-- LOAD (R333): Mailbox LOAD fetches a plan image, forms the partition, checks and locks the tables and copies the records. -/
  | load (n : Nat)
  /-- STOP (R332): Mailbox STOP resets and dissolves a partition. -/
  | stop (n : Nat)
  /-- LOGREAD (R332): Mailbox LOGREAD copies error-log records to the connection's region. -/
  | logread (n : Nat)
  /-- SLOTREAD (R321): Mailbox SLOTREAD returns a reduction slot status register. -/
  | slotread (n : Nat)
  /-- PAGEREQ (R211): Mailbox PAGEREQ requests a STIER 6 page towards the host, or answers HELD. -/
  | pagereq (n : Nat)
  /-- FWSTAGE (R339): Mailbox FWSTAGE writes and checks firmware in the inactive slot. -/
  | fwstage (n : Nat)
  /-- FWSWITCH (R339): Mailbox FWSWITCH requests activation of the staged firmware slot. -/
  | fwswitch (n : Nat)
  /-- FIRMWARE_ACTIVATION (R339): The staged firmware becomes active at the next frame start of every running partition. -/
  | firmwareActivation
  /-- QUOTE (R336): Mailbox QUOTE writes a signed attestation quote to the quote area. -/
  | quote (n : Nat)
  /-- MONREAD (R337): Mailbox MONREAD returns a monitor reading. -/
  | monread (n : Nat)
  /-- HOSTREG (R331): Mailbox HOSTREG registers the connection's host memory region. -/
  | hostreg (n : Nat)
  /-- CERT (R336): Mailbox CERT copies the identity certificate to the connection's region. -/
  | cert (n : Nat)
  /-- BADCMD (R332): A mailbox request with an unknown CMD is answered BADCMD. -/
  | badcmd (n : Nat)
  /-- RETIRE_BENT (R338): Servicing retires a bent into self-refresh. -/
  | retireBent (n : Nat)
  /-- READMIT_BENT (R338): Servicing readmits a recalibrated bent and clears its shim map. -/
  | readmitBent (n : Nat)
  /-- RELOAD_PARTITION (R338): Servicing reloads a partition by STOP followed by LOAD. -/
  | reloadPartition (n : Nat)
  /-- RETIRE_CHANNEL (R338): Servicing retires an LPDDR-6 channel of a retired bent. -/
  | retireChannel (n : Nat)
  /-- DEGRADE_LANES (R338): Servicing degrades a Rirax port from 24 to 12 lanes from the next pod-plan load. -/
  | degradeLanes (n : Nat)
  /-- RECALIBRATE_MONITORS (R338): Servicing recalibrates monitors at the next frame start. -/
  | recalibrateMonitors (n : Nat)
  /-- BOOT (R335): At reset the boot ROM obtains an address, fetches and checks the firmware image. -/
  | boot
  /-- BOOT_RETRY (R335): After a failed image the ROM retries every 10 s. -/
  | bootRetry
  /-- NOMINAL_FRAME_START (R315): At each nominal frame start of pod time at which its partitions of the pod plan are held, stalled, waiting or have not started the frame, a yard sends an offset report carrying its current offset. -/
  | nominalFrameStart
  /-- POD_WIDE_CHECKS (R317): A yard receives the descriptors, chip lists and link slot tables of another listed chip in the reserved flit times, and once every chip's tables are in it completes the pod-wide checks and answers its LOAD or refuses the image. -/
  | podWideChecks (chip : Nat) (tables : PodTables)
deriving DecidableEq, Repr

end Sys2Proof
end

