-- ==== Sys2Proof/WellFormed.lean ====
section
/-!
DEFINITION. Which instructions are well formed: guard, slot, reach of source and destination, and lane width, each
checked against the tables of R85, R93 to R104.
-/

namespace Sys2Proof

/-- Slot class of R83. -/
inductive SlotClass where
  | scalar | vector | engine | control
deriving DecidableEq, Repr

/-- R83: slots 0 to 3 are scalar, 4 and 5 vector, 6 engine, 7 control. -/
def slotClass (s : Fin 8) : SlotClass :=
  if s.val < 4 then .scalar else if s.val < 6 then .vector else if s.val = 6 then .engine else .control

/-- Slots 0 and 1 are those of cluster A (R65, R74). -/
def inA (s : Fin 8) : Bool := s.val < 2

/-- Slots 2 and 3 are those of cluster B (R65, R74). -/
def inB (s : Fin 8) : Bool := 2 ≤ s.val && s.val < 4

/-- The source reach of each slot (R95, R99, R102, R104); an immediate stands in any slot (R86). -/
def Src.reach (s : Fin 8) : Src → Bool
  | .imm _ => true
  | .g n =>
    n.val = 0 ||
      (match slotClass s with
       | .scalar => if n.val < 32 then inA s else inB s
       | .vector => true
       | .engine => false
       | .control => false)
  | .a _ => true
  | .p _ => slotClass s = .scalar || slotClass s = .control
  | .l _ => true
  | .lk => slotClass s = .scalar || slotClass s = .control
  | .lim => slotClass s ≠ .control
  | .v _ => slotClass s = .vector
  | .m _ => slotClass s = .vector
  | .res r =>
    match r with
    | .xab => inB s
    | .xba => inA s
    | .alu0R => inA s
    | .alu1R => inB s
    | .mul0R => inB s
    | .div0R => inB s
    | .lsu0R => inA s
    | .lsu0Ar => inA s
    | .lsu1R => inB s
    | .lsu1Ar => inB s
    | .mem0R => slotClass s = .scalar
    | .scarfSt => slotClass s = .scalar
    | .systemR => slotClass s = .scalar
    | .vec0S => slotClass s = .scalar || slotClass s = .vector
    | .vec1S => slotClass s = .scalar || slotClass s = .vector
    | .vredS => slotClass s = .scalar || slotClass s = .vector
    | .vec0Vr => slotClass s = .vector
    | .vec0Mr => slotClass s = .vector
    | .vec1Vr => slotClass s = .vector
    | .vec1Mr => slotClass s = .vector
    | .vfnVr => slotClass s = .vector
    | .vredVr => slotClass s = .vector
    | .vredMr => slotClass s = .vector

/-- The reach of an operand port (R96, R99). -/
def OpPort.reach (s : Fin 8) : OpPort → Bool
  | .alu0A => inA s
  | .alu0B => inA s
  | .alu1A => inB s
  | .alu1B => inB s
  | .mul0A => inB s
  | .div0A => inB s
  | .lsu0A => inA s
  | .lsu0D => inA s
  | .lsu1A => inB s
  | .lsu1D => inB s
  | .mem0A => slotClass s = .scalar
  | .mem0D => slotClass s = .scalar
  | .mxShx => slotClass s = .scalar
  | .wk0Shx => slotClass s = .scalar
  | .wk1Shx => slotClass s = .scalar
  | .vec0Va => slotClass s = .vector
  | .vec0Vb => slotClass s = .vector
  | .vec0Vm => slotClass s = .vector
  | .vec1Va => slotClass s = .vector
  | .vec1Vb => slotClass s = .vector
  | .vec1Vm => slotClass s = .vector
  | .vfnVa => slotClass s = .vector
  | .vfnVb => slotClass s = .vector
  | .vredVa => slotClass s = .vector
  | .vredVm => slotClass s = .vector

/-- The destination reach of each slot (R96, R99, R102, R104). -/
def Dst.reach (s : Fin 8) : Dst → Bool
  | .g n =>
    n.val = 0 ||
      (slotClass s = .scalar && (if n.val < 32 then inA s else inB s))
  | .a _ => slotClass s ≠ .vector
  | .p _ => slotClass s = .scalar || slotClass s = .control
  | .lk => slotClass s = .scalar || slotClass s = .control
  | .xab => inA s
  | .xba => inB s
  | .v _ => slotClass s = .vector
  | .m _ => slotClass s = .vector
  | .op o => o.reach s

/-- What an instruction is as an encoding: its unit and its number within the unit's triggers (R97, R98, R101, R102, R104). -/
inductive Form where
  | event
  | limm (v : BitVec 20)
  | pad (k : Nat)
  | move (c : Ctl) (d : Dst)
  | alu (c : Ctl) (u : Fin 2) (k : Nat)
  | mul (c : Ctl) (k : Nat)
  | div (c : Ctl) (k : Nat)
  | lsu (c : Ctl) (u : Fin 2) (k : Nat)
  | mem (c : Ctl) (k : Nat)
  | shw (c : Ctl) (k : Nat)
  | vec (c : Ctl) (u : Fin 2) (k : Nat) (w : Width) (widths : List Width)
  | vfn (c : Ctl) (k : Nat)
  | vred (c : Ctl) (k : Nat) (w : Width) (widths : List Width)
  /-- A trigger of slot 6, by its destination id (R102). -/
  | engine (c : Ctl) (id : Nat)
  /-- A trigger of slot 7, by its destination id (R104). -/
  | control (c : Ctl) (id : Nat)
deriving DecidableEq, Repr

/-- The form of each instruction (R97, R98, R101, R102, R104). -/
def Instr.form : Instr → Form
  | .move c d => .move c d
  | .limm v => .limm v
  | .padC => .pad 0
  | .padJ => .pad 1
  | .padE => .pad 2
  | .add c u => .alu c u 0
  | .sub c u => .alu c u 1
  | .adds c u => .alu c u 2
  | .subs c u => .alu c u 3
  | .and c u => .alu c u 4
  | .or c u => .alu c u 5
  | .xor c u => .alu c u 6
  | .andn c u => .alu c u 7
  | .shl c u => .alu c u 8
  | .shr c u => .alu c u 9
  | .sar c u => .alu c u 10
  | .rotl c u => .alu c u 11
  | .min c u => .alu c u 12
  | .max c u => .alu c u 13
  | .minu c u => .alu c u 14
  | .maxu c u => .alu c u 15
  | .abs c u => .alu c u 16
  | .clz c u => .alu c u 17
  | .cls c u => .alu c u 18
  | .popc c u => .alu c u 19
  | .ext c u => .alu c u 20
  | .ins c u => .alu c u 21
  | .sel c u => .alu c u 22
  | .cmpeq c u => .alu c u 23
  | .cmpne c u => .alu c u 24
  | .cmplt c u => .alu c u 25
  | .cmple c u => .alu c u 26
  | .cmpltu c u => .alu c u 27
  | .cmpleu c u => .alu c u 28
  | .pand c u => .alu c u 29
  | .por c u => .alu c u 30
  | .pxor c u => .alu c u 31
  | .pnot c u => .alu c u 32
  | .mul c => .mul c 0
  | .mulh c => .mul c 1
  | .mulhu c => .mul c 2
  | .mulq c => .mul c 3
  | .div c => .div c 0
  | .divu c => .div c 1
  | .rem c => .div c 2
  | .divq c => .div c 3
  | .sqrtq c => .div c 4
  | .adda c u => .lsu c u 0
  | .suba c u => .lsu c u 1
  | .ld c u => .lsu c u 2
  | .st c u => .lsu c u 3
  | .ldg c u => .lsu c u 4
  | .stg c u => .lsu c u 5
  | .ldc c u => .lsu c u 6
  | .stp c u => .lsu c u 7
  | .atadd c => .mem c 0
  | .atmax c => .mem c 1
  | .atmin c => .mem c 2
  | .ator c => .mem c 3
  | .fetchadd c => .mem c 4
  | .hand c => .mem c 5
  | .tlook c => .mem c 6
  | .tfill c => .mem c 7
  | .tevict c => .mem c 8
  | .mxShw c => .shw c 0
  | .wk0Shw c => .shw c 1
  | .wk1Shw c => .shw c 2
  | .vec0Add c w => .vec c 0 0 w [.w8, .w16, .w32]
  | .vec1Add c w => .vec c 1 0 w [.w8, .w16, .w32]
  | .vec0Sub c w => .vec c 0 1 w [.w8, .w16, .w32]
  | .vec1Sub c w => .vec c 1 1 w [.w8, .w16, .w32]
  | .vec0Adds c w => .vec c 0 2 w [.w8, .w16, .w32]
  | .vec1Adds c w => .vec c 1 2 w [.w8, .w16, .w32]
  | .vec0Subs c w => .vec c 0 3 w [.w8, .w16, .w32]
  | .vec1Subs c w => .vec c 1 3 w [.w8, .w16, .w32]
  | .vec0And c w => .vec c 0 4 w [.w8, .w16, .w32]
  | .vec1And c w => .vec c 1 4 w [.w8, .w16, .w32]
  | .vec0Or c w => .vec c 0 5 w [.w8, .w16, .w32]
  | .vec1Or c w => .vec c 1 5 w [.w8, .w16, .w32]
  | .vec0Xor c w => .vec c 0 6 w [.w8, .w16, .w32]
  | .vec1Xor c w => .vec c 1 6 w [.w8, .w16, .w32]
  | .vec0Andn c w => .vec c 0 7 w [.w8, .w16, .w32]
  | .vec1Andn c w => .vec c 1 7 w [.w8, .w16, .w32]
  | .vec0Shl c w => .vec c 0 8 w [.w8, .w16, .w32]
  | .vec1Shl c w => .vec c 1 8 w [.w8, .w16, .w32]
  | .vec0Shr c w => .vec c 0 9 w [.w8, .w16, .w32]
  | .vec1Shr c w => .vec c 1 9 w [.w8, .w16, .w32]
  | .vec0Sar c w => .vec c 0 10 w [.w8, .w16, .w32]
  | .vec1Sar c w => .vec c 1 10 w [.w8, .w16, .w32]
  | .vec0Min c w => .vec c 0 11 w [.w8, .w16, .w32]
  | .vec1Min c w => .vec c 1 11 w [.w8, .w16, .w32]
  | .vec0Max c w => .vec c 0 12 w [.w8, .w16, .w32]
  | .vec1Max c w => .vec c 1 12 w [.w8, .w16, .w32]
  | .vec0Abs c w => .vec c 0 13 w [.w8, .w16, .w32]
  | .vec1Abs c w => .vec c 1 13 w [.w8, .w16, .w32]
  | .vec0Sel c w => .vec c 0 14 w [.w8, .w16, .w32]
  | .vec1Sel c w => .vec c 1 14 w [.w8, .w16, .w32]
  | .vec0Cmpeq c w => .vec c 0 15 w [.w8, .w16, .w32]
  | .vec1Cmpeq c w => .vec c 1 15 w [.w8, .w16, .w32]
  | .vec0Cmpne c w => .vec c 0 16 w [.w8, .w16, .w32]
  | .vec1Cmpne c w => .vec c 1 16 w [.w8, .w16, .w32]
  | .vec0Cmplt c w => .vec c 0 17 w [.w8, .w16, .w32]
  | .vec1Cmplt c w => .vec c 1 17 w [.w8, .w16, .w32]
  | .vec0Cmple c w => .vec c 0 18 w [.w8, .w16, .w32]
  | .vec1Cmple c w => .vec c 1 18 w [.w8, .w16, .w32]
  | .vec0Cmpltu c w => .vec c 0 19 w [.w8, .w16, .w32]
  | .vec1Cmpltu c w => .vec c 1 19 w [.w8, .w16, .w32]
  | .vec0Cmpleu c w => .vec c 0 20 w [.w8, .w16, .w32]
  | .vec1Cmpleu c w => .vec c 1 20 w [.w8, .w16, .w32]
  | .vec0Pand c w => .vec c 0 21 w [.w8, .w16, .w32]
  | .vec1Pand c w => .vec c 1 21 w [.w8, .w16, .w32]
  | .vec0Por c w => .vec c 0 22 w [.w8, .w16, .w32]
  | .vec1Por c w => .vec c 1 22 w [.w8, .w16, .w32]
  | .vec0Pxor c w => .vec c 0 23 w [.w8, .w16, .w32]
  | .vec1Pxor c w => .vec c 1 23 w [.w8, .w16, .w32]
  | .vec0Pnot c w => .vec c 0 24 w [.w8, .w16, .w32]
  | .vec1Pnot c w => .vec c 1 24 w [.w8, .w16, .w32]
  | .vec0Mulw c w => .vec c 0 25 w [.w8, .w16]
  | .vec1Mulw c w => .vec c 1 25 w [.w8, .w16]
  | .vec0Mulq c w => .vec c 0 26 w [.w16, .w32]
  | .vec1Mulq c w => .vec c 1 26 w [.w16, .w32]
  | .vec0Macw c w => .vec c 0 27 w [.w8, .w16]
  | .vec1Macw c w => .vec c 1 27 w [.w8, .w16]
  | .vec0Shrs c w => .vec c 0 28 w [.w8, .w16, .w32]
  | .vec1Shrs c w => .vec c 1 28 w [.w8, .w16, .w32]
  | .vec0Narrow c w => .vec c 0 29 w [.w16, .w32]
  | .vec1Narrow c w => .vec c 1 29 w [.w16, .w32]
  | .vec0Widen c w => .vec c 0 30 w [.w8, .w16]
  | .vec1Widen c w => .vec c 1 30 w [.w8, .w16]
  | .vec0Bcast c w => .vec c 0 31 w [.w8, .w16, .w32]
  | .vec1Bcast c w => .vec c 1 31 w [.w8, .w16, .w32]
  | .vec0Swapp c w => .vec c 0 32 w [.w8, .w16, .w32]
  | .vec1Swapp c w => .vec c 1 32 w [.w8, .w16, .w32]
  | .vec0Ldv c w => .vec c 0 33 w [.w8, .w16, .w32]
  | .vec1Ldv c w => .vec c 1 33 w [.w8, .w16, .w32]
  | .vec0Stv c w => .vec c 0 34 w [.w8, .w16, .w32]
  | .vec1Stv c w => .vec c 1 34 w [.w8, .w16, .w32]
  | .vec0Mcount c w => .vec c 0 35 w [.w8, .w16, .w32]
  | .vec1Mcount c w => .vec c 1 35 w [.w8, .w16, .w32]
  | .vec0Laneget c w => .vec c 0 36 w [.w8, .w16, .w32]
  | .vec1Laneget c w => .vec c 1 36 w [.w8, .w16, .w32]
  | .vec0Laneset c w => .vec c 0 37 w [.w8, .w16, .w32]
  | .vec1Laneset c w => .vec c 1 37 w [.w8, .w16, .w32]
  | .exp2q c => .vfn c 0
  | .log2q c => .vfn c 1
  | .rcpq c => .vfn c 2
  | .rsqq c => .vfn c 3
  | .sinq c => .vfn c 4
  | .cosq c => .vfn c 5
  | .optm c => .vfn c 6
  | .optv c => .vfn c 7
  | .optw c => .vfn c 8
  | .redadd c w => .vred c 0 w [.w8, .w16, .w32]
  | .redmax c w => .vred c 1 w [.w8, .w16, .w32]
  | .redmin c w => .vred c 2 w [.w8, .w16, .w32]
  | .census c w => .vred c 3 w [.w8, .w16, .w32]
  | .perm c w => .vred c 4 w [.w8, .w16, .w32]
  | .lanerot c w => .vred c 5 w [.w8, .w16, .w32]
  | .hlook c w => .vred c 6 w [.w8, .w16, .w32]
  | .lut c w => .vred c 7 w [.w8, .w16]
  | .dec4 c w => .vred c 8 w [.w8, .w16, .w32]
  | .enc4 c w => .vred c 9 w [.w8, .w16, .w32]
  | .mxgo c => .engine c 256
  | .mxdrain c => .engine c 257
  | .mxclr c => .engine c 258
  | .wk0Walk c => .engine c 264
  | .wk0Walkm c => .engine c 265
  | .wk1Walk c => .engine c 272
  | .wk1Walkm c => .engine c 273
  | .gate c => .engine c 280
  | .qput c => .engine c 281
  | .send c => .engine c 288
  | .recv c => .engine c 289
  | .cred c => .engine c 290
  | .cbcast c => .engine c 291
  | .commit c => .engine c 292
  | .reshard c => .engine c 296
  | .rsstat c => .engine c 297
  | .jig c => .engine c 304
  | .pegclr c => .engine c 312
  | .br c => .control c 256
  | .brm c => .control c 257
  | .call c => .control c 258
  | .calli c => .control c 259
  | .ret c => .control c 260
  | .jmpi c => .control c 261
  | .loop c => .control c 272
  | .endTask c => .control c 273
  | .spawn c => .control c 288
  | .gsync c => .control c 289
  | .witness c => .control c 290
  | .trap c => .control c 291
  | .resume c => .control c 292
  | .retire c => .control c 293
  | .sysr c => .control c 294
  | .sysw c => .control c 295
  | .ttld c => .control c 296
  | .ttclr c => .control c 297
  | .wheel c => .control c 298
  | .jigStart _ => .event
  | .jigEnd _ _ => .event
  | .resultReady _ _ => .event
  | .accessPerform _ _ => .event
  | .frameStart _ => .event
  | .offsetReport _ _ _ => .event
  | .unresponsive _ => .event
  | .storyRelease _ _ _ => .event
  | .taskStart _ => .event
  | .gateCompletion _ _ => .event
  | .holdRefresh _ => .event
  | .refreshCommand _ => .event
  | .rollback _ _ => .event
  | .pageBring _ _ _ => .event
  | .retiredBayIdle _ => .event
  | .preemption _ => .event
  | .preemptionResume _ => .event
  | .planDispatch => .event
  | .mxgoBegin _ => .event
  | .mxAddition _ => .event
  | .mxgoComplete _ => .event
  | .mxdrainBegin _ => .event
  | .drainRowLanding _ => .event
  | .mxdrainComplete _ => .event
  | .mxclrBegin _ => .event
  | .walkBegin _ _ => .event
  | .walkUnitRead _ _ => .event
  | .walkUnitLanding _ _ => .event
  | .asyncUnitLanding _ _ _ _ => .event
  | .sendBegin _ => .event
  | .recvBegin _ => .event
  | .recvLineLanding _ => .event
  | .gateBegin _ => .event
  | .gatePerform _ _ => .event
  | .qputClaim _ _ => .event
  | .qputLanding _ _ => .event
  | .pegclrBegin _ => .event
  | .collBegin _ => .event
  | .routerArrival _ => .event
  | .roundDecision _ _ => .event
  | .roundDelivery _ _ => .event
  | .reshardBegin _ => .event
  | .reshardCheckEnd _ => .event
  | .scarfRequest _ => .event
  | .sourceRead _ => .event
  | .scarfLanding _ => .event
  | .scarfErrorFlit _ _ => .event
  | .timeout _ => .event
  | .mergePass _ => .event
  | .tier5Request _ => .event
  | .linkFlit _ _ _ _ _ => .event
  | .replay _ _ => .event
  | .ptpEventMessage _ => .event
  | .checkpoint => .event
  | .checkpointResume => .event
  | .podRecovery _ => .event
  | .migrationCopy _ _ => .event
  | .roceConnect => .event
  | .connectionClose _ => .event
  | .rdmaWrite _ _ => .event
  | .rdmaRead _ _ => .event
  | .atomicFetchAndAdd _ _ => .event
  | .load _ => .event
  | .stop _ => .event
  | .logread _ => .event
  | .slotread _ => .event
  | .pagereq _ => .event
  | .fwstage _ => .event
  | .fwswitch _ => .event
  | .firmwareActivation => .event
  | .quote _ => .event
  | .monread _ => .event
  | .hostreg _ => .event
  | .cert _ => .event
  | .badcmd _ => .event
  | .retireBent _ => .event
  | .readmitBent _ => .event
  | .reloadPartition _ => .event
  | .retireChannel _ => .event
  | .degradeLanes _ => .event
  | .recalibrateMonitors _ => .event
  | .boot => .event
  | .bootRetry => .event
  | .nominalFrameStart => .event
  | .podWideChecks _ _ => .event

/-- Guard 0b1000 is no guard (R85), and the source must be one the slot reaches (R93). -/
def Ctl.ok (c : Ctl) : Bool := c.guard ≠ 8 && c.src.reach c.slot

/-- Unit 0 of a pair stands in cluster A, unit 1 in cluster B (R74). -/
def unitOk (s : Fin 8) (u : Fin 2) : Bool := if u.val = 0 then inA s else inB s

/-- A form that some slot word encodes. -/
def Form.ok : Form → Bool
  | .event => true
  | .limm _ => true
  | .pad _ => true
  | .move c d => c.ok && d.reach c.slot
  | .alu c u _ => c.ok && unitOk c.slot u
  | .mul c _ => c.ok && inB c.slot
  | .div c _ => c.ok && inB c.slot
  | .lsu c u _ => c.ok && unitOk c.slot u
  | .mem c _ => c.ok && slotClass c.slot = .scalar
  | .shw c _ => c.ok && slotClass c.slot = .scalar
  | .vec c _ _ w ws => c.ok && slotClass c.slot = .vector && ws.contains w
  | .vfn c _ => c.ok && slotClass c.slot = .vector
  | .vred c _ w ws => c.ok && slotClass c.slot = .vector && ws.contains w
  | .engine c _ => c.ok && slotClass c.slot = .engine
  | .control c _ => c.ok && slotClass c.slot = .control

/-- An instruction is well formed when its form is one that a slot word encodes; every event is well formed. -/
abbrev Instr.WellFormed (i : Instr) : Prop := i.form.ok = true

/-- The slot that an instruction stands in: none for an event. -/
def Instr.slotOf (i : Instr) : Option (Fin 8) :=
  match i.form with
  | .event => none
  | .limm _ => some 7
  | .pad _ => some 7
  | .move c _ => some c.slot
  | .alu c _ _ => some c.slot
  | .mul c _ => some c.slot
  | .div c _ => some c.slot
  | .lsu c _ _ => some c.slot
  | .mem c _ => some c.slot
  | .shw c _ => some c.slot
  | .vec c _ _ _ _ => some c.slot
  | .vfn c _ => some c.slot
  | .vred c _ _ _ => some c.slot
  | .engine c _ => some c.slot
  | .control c _ => some c.slot

end Sys2Proof
end

