-- ==== Sys2Proof/Decode.lean ====
section
/-!
DEFINITION. The decoder of slot words and the encoder, from the port maps of R83 to R104. The decoder is total: a word
that is no move is answered by the name of what is wrong with it.
-/

namespace Sys2Proof

/-- Why a slot word is no instruction: the encoding checks of R85, R92 and R93. -/
inductive DecodeErr where
  /-- R85: guard 0b1000 outside slot 7. -/
  | illegalGuard
  /-- R93, R94: an id that is reserved, unassigned or out of the slot's reach; isDst tells which map. -/
  | port (isDst : Bool) (id : Nat)
  /-- R92: a move to port 262 that is no pad. -/
  | badPad
deriving DecidableEq, Repr

/-! ## Ids of sources and destinations -/

/-- The result ports that scalar slots read, from id 94 (R95). -/
def scalarResOfId (id : Nat) : Option ResPort :=
  match id with
  | 94 => some .xab
  | 95 => some .xba
  | 96 => some .alu0R
  | 97 => some .alu1R
  | 98 => some .mul0R
  | 99 => some .div0R
  | 100 => some .lsu0R
  | 101 => some .lsu0Ar
  | 102 => some .lsu1R
  | 103 => some .lsu1Ar
  | 104 => some .mem0R
  | 105 => some .vec0S
  | 106 => some .vec1S
  | 107 => some .vredS
  | 108 => some .scarfSt
  | 109 => some .systemR
  | _ => none

/-- The result ports that vector slots read, from id 192 (R99). -/
def vectorResOfId (id : Nat) : Option ResPort :=
  match id with
  | 192 => some .vec0Vr
  | 193 => some .vec0Mr
  | 194 => some .vec0S
  | 195 => some .vec1Vr
  | 196 => some .vec1Mr
  | 197 => some .vec1S
  | 198 => some .vfnVr
  | 199 => some .vredVr
  | 200 => some .vredMr
  | 201 => some .vredS
  | _ => none

/-- Ids of result ports in the scalar source map (R95); 0 where the map has none. -/
def idOfScalarRes : ResPort → Nat
  | .xab => 94
  | .xba => 95
  | .alu0R => 96
  | .alu1R => 97
  | .mul0R => 98
  | .div0R => 99
  | .lsu0R => 100
  | .lsu0Ar => 101
  | .lsu1R => 102
  | .lsu1Ar => 103
  | .mem0R => 104
  | .vec0S => 105
  | .vec1S => 106
  | .vredS => 107
  | .scarfSt => 108
  | .systemR => 109
  | .vec0Vr | .vec0Mr | .vec1Vr | .vec1Mr | .vfnVr | .vredVr | .vredMr => 0

/-- Ids of result ports in the vector source map (R99); 0 where the map has none. -/
def idOfVectorRes : ResPort → Nat
  | .vec0Vr => 192
  | .vec0Mr => 193
  | .vec0S => 194
  | .vec1Vr => 195
  | .vec1Mr => 196
  | .vec1S => 197
  | .vfnVr => 198
  | .vredVr => 199
  | .vredMr => 200
  | .vredS => 201
  | .xab | .xba | .alu0R | .alu1R | .mul0R | .div0R | .lsu0R | .lsu0Ar | .lsu1R | .lsu1Ar | .mem0R
  | .scarfSt | .systemR => 0

/-- The source that an id could name in some slot of a class; the reach of the slot is checked by Src.reach
(R95, R99, R102, R104). Registers carry one id in every class (R93). -/
def srcOfIdAny (cls : SlotClass) (id : Nat) : Option Src :=
  if id < 64 then some (.g (Fin.ofNat 64 id))
  else if id < 80 then some (.a (Fin.ofNat 16 (id - 64)))
  else if id < 81 then none
  else if id < 88 then some (.p (Fin.ofNat 7 (id - 81)))
  else if id < 92 then some (.l (Fin.ofNat 4 (id - 88)))
  else if id = 92 then some .lk
  else if id = 93 then some .lim
  else if cls = .vector then
    (if id < 128 then none
     else if id < 160 then some (.v (Fin.ofNat 32 (id - 128)))
     else if id < 168 then some (.m (Fin.ofNat 8 (id - 160)))
     else (vectorResOfId id).map Src.res)
  else (scalarResOfId id).map Src.res

/-- The source that an id names in a slot (R95, R99, R102, R104), none where unassigned or out of reach. -/
def srcOfId (s : Fin 8) (id : Nat) : Option Src :=
  (srcOfIdAny (slotClass s) id).filter (fun x => x.reach s)

/-- The operand port of an id in the scalar map (R96). -/
def scalarOpOfId (id : Nat) : Option OpPort :=
  match id with
  | 128 => some .alu0A
  | 129 => some .alu0B
  | 130 => some .alu1A
  | 131 => some .alu1B
  | 132 => some .mul0A
  | 133 => some .div0A
  | 134 => some .lsu0A
  | 135 => some .lsu0D
  | 136 => some .lsu1A
  | 137 => some .lsu1D
  | 138 => some .mem0A
  | 139 => some .mem0D
  | 140 => some .mxShx
  | 141 => some .wk0Shx
  | 142 => some .wk1Shx
  | _ => none

/-- The operand port of an id in the vector map (R99). -/
def vectorOpOfId (id : Nat) : Option OpPort :=
  match id with
  | 176 => some .vec0Va
  | 177 => some .vec0Vb
  | 178 => some .vec0Vm
  | 179 => some .vec1Va
  | 180 => some .vec1Vb
  | 181 => some .vec1Vm
  | 182 => some .vfnVa
  | 183 => some .vfnVb
  | 184 => some .vredVa
  | 185 => some .vredVm
  | _ => none

/-- The id of an operand port (R96, R99). -/
def idOfOp : OpPort → Nat
  | .alu0A => 128
  | .alu0B => 129
  | .alu1A => 130
  | .alu1B => 131
  | .mul0A => 132
  | .div0A => 133
  | .lsu0A => 134
  | .lsu0D => 135
  | .lsu1A => 136
  | .lsu1D => 137
  | .mem0A => 138
  | .mem0D => 139
  | .mxShx => 140
  | .wk0Shx => 141
  | .wk1Shx => 142
  | .vec0Va => 176
  | .vec0Vb => 177
  | .vec0Vm => 178
  | .vec1Va => 179
  | .vec1Vb => 180
  | .vec1Vm => 181
  | .vfnVa => 182
  | .vfnVb => 183
  | .vredVa => 184
  | .vredVm => 185

/-- The plain destination that an id could name in some slot of a class (R96, R99, R102, R104). -/
def dstOfIdAny (cls : SlotClass) (id : Nat) : Option Dst :=
  if id < 64 then some (.g (Fin.ofNat 64 id))
  else if id < 80 then some (.a (Fin.ofNat 16 (id - 64)))
  else if id < 81 then none
  else if id < 88 then some (.p (Fin.ofNat 7 (id - 81)))
  else if id = 92 then some .lk
  else if id = 94 then some .xab
  else if id = 95 then some .xba
  else if cls = .vector then
    (if id < 128 then none
     else if id < 160 then some (.v (Fin.ofNat 32 (id - 128)))
     else if id < 168 then some (.m (Fin.ofNat 8 (id - 160)))
     else (vectorOpOfId id).map Dst.op)
  else (scalarOpOfId id).map Dst.op

/-- The plain destination that an id names in a slot, none where unassigned or out of reach. -/
def dstOfId (s : Fin 8) (id : Nat) : Option Dst :=
  (dstOfIdAny (slotClass s) id).filter (fun x => x.reach s)

/-- The id of a source other than an immediate, in a class (R95, R99, R102, R104). -/
def idOfSrc (cls : SlotClass) : Src → Nat
  | .imm _ => 0
  | .g n => n.val
  | .a n => 64 + n.val
  | .p n => 81 + n.val
  | .l n => 88 + n.val
  | .lk => 92
  | .lim => 93
  | .v n => 128 + n.val
  | .m n => 160 + n.val
  | .res r => if cls = .vector then idOfVectorRes r else idOfScalarRes r

/-- The id of a plain destination (R96, R99, R102, R104). -/
def idOfDst : Dst → Nat
  | .g n => n.val
  | .a n => 64 + n.val
  | .p n => 81 + n.val
  | .lk => 92
  | .xab => 94
  | .xba => 95
  | .v n => 128 + n.val
  | .m n => 160 + n.val
  | .op o => idOfOp o

/-! ## Triggers -/

/-- The alu triggers by their offset (R97). -/
def aluRow (k : Nat) : Option (Ctl → Fin 2 → Instr) :=
  match k with
  | 0 => some .add
  | 1 => some .sub
  | 2 => some .adds
  | 3 => some .subs
  | 4 => some .and
  | 5 => some .or
  | 6 => some .xor
  | 7 => some .andn
  | 8 => some .shl
  | 9 => some .shr
  | 10 => some .sar
  | 11 => some .rotl
  | 12 => some .min
  | 13 => some .max
  | 14 => some .minu
  | 15 => some .maxu
  | 16 => some .abs
  | 17 => some .clz
  | 18 => some .cls
  | 19 => some .popc
  | 20 => some .ext
  | 21 => some .ins
  | 22 => some .sel
  | 23 => some .cmpeq
  | 24 => some .cmpne
  | 25 => some .cmplt
  | 26 => some .cmple
  | 27 => some .cmpltu
  | 28 => some .cmpleu
  | 29 => some .pand
  | 30 => some .por
  | 31 => some .pxor
  | 32 => some .pnot
  | _ => none

/-- The mul0 triggers from id 384 (R98). -/
def mulRow (k : Nat) : Option (Ctl → Instr) :=
  match k with
  | 0 => some .mul
  | 1 => some .mulh
  | 2 => some .mulhu
  | 3 => some .mulq
  | _ => none

/-- The div0 triggers from id 392 (R98). -/
def divRow (k : Nat) : Option (Ctl → Instr) :=
  match k with
  | 0 => some .div
  | 1 => some .divu
  | 2 => some .rem
  | 3 => some .divq
  | 4 => some .sqrtq
  | _ => none

/-- The lsu triggers from id 400, lsu1 at 16 more (R98). -/
def lsuRow (k : Nat) : Option (Ctl → Fin 2 → Instr) :=
  match k with
  | 0 => some .adda
  | 1 => some .suba
  | 2 => some .ld
  | 3 => some .st
  | 4 => some .ldg
  | 5 => some .stg
  | 6 => some .ldc
  | 7 => some .stp
  | _ => none

/-- The mem0 triggers from id 432 (R98). -/
def memRow (k : Nat) : Option (Ctl → Instr) :=
  match k with
  | 0 => some .atadd
  | 1 => some .atmax
  | 2 => some .atmin
  | 3 => some .ator
  | 4 => some .fetchadd
  | 5 => some .hand
  | 6 => some .tlook
  | 7 => some .tfill
  | 8 => some .tevict
  | _ => none

/-- The shape-write triggers from id 448 (R98). -/
def shwRow (k : Nat) : Option (Ctl → Instr) :=
  match k with
  | 0 => some .mxShw
  | 1 => some .wk0Shw
  | 2 => some .wk1Shw
  | _ => none

/-- The vec0 operations and the widths they list (R101). -/
def vec0Row (k : Nat) : Option ((Ctl → Width → Instr) × List Width) :=
  match k with
  | 0 => some (.vec0Add, [.w8, .w16, .w32])
  | 1 => some (.vec0Sub, [.w8, .w16, .w32])
  | 2 => some (.vec0Adds, [.w8, .w16, .w32])
  | 3 => some (.vec0Subs, [.w8, .w16, .w32])
  | 4 => some (.vec0And, [.w8, .w16, .w32])
  | 5 => some (.vec0Or, [.w8, .w16, .w32])
  | 6 => some (.vec0Xor, [.w8, .w16, .w32])
  | 7 => some (.vec0Andn, [.w8, .w16, .w32])
  | 8 => some (.vec0Shl, [.w8, .w16, .w32])
  | 9 => some (.vec0Shr, [.w8, .w16, .w32])
  | 10 => some (.vec0Sar, [.w8, .w16, .w32])
  | 11 => some (.vec0Min, [.w8, .w16, .w32])
  | 12 => some (.vec0Max, [.w8, .w16, .w32])
  | 13 => some (.vec0Abs, [.w8, .w16, .w32])
  | 14 => some (.vec0Sel, [.w8, .w16, .w32])
  | 15 => some (.vec0Cmpeq, [.w8, .w16, .w32])
  | 16 => some (.vec0Cmpne, [.w8, .w16, .w32])
  | 17 => some (.vec0Cmplt, [.w8, .w16, .w32])
  | 18 => some (.vec0Cmple, [.w8, .w16, .w32])
  | 19 => some (.vec0Cmpltu, [.w8, .w16, .w32])
  | 20 => some (.vec0Cmpleu, [.w8, .w16, .w32])
  | 21 => some (.vec0Pand, [.w8, .w16, .w32])
  | 22 => some (.vec0Por, [.w8, .w16, .w32])
  | 23 => some (.vec0Pxor, [.w8, .w16, .w32])
  | 24 => some (.vec0Pnot, [.w8, .w16, .w32])
  | 25 => some (.vec0Mulw, [.w8, .w16])
  | 26 => some (.vec0Mulq, [.w16, .w32])
  | 27 => some (.vec0Macw, [.w8, .w16])
  | 28 => some (.vec0Shrs, [.w8, .w16, .w32])
  | 29 => some (.vec0Narrow, [.w16, .w32])
  | 30 => some (.vec0Widen, [.w8, .w16])
  | 31 => some (.vec0Bcast, [.w8, .w16, .w32])
  | 32 => some (.vec0Swapp, [.w8, .w16, .w32])
  | 33 => some (.vec0Ldv, [.w8, .w16, .w32])
  | 34 => some (.vec0Stv, [.w8, .w16, .w32])
  | 35 => some (.vec0Mcount, [.w8, .w16, .w32])
  | 36 => some (.vec0Laneget, [.w8, .w16, .w32])
  | 37 => some (.vec0Laneset, [.w8, .w16, .w32])
  | _ => none

/-- The vec1 operations and the widths they list (R101). -/
def vec1Row (k : Nat) : Option ((Ctl → Width → Instr) × List Width) :=
  match k with
  | 0 => some (.vec1Add, [.w8, .w16, .w32])
  | 1 => some (.vec1Sub, [.w8, .w16, .w32])
  | 2 => some (.vec1Adds, [.w8, .w16, .w32])
  | 3 => some (.vec1Subs, [.w8, .w16, .w32])
  | 4 => some (.vec1And, [.w8, .w16, .w32])
  | 5 => some (.vec1Or, [.w8, .w16, .w32])
  | 6 => some (.vec1Xor, [.w8, .w16, .w32])
  | 7 => some (.vec1Andn, [.w8, .w16, .w32])
  | 8 => some (.vec1Shl, [.w8, .w16, .w32])
  | 9 => some (.vec1Shr, [.w8, .w16, .w32])
  | 10 => some (.vec1Sar, [.w8, .w16, .w32])
  | 11 => some (.vec1Min, [.w8, .w16, .w32])
  | 12 => some (.vec1Max, [.w8, .w16, .w32])
  | 13 => some (.vec1Abs, [.w8, .w16, .w32])
  | 14 => some (.vec1Sel, [.w8, .w16, .w32])
  | 15 => some (.vec1Cmpeq, [.w8, .w16, .w32])
  | 16 => some (.vec1Cmpne, [.w8, .w16, .w32])
  | 17 => some (.vec1Cmplt, [.w8, .w16, .w32])
  | 18 => some (.vec1Cmple, [.w8, .w16, .w32])
  | 19 => some (.vec1Cmpltu, [.w8, .w16, .w32])
  | 20 => some (.vec1Cmpleu, [.w8, .w16, .w32])
  | 21 => some (.vec1Pand, [.w8, .w16, .w32])
  | 22 => some (.vec1Por, [.w8, .w16, .w32])
  | 23 => some (.vec1Pxor, [.w8, .w16, .w32])
  | 24 => some (.vec1Pnot, [.w8, .w16, .w32])
  | 25 => some (.vec1Mulw, [.w8, .w16])
  | 26 => some (.vec1Mulq, [.w16, .w32])
  | 27 => some (.vec1Macw, [.w8, .w16])
  | 28 => some (.vec1Shrs, [.w8, .w16, .w32])
  | 29 => some (.vec1Narrow, [.w16, .w32])
  | 30 => some (.vec1Widen, [.w8, .w16])
  | 31 => some (.vec1Bcast, [.w8, .w16, .w32])
  | 32 => some (.vec1Swapp, [.w8, .w16, .w32])
  | 33 => some (.vec1Ldv, [.w8, .w16, .w32])
  | 34 => some (.vec1Stv, [.w8, .w16, .w32])
  | 35 => some (.vec1Mcount, [.w8, .w16, .w32])
  | 36 => some (.vec1Laneget, [.w8, .w16, .w32])
  | 37 => some (.vec1Laneset, [.w8, .w16, .w32])
  | _ => none

/-- The vfn operations from id 576 (R101). -/
def vfnRow (k : Nat) : Option (Ctl → Instr) :=
  match k with
  | 0 => some .exp2q
  | 1 => some .log2q
  | 2 => some .rcpq
  | 3 => some .rsqq
  | 4 => some .sinq
  | 5 => some .cosq
  | 6 => some .optm
  | 7 => some .optv
  | 8 => some .optw
  | _ => none

/-- The vred operations and the widths they list (R101). -/
def vredRow (k : Nat) : Option ((Ctl → Width → Instr) × List Width) :=
  match k with
  | 0 => some (.redadd, [.w8, .w16, .w32])
  | 1 => some (.redmax, [.w8, .w16, .w32])
  | 2 => some (.redmin, [.w8, .w16, .w32])
  | 3 => some (.census, [.w8, .w16, .w32])
  | 4 => some (.perm, [.w8, .w16, .w32])
  | 5 => some (.lanerot, [.w8, .w16, .w32])
  | 6 => some (.hlook, [.w8, .w16, .w32])
  | 7 => some (.lut, [.w8, .w16])
  | 8 => some (.dec4, [.w8, .w16, .w32])
  | 9 => some (.enc4, [.w8, .w16, .w32])
  | _ => none

/-- The engine triggers (R102). -/
def engineRow (k : Nat) : Option (Ctl → Instr) :=
  match k with
  | 256 => some .mxgo
  | 257 => some .mxdrain
  | 258 => some .mxclr
  | 264 => some .wk0Walk
  | 265 => some .wk0Walkm
  | 272 => some .wk1Walk
  | 273 => some .wk1Walkm
  | 280 => some .gate
  | 281 => some .qput
  | 288 => some .send
  | 289 => some .recv
  | 290 => some .cred
  | 291 => some .cbcast
  | 292 => some .commit
  | 296 => some .reshard
  | 297 => some .rsstat
  | 304 => some .jig
  | 312 => some .pegclr
  | _ => none

/-- The control triggers but branch.pad (R104). -/
def controlRow (k : Nat) : Option (Ctl → Instr) :=
  match k with
  | 256 => some .br
  | 257 => some .brm
  | 258 => some .call
  | 259 => some .calli
  | 260 => some .ret
  | 261 => some .jmpi
  | 272 => some .loop
  | 273 => some .endTask
  | 288 => some .spawn
  | 289 => some .gsync
  | 290 => some .witness
  | 291 => some .trap
  | 292 => some .resume
  | 293 => some .retire
  | 294 => some .sysr
  | 295 => some .sysw
  | 296 => some .ttld
  | 297 => some .ttclr
  | 298 => some .wheel
  | _ => none

/-- A width code (R100): 3 is never assigned. -/
def widthOfCode (k : Nat) : Option Width :=
  match k with
  | 0 => some .w8
  | 1 => some .w16
  | 2 => some .w32
  | _ => none

/-- The code of a width (R100). -/
def Width.code : Width → Nat
  | .w8 => 0
  | .w16 => 1
  | .w32 => 2

/-- A trigger of a vector unit with a width code: id base + 4k + w, unassigned where the row does not list the width
(R100). -/
def widthTrigger (row : Nat → Option ((Ctl → Width → Instr) × List Width)) (off : Nat) : Option (Ctl → Instr) :=
  match row (off / 4), widthOfCode (off % 4) with
  | some (mk, ws), some w => if ws.contains w then some (fun c => mk c w) else none
  | _, _ => none

/-- The triggers of scalar slots (R96 to R98). -/
def scalarTrigger (s : Fin 8) (id : Nat) : Option (Ctl → Instr) :=
  if id < 320 then
    (if inA s then (aluRow (id - 256)).map (fun mk c => mk c 0) else none)
  else if id < 384 then
    (if inB s then (aluRow (id - 320)).map (fun mk c => mk c 1) else none)
  else if id < 392 then (if inB s then mulRow (id - 384) else none)
  else if id < 400 then (if inB s then divRow (id - 392) else none)
  else if id < 416 then
    (if inA s then (lsuRow (id - 400)).map (fun mk c => mk c 0) else none)
  else if id < 432 then
    (if inB s then (lsuRow (id - 416)).map (fun mk c => mk c 1) else none)
  else if id < 448 then memRow (id - 432)
  else shwRow (id - 448)

/-- The triggers of vector slots (R99, R101). -/
def vectorTrigger (id : Nat) : Option (Ctl → Instr) :=
  if id < 416 then widthTrigger vec0Row (id - 256)
  else if id < 576 then widthTrigger vec1Row (id - 416)
  else if id < 608 then vfnRow (id - 576)
  else widthTrigger vredRow (id - 608)

/-- The trigger that an id of 256 or more names in a slot. -/
def triggerOfId (s : Fin 8) (id : Nat) : Option (Ctl → Instr) :=
  match slotClass s with
  | .scalar => scalarTrigger s id
  | .vector => vectorTrigger id
  | .engine => engineRow id
  | .control => controlRow id

/-! ## Slot words -/

/-- GUARD of a slot word (R84). -/
def guardOf (w : SlotWord) : BitVec 4 := w.extractLsb' 20 4

/-- IMM of a slot word (R84). -/
def immOf (w : SlotWord) : Bool := w.getLsbD 19

/-- SRC of a slot word (R84). -/
def srcOf (w : SlotWord) : BitVec 9 := w.extractLsb' 10 9

/-- DST of a slot word (R84). -/
def dstOf (w : SlotWord) : BitVec 10 := w.extractLsb' 0 10

/-- A slot word from its fields (R84). -/
def packSlot (guard : BitVec 4) (imm : Bool) (src : BitVec 9) (dst : BitVec 10) : SlotWord :=
  guard ++ (BitVec.ofBool imm ++ (src ++ dst))

/-- The source of a word (R86). -/
def decodeSrc (s : Fin 8) (w : SlotWord) : Option Src :=
  if immOf w then some (.imm (srcOf w)) else srcOfId s (srcOf w).toNat

/-- The pads of R92: GUARD 0, IMM 1, SRC 0 to 2, DST 262 in slot 7. -/
def decodePad (w : SlotWord) : Option Instr :=
  if guardOf w = 0 ∧ immOf w = true then
    match (srcOf w).toNat with
    | 0 => some .padC
    | 1 => some .padJ
    | 2 => some .padE
    | _ => none
  else none

/-- The instruction of a word whose guard and source stand, by its destination. -/
def decodeDst (c : Ctl) (id : Nat) : Except DecodeErr Instr :=
  if id < 256 then
    match dstOfId c.slot id with
    | some d => .ok (.move c d)
    | none => .error (.port true id)
  else
    match triggerOfId c.slot id with
    | some mk => .ok (mk c)
    | none => .error (.port true id)

/-- Decoding of slot s of a bundle: the checks of R85, R92 and R93 in the order in which R94 and R106 report them. -/
def decodeSlot (s : Fin 8) (w : SlotWord) : Except DecodeErr Instr :=
  if guardOf w = 8 then
    if s.val = 7 then .ok (.limm (w.extractLsb' 0 20)) else .error .illegalGuard
  else
    match decodeSrc s w with
    | none => .error (.port false (srcOf w).toNat)
    | some src =>
      if s.val = 7 ∧ (dstOf w).toNat = 262 then
        match decodePad w with
        | some i => .ok i
        | none => .error .badPad
      else decodeDst ⟨s, guardOf w, src⟩ (dstOf w).toNat

/-- A word stands in slot s of a class that accepts it: what a decoder of single words can ask. -/
def decodeIn (s : Fin 8) (w : SlotWord) : Option Instr :=
  match decodeSlot s w with
  | .ok i => some i
  | .error _ => none

/-! ## The encoder -/

/-- The destination id of a form that is a move with GUARD, IMM and SRC (R96 to R104). -/
def Form.dstId : Form → Nat
  | .event => 0
  | .limm _ => 0
  | .pad _ => 262
  | .move _ d => idOfDst d
  | .alu _ u k => 256 + 64 * u.val + k
  | .mul _ k => 384 + k
  | .div _ k => 392 + k
  | .lsu _ u k => 400 + 16 * u.val + k
  | .mem _ k => 432 + k
  | .shw _ k => 448 + k
  | .vec _ u k w _ => 256 + 160 * u.val + (4 * k + w.code)
  | .vfn _ k => 576 + k
  | .vred _ k w _ => 608 + (4 * k + w.code)
  | .engine _ id => id
  | .control _ id => id

/-- The word of a move with control part c and destination id (R84, R86). -/
def encodeMove (c : Ctl) (id : Nat) : SlotWord :=
  match c.src with
  | .imm v => packSlot c.guard true v (BitVec.ofNat 10 id)
  | src => packSlot c.guard false (BitVec.ofNat 9 (idOfSrc (slotClass c.slot) src)) (BitVec.ofNat 10 id)

/-- The slot word of a form: none for an event. -/
def encodeForm (f : Form) : Option SlotWord :=
  match f with
  | .event => none
  | .limm v => some ((8 : BitVec 4) ++ v)
  | .pad k => some (packSlot 0 true (BitVec.ofNat 9 k) 262)
  | .move c _ => some (encodeMove c f.dstId)
  | .alu c _ _ => some (encodeMove c f.dstId)
  | .mul c _ => some (encodeMove c f.dstId)
  | .div c _ => some (encodeMove c f.dstId)
  | .lsu c _ _ => some (encodeMove c f.dstId)
  | .mem c _ => some (encodeMove c f.dstId)
  | .shw c _ => some (encodeMove c f.dstId)
  | .vec c _ _ _ _ => some (encodeMove c f.dstId)
  | .vfn c _ => some (encodeMove c f.dstId)
  | .vred c _ _ _ => some (encodeMove c f.dstId)
  | .engine c _ => some (encodeMove c f.dstId)
  | .control c _ => some (encodeMove c f.dstId)

/-- The word of an instruction: the slot it stands in is Instr.slotOf; an event has no word (R83, R84). -/
def encode (i : Instr) : Option SlotWord := encodeForm i.form

/-! ## Bundles -/

/-- The 24 bits of slot i of a bundle of 192 bits (R83). -/
def slotBits (bundle : BitVec 192) (i : Fin 8) : SlotWord := bundle.extractLsb' (24 * i.val) 24

/-- A bundle that holds w in slot i and the empty slot elsewhere (R83, R88). -/
def bundleOf (i : Fin 8) (w : SlotWord) : BitVec 192 := (w.setWidth 192) <<< (24 * i.val)

/-- The 24 bytes of a bundle, lowest address first: little-endian (R83). -/
def bundleBytes (bundle : BitVec 192) : List Byte :=
  (List.range 24).map (fun k => bundle.extractLsb' (8 * k) 8)

/-- A bundle from its bytes, lowest address first (R83). -/
def bundleOfBytes (bs : List Byte) : BitVec 192 :=
  BitVec.ofNat 192 (bs.foldr (fun b acc => b.toNat + 256 * acc) 0)

/-- The slots in the order in which a single word is tried: a word of R92 or R87 is a control word; any other word
takes the lowest slot whose class accepts it. One word can mean different moves in slots of different classes (R93). -/
def tableSlot (w : SlotWord) : Option (Fin 8) :=
  if guardOf w = 8 ∨ (decodePad w ≠ none ∧ (dstOf w).toNat = 262) then some 7
  else [0, 2, 4, 6, 7].find? (fun s => (decodeIn s w).isSome)

/-- The instruction that the decoder reads from a slot word given as a number, bit 0 first. A row of the opcode table
is one slot word of 24 bits; the other slots of the bundle are empty. -/
def decodeTableWord (nbits w : Nat) : Option Instr :=
  if nbits ≤ 24 ∧ w < 2 ^ 24 then
    match tableSlot (BitVec.ofNat 24 w) with
    | some s => decodeIn s (BitVec.ofNat 24 w)
    | none => none
  else none

end Sys2Proof
end

