-- ==== Sys2Proof/Config.lean ====
section
/-!
DEFINITION. What an implementation fixes and what the manual leaves open: the ordering code, fuses, and functions of
named standards that the manual cites without giving them.
-/

namespace Sys2Proof.Config

/-- A value that the manual leaves open, by a running number; nothing is known of it. -/
opaque freeValue : Nat → BitVec 64

/-- INFO of a range fault that has neither a VA nor a local offset, by trigger port id (R285). -/
opaque openInfo : Nat → BitVec 32

/-- GiB of LPDDR-6 fitted to each of the 96 channels (R1, R2). -/
opaque fittedGiB : Nat → Nat

/-- Whether the memory fitted passes the boot test of R198. -/
opaque memoryTest : Bool

/-- The memory fitted is one of the populations of R1: one capacity on all 96 channels, 4 or 8 GiB (R2, R198). -/
def populationOk : Bool :=
  (List.range 96).all (fun c => decide (fittedGiB c = fittedGiB 0)) && (decide (fittedGiB 0 = 4) || decide (fittedGiB 0 = 8))

/-- The yard may load plans: the memory passes its test and is of one of the two populations (R2, R198). -/
def memoryOk : Bool := memoryTest && populationOk

/-- Capacity of one LPDDR-6 channel in GiB: 8 on a device of 768 GiB, 4 on one of 384 GiB (R1, R198). -/
def channelGiB : Nat := if fittedGiB 0 = 8 then 8 else 4

/-- SHA-384 (R335, R336). -/
opaque sha384 : List Byte → BitVec 384

/-- Whether a firmware image carries a valid ECDSA signature by the key whose hash the fuses hold (R335). -/
opaque firmwareOk : List Byte → Bool

/-- The version that a firmware image carries (R335). -/
opaque firmwareVersion : List Byte → Nat

/-- The fused anti-rollback counter (R335, R336). -/
opaque antiRollback : BitVec 32

/-- The identity public key, x then y, and the signature under its private half (R336). -/
opaque identityKey : List Byte

/-- ECDSA signature with the identity key: r then s, 96 bytes (R336). -/
opaque sign : List Byte → List Byte

/-- The device's X.509 certificate, at most 2,048 bytes (R336). -/
opaque certificate : List Byte

/-- Servicing operation codes of SERVICE ARG0, which the manual does not give (R332, R338). -/
opaque serviceCode : Nat → Nat

/-- Monitor ids of MONREAD ARG0 above those of bays, which the manual does not give: 0 to 207 the temperature of a physical bay, 208 to 215 the droop
and 216 to 223 the process reading of a bent, others none (R332, R337). -/
opaque monitorOf : Nat → Nat

/-- The mailbox's base address (R331). -/
opaque mailboxBase : Word

/-- The mailbox's remote key (R331). -/
opaque mailboxKey : BitVec 32

end Sys2Proof.Config
end

