-- ==== Sys2Proof/Machine/Num.lean ====
section
/-!
DEFINITION. Integer helpers of the manual: clamps and extensions (R11), redundant sign bits and census (R139), kerf bits
(R147), rounding shifts (R149), and bytes to words and back (R6).
-/

namespace Sys2Proof.Machine

/-! ## Clamps and fields (R11) -/

/-- sat of R11: symmetric clamp to a signed container of w bits. -/
def sat (x : Int) (w : Nat) : Int :=
  let m : Int := 2 ^ (w - 1) - 1
  if x > m then m else if x < -m then -m else x

/-- Whether sat changes a value (R146). -/
def clamps (x : Int) (w : Nat) : Bool := sat x w ≠ x

/-- zext of R11: the low w bits as an unsigned value. -/
def zext (x : Int) (w : Nat) : Int := x % 2 ^ w

/-- sext of R11: the low w bits as a signed value. -/
def sext (x : Int) (w : Nat) : Int :=
  let y := x % 2 ^ w
  if y ≥ 2 ^ (w - 1) then y - 2 ^ w else y

/-- Arithmetic shift right of R10: division by a power of two towards minus infinity. -/
def asr (x : Int) (s : Nat) : Int := x / 2 ^ s

/-- Bits lo to lo + n - 1 of a Nat read as bits (R6). -/
def nbits (x lo n : Nat) : Nat := x / 2 ^ lo % 2 ^ n

/-- Bits lo to lo + n - 1 of a bit vector, as a number (R6). -/
def bits {w : Nat} (x : BitVec w) (lo n : Nat) : Nat := (x.extractLsb' lo n).toNat

/-- Bit i of a bit vector (R6). -/
def bitAt {w : Nat} (x : BitVec w) (i : Nat) : Bool := x.getLsbD i

/-- The signed value of bits lo to lo + n - 1. -/
def sbits {w : Nat} (x : BitVec w) (lo n : Nat) : Int := (x.extractLsb' lo n).toInt

/-- x with bits lo to lo + n - 1 replaced by the low n bits of v. -/
def setBits {w : Nat} (x : BitVec w) (lo n : Nat) (v : Nat) : BitVec w :=
  let mask : BitVec w := (BitVec.ofNat w (2 ^ n - 1)) <<< lo
  (x &&& ~~~ mask) ||| (BitVec.ofNat w (v % 2 ^ n) <<< lo)

/-! ## Redundant sign bits and census (R139) -/

/-- Bits of a natural number. -/
def natBits (n : Nat) : Nat := if n = 0 then 0 else Nat.log2 n + 1

/-- bitlen of R139: the smallest b with -(2^b) ≤ x < 2^b. -/
def bitlen (x : Int) : Nat :=
  match x with
  | .ofNat n => natBits n
  | .negSucc n => natBits n

/-- rsb of R139. -/
def rsb (x : Int) (w : Nat) : Int := (w : Int) - 1 - bitlen x

/-- census of R139 over a non-empty list; none for no elements, whose census is undefined and unused. -/
def census (ys : List Int) (w : Nat) : Option Int :=
  match ys with
  | [] => none
  | y :: rest => some (rest.foldl (fun acc v => min acc (rsb v w)) (rsb y w))

/-! ## Kerf bits (R147) -/

/-- kerf of R147. -/
def kerf (seed : Word) (stream : Nat) (level : Nat) (position : Nat) : Word :=
  let key : Word := seed ^^^ (BitVec.ofNat 64 (stream % 2 ^ 16) <<< 48)
    ^^^ (BitVec.ofNat 64 (level % 2 ^ 6) <<< 42) ^^^ BitVec.ofNat 64 (position % 2 ^ 42)
  let z0 := key + 0x9E3779B97F4A7C15
  let z1 := (z0 ^^^ (z0 >>> 30)) * 0xBF58476D1CE4E5B9
  let z2 := (z1 ^^^ (z1 >>> 27)) * 0x94D049BB133111EB
  z2 ^^^ (z2 >>> 31)

/-! ## Rounding (R149) -/

/-- The unclamped value of sshr (R149). -/
def sshrRaw (x : Int) (s : Int) (r : Word) : Int :=
  if s ≤ 0 then x * 2 ^ s.natAbs
  else asr (x + (r.toNat % 2 ^ s.natAbs : Nat)) s.natAbs

/-- sshr of R149: the result and whether it was clamped. -/
def sshr (x : Int) (s : Int) (w : Nat) (r : Word) : Int × Bool :=
  let y := sshrRaw x s r
  (sat y w, clamps y w)

/-- rnd of R149: round to nearest, ties towards plus infinity. -/
def rnd (x : Int) (s : Nat) : Int :=
  if s = 0 then x else asr (x + 2 ^ (s - 1)) s

/-! ## Bytes (R6: little-endian) -/

/-- The number held by bytes, lowest address first. -/
def leNat (bs : List Byte) : Nat := bs.foldr (fun b acc => b.toNat + 256 * acc) 0

/-- The n bytes of a number, lowest address first. -/
def leBytes (n : Nat) (x : Nat) : List Byte :=
  (List.range n).map (fun k => BitVec.ofNat 8 (x / 256 ^ k))

/-- A word from a signed value, modulo its width. -/
def word (x : Int) : Word := BitVec.ofInt 64 x

/-! ## Lanes of a vector register (R67, R100) -/

/-- Lanes of a given width in a vector register. -/
def laneCount (wd : Nat) : Nat := 2048 / wd

/-- Lane i of width wd bits, as bits. -/
def lane (v : VReg) (wd i : Nat) : BitVec wd := v.extractLsb' (wd * i) wd

/-- The signed value of a lane. -/
def laneS (v : VReg) (wd i : Nat) : Int := (lane v wd i).toInt

/-- The unsigned value of a lane. -/
def laneU (v : VReg) (wd i : Nat) : Nat := (lane v wd i).toNat

/-- A number whose wd-bit digit i is the low wd bits of f i, for the i below n, built by halves. -/
def packNat (wd : Nat) (f : Nat → Int) : Nat → Nat
  | 0 => 0
  | n + 1 => packNat wd f n + (f n % 2 ^ wd).toNat * 2 ^ (wd * n)

/-- A vector register from its lanes, each taken modulo its width. -/
def vecOf (wd : Nat) (f : Nat → Int) : VReg := BitVec.ofNat 2048 (packNat wd f (laneCount wd))

/-- The mask with every bit of lane i equal to f i: w/8 bits for each lane (R67). -/
def maskOf (wd : Nat) (f : Nat → Bool) : MaskReg :=
  BitVec.ofNat 256 (packNat (wd / 8) (fun i => if f i then -1 else 0) (laneCount wd))

/-- The mask bit of lane i: that of its lowest byte (R67). -/
def laneMask (m : MaskReg) (wd i : Nat) : Bool := m.getLsbD (wd / 8 * i)

/-- Count of set bits of a bit vector. -/
def popcount {w : Nat} (x : BitVec w) : Nat := (List.range w).countP (fun i => x.getLsbD i)

/-! ## Associations, canonical: keys strictly rising, no entry equal to the default -/

/-- The value at a key, d where none is listed. -/
def assocGet {β : Type} (d : β) (l : List (Nat × β)) (k : Nat) : β :=
  match l with
  | [] => d
  | (a, v) :: rest => if a = k then v else assocGet d rest k

/-- A list with the value at a key replaced: the entry leaves when the value is d. -/
def assocSet {β : Type} [DecidableEq β] (d : β) (l : List (Nat × β)) (k : Nat) (x : β) : List (Nat × β) :=
  match l with
  | [] => if x = d then [] else [(k, x)]
  | (a, v) :: rest =>
    if a < k then (a, v) :: assocSet d rest k x
    else if a = k then (if x = d then rest else (k, x) :: rest)
    else (if x = d then (a, v) :: rest else (k, x) :: (a, v) :: rest)

/-- The canonical form of an association: keys strictly rising and no entry equal to d. -/
def assocWf {β : Type} [DecidableEq β] (d : β) : List (Nat × β) → Bool
  | [] => true
  | [(_, v)] => v ≠ d
  | (a, v) :: (b, u) :: rest => decide (a < b) && decide (v ≠ d) && assocWf d ((b, u) :: rest)

/-! ## Order -/

/-- An element put before the first that has no lesser key. -/
def insertOn {α : Type} (f : α → Nat) (x : α) : List α → List α
  | [] => [x]
  | y :: ys => if f x ≤ f y then x :: y :: ys else y :: insertOn f x ys

/-- A list in ascending order of a key, equal keys in their former order. -/
def sortOn {α : Type} (f : α → Nat) (l : List α) : List α := l.foldr (insertOn f) []

end Sys2Proof.Machine
end

