-- ==== Sys2Proof/Machine/Tree.lean ====
section
/-!
DEFINITION. The architectural reduction tree: node modes, node and reduce (R155, R156), and the canonical cover (R165).
-/

namespace Sys2Proof.Machine

/-- Node modes (R155). -/
inductive Mode where
  | exact | sat | shift | max | min | or
deriving DecidableEq, Repr

/-- The mode of a code (R155); 6 to 15 are reserved. -/
def modeOf (k : Nat) : Option Mode :=
  match k with
  | 0 => some .exact
  | 1 => some .sat
  | 2 => some .shift
  | 3 => some .max
  | 4 => some .min
  | 5 => some .or
  | _ => none

/-- A leaf or node value: elements and exponent (R155). -/
structure TVal where
  elems : List Int
  exp : Int
deriving DecidableEq, Repr

/-- Elementwise bitwise OR of two's-complement values in a container of 96 bits. -/
def orInt (a b : Int) : Int := (BitVec.ofInt 96 a ||| BitVec.ofInt 96 b).toInt

/-- What a node function needs beside its children: mode, container width, kerf stream and seed (R156). -/
structure NodeCtx where
  mode : Mode
  w : Nat
  stream : Nat
  seed : Word
deriving DecidableEq, Repr

/-- The kerf value of element i of node (lev, j) of m elements (R157). -/
def nodeKerf (c : NodeCtx) (lev j m i : Nat) : Word :=
  kerf c.seed c.stream lev (j * 2 ^ bitlen ((m : Int) - 1) + i)

/-- One element of a node before any overflow shift, and whether it clamped (R156). -/
def nodeElem (c : NodeCtx) (kv : Word) (ea eb : Int) (a b : Int) : Int × Bool :=
  match c.mode with
  | .exact => (a + b, false)
  | .sat => (Machine.sat (a + b) c.w, clamps (a + b) c.w)
  | .max => (if a ≥ b then a else b, false)
  | .min => (if a ≤ b then a else b, false)
  | .or => (orInt a b, false)
  | .shift =>
    if ea ≥ eb then
      let r := sshr b (ea - eb) c.w kv
      (a + r.1, r.2)
    else
      let r := sshr a (eb - ea) c.w kv
      (r.1 + b, r.2)

/-- The elements of a node with both children present, with the clamp flag of each (R156). -/
def nodeElems (c : NodeCtx) (lev j m : Nat) (ea eb : Int) : Nat → List Int → List Int → List (Int × Bool)
  | i, a :: as', b :: bs => nodeElem c (nodeKerf c lev j m i) ea eb a b :: nodeElems c lev j m ea eb (i + 1) as' bs
  | _, _, _ => []

/-- node of R156 on two present children: the value and whether anything clamped. -/
def node2 (c : NodeCtx) (lev j : Nat) (l r : TVal) : TVal × Bool :=
  let m := l.elems.length
  let ys := nodeElems c lev j m l.exp r.exp 0 l.elems r.elems
  let sats := ys.any (fun p => p.2)
  let s := ys.map (fun p => p.1)
  if c.mode ≠ .shift then (⟨s, l.exp⟩, sats)
  else
    let e := if l.exp ≥ r.exp then l.exp else r.exp
    if s.all (fun x => !clamps x c.w) then (⟨s, e⟩, sats)
    else if e = 127 then (⟨s.map (fun x => Machine.sat x c.w), 127⟩, true)
    else
      let ts := s.zipIdx.map (fun (x, i) =>
        sshr x 1 c.w (BitVec.ofNat 64 ((nodeKerf c lev j m i).toNat / 2 ^ 63)))
      (⟨ts.map (fun p => p.1), e + 1⟩, sats || ts.any (fun p => p.2))

/-- node of R156; an absent child leaves the other unchanged (R154). -/
def node (c : NodeCtx) (lev j : Nat) (l r : Option TVal) : Option TVal × Bool :=
  match l, r with
  | none, x => (x, false)
  | some x, none => (some x, false)
  | some x, some y =>
    let z := node2 c lev j x y
    (some z.1, z.2)

/-- One level of the tree: nodes (lev, j), (lev, j + 1), ... from the level below. -/
def treeLevel (c : NodeCtx) (lev : Nat) : Nat → List (Option TVal) → List (Option TVal × Bool)
  | j, l :: r :: rest => node c lev j l r :: treeLevel c lev (j + 1) rest
  | j, [l] => [node c lev j l none]
  | _, [] => []

/-- top levels of the tree, from level base + 1 upwards. -/
def treeLevels (c : NodeCtx) : (top lev : Nat) → List (Option TVal) → List (Option TVal) × Bool
  | 0, _, vs => (vs, false)
  | k + 1, lev, vs =>
    let ys := treeLevel c lev 0 vs
    let rest := treeLevels c k (lev + 1) (ys.map (fun p => p.1))
    (rest.1, ys.any (fun p => p.2) || rest.2)

/-- The root clamp of EXACT mode (R156). -/
def rootClamp (c : NodeCtx) (v : TVal) : TVal × Bool :=
  if c.mode = .exact then
    (⟨v.elems.map (fun x => Machine.sat x c.w), v.exp⟩, v.elems.any (fun x => clamps x c.w))
  else (v, false)

/-- reduce of R156 over leaves of which some may be absent: result and acc.SAT. No leaves give 0 (R154). -/
def reduce (c : NodeCtx) (base : Nat) (leaves : List (Option TVal)) : TVal × Bool :=
  let top := bitlen ((leaves.length : Int) - 1)
  let t := treeLevels c top (base + 1) leaves
  match t.1 with
  | some v :: _ =>
    let r := rootClamp c v
    (r.1, t.2 || r.2)
  | _ => (⟨[0], 0⟩, false)

/-- The largest k with a mod 2^k = 0 and a + 2^k ≤ b, for a < b (R165). -/
def coverK (a b : Nat) : Nat → Nat
  | 0 => 0
  | k + 1 => if a % 2 ^ (k + 1) = 0 ∧ a + 2 ^ (k + 1) ≤ b then k + 1 else coverK a b k

/-- cover of R165 by fuel: the maximal aligned subtrees (level, j) of [a, b). -/
def coverFuel : Nat → Nat → Nat → List (Nat × Nat)
  | 0, _, _ => []
  | f + 1, a, b =>
    if a < b then
      let k := coverK a b 42
      (k, a / 2 ^ k) :: coverFuel f (a + 2 ^ k) b
    else []

/-- cover of R165: a range that ends at n is extended to the whole tree. -/
def cover (a b n : Nat) : List (Nat × Nat) :=
  let b' := if b = n then 2 ^ bitlen ((n : Int) - 1) else b
  coverFuel 128 a b'

end Sys2Proof.Machine
end

