-- ==== Sys2Proof/Machine/State.lean ====
section
/-!
DEFINITION. The state of one LZ8 chip: its bays, partitions, memories, fabric interface and yard, with the reset state
and the reasons a step can stop. Reset values that the manual does not give are named in notes/assumptions/.
-/

namespace Sys2Proof.Machine

/-- Why the machine stops: never. Every cause of R285 is handled by the chip, and a program with a data race is stuck alone
(`PartMode.raced`), the other partitions going on (R5, R221). -/
inductive Fault where
deriving DecidableEq, Repr

/-- Why an instruction has no meaning. -/
inductive Refusal where
  /-- Raised by exec alone, for an instruction without a meaning yet. Safe. -/
  | notModelled (mnemonic : String)
deriving DecidableEq, Repr

/-- A byte store: addresses strictly rising, no byte equal to what an unlisted address reads as, which is 0 (log 3). -/
abbrev Mem := List Host.Cell

/-! ## Faults and values of a bay -/

/-- A value on a slot's bus: at most 2048 bits, and whether it is a 72-bit value under the width rule of R65. -/
structure Val where
  bits : VReg
  wide : Bool
deriving DecidableEq, Repr

/-- The INFO of a fault (R285): the whole of a VA or offset, of which the registers and records keep bits [31:0]. -/
abbrev Info := BitVec 72

/-- A fault with its INFO (R285), the slots involved and whether a jig slot is among them (R72, R106). -/
structure BFault where
  cause : Cause
  info : Info
  slots : BitVec 8
  jig : Bool
deriving DecidableEq, Repr

/-- A fault met in a cycle and handled by rollback at its end (R284, R291): of a bundle when code is some address. -/
structure Pending where
  fault : BFault
  code : Option Nat
  /-- The event that met the fault and is made again once a page has been brought (R203, R293): none for another fault. -/
  retry : Option Instr
  /-- A translation fault that the reruns of a hardware fault met: that fault, with the reruns still to come (R293). -/
  hw : Option HwFault
deriving DecidableEq, Repr

/-! ## Registers, ports and results of a bay -/

/-- The registers of R65 that a task start clears; lim carries the run flag of R68 and R87. -/
structure Regs where
  g : Vector Word 64
  a : Vector Addr 16
  p : Vector Bool 7
  v : Vector VReg 32
  m : Vector MaskReg 8
  l : Vector (BitVec 32) 4
  lk : Word
  lim : BitVec 72
  /-- The previous bundle of the task was a long-immediate bundle (R68, R87). -/
  limRun : Bool
deriving DecidableEq, Repr

/-- Registers cleared (R39). -/
def Regs.clear : Regs :=
  ⟨.replicate 64 0, .replicate 16 0, .replicate 7 false, .replicate 32 0, .replicate 8 0, .replicate 4 0, 0, 0, false⟩

/-- A result in flight (R63). trig is on the bay's own clock; due is on the bay's clock, or on pole time for an operation
that leaves the bay (R468). The value is known at the trigger or at the perform cycle. -/
structure Result where
  port : ResPort
  trig : Nat
  due : Nat
  remote : Bool
  value : Option VReg
deriving DecidableEq, Repr

/-- What an access does at its perform cycle (R213). -/
inductive AccKind where
  | ld | st | ldv | stv | hlook | ldg | stg | ldc | stp
  | atomic (op : AtomicOp)
  | fetchAdd
  | hand
  /-- The parameter read of OPTM, OPTV or OPTW (R401), with the operand vb, stepc and KSEED of the trigger. -/
  | opt (k : Fin 3) (vb : VReg) (stepc seed : Word)
deriving DecidableEq, Repr

/-- Where an access to shared memory lies: a store of the chip, or a tier 5 page of another chip (R186, R201). -/
inductive Place where
  /-- Offset in a ring segment (R18). -/
  | ring (bent : Fin 8) (off : Nat)
  /-- Physical address in a bent's LPDDR-6 (R192). -/
  | lpddr (bent : Fin 8) (pa : Nat)
  /-- Physical address in a bent of another logical chip (R201). -/
  | chip (c : Nat) (bent : Nat) (pa : Nat)
deriving DecidableEq, Repr

/-- An access in flight (R213, R253). -/
structure Access where
  id : Nat
  kind : AccKind
  /-- The local offset, or the VA. -/
  addr : Addr
  size : Nat
  /-- Sign extension of a load (R380). -/
  signed : Bool
  data : VReg
  /-- The mask of an STV (R431). -/
  mask : MaskReg
  /-- A tier 5 access: its response has reached the bay, its data in data; and its request has been repeated (R312). -/
  answered : Bool
  repeated : Bool
  /-- Translation entry and place of a VA access. -/
  entry : Nat
  place : Option Place
  port : Option ResPort
  /-- Perform cycle: the bay's clock for a local access, pole time for a VA access. -/
  due : Nat
  /-- Witness window in which it was triggered (R214, R287). -/
  win : Nat
  /-- Pole time of the trigger. -/
  trigT : Nat
deriving DecidableEq, Repr

/-! ## Gated writes, stores and handles -/

/-- What a gated write does when it becomes visible (R214, R228, R229, R230). -/
inductive GEffect where
  | bytes (place : Place) (data : List Byte)
  | atomic (op : AtomicOp) (place : Place) (v : BitVec 96)
  /-- LDC sets its line empty (R229). -/
  | lineEmpty (line : Nat)
  /-- STP writes its data and sets its line full (R229). -/
  | lineFull (line : Nat) (place : Place) (data : List Byte)
  /-- HAND changes the mode word of region r (R228). -/
  | hand (r : Nat) (mode : Word)
deriving DecidableEq, Repr

/-- A gated write that has been triggered and is not yet visible (R214, R289). -/
structure GWrite where
  id : Nat
  va : Addr
  size : Nat
  entry : Nat
  /-- Pole time of its perform cycle once it has performed. -/
  performed : Option Nat
  win : Nat
  eff : GEffect
  /-- What the party was ordered after when the write performed (R217), for the race check. -/
  seen : List (Nat × Nat)
  /-- A walker landing that a gate counts: the number by which the gate orders its bytes (R236); 0 for another write. -/
  tag : Nat
  /-- The packet write of a QPUT (R262). -/
  packet : Bool
deriving DecidableEq, Repr

/-- Stores of a bay whose lines the undo log covers (R289). -/
inductive BayStore where
  | scratch | opA | opB
deriving DecidableEq, Repr

/-- An entry of the undo log: the bytes of a line before its first write in the window (R289). -/
structure Undo where
  store : BayStore
  line : Nat
  former : List Byte
deriving DecidableEq, Repr

/-- An accumulator handle (R163, R180). -/
structure Handle where
  /-- Exact sums: row m, column n; missing elements are 0. -/
  elems : List (List Int)
  /-- RANGE [lo, hi), none when empty. -/
  range : Option (Nat × Nat)
  /-- A and B format codes. -/
  pair : Option (Nat × Nat)
  eab : Int
  /-- Block exponents of row and column groups, none before the first K chunk. -/
  ba : Vector (Option Int) 4
  bb : Vector (Option Int) 4
deriving DecidableEq, Repr

/-- An empty handle. -/
def Handle.empty : Handle := ⟨[], none, none, 0, .replicate 4 none, .replicate 4 none⟩

/-! ## Tasks, loops and jigs -/

/-- The task that a bay runs (R33, R39). -/
structure Task where
  id : BitVec 16
  index : Nat
  gang : Nat
  jmask : BitVec 8
  spawned : Bool
deriving DecidableEq, Repr

/-- A slip record (R45). -/
structure Slip where
  frame : Nat
  cycle : Nat
  bay : Nat
  task : BitVec 16
  kind : Nat
  spawned : Bool
  cycles : Nat
  ptp : Nat
deriving DecidableEq, Repr

/-- A stop of the pole clock or a late start that a slip record will tell of (R40, R45, R291): what began, when. -/
structure Stop where
  slip : Slip
  clock : Nat
deriving DecidableEq, Repr

/-- An entry of the run queue (R38). -/
structure Release where
  frame : Nat
  offset : Nat
  kind : ReleaseKind
  /-- Spawn order or entry index (R38). -/
  order : Nat
  index : Nat
  /-- Argument words of a spawned task (R39, R263). -/
  args : List Word
  /-- The tick met a retired bay still finishing its commands (R40, R45): what its slip record will tell. -/
  late : Option Stop
  /-- What the gate of a gated entry orders before the task (R236). -/
  cover : List (Nat × Nat)
deriving DecidableEq, Repr

/-- An entry of the spawn queue (R47 to R49). -/
structure Spawn where
  /-- Spawn instant: plan frame and pole cycle, then the spawning bay, 192 for the wheel and reader (R48, R263). -/
  frame : Nat
  cycle : Nat
  by' : Nat
  index : Nat
  args : List Word
deriving DecidableEq, Repr

/-- A loop level (R77). -/
structure LoopLevel where
  start : Nat
  stop : Nat
  count : Nat
  updates : List (Fin 16 × Int)
deriving DecidableEq, Repr

/-- A running jig (R80 to R82). -/
structure JigRun where
  /-- The cycle, on the bay's clock, from which its bundles merge (R80). -/
  start : Nat
  first : Nat
  len : Nat
  mask : BitVec 8
  /-- Repetitions still to run, the one in course included. -/
  reps : Nat
  /-- Index of the next jig bundle. -/
  next : Nat
  ppeg : Nat
  suspended : Bool
  /-- The last bundle of the last repetition has committed; the jig ends in this cycle (R376). -/
  done : Bool
deriving DecidableEq, Repr

/-! ## Engine commands -/

/-- A queued engine command with all it captured at issue (R76, R103). -/
structure Cmd where
  id : Nat
  /-- Destination id of its trigger (R102). -/
  op : Nat
  word : BitVec 72
  /-- Issue cycle, on the bay's clock. -/
  issued : Nat
  sh : Vector Shape 4
  /-- a-registers read at issue: at most two, by the command's own use. -/
  a0 : Addr
  a1 : Addr
  /-- Format entries read at issue, A, B and output: the 32-bit entries (R70). -/
  fa : BitVec 32
  fb : BitVec 32
  fo : BitVec 32
  /-- EAB read at trigger (R180). -/
  eab : Int
  /-- U of a walk in bytes (R241). -/
  unit : Nat
  win : Nat
  /-- What the bay was ordered after at issue (R218). -/
  seen : List (Nat × Nat)
deriving DecidableEq, Repr

/-- CPEG0 to CPEG2 of a command word that name pegs, each once (R103, R232). -/
def Cmd.consumes (c : Cmd) : List Nat :=
  (([bits c.word 6 6, bits c.word 12 6, bits c.word 18 6].filter (fun n => n < 63))).eraseDups

/-- PPEG of a command word: 63 is none (R103). -/
def Cmd.ppeg (c : Cmd) : Nat := bits c.word 0 6

/-- Items of an operand captured in a step: (item index, bytes) (R177). -/
abbrev Items := List (Nat × List Byte)

/-- An MXGO that has begun and still reads (R176, R179), with what the step in course has captured: operand items, metadata
lines of a sparse B (by rank), scale bytes of the A and B blocks, and the scale lines that they lie in (R136). -/
structure NestRun where
  cmd : Cmd
  begun : Nat
  a : Items
  b : Items
  meta' : Items
  sa : List Byte
  sb : List Byte
  la : List Int
  lb : List Int
  /-- The step adds nothing: a tag or a metadata line of it is wrong (R136, R183). -/
  void : Bool
deriving DecidableEq, Repr

/-- The products of what a step read in one cycle: they are added to its handle in cycle due (R176, R179). -/
structure MxStep where
  due : Nat
  /-- The number of its MXGO. -/
  cmd : Nat
  handle : Nat
  /-- K index of the step's first element. -/
  k0 : Nat
  /-- START and length of the K descriptor, and EAB (R163, R180). -/
  start : Nat
  len : Nat
  eab : Int
  /-- Format codes of A and B. -/
  fa : Nat
  fb : Nat
  /-- Scale bytes of the A and B blocks. -/
  sa : List Byte
  sb : List Byte
  /-- The step's first reads, which carry its block exponents. -/
  first : Bool
  /-- INFO of a tag or metadata fault that these reads met (R136, R183). -/
  fault : Option Info
  void : Bool
  /-- A column of A and a row of B for each K index whose two elements are now read. -/
  rows : List (List Int × List Int)
deriving DecidableEq, Repr

/-- A drain that has begun (R179, R181): what it will write, computed from the handle at its begin cycle, which no addition
changes while it reads. -/
structure DrainRun where
  cmd : Cmd
  begun : Nat
  handle : Nat
  release : Bool
  reg : Nat
  /-- The scale register after the drain. -/
  regAfter : BitVec 32
  store : BayStore
  /-- Row r and its byte runs (R181). -/
  rows : List (Nat × List (Nat × List Byte))
  /-- Scale bytes and tags of a Q4 drain, written in the completion cycle (R182). -/
  tail : List (Nat × List Byte)
deriving DecidableEq, Repr

/-- An MXGO whose reads are over and whose additions are not (R179). -/
structure NestTail where
  cmd : Cmd
  completes : Nat
deriving DecidableEq, Repr

/-- A walker unit between its read trigger and its landing (R244): its bookkeeping number, whether a tier 5 answer has come and
whether its request has been repeated (R312), and the bytes it has read. -/
structure WalkUnit where
  i : Nat
  id : Nat
  answered : Bool
  repeated : Bool
  readDue : Nat
  landDue : Option Nat
  data : List Byte
  /-- The window the unit counts in (R287). -/
  win : Nat
deriving DecidableEq, Repr

/-- A unit of a walker that starts an access in this cycle (R470): walker, command and unit by their numbers, and the end. -/
structure UnitStart where
  walker : Fin 2
  cmd : Nat
  unit : Nat
  dst : Bool
deriving DecidableEq, Repr

/-- A walk that has begun (R244). -/
structure WalkRun where
  cmd : Cmd
  /-- Begin cycle, on the clock that the walk runs on (R468). -/
  begun : Nat
  total : Nat
  /-- Next unit to trigger. -/
  next : Nat
  units : List WalkUnit
  landed : Nat
deriving DecidableEq, Repr

/-- A SEND or RECV that has begun (R252). -/
structure XferRun where
  cmd : Cmd
  begun : Nat
  /-- Lines read or landed so far. -/
  pos : Nat
deriving DecidableEq, Repr

/-- A line presented by a SEND, on its way (R252). -/
structure SentLine where
  sender : Nat
  /-- Pole time of the issue of the SEND (R218). -/
  issued : Nat
  begun : Nat
  due : Nat
  tag : Nat
  nlm1 : Nat
  j : Nat
  peer : Nat
  data : List Byte
  /-- What the sender was ordered after at the issue of the SEND (R218). -/
  seen : List (Nat × Nat)
deriving DecidableEq, Repr

/-- A GATE that has begun (R257). -/
structure GateRun where
  id : Nat
  cmd : Cmd
  due : Nat
deriving DecidableEq, Repr

/-- A QPUT that has begun (R262). -/
structure QputRun where
  id : Nat
  cmd : Cmd
  claimDue : Nat
  landDue : Nat
  place : Place
  entry : Nat
  packet : List Byte
  /-- The claim: none before it performs; some none for no room. The header as it stood then. -/
  claim : Option (Option Nat)
  header : BitVec 512
deriving DecidableEq, Repr

/-- A coll command whose contribution is taken and whose round has not been delivered (R361). -/
structure CollRun where
  cmd : Cmd
  slot : Fin 64
  round : Nat
  /-- The list of a COMMIT as it read it (R358). -/
  list : List (BitVec 32)
  /-- Pole time at which the contribution was taken (R218), and what the bay was ordered after then. -/
  taken : Nat
  seen : List (Nat × Nat)
deriving DecidableEq, Repr

/-- The mode of a bay. -/
inductive BayMode where
  | idle
  | running
  /-- Retired, with begun commands still running (R299). -/
  | retiring
deriving DecidableEq, Repr

/-- What the bundle in issue does to its window and task when it is finished. -/
inductive Closing where
  | none | witness | ended | retired | trapped | resumed
deriving DecidableEq, Repr

/-- A scaled write in flight (R142): its register, the last cycle in which another may not name it, and for a NARROW the
cycle and value of its update; a drain writes its register itself. -/
structure Scaling where
  reg : Nat
  last : Nat
  update : Option (Nat × BitVec 32)
deriving DecidableEq, Repr

/-! ## Scarf contexts -/

/-- States of a scarf context (R272). -/
inductive ScarfMode where
  | idle | checking | running | done | stopped
deriving DecidableEq, Repr

/-- A transfer of the plan of this chip (R269, R270): first elements in the destination and source shards, elements, source chip
and, for a merge, its replica. -/
structure Transfer where
  index : Nat
  seg : Nat
  dst : Nat
  src : Nat
  count : Nat
  chip : Nat
  replica : Nat
deriving DecidableEq, Repr

/-- A transfer in flight (R271): landing cycle on pole time and, once it is here, its data. -/
structure Flight where
  tr : Transfer
  due : Nat
  data : Option (List Byte)
deriving DecidableEq, Repr

/-- A node that a merge holds in a staging plane (R280): its place above the base level and its exponent. -/
structure SNode where
  lev : Nat
  j : Nat
  plane : Nat
  exp : Int
  /-- A shift after the node's overflow round, made as its values are next read (R156, R280): level and position of the node that was
  formed, and its exponent before. -/
  shift : Option (Nat × Nat × Int)
deriving DecidableEq, Repr

/-- A scarf context (R272, R276). -/
structure Scarf where
  mode : ScarfMode
  code : Nat
  pass : Nat
  next : Nat
  bay : Nat
  cmd : Option Cmd
  record : BitVec 2048
  checkEnd : Nat
  /-- The chip lists and the merge descriptor table as the check read them (R266, R278). -/
  srcList : List Nat
  dstList : List Nat
  table : List Word
  plan : List Transfer
  toIssue : List Transfer
  flights : List Flight
  /-- Transfers or segments landed, with the window in which each landed (R272). -/
  landed : List (Nat × Nat)
  /-- The latest release of the commanding bay's window of which the progress block has not been told: its pole cycle (R272). -/
  told : Option Nat
  /-- Next segment of a pass of a merge, and the cycle in which it ends (R280). -/
  seg : Nat
  segDue : Nat
  nodes : List SNode
  /-- Nodes of the level in course whose sum overflows on this chip (R280). -/
  flags : List Nat
  /-- The overflow round of the level: awaited to be contributed to, then its number (R280). -/
  orWait : Bool
  orRound : Option Nat
  /-- Pole time at which the contribution to the overflow round was taken, and what the commanding bay was ordered after (R218). -/
  orTaken : Nat × List (Nat × Nat)
  /-- Nodes of the level whose flags have been combined, by place, and the positions of those that overflow (R280, log 95). -/
  orBase : Nat
  orHits : List Nat
  /-- The number of the command, by which answers are told from those of an earlier one (R273). -/
  run : Nat
  sat : Bool
deriving DecidableEq, Repr

/-- An idle context. -/
def Scarf.reset : Scarf where
  mode := .idle
  code := 0
  pass := 0
  next := 0
  bay := 0
  cmd := none
  record := 0
  checkEnd := 0
  srcList := []
  dstList := []
  table := []
  plan := []
  toIssue := []
  flights := []
  landed := []
  told := none
  seg := 0
  segDue := 0
  nodes := []
  flags := []
  orWait := false
  orRound := none
  orTaken := (0, [])
  orBase := 0
  orHits := []
  run := 0
  sat := false

/-! ## Bays -/

/-- A change of the tag table made at the end of its trigger cycle (R189). -/
inductive TagOp where
  | fill (slot : Nat) (tag : Nat)
  | evict (slot : Nat)
deriving DecidableEq, Repr

/-- The witness of a window (R288): the registers, the ports with the operations in flight, loops, jigs and pegs, the queues, the progress of
every begun command, and the tag table. Stores and handles come back from the undo log and the shadow tiles (R289). -/
structure Witness where
  regs : Regs
  ops : Vector VReg 25
  res : Vector VReg 23
  ready : Vector (Option Nat) 23
  bridges : Bool × Bool
  bridging : Bool × Bool
  inflight : List Result
  acc : List Access
  active : Vector (Vector Shape 4) 3
  shadow : Vector (Vector Shape 4) 3
  sc : Vector (BitVec 32) 256
  fmt : Vector (BitVec 32) 16
  kseed : Word
  pc : Nat
  loops : List LoopLevel
  suspended : Nat
  jigs : Vector (Option JigRun) 2
  pegs : BitVec 64
  queues : Vector (List Cmd) 8
  nests : List NestRun
  tails : List NestTail
  adds : List MxStep
  drains : List DrainRun
  walks : Vector (List WalkRun) 2
  sends : List XferRun
  recvs : List XferRun
  gates : List GateRun
  qputs : List QputRun
  colls : List CollRun
  view : Vector Handle 16
  tags : List (Nat × Word)
  scaling : List Scaling
  /-- VA accesses counted (R207). -/
  counted : Nat
  /-- The scarf context, where the bay commands it: NEXT and pass with what they rest on (R272). -/
  scarf : Option Scarf
deriving DecidableEq, Repr

/-- A hotness record (R208). -/
structure HotRec where
  time : Nat
  kind : Nat
  bay : Nat
  hot : Nat
  frame : Nat
  va : Addr
deriving DecidableEq, Repr

/-- The witness window in course (R286, R287, R289). -/
structure Window where
  /-- Number of the window since the task started; a gated write of an earlier number is committed (R290). -/
  num : Nat
  /-- The witness cycle w of R291, on pole time: the cycle before the first bundle of a task. -/
  openT : Int
  /-- By how much the bay's own clock was ahead of pole time then (R468). -/
  openLead : Nat
  bundles : Nat
  gstores : Nat
  lines : Nat
  handles : List Nat
  witness : Option Witness
  undo : List Undo
  shadows : List (Nat × Handle)
  /-- Values that reached the bay from another party (R289): (pole time, value). -/
  replay : List (Nat × Nat)
  /-- Values returned by FETCHADD, QPUT claims, GATE and HAND (R289). -/
  recorded : List (Nat × Nat)
  /-- Samples of the window's accesses, committed with it (R207). -/
  samples : List HotRec
  /-- The bundle or trap entry that closes the window has been made in this cycle, at whose end the next window opens (R286). -/
  closed : Bool
deriving DecidableEq, Repr

/-- A window with nothing in it, opened at pole time t, the bay's clock n ahead of it. -/
def Window.opened (num : Nat) (t : Int) (n : Nat) : Window := ⟨num, t, n, 0, 0, 0, [], none, [], [], [], [], [], false⟩

/-- One logical bay. -/
structure Bay where
  regs : Regs
  /-- The registers as the moves of the bundle in issue read them (R61): none between bundles. -/
  pre : Option Regs
  ops : Vector VReg 25
  res : Vector VReg 23
  /-- The bay's cycle in which each result port last became ready (R63). -/
  ready : Vector (Option Nat) 23
  /-- Whether the value on bridge xab, and on xba, is a 72-bit one, and whether the one on its way there is (R65, R66). -/
  bridges : Bool × Bool
  bridging : Bool × Bool
  inflight : List Result
  acc : List Access
  nextId : Nat
  /-- sh0 to sh3 of mx, wk0 and wk1, and their shadows (R71, R175, R239). -/
  active : Vector (Vector Shape 4) 3
  shadow : Vector (Vector Shape 4) 3
  sc : Vector (BitVec 32) 256
  fmt : Vector (BitVec 32) 16
  stepc : Word
  kseed : Word
  tcause : Word
  tbundle : Word
  tslot : BitVec 16
  pc : Nat
  /-- Target of a transfer taken by the bundle in issue (R91). -/
  xfer : Option Nat
  closing : Closing
  /-- The slots of the bundle in issue that the jigs own (R81). -/
  jigSlots : BitVec 8
  loops : List LoopLevel
  /-- Levels at the bottom of the stack that the trap suspends (R297). -/
  suspended : Nat
  jigs : Vector (Option JigRun) 2
  pegs : BitVec 64
  /-- Pegs consumed in this cycle, not produced from its end (R232). -/
  pegUse : List Nat
  /-- Pegs produced in this cycle, in force from its end (R232). -/
  pegSet : List Nat
  /-- Pegs that PEGCLR clears at the end of this cycle, and those it produces after that (R407). -/
  pegClr : List Nat
  pegLate : List Nat
  queues : Vector (List Cmd) 8
  nests : List NestRun
  tails : List NestTail
  adds : List MxStep
  drains : List DrainRun
  walks : Vector (List WalkRun) 2
  /-- Accesses that units of the walkers start in this cycle, to be claimed and counted after those of the bundle (R207, R470). -/
  starts : List UnitStart
  sends : List XferRun
  recvs : List XferRun
  arriving : List SentLine
  gates : List GateRun
  qputs : List QputRun
  colls : List CollRun
  handles : Vector Handle 16
  /-- RANGE, PAIR and EAB as every mx command issued so far leaves them (R178). -/
  view : Vector Handle 16
  scratch : Mem
  opA : Mem
  opB : Mem
  imem : Mem
  jigmem : Mem
  tags : List (Nat × Word)
  tagOp : Option TagOp
  runq : List Release
  spawnq : List Spawn
  /-- Spawn-queue slots that a task start freed in this cycle, still counted as occupied (R48). -/
  freed : Nat
  mode : BayMode
  task : Option Task
  window : Window
  gbuf : List GWrite
  /-- Scaled writes in flight (R142). -/
  scaling : List Scaling
  /-- VA accesses counted (R207). -/
  counted : Nat
  /-- Cycles that the bay has issued in during holds: its own clock is pole time plus this (R468). -/
  lead : Nat
  pending : Option Pending
  /-- While a bundle is examined before it commits (R105, R107): the faults found so far. -/
  dry : Option (List BFault)
  /-- The value [7:0] of the GSYNC that the bay's bundle of this cycle issues, none where it issues none (R233). -/
  gsync : Option (BitVec 8)
  /-- The events of a pole cycle, or of a clock cycle of a hold, are being made in the bay (R40). -/
  ticks : Bool
  /-- Banks of operand SRAM accessed in this cycle: group, bank, write (R173). -/
  banks : List (Bool × Nat × Bool)
  /-- Banks in which two like accesses of this cycle met, so that none of them performs (R173). -/
  lost : List (Bool × Nat × Bool)
  /-- Writes of operand SRAM banks in this cycle, made at its end (R173). -/
  bankWrites : List (BayStore × List (Nat × List Byte))
  /-- Local bytes written in this cycle: store code and offset (R215). -/
  wrote : List (Nat × Nat)
  /-- Words of shared memory that a FETCHADD or a claim has written in this cycle (R215). -/
  fetched : List (Place × Nat)
deriving DecidableEq, Repr

/-- A bay at reset: the manual gives none of its registers a reset value but the system registers; every register is 0
(log 7). -/
def Bay.reset : Bay where
  regs := .clear
  pre := none
  ops := .replicate 25 0
  res := .replicate 23 0
  ready := .replicate 23 none
  bridges := (false, false)
  bridging := (false, false)
  inflight := []
  acc := []
  nextId := 0
  active := .replicate 3 (.replicate 4 0)
  shadow := .replicate 3 (.replicate 4 0)
  sc := .replicate 256 0
  fmt := .replicate 16 0
  stepc := 0
  kseed := 0
  tcause := 0
  tbundle := 0
  tslot := 0
  pc := 0
  xfer := none
  closing := .none
  jigSlots := 0
  loops := []
  suspended := 0
  jigs := .replicate 2 none
  pegs := 0
  pegUse := []
  pegSet := []
  pegClr := []
  pegLate := []
  queues := .replicate 8 []
  nests := []
  tails := []
  adds := []
  drains := []
  walks := .replicate 2 []
  starts := []
  sends := []
  recvs := []
  arriving := []
  gates := []
  qputs := []
  colls := []
  handles := .replicate 16 .empty
  view := .replicate 16 .empty
  scratch := []
  opA := []
  opB := []
  imem := []
  jigmem := []
  tags := []
  tagOp := none
  runq := []
  spawnq := []
  freed := 0
  mode := .idle
  task := none
  window := .opened 0 0 0
  gbuf := []
  scaling := []
  counted := 0
  lead := 0
  pending := none
  dry := none
  gsync := none
  ticks := false
  banks := []
  lost := []
  bankWrites := []
  wrote := []
  fetched := []

/-! ## Partitions -/

/-- The story-pole header fields that the machine uses (R32). -/
structure Header where
  fexp : Nat
  prio : Nat
  bents : BitVec 8
  slack : Nat
  epoch : Nat
  slipva : Addr
  slipexp : Nat
  halffit : Bool
deriving DecidableEq, Repr

/-- An entry of the story pole (R33), with its index within its bay's group and, for a gated entry, the frame in which it
was armed, the completion that made it eligible, as clock and PTP time, and the frame in which it will be released (R37, R45). -/
structure Entry where
  bay : Nat
  index : Nat
  gate : Addr
  jmask : BitVec 8
  bound : Nat
  offset : Nat
  phase : Nat
  pexp : Nat
  code : Nat
  gang : Nat
  task : BitVec 16
  template : Bool
  armed : Nat
  eligible : Option (Nat × Nat)
  due : Option Nat
  /-- What the completions of its gate since its last release order before its task (R236). -/
  cover : List (Nat × Nat)
deriving DecidableEq, Repr

/-- An entry of the timer wheel (R50): template, target bay, release frame and argument block. -/
structure WheelEnt where
  bay : Nat
  index : Nat
  frame : Nat
  args : List Word
deriving DecidableEq, Repr

/-- The memory header fields that the machine uses (R199). -/
structure MemHeader where
  asid : BitVec 8
  mresv : Nat
  mqw : Nat
  mthr : Nat
  mwexp : Nat
  sampk : Nat
  hotexp : Nat
  hotva : Addr
deriving DecidableEq, Repr

/-- A translation entry (R200) with its PENDING flag, its TTCLR request (R204, R205), and whether the yard keeps a backing
location for it (R203, R327), and the entry as it was before a migration or replication took its page (R210). -/
structure TTEntry where
  raw : BitVec 128
  pending : Bool
  clr : Bool
  backed : Bool
  home : Option (BitVec 128)
deriving DecidableEq, Repr

/-- A region entry (R222): base in 64 KiB units, granules less one and the mode word in force. -/
structure Region where
  vabase : Nat
  ngm1 : Nat
  mode : Word
deriving DecidableEq, Repr

/-- A slot of a channel claimed for a burst at pole time t, or a port of a ring segment (R194, R470). -/
inductive Claim where
  | burst (ch : Nat) (slot : Nat) (bay : Nat)
  | port (bent : Nat) (t : Nat) (k : Nat)
deriving DecidableEq, Repr

/-- What a transfer does once it has had its slots (R24, R193, R470). -/
inductive Traffic where
  /-- Bytes written at a VA: a host write, a slip or a hotness record, by its party and the number of the write (R212). -/
  | bytes (party tag : Nat) (va : Addr) (data : List Byte)
  /-- n bytes counted at a gate, behind the host's write that brought them, by its party and the number of the write (R236, R259). -/
  | arrive (party tag : Nat) (gate : Addr) (n : Nat)
  /-- What the queue reader changes in a queue header: RIDX, RJCT and LASTST (R259, R263). -/
  | header (va : Addr) (h : BitVec 512)
  /-- Host reads and fetch-and-adds, answered when they are served (R261, R329). -/
  | hostRead (va : Addr) (n : Nat)
  | hostAdd (party : Nat) (va : Addr) (v : Word)
  /-- Unit i of an asynchronous walk, with the data that came from outside (R248). -/
  | unit (walk : Nat) (i : Nat) (data : List Byte)
  /-- The head of the hotness records (R208). -/
  | hot
  /-- The copy of a page into local frames (R210), and of one to the host's region (R211). -/
  | copy (entry : Nat)
  | pageOut (entry : Nat)
  /-- A tier 5 request of another chip (R312). -/
  | tier5 (r : Tier5Req)
  /-- A read of another chip's scarf engine (R271, R276). -/
  | scarf (r : ScarfRead)
  /-- Slots alone: a further page of a host transfer, which acts with its last; bulk bursts of the scarf engine (R271, R280; log 88). -/
  | bulk
deriving DecidableEq, Repr

/-- A transfer that waits for slots of a code, 0xF0 or 0xF1 (R193, R470): where it goes in this chip's memory, none where it takes no slot,
its bytes and how many have gone. -/
structure Burst where
  code : Nat
  place : Option Place
  bytes : Nat
  gone : Nat
  act : Traffic
  /-- Clock cycle in which it came (R230). -/
  came : Nat
deriving DecidableEq, Repr

/-- A decision of the comparator (R209). -/
inductive Migration where
  | migrate | replicate | remote
deriving DecidableEq, Repr

/-- A page copy in course (R210): entry, decision, target bent and frame, the first frame from which no write has met the page,
whether a copy was complete after a whole frame without one, and whether a copy is on its way through the 0xF0 slots. -/
structure CopyRun where
  entry : Nat
  what : Migration
  bent : Fin 8
  frame : Nat
  quiet : Nat
  done : Bool
  moving : Bool
deriving DecidableEq, Repr

/-- An asynchronous walk handed to the transfer agent (R248): its units that have landed, and those that have failed; and for a TIER 7 end
(R249) the 4,096-byte blocks that have been gone through in unit order, and the bytes that wait for the rest of their block. -/
structure AsyncWalk where
  id : Nat
  bay : Nat
  cmd : Cmd
  total : Nat
  landed : List Nat
  failed : List Nat
  issued : Nat
  waiting : List (Nat × List Byte)
  /-- What the bay had done, and been ordered after, as it handed the walk over (R217). -/
  begun : List (Nat × Nat)
deriving DecidableEq, Repr

/-- The fabric header (R309). -/
structure FabHeader where
  dims : Nat × Nat × Nat
  lchip : Nat
  nlchip : Nat
  ckexp : Nat
deriving DecidableEq, Repr

/-- A reduction descriptor (R316) with its chip list. -/
structure RDesc where
  slot : Fin 64
  bc : Bool
  mode : Nat
  w : Nat
  nel : Nat
  n : Nat
  b0 : Nat
  tof : Nat
  pexp : Nat
  phase : Nat
  coff : Nat
  doff : Nat
  stream : Nat
  chips : List Nat
  resva : Addr
  gateva : Addr
deriving DecidableEq, Repr

/-- Pod time of a partition of a pod plan (R314, R315): the clock cycle of pod cycle 0, the offset A, the offsets reported as
(frame, offset), the last report of each chip as (chip, clock), and the excess at the last frame start. -/
structure PodTime where
  base : Int
  offset : Nat
  reports : List (Nat × Nat)
  heard : List (Nat × Nat)
  excess : Nat
  /-- Frames for which a nominal report has been sent (R315). -/
  nominal : Nat
deriving DecidableEq, Repr

/-- The mode of a partition. -/
inductive PartMode where
  | unformed
  /-- Loaded, waiting for plan frame 0 (R467), or for the pod-wide checks (R317). -/
  | waiting
  | running
  /-- An inserted idle frame: clock cycles left (R337). -/
  | idleFrame (left : Nat)
  /-- Waiting for pod time at a frame start (R314). -/
  | podWait
  /-- At a pre-emption point, stopped (R58). -/
  | preempted
  /-- Stopped for a checkpoint (R325). -/
  | checkpointed
  /-- Stopped for an error (R28, R301, R296). -/
  | stopped
  /-- A data race of its program: nothing is said of what the partition does from now on, and it does nothing until it is dissolved (R5,
  R221; log 24). Safe: nothing is claimed of the program after it. -/
  | raced
deriving DecidableEq, Repr

/-- The state that a pre-emption or a checkpoint keeps of one logical bay (R59, R304, R325): what R59 and R304 list, and with it the
accesses and committed writes that are still in flight while the pole clock stands (R290, log 65). -/
structure SavedBay where
  bay : Nat
  kept : Bay
deriving DecidableEq, Repr

/-- The control state of a partition that a checkpoint saves (R59, R325). -/
structure Snapshot where
  framec : Nat
  polec : Nat
  wheel : List WheelEnt
  entries : List Entry
  regions : List Region
  full : List Nat
  slipw : Word
  nextWalk : Nat
  /-- The rounds that the routers of the plan's reduction slots have come to (R320). -/
  rounds : List (Nat × Nat)
deriving DecidableEq, Repr

/-- What a checkpoint saves of a partition (R325): control state, bays, and ring segments by bent. -/
structure Checkpoint where
  snap : Snapshot
  bays : List SavedBay
  ring : List (Nat × Mem)
deriving DecidableEq, Repr

/-- One partition (R26, R27). -/
structure Part where
  mode : PartMode
  hdr : Header
  entries : List Entry
  framec : Nat
  polec : Nat
  /-- Clock cycles per pole cycle: 1, or 2 when time-sliced (R29, R53); and clock cycles that a pole cycle whose events have been
  made still lasts, 0 before them. -/
  k : Nat
  half : Nat
  /-- Overrunning bays of a hold (R40), and what each began. -/
  holding : List BayId
  holdStops : List Stop
  /-- Clock cycles of a rollback stall still to pass (R291), and the stops that began it. -/
  stall : Nat
  stallStops : List Stop
  /-- Translation entries being brought, each with the bay that met it and its restarts (R203, R293). -/
  bringing : List (Nat × BayId × Nat)
  /-- What the bays whose pages have been brought make again in the present pole cycle, with their restarts (R203, R293). -/
  resuming : List (BayId × Nat)
  /-- A frame start is due in this cycle. -/
  starting : Bool
  slipw : Word
  slips : List Slip
  wheel : List WheelEnt
  mem : MemHeader
  tt : List TTEntry
  updates : List (Nat × BitVec 128)
  /-- Entries to whose pages something was written in this cycle, PENDING from its end (R205). -/
  written : List Nat
  chTab : Mem
  ringTab : Mem
  claims : List Claim
  regions : List Region
  /-- Full channel lines, by VA / 128 (R229). -/
  full : List Nat
  queues : List (Nat × Addr)
  /-- Gates to which something was applied in this cycle or the last (R256). -/
  gatesDue : List Addr
  /-- What the arrivals counted at a gate since its last completion order before it (R236), by VA. -/
  gateSeen : List (Nat × List (Nat × Nat))
  /-- Two accesses of this clock cycle form a data race (R221). -/
  racing : Bool
  /-- What the last STP or LDC of a channel line orders before the other party's accesses of it (R218, R229), by line. -/
  lineSeen : List (Nat × List (Nat × Nat))
  /-- By region: what its accesses under the mode in force have done, and what those under earlier modes order before them (R218, R228). -/
  regionUse : List (Nat × List (Nat × Nat))
  regionSeen : List (Nat × List (Nat × Nat))
  hot : List (Nat × Nat)
  hotQueue : List HotRec
  /-- Pages that have had their slots on the way to the host, and move at the next frame start (R211). -/
  pagesOut : List Nat
  /-- Gated writes to other chips that have been sent, each with its bay and the pole cycle at whose end it became visible: the partition's
  bays see them in what they read from there before (R214, R216). -/
  sent : List (Nat × Nat × GWrite)
  hotWritten : Nat
  hotDropped : Nat
  copies : List CopyRun
  decisions : List (Nat × Migration)
  /-- The frame at whose start the decisions were made, and the entries of STIER 6 at which a walker met an absent page, with the frame:
  requests of the device's side (R211). -/
  decidedAt : Nat
  walkerWants : List (Nat × Nat)
  /-- Transfers of the asynchronous domain, of the yard and of other chips that wait for slots, in order of arrival (R24, R193). -/
  traffic : List Burst
  backing : Mem
  fab : Option FabHeader
  rds : List RDesc
  pod : PodTime
  asyncs : List AsyncWalk
  nextWalk : Nat
  /-- Pre-emption requested (R58); stops the partition at its next pre-emption point. -/
  preempt : Bool
  /-- Checkpoint due at the next pre-emption point (R325). -/
  ckDue : Bool
  saved : List SavedBay
  savedRing : List (Nat × Mem)
  /-- Frames of LPDDR-6 that the yard took from the partition's free list for what it saved (R304): bent, first frame, frames. -/
  saveArea : List (Fin 8 × Nat × Nat)
  /-- The frames that its checkpoints take (R325), and whether the parity of the latest is still to be written (R327). -/
  ckArea : List (Fin 8 × Nat × Nat)
  ckParity : Bool
  /-- The latest checkpoint (R325), and whether the partition goes on from one at the next common frame start. -/
  checkpoint : Option Checkpoint
  ckGo : Bool
  /-- An idle frame, a wait for pod time, a pre-emption or a checkpoint in course (R45). -/
  stop : Option Stop
  /-- An idle frame is due at the next frame start, and how many frame starts ago the last was (R337). -/
  idleDue : Bool
  idleAgo : Nat
  /-- A change of the remap table is due at the next frame start (R52, R296). -/
  remapDue : Bool
  /-- The plan image that was loaded (R333), from which a restart takes its records (R296, R304). -/
  image : List Byte
  /-- Chips of the pod plan whose tables are still awaited (R317), those that are here, the chips whose yards have passed the pod-wide
  checks, and the request to answer. -/
  awaiting : List Nat
  tables : List (Nat × PodTables)
  passed : List Nat
  request : Option Nat
deriving DecidableEq, Repr

/-- A partition id that names no formed partition. -/
def Part.reset : Part where
  mode := .unformed
  hdr := ⟨12, 0, 0, 0, 0, 0, 6, false⟩
  entries := []
  framec := 0
  polec := 0
  k := 1
  half := 0
  holding := []
  holdStops := []
  stall := 0
  stallStops := []
  bringing := []
  resuming := []
  starting := false
  slipw := 0
  slips := []
  wheel := []
  mem := ⟨0, 0, 0, 0, 0, 0, 8, 0⟩
  tt := []
  updates := []
  written := []
  chTab := []
  ringTab := []
  claims := []
  regions := []
  full := []
  queues := []
  gatesDue := []
  gateSeen := []
  racing := false
  lineSeen := []
  regionUse := []
  regionSeen := []
  hot := []
  hotQueue := []
  pagesOut := []
  sent := []
  hotWritten := 0
  hotDropped := 0
  copies := []
  decisions := []
  decidedAt := 0
  walkerWants := []
  traffic := []
  backing := []
  fab := none
  rds := []
  pod := ⟨0, 0, [], [], 0, 0⟩
  asyncs := []
  nextWalk := 0
  preempt := false
  ckDue := false
  saved := []
  savedRing := []
  saveArea := []
  ckArea := []
  ckParity := false
  checkpoint := none
  ckGo := false
  stop := none
  idleDue := false
  idleAgo := 0
  remapDue := false
  image := []
  awaiting := []
  tables := []
  passed := []
  request := none

/-! ## The chip -/

/-- A physical bay (R14, R52, R185, R337): healthy, shim map as retired physical columns, temperature in degrees C. -/
structure Phys where
  healthy : Bool
  shim : List Nat
  temp : Int
deriving DecidableEq, Repr

/-- A bent (R51, R197, R338): remap table entries, retired flag, retired channels, channels marked for retirement, droop and process
readings. -/
structure Bent where
  remap : Vector (BitVec 8) 24
  retired : Bool
  badChannels : List Nat
  marked : List Nat
  droop : Int
  process : Int
deriving DecidableEq, Repr

/-- R51, R15: after reset entry p holds SLICED 0, CTX 0, PHYS p. -/
def Bent.reset : Bent := ⟨.ofFn (fun p => BitVec.ofNat 8 p.val), false, [], [], 0, 0⟩

/-- The flit times that a flit may take (R310): those of a reduction slot, of bulk or of remote accesses, or the reserved ones. -/
inductive FlitUse where
  | slot (k : Fin 64)
  | bulk
  | remote
  | yard
deriving DecidableEq, Repr

/-- What leaves by a port in flit times (R310, R311, R313). -/
inductive Parcel where
  /-- A message for a logical chip, of so many flits, of which some have gone. -/
  | flits (dest : Nat) (m : Msg) (gone count : Nat)
  /-- The flit of a number, from the replay buffer. -/
  | again (seq : BitVec 16)
  /-- A retry request that names the next number expected. -/
  | retry (next : BitVec 16)
  /-- A PTP event message of the chip's own, or an answer with the time at which what it answers came. -/
  | ptp (kind : PtpKind)
  | ptpAnswer (stamp : Nat)
deriving DecidableEq, Repr

/-- What waits at a port for flit times of its partition, or for the reserved ones, which belong to none (R310, R312, R318): the pole time
from which it may go, the clock cycle in which it came, and the flit times that its next flit still takes. -/
structure Waiting where
  use : FlitUse
  part : PartId
  ready : Nat
  came : Nat
  left : Nat
  load : Parcel
deriving DecidableEq, Repr

/-- One direction pair of a Rirax port (R311, R338): next number to accept and to send, replay buffer newest first, lanes as
servicing left them and as the last load of a pod plan took them, and what waits for flit times. -/
structure Link where
  expect : BitVec 16
  next : BitVec 16
  replay : List (BitVec 16 × Flit)
  lanes : Nat
  width : Nat
  waiting : List Waiting
deriving DecidableEq, Repr

/-- A router slot (R318 to R321): its status register, current round, the values of children that it holds, and the verdicts that
await delivery. -/
structure RSlot where
  status : BitVec 64
  round : Nat
  held : List NodeVal
  verdicts : List Verdict
deriving DecidableEq, Repr

/-- An error-log entry of the yard. -/
inductive LogEntry where
  /-- A fault record (R302). -/
  | fault (r : BitVec 256)
  /-- A refusal or event, by the number of the rule that has it logged (R2, R34, R202, R248, R329). -/
  | note (rule : Nat) (detail : Nat)
  /-- Droop and process readings of a bent (R337). -/
  | reading (bent : Nat) (droop process : Int)
deriving DecidableEq, Repr

/-- A host connection and its registered region: base address, remote key, length in 64 KiB units (R331). -/
structure Conn where
  num : Nat
  region : Option (Word × BitVec 32 × Nat)
deriving DecidableEq, Repr

/-- A plan waiting in the yard's queue (R58), in order of submission. -/
structure WaitingPlan where
  prio : Nat
  image : List Byte
deriving DecidableEq, Repr

/-- Boot (R335). -/
inductive Boot where
  /-- The ROM waits to fetch at a clock cycle. -/
  | rom (retry : Nat)
  | running
deriving DecidableEq, Repr

/-- The yard (R330 to R339). -/
structure Yard where
  boot : Boot
  mailbox : Mem
  conns : List Conn
  /-- The connection that wrote each request slot (R331): request slot and connection. -/
  requester : List (Nat × Nat)
  errlog : List LogEntry
  planq : List WaitingPlan
  fwA : List Byte
  fwB : List Byte
  activeB : Bool
  staged : Bool
  /-- A firmware switch in course (R339): the partitions whose next frame start it awaits. -/
  switching : Option (List Nat)
  /-- A recalibration of the monitors awaits the next frame start (R338). -/
  recalibrate : Bool
  /-- Firmware image that TFTP returned, awaiting the boot check (R335). -/
  fetched : List Byte
  /-- Pages that the host holds and asks for in this frame: (partition, entry) (R211). -/
  hostWants : List (Nat × Nat)
  /-- Tables of chips of a pod plan that came before this chip loaded it (R317), and logical chips that are lost (R327). -/
  podTables : List (Nat × PodTables)
  lost : List Nat
deriving DecidableEq, Repr

/-- What leaves the chip (R329, R311, R330). -/
inductive Out where
  | rdmaAnswer (data : List Byte)
  | rdmaError
  | atomicAnswer (v : Word)
  /-- The answer to an accepted connection: the mailbox base, its remote key and the number of the connection (R331). -/
  | connected (base : Word) (key : BitVec 32) (num : Nat)
  | flit (port : Port) (seq : BitVec 16) (f : Flit)
  | retry (port : Port) (next : BitVec 16)
  | hostWrite (conn : Nat) (offset : Nat) (data : List Byte)
  /-- A page moved to the region of a connection (R211): its length and its bytes that are not zero. -/
  | hostPage (conn : Nat) (offset : Nat) (n : Nat) (cells : Mem)
  /-- NVM commands of a queue pair: a Write of one block or of a page, a Read of one block (R249). -/
  | flashWrite (pair : Nat) (offset : Nat) (data : List Byte)
  | flashRead (pair : Nat) (block : Nat)
  | report (frame : Nat) (offset : Nat)
  | unresponsive (chip : Nat)
  | timestamp (ptp : Nat)
  /-- The answer to a delay request, with the time at which the request came (R313): on Ethernet that of the delay request-response
  mechanism, on a Rirax port that of the peer-to-peer one. -/
  | ptpAnswer (port : Option Port) (ptp : Nat)
  /-- A PTP event message of the chip's own (R313). -/
  | ptpSent (port : Option Port) (kind : PtpKind)
  /-- A message for the other logical chip of the same physical chip (R307, R318). -/
  | twin (chip : Nat) (m : Msg)
deriving DecidableEq, Repr

/-- What comes from outside at a clock cycle. -/
inductive Input where
  | event (i : Instr)
  /-- The host changes its own memory. -/
  | hostBytes (addr : Nat) (data : List Byte)
  /-- What flash holds that this chip has not written. -/
  | flashBytes (pair : Nat) (addr : Nat) (data : List Byte)
  | temperature (q : Fin 208) (t : Int)
  | monitors (b : Fin 8) (droop process : Int)
  /-- A read corrects a single-bit error: of LPDDR-6 on a channel (R197), or of a store of a physical bay (R285). -/
  | corrected (store : Bool) (unit : Nat)
  | firmware (image : List Byte)
  /-- Bytes of a page of another chip reach the local frames that a copy of the page fills (R210, log 59). -/
  | copied (p : PartId) (x : Nat) (data : List (Nat × Byte))
  /-- Every chip of the pod has stopped for a checkpoint (R325). -/
  | podStopped
  /-- The other logical chip of a sliced physical chip contributes a value to the router that both have (R318). -/
  | twin (v : NodeVal)
  /-- A hold or a stall of the other logical chip of a sliced physical chip, whose plan runs in the same partition, stops the pole clock of
  both for n clock cycles (R27, R40, R43): the event as its slip record tells of it. -/
  | twinStop (p : PartId) (event : Slip) (n : Nat)
deriving DecidableEq, Repr

/-- A step that is due (the model's own, log 5). -/
inductive Todo where
  /-- A bay issues its bundle. -/
  | issue (b : BayId)
  | event (i : Instr)
deriving DecidableEq, Repr

/-- An access of a party to a byte range, kept for the race check (R221). -/
structure Touch where
  /-- A logical bay, or a party of the asynchronous domain or of another chip (R212; Machine/Race.lean). -/
  party : Nat
  /-- The number of an access that a gate or a round orders by itself (R236), 0 for another. -/
  tag : Nat
  part : Nat
  key : Nat × Nat
  size : Nat
  write : Bool
  /-- 0 plain; 1 cell atomic; 2 FETCHADD or a QPUT claim (exempt pairs of R221); 3 a gate changed, which reads need not wait for (R254);
  4 a packet written whole into a queue slot, which replaces an older one (R261). -/
  kind : Nat
  /-- Pole time: the perform cycle of a read, the visibility cycle of a write (R218). -/
  stamp : Nat
deriving DecidableEq, Repr

/-- The chip. -/
structure State where
  clock : Nat
  /-- PTP time in nanoseconds, and sixths of a nanosecond beyond it (R22, R313). -/
  ptp : Nat
  ptpSixths : Nat
  bays : Vector Bay 192
  parts : Vector Part 8
  phys : Vector Phys 208
  bents : Vector Bent 8
  ring : Vector Mem 8
  lpddr : Vector Mem 8
  /-- Clock cycle of the last refresh of each channel (R195, R196). -/
  refresh : Vector Nat 96
  /-- Chip remap table (R307): entries that differ from the identity. -/
  chipmap : List (Nat × BitVec 16)
  /-- Merged link slot tables, six ports by entry (R310). -/
  linkTab : List (Nat × BitVec 16)
  links : Vector Link 6
  router : Vector RSlot 64
  /-- Values on their way to this chip's own routers: (clock of arrival, value) (R318). -/
  arrivals : List (Nat × NodeVal)
  scarf : Vector Scarf 8
  yard : Yard
  hostMem : Mem
  /-- Flash behind each NVMe-oF queue pair, and the pairs that the yard has connected (R201, R249). -/
  flash : List (Nat × Mem)
  queuePairs : List Nat
  /-- Dirty map: one entry per 64 KiB frame written since the last checkpoint, by bent (R325). -/
  dirty : List (Nat × Nat)
  /-- Units of this chip's protected memory as far as they are rebuilt, and whether a survivor's frame was dirty (R327). -/
  rebuild : List (Nat × Mem × Bool)
  inputs : List (Nat × Input)
  outs : List Out
  todo : List Todo
  cur : BayId
  phase : Nat
  free : Nat
  /-- Vector clocks of the parties (R217, R218): what each party has of each other, and the touches kept. -/
  vclocks : List (Nat × List (Nat × Nat))
  touches : List Touch
  /-- The next number of an access that is ordered by itself (R236), and what is ordered from the end of this clock cycle: party and
  what it is ordered after (R218). -/
  nextTag : Nat
  later : List (Nat × List (Nat × Nat))
deriving DecidableEq, Repr

/-- The chip after reset (R335: no bay issues; R51, R185, R307; other values by log 1, 3, 7). -/
def State.reset : State where
  clock := 0
  ptp := 0
  ptpSixths := 0
  bays := .replicate 192 .reset
  parts := .replicate 8 .reset
  phys := .replicate 208 ⟨true, [], 0⟩
  bents := .replicate 8 .reset
  ring := .replicate 8 []
  lpddr := .replicate 8 []
  refresh := .replicate 96 0
  chipmap := []
  linkTab := []
  links := .replicate 6 ⟨0, 0, [], 24, 24, []⟩
  router := .replicate 64 ⟨0, 0, [], []⟩
  arrivals := []
  scarf := .replicate 8 .reset
  yard := ⟨.rom 0, [], [], [], [], [], [], [], false, false, none, false, [], [], [], []⟩
  hostMem := []
  flash := []
  queuePairs := []
  dirty := []
  rebuild := []
  inputs := []
  outs := []
  todo := []
  cur := 0
  phase := 0
  free := 0
  vclocks := []
  touches := []
  nextTag := 2 ^ 24
  later := []

end Sys2Proof.Machine
end

