-- ==== Sys2Proof/Machine/Nest.lean ====
section
/-!
DEFINITION. The nest of an mx command, as its captured shapes give it (R70, R175 to R177): levels, handles, steps and read cycles;
which additions a begun command still has to make, and the handle state that begun commands leave (R178, R179).
-/

namespace Sys2Proof.Machine

/-! ## Format entries (R70) -/

/-- FMT of a format entry (R70). -/
def fmtCode (e : BitVec 32) : Nat := bits e 0 4
/-- SCALE of a format entry (R70). -/
def fmtScale (e : BitVec 32) : Nat := bits e 4 8
/-- SPARSE of a format entry (R70). -/
def fmtSparse (e : BitVec 32) : Nat := bits e 12 2

/-! ## Levels (R175, R176) -/

/-- A level of a nest. -/
structure Lvl where
  cnt : Nat
  astr : Int
  bstr : Int
  hstr : Int
  klv : Bool
  abs : Int
  bbs : Int

/-- Level l of captured shapes (R175). -/
def lvlOf (sh : Vector Shape 4) (l : Nat) : Lvl :=
  let r : Shape := sh.toList.getD (l / 3) 0
  let o := 84 * (l % 3)
  ⟨bits r o 16 + 1, sbits r (o + 16) 20, sbits r (o + 36) 20, sbits r (o + 56) 5, bitAt r (o + 61), sbits r (o + 62) 11,
    sbits r (o + 73) 11⟩

/-- The levels, 0 first. -/
def Cmd.levels (c : Cmd) : List Lvl := (List.range 6).map (lvlOf c.sh)

/-- sh2 of a command. -/
def Cmd.sh2 (c : Cmd) : Shape := c.sh.get 2
/-- sh3 of a command. -/
def Cmd.sh3 (c : Cmd) : Shape := c.sh.get 3

/-- KD of a nest. -/
def Cmd.kd (c : Cmd) : Nat := bits c.sh2 58 7 + 1
/-- START of KDESC. -/
def Cmd.start (c : Cmd) : Nat := bits c.sh2 167 42
/-- LOG2LEN of KDESC. -/
def Cmd.logLen (c : Cmd) : Nat := bits c.sh2 209 6
/-- HBASE. -/
def Cmd.hbase (c : Cmd) : Nat := bits c.sh2 54 4
/-- Chunk base of A, or of B. -/
def Cmd.base (c : Cmd) (isB : Bool) : Nat := if isB then bits c.sh2 19 19 else bits c.sh2 0 19
/-- ATR, or BTR. -/
def Cmd.tr (c : Cmd) (isB : Bool) : Bool := if isB then bitAt c.sh2 39 else bitAt c.sh2 38
/-- First block index of A, or of B. -/
def Cmd.blk (c : Cmd) (isB : Bool) : Nat := if isB then bits c.sh2 97 32 else bits c.sh2 65 32
/-- Scale line 0 of A, or of B. -/
def Cmd.slb (c : Cmd) (isB : Bool) : Nat := if isB then bits c.sh2 148 19 else bits c.sh2 129 19
/-- Format code of A, or of B. -/
def Cmd.fmt (c : Cmd) (isB : Bool) : Nat := fmtCode (if isB then c.fb else c.fa)
/-- N of a sparse B: 0 dense, 32 or 64 (R70). -/
def Cmd.sparse (c : Cmd) : Nat :=
  match fmtSparse c.fb with
  | 1 => 32
  | 2 => 64
  | _ => 0

/-- Steps of a nest. -/
def Cmd.steps (c : Cmd) : Nat := (c.levels.map Lvl.cnt).foldl (· * ·) 1

/-- Iterations of the K levels. -/
def Cmd.kcount (c : Cmd) : Nat := ((c.levels.filter Lvl.klv).map Lvl.cnt).foldl (· * ·) 1

/-- The handles that a nest in range writes (R176). -/
def Cmd.handlesOf (c : Cmd) : List Nat :=
  (c.levels.foldl (fun (acc : List Int) v =>
    if v.cnt > 1 ∧ v.hstr ≠ 0 then
      (acc.flatMap (fun h => (List.range (min v.cnt 17)).map (fun (i : Nat) => h + (i : Int) * v.hstr))).eraseDups
    else acc) [(c.hbase : Int)]).map Int.toNat

/-! ## Reads (R176, R177) -/

/-- Read cycles of a step (R177). -/
def Cmd.tc (c : Cmd) : Nat :=
  let wide := c.fmt false = 1 ∨ c.fmt true = 1
  let mid := c.fmt false = 0 ∨ c.fmt true = 0
  match c.sparse with
  | 64 => if wide then 256 else if mid then 64 else 32
  | 32 => if wide then 512 else if mid then 128 else 64
  | _ => if wide then 4 * c.kd else if mid then c.kd else (c.kd + 1) / 2

/-- Items that an operand reads in a step (R177). -/
def Cmd.items (c : Cmd) (isB : Bool) : Nat :=
  let f := c.fmt isB
  let four := f = 3 ∨ f = 4
  if isB = true ∧ c.sparse ≠ 0 then (if four then c.sparse / 2 else c.sparse)
  else if four then (c.kd + 1) / 2 else c.kd

/-- Digits of a step, level 0 first, with 0 the fastest. -/
def digits : List Lvl → Nat → List (Lvl × Nat)
  | [], _ => []
  | v :: rest, i => (v, i % v.cnt) :: digits rest (i / v.cnt)

/-- A value of the nest at a step: base plus digit times stride. -/
def nestAt (base : Int) (ds : List (Lvl × Nat)) (f : Lvl → Int) : Int :=
  ds.foldl (fun acc x => acc + (x.2 : Int) * f x.1) base

/-- kc of R176 at a step. -/
def kcAt (ds : List (Lvl × Nat)) : Nat :=
  (ds.foldl (fun (acc : Nat × Nat) x => if x.1.klv then (acc.1 + x.2 * acc.2, acc.2 * x.1.cnt) else acc) (0, 1)).1

/-- The items that an operand reads in step cycle sc (R177). -/
def Cmd.due (c : Cmd) (isB : Bool) (sc : Nat) : List Nat :=
  (List.range (c.items isB)).filter (fun j => decide (j * c.tc / c.items isB = sc))

/-! ## Handles -/

/-- RANGE, PAIR and EAB of a handle after an MXGO (R163, R180). -/
def claimHandle (c : Cmd) (h : Handle) : Handle :=
  match h.range with
  | some r => { h with range := some (r.1, c.start + 2 ^ c.logLen) }
  | none => { h with
      range := some (c.start, c.start + 2 ^ c.logLen), pair := some (c.fmt false, c.fmt true), eab := c.eab }

/-- HANDLE of MXDRAIN and MXCLR. -/
def Cmd.handle (c : Cmd) : Nat := bits c.word 25 4

/-- REL. -/
def Cmd.rel (c : Cmd) : Bool := bitAt c.word 29
/-- The handles that a nest writes, each with its last step: a handle belongs to one tuple of the digits outside the K levels
(R178). -/
def Cmd.lastSteps (c : Cmd) : List (Nat × Nat) :=
  ((c.levels.foldl (fun (acc : List (Int × Nat) × Nat) v =>
    (if v.klv then acc.1.map (fun x => (x.1, x.2 + (v.cnt - 1) * acc.2))
     else acc.1.flatMap (fun x => (List.range v.cnt).map (fun (i : Nat) => (x.1 + (i : Int) * v.hstr, x.2 + i * acc.2))), acc.2 * v.cnt))
    ([((c.hbase : Int), 0)], 1)).1).map (fun x => (x.1.toNat, x.2))

/-- The cycle of a step in which its last item is read (R177). -/
def Cmd.lastRead (c : Cmd) : Nat := max ((c.items false - 1) * c.tc / c.items false) ((c.items true - 1) * c.tc / c.items true)

/-- The nest makes reads for a handle in cycle now or after it (R176, R179). -/
def NestRun.owes (r : NestRun) (h now : Nat) : Bool :=
  r.cmd.lastSteps.any (fun x => decide (x.1 = h) && decide (now ≤ r.begun + x.2 * r.cmd.tc + r.cmd.lastRead))

/-- A begun MXGO still makes additions to a handle (R179). -/
def Bay.owesOf (b : Bay) (c : Cmd) (h now : Nat) : Bool :=
  b.adds.any (fun st => decide (st.cmd = c.id) && decide (st.handle = h))
    || b.nests.any (fun r => decide (r.cmd.id = c.id) && r.owes h now)

/-- An addition to a handle is under way, or to come from the nest that reads (R179). -/
def Bay.owes (b : Bay) (h now : Nat) : Bool :=
  b.adds.any (fun st => decide (st.handle = h)) || b.nests.any (fun r => r.owes h now)

/-- A handle after a begun command has done its part: an MXGO that still adds to it claims it, a drain that is to release it empties
it (R178). -/
def Handle.after (b : Bay) (now : Nat) (h : Nat) (x : Handle) (c : Cmd) : Handle :=
  if c.op = 256 then (if c.handlesOf.contains h && b.owesOf c h now then claimHandle c x else x)
  else if c.rel && decide (c.handle = h) && b.drains.any (fun d => decide (d.cmd.id = c.id) && decide (now ≤ d.begun + 127)) then
    .empty
  else x

/-- The handle states that the begun mx commands of a bay leave, in the order of their issue (R178): those of all its mx commands once
none is queued. -/
def Bay.begunView (b : Bay) (now : Nat) : Vector Handle 16 :=
  let cmds := sortOn Cmd.id (b.nests.map NestRun.cmd ++ b.tails.map NestTail.cmd ++ b.drains.map DrainRun.cmd)
  .ofFn (fun h => cmds.foldl (Handle.after b now h.val) (b.handles.get h))

end Sys2Proof.Machine
end

