-- ==== Sys2Proof/Machine/Ops.lean ====
section
/-!
DEFINITION. The named operations over the state: bays, partitions and time; memories; ports and results; the source and
destination of a move; taking a fault, the trap entry, retirement and the return from the trap.
-/

namespace Sys2Proof.Machine

/-- What every meaning answers. -/
abbrev Step := Host.Outcome State Fault Refusal

/-! ## Bays, partitions and time -/

/-- A logical bay. -/
def State.bay (s : State) (b : BayId) : Bay := s.bays.get b

/-- The state with a logical bay replaced. -/
def State.setBay (s : State) (b : BayId) (x : Bay) : State := { s with bays := s.bays.set b.val x b.isLt }

/-- The state with a function applied to a logical bay. -/
def State.onBay (s : State) (b : BayId) (f : Bay → Bay) : State := s.setBay b (f (s.bay b))

/-- A partition id's partition. -/
def State.part (s : State) (p : PartId) : Part := s.parts.get p

/-- The state with a partition replaced. -/
def State.setPart (s : State) (p : PartId) (x : Part) : State := { s with parts := s.parts.set p.val x p.isLt }

/-- The state with a function applied to a partition. -/
def State.onPart (s : State) (p : PartId) (f : Part → Part) : State := s.setPart p (f (s.part p))

/-- The bent of a logical bay (R15). -/
def bentOf (b : BayId) : Fin 8 := ⟨b.val / 24, by have := b.isLt; omega⟩

/-- Whether a partition is formed and holds its bents (R28, R58): a pre-empted one has left them. -/
def Part.formed (p : Part) : Bool := decide (p.mode ≠ .unformed) && decide (p.mode ≠ .preempted)

/-- The partition that holds a bent, none where no partition is formed on it (R26). -/
def State.partOfBent (s : State) (t : Fin 8) : Option PartId :=
  (List.finRange 8).find? (fun p => (s.part p).formed && (s.part p).hdr.bents.getLsbD t.val)

/-- The partition of a logical bay. -/
def State.partOf (s : State) (b : BayId) : Option PartId := s.partOfBent (bentOf b)

/-- The partition record of a bay: that of an unformed partition where none holds the bay. -/
def State.partAt (s : State) (b : BayId) : Part :=
  match s.partOf b with
  | some p => s.part p
  | none => .reset

/-- Pole time of a partition: pole cycles since plan frame 0 (R29, R30). -/
def Part.time (p : Part) : Nat := p.framec * 2 ^ p.hdr.fexp + p.polec

/-- Pole time of a bay's partition. -/
def State.poleTime (s : State) (b : BayId) : Nat := (s.partAt b).time

/-- The bay's own clock: pole time and the cycles it issued in during holds (R468). -/
def State.now (s : State) (b : BayId) : Nat := s.poleTime b + (s.bay b).lead

/-- Whether the pole clock of a partition is stopped by a hold (R40). -/
def Part.held (p : Part) : Bool := p.holding ≠ []

/-- Size of a pod in dimension d. -/
def FabHeader.dim (f : FabHeader) (d : Nat) : Nat :=
  if d = 0 then f.dims.1 else if d = 1 then f.dims.2.1 else f.dims.2.2

/-- The physical chip of a logical chip in the identity table (R454): the coordinates count up in X, then Y, then Z. -/
def FabHeader.home (f : FabHeader) (lchip : Nat) : Nat :=
  lchip % f.dim 0 + 16 * (lchip / f.dim 0 % f.dim 1) + 256 * (lchip / (f.dim 0 * f.dim 1))

/-- Entry of the chip remap table: the identity's where the table lists nothing (R307, log 4). -/
def State.chipEntry (s : State) (f : FabHeader) (lchip : Nat) : BitVec 16 :=
  assocGet (BitVec.ofNat 16 (f.home lchip)) s.chipmap lchip

/-- The physical chip hosts two logical chips, this one among them (R55, R307). The state is that of one logical chip: its memories are the
half of LPDDR-6 and ring SRAM that its context takes (R308, log 84). -/
def State.chipSliced (s : State) (f : Option FabHeader) : Bool :=
  match f with
  | some h => (s.chipEntry h h.lchip).getLsbD 15
  | none => false

/-- The entry of a logical bay in its bent's remap table (R51). -/
def State.remapEntry (s : State) (b : BayId) : BitVec 8 := (s.bents.get (bentOf b)).remap.toList.getD (b.val % 24) 0

/-- Whether a logical bay runs time-sliced: on a physical bay that hosts two logical bays, or on a chip that hosts two logical chips (R51,
R53, R55). -/
def State.sliced (s : State) (b : BayId) : Bool := (s.remapEntry b).getLsbD 7 || s.chipSliced (s.partAt b).fab

/-- A context of a sliced bay has n/2 of what a full bay has n of (R53). -/
def State.half (s : State) (b : BayId) (n : Nat) : Nat := if s.sliced b then n / 2 else n

/-- Valid bundle indices lie below this (R89, R53). -/
def State.bundleLimit (s : State) (b : BayId) : Nat := if s.sliced b then 5461 else 10922

/-- Index of an engine's queue. -/
def engineIdx : Engine → Fin 8
  | .mx => 0
  | .wk0 => 1
  | .wk1 => 2
  | .gate => 3
  | .coll => 4
  | .scarf => 5
  | .jig => 6
  | .peg => 7

/-- Index of a result port. -/
def resIdx : ResPort → Fin 23
  | .xab => 0
  | .xba => 1
  | .alu0R => 2
  | .alu1R => 3
  | .mul0R => 4
  | .div0R => 5
  | .lsu0R => 6
  | .lsu0Ar => 7
  | .lsu1R => 8
  | .lsu1Ar => 9
  | .mem0R => 10
  | .vec0S => 11
  | .vec1S => 12
  | .vredS => 13
  | .scarfSt => 14
  | .systemR => 15
  | .vec0Vr => 16
  | .vec0Mr => 17
  | .vec1Vr => 18
  | .vec1Mr => 19
  | .vfnVr => 20
  | .vredVr => 21
  | .vredMr => 22

/-- Index of an operand port. -/
def opIdx : OpPort → Fin 25
  | .alu0A => 0
  | .alu0B => 1
  | .alu1A => 2
  | .alu1B => 3
  | .mul0A => 4
  | .div0A => 5
  | .lsu0A => 6
  | .lsu0D => 7
  | .lsu1A => 8
  | .lsu1D => 9
  | .mem0A => 10
  | .mem0D => 11
  | .mxShx => 12
  | .wk0Shx => 13
  | .wk1Shx => 14
  | .vec0Va => 15
  | .vec0Vb => 16
  | .vec0Vm => 17
  | .vec1Va => 18
  | .vec1Vb => 19
  | .vec1Vm => 20
  | .vfnVa => 21
  | .vfnVb => 22
  | .vredVa => 23
  | .vredVm => 24

/-- A transfer joins those that wait, in order of arrival; of requests of other chips that come in one cycle that of the lower chip goes
first (R230, R312). -/
def putBurst (l : List Burst) (x : Burst) : List Burst :=
  let after (y : Burst) : Bool :=
    match x.act, y.act with
    | .tier5 a, .tier5 b => decide (y.came = x.came) && decide (a.chip < b.chip)
    | _, _ => false
  match l with
  | [] => [x]
  | y :: rest => if after y then x :: y :: rest else y :: putBurst rest x

/-- A transfer of a code joins those that wait. -/
def State.queueBurst (s : State) (q : PartId) (code : Nat) (place : Option Place) (bytes : Nat) (act : Traffic) : State :=
  s.onPart q (fun p => { p with traffic := putBurst p.traffic ⟨code, place, bytes, 0, act, s.clock⟩ })

/-! ## Byte stores -/

/-- A byte of a store: 0 where nothing is listed (log 3). -/
def Mem.read (m : Mem) (a : Nat) : Byte := assocGet 0 m a

/-- A byte written. -/
def Mem.write (m : Mem) (a : Nat) (v : Byte) : Mem := assocSet 0 m a v

/-- n bytes from address a. -/
def Mem.readN (m : Mem) (a n : Nat) : List Byte := (List.range n).map (fun k => Mem.read m (a + k))

/-- Bytes written from address a. -/
def Mem.writeN (m : Mem) (a : Nat) : List Byte → Mem
  | [] => m
  | v :: vs => Mem.writeN (Mem.write m a v) (a + 1) vs

/-- The n bytes from a of one store put at b of another, as lists of the bytes that are not zero. -/
def Mem.copyRange (src : Mem) (a n : Nat) (dst : Mem) (b : Nat) : Mem :=
  dst.filter (fun c => decide (c.1 < b)) ++
    (src.filter (fun c => decide (a ≤ c.1) && decide (c.1 < a + n))).map (fun c => (c.1 - a + b, c.2)) ++
      dst.filter (fun c => decide (b + n ≤ c.1))

/-- Bytes written at given addresses. -/
def Mem.writeAll (m : Mem) (l : List (Nat × Byte)) : Mem := l.foldl (fun acc x => Mem.write acc x.1 x.2) m

/-- The canonical form of a byte store. -/
def Mem.wf (m : Mem) : Bool := assocWf (0 : Byte) m

/-- The number that n bytes hold, little-endian (R6). -/
def Mem.nat (m : Mem) (a n : Nat) : Nat := leNat (Mem.readN m a n)

/-- One store of a bay. -/
def Bay.store (b : Bay) : BayStore → Mem
  | .scratch => b.scratch
  | .opA => b.opA
  | .opB => b.opB

/-- A store of a bay replaced. -/
def Bay.setStore (b : Bay) (k : BayStore) (m : Mem) : Bay :=
  match k with
  | .scratch => { b with scratch := m }
  | .opA => { b with opA := m }
  | .opB => { b with opB := m }

/-- Size of a bay store in bytes, of a context's half when sliced (R53, R172, R186). -/
def State.storeSize (s : State) (b : BayId) : BayStore → Nat
  | .scratch => s.half b 2097152
  | .opA => s.half b 524288
  | .opB => s.half b 524288

/-- The scratchpad slots that a byte range covers become dirty in the tag table where their entries are valid (R190). -/
def dirtyTags (tags : List (Nat × Word)) (off n : Nat) : List (Nat × Word) :=
  if n = 0 then tags
  else
    (List.range ((off + n - 1) / 4096 - off / 4096 + 1)).foldl (fun ts k =>
      let slot := off / 4096 + k
      let e := assocGet (0 : Word) ts slot
      if e.getLsbD 0 then assocSet 0 ts slot (e ||| 2) else ts) tags

/-- Lines of 128 bytes that runs of bytes touch, each once. -/
def runLines (runs : List (Nat × List Byte)) : List Nat :=
  (runs.flatMap (fun r => if r.2 = [] then [] else
    (List.range ((r.1 + r.2.length - 1) / 128 - r.1 / 128 + 1)).map (fun i => r.1 / 128 + i))).eraseDups

/-- Byte runs written to a store of a bay by one access: the bytes themselves, tag-table DIRTY bits (R190), the undo log and the
count of line writes of the window (R287, R289). Each 128-byte line touched counts once. -/
def Bay.writeRuns (b : Bay) (k : BayStore) (runs : List (Nat × List Byte)) : Bay :=
  let m := b.store k
  let undo := (runLines runs).map (fun l => (⟨k, l, Mem.readN m (128 * l) 128⟩ : Undo))
  let w := { b.window with lines := b.window.lines + undo.length, undo := undo ++ b.window.undo }
  let b' := { b.setStore k (runs.foldl (fun acc r => Mem.writeN acc r.1 r.2) m) with window := w }
  if k = .scratch then { b' with tags := runs.foldl (fun acc r => dirtyTags acc r.1 r.2.length) b.tags } else b'

/-- Bytes written to a store of a bay from an offset. -/
def Bay.writeStore (b : Bay) (k : BayStore) (off : Nat) (data : List Byte) : Bay := b.writeRuns k [(off, data)]

/-- Shared memory: a byte of the ring or of LPDDR-6 on this chip; 0 for a place on another chip (log 8). -/
def State.readPlace (s : State) (pl : Place) (k : Nat) : Byte :=
  match pl with
  | .ring t o => Mem.read (s.ring.get t) (o + k)
  | .lpddr t a => Mem.read (s.lpddr.get t) (a + k)
  | .chip _ _ _ => 0

/-- n bytes at a place. -/
def State.readPlaceN (s : State) (pl : Place) (n : Nat) : List Byte := (List.range n).map (fun k => s.readPlace pl k)

/-- Bytes written at a place of this chip; the dirty map takes the frame of an LPDDR-6 write (R325). -/
def State.writePlace (s : State) (pl : Place) (data : List Byte) : State :=
  match pl with
  | .ring t o => { s with ring := s.ring.set t.val (Mem.writeN (s.ring.get t) o data) t.isLt }
  | .lpddr t a =>
    let f := (t.val, a / 65536)
    { s with
      lpddr := s.lpddr.set t.val (Mem.writeN (s.lpddr.get t) a data) t.isLt
      dirty := if data = [] ∨ s.dirty.contains f then s.dirty else f :: s.dirty }
  | .chip _ _ _ => s

/-- A place k bytes further. -/
def Place.add (pl : Place) (k : Nat) : Place :=
  match pl with
  | .ring t o => .ring t (o + k)
  | .lpddr t a => .lpddr t (a + k)
  | .chip c t a => .chip c t (a + k)

/-! ## Guards, sources and destinations of a move -/

/-- The registers that the moves of the present bundle read (R61). -/
def Bay.seen (b : Bay) : Regs := b.pre.getD b.regs

/-- A general register: g0 reads zero (R65). -/
def Regs.readG (r : Regs) (n : Fin 64) : Word := if n.val = 0 then 0 else r.g.get n

/-- Predicate pN, N from 1 to 7 (R85). -/
def Regs.pred (r : Regs) (n : Nat) : Bool := r.p.toList.getD (n - 1) false

/-- Whether a guard lets its move perform (R85). Guard 0b1000 is no guard and performs nothing. -/
def guardOn (r : Regs) (g : BitVec 4) : Bool :=
  let k := g.toNat
  if k = 0 then true
  else if k < 8 then r.pred k
  else if k = 8 then false
  else !r.pred (k - 8)

/-- Whether a port carries a 72-bit value (R65, R343): the address results of the lsu units, and a bridge to which one was moved
(log 13). -/
def Bay.wideRes (b : Bay) (p : ResPort) : Bool :=
  match p with
  | .lsu0Ar | .lsu1Ar => true
  | .xab => b.bridges.1
  | .xba => b.bridges.2
  | .alu0R | .alu1R | .mul0R | .div0R | .lsu0R | .lsu1R | .mem0R | .vec0S | .vec1S | .vredS | .scarfSt | .systemR | .vec0Vr
  | .vec0Mr | .vec1Vr | .vec1Mr | .vfnVr | .vredVr | .vredMr => false

/-- The value of a source (R65, R67, R74, R86). -/
def Bay.value (b : Bay) (src : Src) : Val :=
  let r := b.seen
  match src with
  | .imm v => ⟨(v.signExtend 64).setWidth 2048, false⟩
  | .g n => ⟨(r.readG n).setWidth 2048, false⟩
  | .a n => ⟨(r.a.get n).setWidth 2048, true⟩
  | .p n => ⟨if r.p.get n then 1 else 0, false⟩
  | .l n => ⟨(r.l.get n).setWidth 2048, false⟩
  | .lk => ⟨r.lk.setWidth 2048, false⟩
  | .lim => ⟨r.lim.setWidth 2048, true⟩
  | .v n => ⟨r.v.get n, false⟩
  | .m n => ⟨(r.m.get n).setWidth 2048, false⟩
  | .res p => ⟨b.res.get (resIdx p), b.wideRes p⟩

/-- Bits [63:0] of a value. -/
def Val.word (v : Val) : Word := v.bits.setWidth 64

/-- Bits [71:0] of a value. -/
def Val.addr (v : Val) : Addr := v.bits.setWidth 72

/-- Bits [255:0] of a value. -/
def Val.mask (v : Val) : MaskReg := v.bits.setWidth 256

/-- The current content of an operand port (R62). -/
def Bay.op (b : Bay) (o : OpPort) : VReg := b.ops.get (opIdx o)

/-- An operand port as a scalar. -/
def Bay.opW (b : Bay) (o : OpPort) : Word := (b.op o).setWidth 64

/-- An operand port as an address. -/
def Bay.opA72 (b : Bay) (o : OpPort) : Addr := (b.op o).setWidth 72

/-- An operand port replaced. -/
def Bay.setOp (b : Bay) (o : OpPort) (v : VReg) : Bay :=
  { b with ops := b.ops.set (opIdx o).val v (opIdx o).isLt }

/-- A result put in flight (R63). -/
def Bay.push (b : Bay) (r : Result) : Bay := { b with inflight := b.inflight ++ [r] }

/-- A result of latency lat on a port, triggered now (R63). -/
def Bay.result (b : Bay) (now : Nat) (p : ResPort) (lat : Nat) (v : VReg) : Bay :=
  b.push ⟨p, now, now + lat, false, some v⟩

/-- An a-register under the width rule of R65: a 64-bit value leaves bits [71:64]. -/
def writeA (old : Addr) (v : Val) : Addr :=
  if v.wide then v.addr else (old &&& (0xFF0000000000000000 : BitVec 72)) ||| v.word.setWidth 72

/-- Writes the destination of a plain move (R64 to R67, R96, R99, R102, R104). -/
def Bay.writeDst (b : Bay) (now : Nat) (d : Dst) (v : Val) : Bay :=
  let r := b.regs
  match d with
  | .g n => if n.val = 0 then b else { b with regs := { r with g := r.g.set n.val v.word n.isLt } }
  | .a n => { b with regs := { r with a := r.a.set n.val (writeA (r.a.get n) v) n.isLt } }
  | .p n => { b with regs := { r with p := r.p.set n.val (decide (v.bits ≠ 0)) n.isLt } }
  | .lk => { b with regs := { r with lk := v.word } }
  | .v n => { b with regs := { r with v := r.v.set n.val v.bits n.isLt } }
  | .m n => { b with regs := { r with m := r.m.set n.val v.mask n.isLt } }
  | .xab => { b with bridging := (v.wide, b.bridging.2) }.result now .xab 1 (v.addr.setWidth 2048)
  | .xba => { b with bridging := (b.bridging.1, v.wide) }.result now .xba 1 (v.addr.setWidth 2048)
  | .op o => b.setOp o v.bits

/-! ## Faults: ids, ranks and handling -/

/-- INFO of a range fault that has neither a VA nor an offset (R285, log 2). -/
def anyInfo (id : Nat) : Info := (Config.openInfo id).setWidth 72

/-- Cause codes (R285). -/
def causeCode : Cause → Nat
  | .illegalGuard => 0x01
  | .unimplementedPort => 0x02
  | .jigCollision => 0x03
  | .portCollision => 0x04
  | .controlFlow => 0x05
  | .reservedField => 0x06
  | .format => 0x07
  | .alignment => 0x08
  | .range => 0x09
  | .privilege => 0x0A
  | .region => 0x0B
  | .loopOverflow => 0x0C
  | .softwareTrap => 0x0D
  | .earlyRead => 0x10
  | .resultCollision => 0x11
  | .queueFull => 0x12
  | .slot => 0x13
  | .bankConflict => 0x14
  | .writeCollision => 0x15
  | .channelLine => 0x16
  | .regionBusy => 0x17
  | .pegOverrun => 0x18
  | .gangSync => 0x19
  | .transferMismatch => 0x1A
  | .inFlightLimit => 0x1B
  | .scaleBusy => 0x1C
  | .endState => 0x1D
  | .windowOverflow => 0x1E
  | .translation => 0x20
  | .baySram => 0x21
  | .lpddr => 0x22
  | .residue => 0x23

/-- How a bundle's fault is handled (R285). -/
inductive Handling where
  | trap | retire | rollback
deriving DecidableEq, Repr

/-- Handling of a precise fault of a bundle (R284, R285). -/
def handling (c : Cause) : Handling :=
  if causeCode c ≥ 0x10 then .rollback
  else
    match c with
    | .range => .retire
    | .privilege => .retire
    | _ => .trap

/-- The rank of a cause within a bundle (R106): causes of operations rank last, in slot order. A translation fault, which R203
names apart from the timing faults, ranks with them (log 77). -/
def causeRank : Cause → Nat
  | .illegalGuard => 1
  | .unimplementedPort => 2
  | .jigCollision => 3
  | .portCollision => 4
  | .controlFlow => 5
  | .reservedField | .format | .alignment | .range | .privilege | .region | .loopOverflow | .softwareTrap => 7
  | .earlyRead | .resultCollision | .queueFull | .slot | .bankConflict | .writeCollision | .channelLine
  | .regionBusy | .pegOverrun | .gangSync | .transferMismatch | .inFlightLimit | .scaleBusy | .endState
  | .windowOverflow | .translation | .baySram | .lpddr | .residue => 6

/-- TCAUSE from its fields (R73). -/
def tcauseWord (info : Info) (code : Nat) (repeated : Bool) (cls : Nat) : Word :=
  ((info.setWidth 32).setWidth 64 <<< 32) ||| BitVec.ofNat 64 (code * 256 + (if repeated then 8 else 0) + cls)

/-- CLASS of TCAUSE (R73); the handler is active while it is non-zero (R298). -/
def Bay.cls (b : Bay) : Nat := bits b.tcause 0 3

/-- Whether the trap handler is active (R298). -/
def Bay.handlerActive (b : Bay) : Bool := b.cls ≠ 0

/-- TSLOT of a fault (R72, R106). -/
def BFault.tslot (f : BFault) : BitVec 16 := f.slots.setWidth 16 ||| (if f.jig then 0x100 else 0)

/-- Ids of result ports in the scalar or vector source map, by slot class (R94, R95, R99). -/
def srcPortId (s : Fin 8) (r : ResPort) : Nat :=
  if slotClass s = .vector then idOfVectorRes r else idOfScalarRes r

/-! ## Windows (R286 to R290) -/

/-- The witness of the window that opens (R288). -/
def Bay.witnessNow (b : Bay) : Witness where
  regs := b.regs
  ops := b.ops
  res := b.res
  ready := b.ready
  bridges := b.bridges
  bridging := b.bridging
  inflight := b.inflight
  acc := b.acc
  active := b.active
  shadow := b.shadow
  sc := b.sc
  fmt := b.fmt
  kseed := b.kseed
  pc := b.pc
  loops := b.loops
  suspended := b.suspended
  jigs := b.jigs
  pegs := b.pegs
  queues := b.queues
  nests := b.nests
  tails := b.tails
  adds := b.adds
  drains := b.drains
  walks := b.walks
  sends := b.sends
  recvs := b.recvs
  gates := b.gates
  qputs := b.qputs
  colls := b.colls
  view := b.view
  tags := b.tags
  scaling := b.scaling
  counted := b.counted
  scarf := none

/-- The bay with what a witness holds restored (R288, R291). -/
def Bay.restoreWitness (b : Bay) (w : Witness) : Bay :=
  { b with
    regs := w.regs, ops := w.ops, res := w.res, ready := w.ready, bridges := w.bridges, bridging := w.bridging, inflight := w.inflight
    acc := w.acc, active := w.active, shadow := w.shadow, sc := w.sc, fmt := w.fmt, kseed := w.kseed, pc := w.pc, loops := w.loops
    suspended := w.suspended, jigs := w.jigs, pegs := w.pegs, queues := w.queues, nests := w.nests, tails := w.tails, adds := w.adds
    drains := w.drains, walks := w.walks, sends := w.sends, recvs := w.recvs, gates := w.gates, qputs := w.qputs, colls := w.colls
    view := w.view, tags := w.tags, scaling := w.scaling, counted := w.counted }

/-- The bay at its witness again (R289): what the witness holds, the lines of the undo log in reverse order, the handles from their
shadow tiles, and the window's gated writes discarded; the replay log and the recorded results stay. -/
def Bay.rolledBack (b : Bay) : Bay :=
  match b.window.witness with
  | none => b
  | some w =>
    let lines := b.window.undo.foldl (fun acc u => acc.setStore u.store (Mem.writeN (acc.store u.store) (128 * u.line) u.former)) b
    let tiles := b.window.shadows.foldl (fun (acc : Bay) h => { acc with handles := acc.handles.setIfInBounds h.1 h.2 }) lines
    { (tiles.restoreWitness w) with gbuf := b.gbuf.filter (fun g => decide (g.win ≠ b.window.num)) }

/-- The window closes with the cycle (R286). -/
def Bay.closeWindow (b : Bay) : Bay := { b with window := { b.window with closed := true } }

/-- Gated writes of windows below this number are committed (R290): those of a window that closes with this cycle among them. -/
def Bay.released (b : Bay) : Nat := if b.window.closed then b.window.num + 1 else b.window.num

/-- At the end of pole cycle t a window that has been closed gives way to the next, whose witness is the bay's state then (R286, R288). -/
def Bay.turnWindow (b : Bay) (t : Nat) : Bay :=
  if b.window.closed then
    { b with window := { Window.opened (b.window.num + 1) t b.lead with witness := some b.witnessNow } }
  else b

/-- A value that reached a bay from another party (R289). -/
def Bay.keepReplay (b : Bay) (t v : Nat) : Bay :=
  { b with window := { b.window with replay := b.window.replay ++ [(t, v)] } }

/-- A value returned by FETCHADD, a QPUT claim, GATE or HAND (R289). -/
def Bay.keepResult (b : Bay) (t v : Nat) : Bay :=
  { b with window := { b.window with recorded := b.window.recorded ++ [(t, v)] } }

/-! ## Fault records (R302) -/

/-- A fault record. -/
def faultRecord (s : State) (b : BayId) (action cls : Nat) (code : Nat) (info : Info) : BitVec 256 :=
  let p := s.partAt b
  let x := s.bay b
  let task : BitVec 16 := match x.task with
    | some t => t.id
    | none => 0
  let pid : Nat := match s.partOf b with
    | some q => q.val
    | none => 0
  BitVec.ofNat 256
    (p.framec % 2 ^ 64 * 2 ^ 192 + p.polec % 2 ^ 20 * 2 ^ 172 + b.val * 2 ^ 164 + task.toNat * 2 ^ 148
      + action * 2 ^ 144 + pid * 2 ^ 136 + code * 2 ^ 128 + x.tbundle.toNat * 2 ^ 64 + (info.toNat % 2 ^ 32) * 2 ^ 32
      + x.tslot.toNat * 2 ^ 16 + cls)

/-- An entry added to the yard's error log. -/
def State.log (s : State) (e : LogEntry) : State := { s with yard := { s.yard with errlog := s.yard.errlog ++ [e] } }

/-- A fault record written by the yard (R302). -/
def State.logFault (s : State) (b : BayId) (action cls code : Nat) (info : Info) : State :=
  s.log (.fault (faultRecord s b action cls code info))

/-! ## Retirement, trap entry and return (R297 to R301) -/

/-- Whether a begun command of the bay still runs (R299). -/
def Bay.busyCommands (b : Bay) : Bool :=
  !(b.nests.isEmpty && b.tails.isEmpty && b.adds.isEmpty && b.drains.isEmpty && (b.walks.get 0).isEmpty
    && (b.walks.get 1).isEmpty && b.sends.isEmpty && b.recvs.isEmpty && b.gates.isEmpty && b.qputs.isEmpty
    && b.colls.isEmpty)

/-- What is left of an access when its task ends in cycle now of the bay's clock (R366): a gated write performs, and a store whose perform
cycle this is; a load keeps its bookkeeping entry only; everything else is abandoned. -/
def Access.afterEnd (a : Access) (now : Nat) : Option Access :=
  match a.kind with
  | .stg => some a
  | .stp => some a
  | .atomic _ => some { a with port := none }
  | .hand => some { a with port := none }
  | .ldg => some { a with port := none }
  | .st | .stv => if a.due ≤ now then some a else none
  | .ld | .ldv | .hlook | .opt _ _ _ _ | .ldc | .fetchAdd => none

/-- What END and retirement in cycle now do to the operations in flight in scalar and vector units (R299, R366): no result of them that is
still to come reaches a port, a register or a store, and ports read zero. -/
def Bay.abandon (b : Bay) (now : Nat) : Bay :=
  { b with
    inflight := []
    acc := b.acc.filterMap (fun a => a.afterEnd now)
    res := .replicate 23 0
    ready := .replicate 23 none
    bridges := (false, false)
    scaling := b.scaling.filter (fun x => x.update.isNone) }

/-- Retirement of the task of a bay (R299): queued commands discarded, with what they would have done to the handles (R178), loops,
jigs and pegs cleared, operations abandoned, the window closed in pole cycle t; begun commands run on. -/
def Bay.retireTask (b : Bay) (t : Nat) : Bay :=
  let b' := b.abandon (t + b.lead)
  let b'' := { b' with queues := .replicate 8 [], loops := [], suspended := 0, jigs := .replicate 2 none, pegs := 0
                       pegUse := [], pegSet := [], pegClr := [], pegLate := [], pre := none, xfer := none
                       view := b'.begunView (t + b'.lead) }
  { b''.closeWindow with
    mode := if b.busyCommands then .retiring else .idle
    task := none
    closing := .retired }

/-- The slot 7 word of the bundle at index 0 of the bay's instruction memory is PAD E (R92, R297). -/
def Bay.padE (b : Bay) : Bool :=
  decide (decodeIn 7 (BitVec.ofNat 24 (Mem.nat b.imem 21 3)) = some .padE)

/-- A RESHARD of the bay has begun and has not completed (R275). -/
def State.scarfBusy (s : State) (b : BayId) : Bool :=
  match s.partOf b with
  | some q => (s.scarf.get q).cmd.isSome && decide ((s.scarf.get q).bay = b.val)
  | none => false

/-- CODE and INFO of TCAUSE (R73). -/
def Bay.causeNow (b : Bay) : Nat × Info := (bits b.tcause 8 8, BitVec.ofNat 72 (bits b.tcause 32 32))

/-- TCAUSE with CODE and INFO of a fault that enters no trap, its CLASS kept (R284, R298). -/
def Bay.noteCause (b : Bay) (code : Nat) (info : Info) (repeated : Bool) : Bay :=
  { b with tcause := tcauseWord info code repeated b.cls }

/-- Retires the task of a bay with an ACTION of R302: the fault record takes CODE and INFO of TCAUSE. -/
def State.retire (s : State) (b : BayId) (action : Nat) : State :=
  (s.logFault b action (s.bay b).cls (s.bay b).causeNow.1 (s.bay b).causeNow.2).onBay b (fun x =>
    let y := x.retireTask (s.poleTime b)
    if s.scarfBusy b then { y with mode := .retiring } else y)

/-- A running jig suspended, its micro-PC kept (R297). -/
def suspendJig (j : Option JigRun) : Option JigRun :=
  match j with
  | some r => some { r with suspended := true }
  | none => none

/-- Trap entry (R297): TCAUSE, TBUNDLE and TSLOT are written, the bundle at index 0 issues next, running jigs and the loop
levels present are suspended, and the window closes and a new one opens. -/
def Bay.trapEnter (b : Bay) (tcause tbundle : Word) (tslot : BitVec 16) : Bay :=
  let b' := { b with
    tcause := tcause
    tbundle := tbundle
    tslot := tslot
    pc := 0
    xfer := none
    pre := none
    jigs := b.jigs.map suspendJig
    suspended := b.loops.length
    closing := .trapped }
  b'.closeWindow

/-- Taking a fault that enters the trap (R297, R298): in an active handler, or with no PAD E at index 0, the task is retired
instead. -/
def State.takeTrap (s : State) (b : BayId) (f : BFault) (repeated : Bool) (cls : Nat) (tbundle : Word) : State :=
  let x := s.bay b
  let code := causeCode f.cause
  let tc := tcauseWord f.info code repeated cls
  if x.handlerActive then
    let s1 := s.onBay b (fun y => { y.noteCause code f.info repeated with tbundle := tbundle, tslot := f.tslot })
    s1.retire b 2
  else if x.padE then
    s.onBay b (fun y => y.trapEnter tc tbundle f.tslot)
  else
    let s1 := s.onBay b (fun y => { y with tcause := tc, tbundle := tbundle, tslot := f.tslot })
    s1.retire b 3

/-- The pending fault of a bay whose bundle faults: a fault met earlier in the cycle by no bundle counts (log 49), and where its event is to
be made again the bundle goes after it (R291). -/
def Bay.bundlePending (b : Bay) (f : BFault) : Pending :=
  match b.pending with
  | some p => if p.retry.isSome then { p with code := some (24 * b.pc) } else p
  | none => ⟨f, some (24 * b.pc), none, none⟩

/-- Taking a fault of the bundle at pc (R284, R298, R299): retirement for range and privilege, rollback at the end of the
cycle for timing faults, trap entry for the rest. Nothing of the bundle commits (R107). -/
def State.takeFault (s : State) (b : BayId) (f : BFault) : State :=
  let code : Word := BitVec.ofNat 64 (24 * (s.bay b).pc)
  match handling f.cause with
  | .retire =>
    let s1 := s.onBay b (fun y => { y.noteCause (causeCode f.cause) f.info false with tbundle := code, tslot := f.tslot })
    s1.retire b 0
  | .rollback => s.onBay b (fun y => { y with pending := some (y.bundlePending f), pre := none })
  | .trap => s.takeTrap b f false 1 code

/-- A fault that belongs to no bundle (R105, R284): handled by rollback whatever its cause. The first of a cycle counts. -/
def State.strayFault (s : State) (b : BayId) (c : Cause) (info : Info) : State :=
  s.onBay b (fun y =>
    match y.pending with
    | some _ => y
    | none => { y with pending := some ⟨⟨c, info, 0, false⟩, none, none, none⟩ })

/-- A fault that belongs to no bundle met by an event; a translation fault has the event made again once its page is there
(R203, R293). -/
def State.strayRetry (s : State) (b : BayId) (c : Cause) (info : Info) (i : Instr) : State :=
  s.onBay b (fun y =>
    match y.pending with
    | some _ => y
    | none => { y with pending := some ⟨⟨c, info, 0, false⟩, none, if c = .translation then some i else none, none⟩ })

/-- The response of a tier 5 access has not reached the bay in time: a slot fault whose reruns wait for it (R312). -/
def State.strayLate (s : State) (b : BayId) (info : Info) (i : Instr) : State :=
  s.onBay b (fun y =>
    match y.pending with
    | some _ => y
    | none => { y with pending := some ⟨⟨.slot, info, 0, false⟩, none, some i, none⟩ })

/-- A fault raised by a move of the bay in issue: noted while the bundle is examined (R107), taken otherwise. -/
def State.raise (s : State) (f : BFault) : State :=
  match (s.bay s.cur).dry with
  | some l => s.onBay s.cur (fun y => { y with dry := some (l ++ [f]) })
  | none => s.takeFault s.cur f

/-! ## One move of a slot -/

/-- A fault of the move in slot c.slot of the bay in issue. -/
def State.slotFault (s : State) (c : Ctl) (cause : Cause) (info : Info) : BFault :=
  ⟨cause, info, 1 <<< c.slot.val, (s.bay s.cur).jigSlots.getLsbD c.slot.val⟩

/-- A result port read in cycle now while a result is in flight and none became ready in it (R63). -/
def Bay.readsEarly (b : Bay) (now : Nat) (r : ResPort) : Bool :=
  b.inflight.any (fun x => decide (x.port = r) && decide (x.trig < now) && (x.remote || decide (now < x.due)))
    && decide (b.ready.get (resIdx r) ≠ some now)

/-- What a check answers: a cause and its INFO. -/
abbrev Check := Option (Cause × Info)

/-- The early-read fault of a source (R63, R285). -/
def Bay.sourceFault (b : Bay) (now : Nat) (c : Ctl) : Option (Cause × Info) :=
  match c.src with
  | .res r => if b.readsEarly now r then some (.earlyRead, BitVec.ofNat 72 (srcPortId c.slot r)) else none
  | _ => none

/-- A check that goes before an early read of the same move in the order of R106 (log 77). -/
def Check.early (c : Check) : Check :=
  match c with
  | some f => if causeRank f.1 < causeRank .earlyRead then some f else none
  | none => none

/-- A move of the bay in issue: nothing when its guard is false (R61); else its source's fault, before which a check goes that ranks
first (R106); else its check's fault, else its effect on the state, which takes the moved value. -/
def State.move (s : State) (c : Ctl) (chk : Val → State → Check) (eff : Val → State → State) : State :=
  let b := s.bay s.cur
  if guardOn b.seen c.guard then
    match b.sourceFault (s.now s.cur) c with
    | some f =>
      let g := (Check.early (chk (b.value c.src) s)).getD f
      s.raise (s.slotFault c g.1 g.2)
    | none =>
      match chk (b.value c.src) s with
      | some f => s.raise (s.slotFault c f.1 f.2)
      | none => eff (b.value c.src) s
  else s

/-- The first check that fails. -/
def Check.andThen (a : Check) (b : Check) : Check :=
  match a with
  | some f => some f
  | none => b

/-- No check beyond the source's. -/
def noCheck : Val → State → Check := fun _ _ => none

/-- A second result that would become ready on a port in the same cycle (R64). While a hold freezes the operations that
leave the bay, they are not compared with the bay's own (R468). -/
def Bay.collides (b : Bay) (now pole : Nat) (frozen : Bool) (p : ResPort) (remote : Bool) (lat : Nat) : Bool :=
  b.inflight.any (fun x => decide (x.port = p) &&
    decide ((if x.remote then x.due - pole else x.due - now) = lat) &&
    (decide (x.remote = remote) || !frozen))

/-- The result-collision check of a trigger of the bay in issue, by its port id (R64, R285). -/
def State.collision (s : State) (p : ResPort) (remote : Bool) (lat : Nat) (id : Nat) : Check :=
  if (s.bay s.cur).collides (s.now s.cur) (s.poleTime s.cur) (s.partAt s.cur).held p remote lat then
    some (.resultCollision, BitVec.ofNat 72 id)
  else none

/-- The bay in issue. -/
def State.me (s : State) : Bay := s.bay s.cur

/-- A function applied to the bay in issue. -/
def State.onMe (s : State) (f : Bay → Bay) : State := s.onBay s.cur f

/-- The clock of the bay in issue. -/
def State.myNow (s : State) : Nat := s.now s.cur

/-- A trigger whose value is known at once: its result becomes ready lat cycles on (R63). The result collision, which no entry
lists (R340), ranks before the operation's own faults (R106). -/
def State.trigger (s : State) (c : Ctl) (id : Nat) (p : ResPort) (lat : Nat) (chk : Val → State → Check)
    (f : Val → Bay → VReg) : State :=
  s.move c (fun v t => Check.andThen (t.collision p false lat id) (chk v t))
    (fun v t => t.onMe (fun b => b.result t.myNow p lat (f v b)))

/-! ## Free values -/

/-- A free value and the state that has used it up (log 6). -/
def State.freeWord (s : State) : Word × State := (Config.freeValue s.free, { s with free := s.free + 1 })

end Sys2Proof.Machine
end

