-- ==== Sys2Proof/Machine/Operands.lean ====
section
/-!
DEFINITION. Operand forms that lead into memory and engines: translation and its checks (R199 to R203), tiers and
latencies (R19, R186), slots and ports (R194, R470), regions (R222 to R226), access control values (R380), format selectors
(R70) and shape fields (R71, R175, R239, R240).
-/

namespace Sys2Proof.Machine

/-! ## Distances and tiers -/

/-- Ring position of a bent's stop (R18). -/
def ringPos (t : Nat) : Nat := if t < 4 then t else t + 1

/-- Ring hops between two bents (R18). -/
def ringHops (a b : Nat) : Nat :=
  let d := if ringPos a ≤ ringPos b then ringPos b - ringPos a else ringPos a - ringPos b
  min d (10 - d)

/-- Bytes of a page by PSZ (R200). -/
def pageSize (psz : Nat) : Nat :=
  match psz with
  | 0 => 2 ^ 16
  | 1 => 2 ^ 21
  | 2 => 2 ^ 30
  | _ => 2 ^ 36

/-- VALID of a translation entry (R200). -/
def teValid (e : BitVec 128) : Bool := bitAt e 0
/-- PRESENT of a translation entry. -/
def tePresent (e : BitVec 128) : Bool := bitAt e 1
/-- PR of a translation entry. -/
def tePR (e : BitVec 128) : Bool := bitAt e 3
/-- PW of a translation entry. -/
def tePW (e : BitVec 128) : Bool := bitAt e 4
/-- PA of a translation entry. -/
def tePA (e : BitVec 128) : Bool := bitAt e 5
/-- PSZ of a translation entry, in bytes. -/
def teSize (e : BitVec 128) : Nat := pageSize (bits e 7 2)
/-- TIER of a translation entry. -/
def teTier (e : BitVec 128) : Nat := bits e 9 3
/-- STIER of a translation entry. -/
def teStier (e : BitVec 128) : Nat := bits e 12 3
/-- SHOP of a translation entry. -/
def teShop (e : BitVec 128) : Nat := bits e 15 5
/-- HOT of a translation entry. -/
def teHot (e : BitVec 128) : Nat := bits e 20 12
/-- PHYS of a translation entry. -/
def tePhys (e : BitVec 128) : Nat := bits e 32 48
/-- The page base VA[63:0] of a translation entry. -/
def teBase (e : BitVec 128) : Nat := bits e 80 48 * 65536

/-- Bent of a PHYS field (R201). -/
def physBent (phys : Nat) : Nat := nbits phys 21 3

/-- Where a byte of a page lies (R201). -/
def tePlace (e : BitVec 128) (off : Nat) : Place :=
  let ph := tePhys e
  let t : Fin 8 := Fin.ofNat 8 (physBent ph)
  if teTier e = 3 then .ring t (nbits ph 0 9 * 65536 + off)
  else if teTier e = 5 then .chip (nbits ph 36 12) t.val (nbits ph 0 21 * 65536 + off)
  else .lpddr t (nbits ph 0 21 * 65536 + off)

/-- The index and entry that cover VA[63:0] (R203 step 2). -/
def findEntry (tt : List TTEntry) (a : Nat) : Option (Nat × BitVec 128) :=
  (tt.zipIdx.find? (fun x =>
    teValid x.1.raw && decide (teBase x.1.raw ≤ a) && decide (a < teBase x.1.raw + teSize x.1.raw))).map
    (fun x => (x.2, x.1.raw))

/-- A translated address: entry, its bits and the place of the first byte. -/
structure Xlat where
  entry : Nat
  raw : BitVec 128
  place : Place
deriving DecidableEq, Repr

/-- What an access needs of its page (R203 step 4). -/
structure Need where
  r : Bool
  w : Bool
  a : Bool
deriving DecidableEq, Repr

/-- A VA as INFO: the registers keep bits [31:0] (R285). -/
def vaInfo (va : Addr) : Info := va

/-- VA[63:0] as a number. -/
def vaNat (va : Addr) : Nat := bits va 0 64

/-- Steps 1 to 5 of R203 for a party of partition p; walker admits STIER 6 pages. -/
def translate (p : Part) (va : Addr) (need : Need) (walker : Bool) : Except (Cause × Info) Xlat :=
  if bits va 64 8 ≠ p.mem.asid.toNat then .error (.range, vaInfo va)
  else
    match findEntry p.tt (vaNat va) with
    | none => .error (.range, vaInfo va)
    | some (x, e) =>
      if teStier e = 6 && !walker then .error (.range, vaInfo va)
      else if (need.r && !tePR e) || (need.w && !tePW e) || (need.a && !tePA e) then .error (.privilege, vaInfo va)
      else if !tePresent e then .error (.translation, vaInfo va)
      else .ok ⟨x, e, tePlace e (vaNat va - teBase e)⟩

/-- Ring hops from a bay to a page's bent (R19). -/
def xHops (b : BayId) (e : BitVec 128) : Nat := ringHops (b.val / 24) (physBent (tePhys e))

/-- The tier latency of R186, by STIER. -/
def tierLatency (b : BayId) (e : BitVec 128) : Nat :=
  if teStier e = 3 then 24 + 6 * xHops b e
  else if teStier e = 5 then 380 + 360 * teShop e
  else 320 + 6 * xHops b e

/-! ## Slots and ports -/

/-- The channel of a physical address of a bent (R192). -/
def channelOf (bent pa : Nat) : Nat := 12 * bent + pa / 64 % 12

/-- The code of slot i of a channel (R193): tables are kept by channel, 2^19 entries apart. -/
def channelCode (p : Part) (ch i : Nat) : Nat := (Mem.read p.chTab (ch * 2 ^ 19 + i)).toNat

/-- The code of entry i of a bent's ring slot table (R470). -/
def ringCode (p : Part) (bent i : Nat) : Nat := (Mem.read p.ringTab (bent * 8192 + i)).toNat

/-- The claim of a burst to LPDDR-6 in pole cycle t (R194): none when the slot is another's or already claimed. -/
def claimBurst (p : Part) (b : BayId) (pl : Place) (t : Nat) : Option Claim :=
  match pl with
  | .lpddr bent pa =>
    let ch := channelOf bent.val pa
    let c := Claim.burst ch (t / 2) b.val
    if channelCode p ch (t % 2 ^ p.hdr.fexp / 2) = b.val ∧ ¬ p.claims.contains c then some c else none
  | _ => none

/-- The claim of a port of a ring segment in pole cycle t (R470): the lowest port that names the bay and is free. -/
def claimPort (p : Part) (b : BayId) (pl : Place) (t : Nat) : Option Claim :=
  match pl with
  | .ring bent _ =>
    ((List.range 32).find? (fun k =>
      decide (ringCode p bent.val (32 * (t % 2 ^ p.hdr.fexp % 256) + k) = b.val) &&
        !p.claims.contains (.port bent.val t k))).map (fun k => .port bent.val t k)
  | _ => none

/-- Step 7 of R203 for an access that starts in pole cycle t: the claim it makes, or the slot fault. A tier 5 access has no
slot of its own partition to claim. During a hold every such access is outside the partition's slots (R41). -/
def slotCheck (p : Part) (b : BayId) (x : Xlat) (va : Addr) (t : Nat) : Except (Cause × Info) (List Claim) :=
  if p.held then .error (.slot, vaInfo va)
  else if teStier x.raw = 3 then
    match claimPort p b x.place (t + 12 + 3 * xHops b x.raw) with
    | some c => .ok [c]
    | none => .error (.slot, vaInfo va)
  else if teStier x.raw = 4 then
    match claimBurst p b x.place (t + 160 + 3 * xHops b x.raw) with
    | some c => .ok [c]
    | none => .error (.slot, vaInfo va)
  else .ok []

/-! ## Regions -/

/-- VALID of a mode word (R222). -/
def mwValid (m : Word) : Bool := bitAt m 48
/-- MODE of a mode word. -/
def mwMode (m : Word) : Nat := bits m 0 3
/-- BAYA of a mode word. -/
def mwBayA (m : Word) : Nat := bits m 8 8
/-- CHIPA of a mode word. -/
def mwChipA (m : Word) : Nat := bits m 16 12
/-- BAYB of a mode word. -/
def mwBayB (m : Word) : Nat := bits m 28 8
/-- CHIPB of a mode word. -/
def mwChipB (m : Word) : Nat := bits m 36 12

/-- A region's granule by the STIER of the entry covering its base (R222). -/
def granule (p : Part) (vabase : Nat) : Nat :=
  match findEntry p.tt (vabase * 65536) with
  | some (_, e) => if teStier e = 3 then 2 ^ 16 else 2 ^ 21
  | none => 2 ^ 16

/-- Bytes of a region. -/
def regionSize (p : Part) (r : Region) : Nat := (r.ngm1 + 1) * granule p r.vabase

/-- The region that contains VA[63:0] (R222); none where the address is unregioned. -/
def regionAt (p : Part) (a : Nat) : Option (Nat × Region) :=
  (p.regions.zipIdx.find? (fun x =>
    mwValid x.1.mode && decide (x.1.vabase * 65536 ≤ a) && decide (a < x.1.vabase * 65536 + regionSize p x.1))).map
    (fun x => (x.2, x.1))

/-- The kinds of access of R225. -/
inductive RKind where
  | ldg | stg | ldc | stp | atomic | fetchAdd | hand
deriving DecidableEq, Repr

/-- This chip's logical id: 0 without a fabric header (R309). -/
def Part.lchip (p : Part) : Nat :=
  match p.fab with
  | some f => f.lchip
  | none => 0

/-- A bay of a logical chip is party A of a mode word. -/
def namesA (bay chip : Nat) (m : Word) : Bool := decide (mwBayA m = bay) && decide (mwChipA m = chip)

/-- A bay of a logical chip is party B of a mode word. -/
def namesB (bay chip : Nat) (m : Word) : Bool := decide (mwBayB m = bay) && decide (mwChipB m = chip)

/-- The bay is party A of a mode word. -/
def isPartyA (p : Part) (b : BayId) (m : Word) : Bool := namesA b.val p.lchip m

/-- The table of R225 for a bay of a logical chip, line states apart. -/
def modeAllows (bay chip : Nat) (k : RKind) (m : Word) : Bool :=
  match mwMode m, k with
  | 0, .ldg | 0, .stg | 0, .atomic | 0, .hand => namesA bay chip m
  | 1, .ldg | 1, .ldc => namesB bay chip m
  | 1, .stg | 1, .stp | 1, .hand => namesA bay chip m
  | 2, .ldg => true
  | 2, .hand => namesA bay chip m
  | 3, .atomic => true
  | 3, .hand => namesA bay chip m
  | 4, .ldg | 4, .stg | 4, .fetchAdd => true
  | _, _ => false

/-- The table of R225 for a bay of this chip, line states apart. -/
def regionAllows (p : Part) (b : BayId) (k : RKind) (m : Word) : Bool := modeAllows b.val p.lchip k m

/-- The unregioned column of R225. -/
def unregionedAllows : RKind → Bool
  | .ldg => true
  | .stg => true
  | .atomic => true
  | .ldc => false
  | .stp => false
  | .fetchAdd => false
  | .hand => false

/-- The region check of R226 at an address. -/
def regionOk (p : Part) (b : BayId) (k : RKind) (va : Addr) : Bool :=
  match regionAt p (vaNat va) with
  | some (_, r) => regionAllows p b k r.mode
  | none => unregionedAllows k

/-- The mode in which a partition's table places an address: none for no region. -/
def placedMode (p : Part) (va : Addr) : Option Nat := (regionAt p (vaNat va)).map (fun x => mwMode x.2.mode)

/-- The table of R225 for a bay of another chip whose own table places the VA in mode m: where the table says "any", the remote bay is one of
them only if the two tables place the VA alike. -/
def remoteAllows (p : Part) (bay chip : Nat) (m : Option Nat) (k : RKind) (va : Addr) : Bool :=
  match regionAt p (vaNat va) with
  | some (_, e) => modeAllows bay chip k e.mode && (decide (mwMode e.mode < 2) || decide (m = some (mwMode e.mode)))
  | none => unregionedAllows k && m.isNone

/-- Whether this chip's own table lets a request of another chip reach a page here (R225). A bay number of no bay is the yard's copy of a
plan image, which no region governs. -/
def homeAllows (p : Part) (r : Tier5Req) : Bool :=
  let k : RKind :=
    match r.kind with
    | .read _ => .ldg
    | .write _ => .stg
    | .atomic _ _ => .atomic
    | .fetchAdd _ => .fetchAdd
    | .claim => .fetchAdd
  decide (192 ≤ r.bay) || remoteAllows p r.bay r.chip r.mode k r.va

/-- The number of a region that holds an address. -/
def inRegion (p : Part) (r : Nat) (va : Addr) : Bool :=
  match regionAt p (vaNat va) with
  | some (k, _) => decide (k = r)
  | none => false

/-- Whether an address lies in a CHANNEL region, whose lines carry a state (R229). -/
def inChannel (p : Part) (va : Addr) : Bool :=
  match regionAt p (vaNat va) with
  | some (_, r) => decide (mwMode r.mode = 1)
  | none => false

/-! ## Format selectors (R70) -/

/-- The entry index that a 7-bit selector names, with the loop indexes in force (R70). -/
def resolveSel (l : Vector (BitVec 32) 4) (sel : Nat) : Nat :=
  if sel < 64 then sel % 16
  else ((l.toList.getD (sel / 16 % 4) 0).toNat + sel % 16) % 16

/-- Entry i of the bay's format table. -/
def Bay.fmtAt (b : Bay) (i : Nat) : BitVec 32 := b.fmt.toList.getD i 0

/-- Scale register i of the bay. -/
def Bay.scAt (b : Bay) (i : Nat) : BitVec 32 := b.sc.toList.getD i 0

/-! ## Shape fields -/

/-- A field of a shape register: register, lowest bit, width. -/
structure ShapeField where
  reg : Nat
  lo : Nat
  len : Nat
deriving DecidableEq, Repr

/-- The fields of a level of the mx shapes, by f (R175). -/
def mxLevelField (f : Nat) : Option (Nat × Nat) :=
  match f with
  | 0 => some (0, 16)
  | 1 => some (16, 20)
  | 2 => some (36, 20)
  | 3 => some (56, 5)
  | 4 => some (61, 1)
  | 5 => some (62, 11)
  | 6 => some (73, 11)
  | _ => none

/-- The shadow fields of the mx shapes by index (R175). -/
def mxField (i : Nat) : Option ShapeField :=
  if i < 42 then
    (mxLevelField (i % 7)).map (fun x => ⟨i / 7 / 3, 84 * (i / 7 % 3) + x.1, x.2⟩)
  else
    match i with
    | 48 => some ⟨2, 0, 19⟩
    | 49 => some ⟨2, 19, 19⟩
    | 50 => some ⟨2, 38, 1⟩
    | 51 => some ⟨2, 39, 1⟩
    | 52 => some ⟨2, 40, 7⟩
    | 53 => some ⟨2, 47, 7⟩
    | 54 => some ⟨2, 54, 4⟩
    | 55 => some ⟨2, 58, 7⟩
    | 56 => some ⟨2, 65, 32⟩
    | 57 => some ⟨2, 97, 32⟩
    | 58 => some ⟨2, 129, 19⟩
    | 59 => some ⟨2, 148, 19⟩
    | 60 => some ⟨2, 167, 48⟩
    | 64 => some ⟨3, 0, 21⟩
    | 65 => some ⟨3, 21, 21⟩
    | 66 => some ⟨3, 42, 2⟩
    | 67 => some ⟨3, 44, 7⟩
    | 68 => some ⟨3, 51, 7⟩
    | 69 => some ⟨3, 58, 7⟩
    | 70 => some ⟨3, 65, 32⟩
    | 71 => some ⟨3, 97, 32⟩
    | 72 => some ⟨3, 129, 32⟩
    | 73 => some ⟨3, 161, 16⟩
    | 74 => some ⟨3, 177, 21⟩
    | 75 => some ⟨3, 198, 32⟩
    | 76 => some ⟨3, 230, 1⟩
    | 77 => some ⟨3, 231, 1⟩
    | _ => none

/-- The shadow fields of a walker's shapes by index (R239, R240). -/
def wkField (i : Nat) : Option ShapeField :=
  match i with
  | 0 => some ⟨0, 0, 4⟩
  | 1 => some ⟨0, 4, 2⟩
  | 2 => some ⟨0, 6, 32⟩
  | 3 => some ⟨0, 38, 40⟩
  | 4 => some ⟨1, 0, 4⟩
  | 5 => some ⟨1, 4, 2⟩
  | 6 => some ⟨1, 6, 32⟩
  | 7 => some ⟨1, 38, 40⟩
  | 8 => some ⟨2, 0, 20⟩
  | 9 => some ⟨2, 20, 20⟩
  | 10 => some ⟨2, 40, 1⟩
  | 11 => some ⟨2, 41, 1⟩
  | 12 => some ⟨2, 42, 1⟩
  | 13 => some ⟨2, 44, 64⟩
  | 14 => some ⟨2, 108, 32⟩
  | 15 => some ⟨2, 140, 32⟩
  | 16 => some ⟨3, 0, 72⟩
  | 17 => some ⟨3, 72, 40⟩
  | _ => none

/-- The shape fields of a shape-write unit: 0 mx, 1 wk0, 2 wk1 (R71). -/
def shapeField (unit : Nat) (i : Nat) : Option ShapeField := if unit = 0 then mxField i else wkField i

/-! ## Access control values (R380) -/

/-- SZ of a control value: bytes of the access. -/
def ctlBytes (c : Word) : Nat := 2 ^ bits c 0 2

/-- SX of a control value. -/
def ctlSigned (c : Word) : Bool := bitAt c 2

/-- Whether the reserved bits of a control value are zero. -/
def ctlOk (c : Word) : Bool := decide (bits c 3 61 = 0)

/-! ## Command words (R103) -/

/-- OPF bits of a command word: lowest bit lo of the word, n bits. -/
def opf (w : BitVec 72) (lo n : Nat) : Nat := bits w lo n

/-- SWAP of a command word. -/
def swapBit (w : BitVec 72) : Bool := bitAt w 24

/-- A peg field's set: 63 is none. -/
def pegNone (n : Nat) : Bool := decide (n = 63)

end Sys2Proof.Machine
end

