-- ==== Sys2Proof/Machine/Flags.lean ====
section
/-!
DEFINITION. The scale registers as flags: E, CENSUS, SAT and LEARNED (R69, R138), the exponent adjustment and the scaled
write (R140, R142, R146), and the result of a reduction in a scale register (R158).
-/

namespace Sys2Proof.Machine

/-- E of a scale register (R69). -/
def scE (r : BitVec 32) : Int := sbits r 0 8
/-- CENSUS of a scale register (R69). -/
def scCensus (r : BitVec 32) : Nat := bits r 8 6
/-- SAT of a scale register (R69). -/
def scSat (r : BitVec 32) : Bool := bitAt r 14
/-- LEARNED of a scale register (R69). -/
def scLearned (r : BitVec 32) : Bool := bitAt r 15

/-- FMT of a scale register (R69). -/
def scFmt (r : BitVec 32) : Nat := bits r 16 4

/-- A scale register with E replaced (R69). -/
def setE (r : BitVec 32) (e : Int) : BitVec 32 := setBits r 0 8 (BitVec.ofInt 8 e).toNat

/-- A scale register with CENSUS replaced. -/
def setCensus (r : BitVec 32) (c : Nat) : BitVec 32 := setBits r 8 6 c

/-- A scale register with SAT set if p (R146: hardware never clears it). -/
def orSat (r : BitVec 32) (p : Bool) : BitVec 32 := if p then r ||| 0x4000 else r

/-- The exponent in force of a write that starts a tensor, and whether the rule held e at 127 (R140). -/
def adjustedE (r : BitVec 32) : Int × Bool :=
  if scLearned r ∨ scFmt r = 4 then (scE r, false)
  else
    let e := if scCensus r < 1 then scE r + 1 else if scCensus r > 2 then scE r - 1 else scE r
    if e > 127 then (127, true) else if e < -127 then (-127, false) else (e, false)

/-- The exponent of a scaled write, CONT 0 or 1 (R140, R181, R400). -/
def writeE (r : BitVec 32) (cont : Bool) : Int × Bool := if cont then (scE r, false) else adjustedE r

/-- The scale register after a scaled write (R140, R181, R400): exponent, census of the values written, any clamp. -/
def scaledReg (r : BitVec 32) (cont : Bool) (e : Int) (cen : Option Int) (sat : Bool) : BitVec 32 :=
  let r1 := orSat (setE r e) sat
  match cen with
  | none => r1
  | some c => setCensus r1 (if cont then min (scCensus r) c.toNat else c.toNat)

/-- What SYSW stores in a scale register (R9, R138, R434): reserved bits zero, an E of -128 stored as -127. -/
def syswScale (v : Word) : BitVec 32 :=
  let r : BitVec 32 := v.setWidth 32 &&& 0x000FFFFF
  if bits r 0 8 = 0x80 then setBits r 0 8 0x81 else r

/-- What SYSW stores in a format entry (R9, R70, R434). -/
def syswFmt (v : Word) : BitVec 32 := v.setWidth 32 &&& 0x00003FFF

/-- Scale register i replaced. -/
def Bay.setSc (b : Bay) (i : Nat) (r : BitVec 32) : Bay := { b with sc := b.sc.setIfInBounds i r }

/-- Whether a scaled write naming a register is in flight in a cycle (R142). -/
def Bay.scaleBusy (b : Bay) (i now : Nat) : Bool :=
  b.scaling.any (fun x => decide (x.reg = i) && decide (now ≤ x.last))

/-- The kerf value of an element by its logical index (R140, R147). -/
def kerfAt (b : Bay) (stream index : Nat) : Word := kerf b.kseed stream 0 index

end Sys2Proof.Machine
end

