-- ==== Sys2Proof/Machine/Links.lean ====
section
/-!
DEFINITION. Chips and routes of the pod (R305 to R307), the sending of flits (R311), the link slot tables (R310), and tier 5
requests (R312).
-/

namespace Sys2Proof.Machine

/-- Coordinate of a physical chip id in a dimension, 0 for X (R305). -/
def chipCoord (phys d : Nat) : Nat := phys / 16 ^ d % 16

/-- Ring distance from a to b in a dimension of size n, and whether the way is the + direction (R306). -/
def ringWay (n a b : Nat) : Nat × Bool :=
  let up := (b + n - a % n) % n
  if 2 * up ≤ n then (up, true) else (n - up, false)

/-- Physical chip of a logical chip (R307). -/
def State.physOf (s : State) (f : FabHeader) (lchip : Nat) : Nat := bits (s.chipEntry f lchip) 0 12

/-- Hops between two physical chips (R306). -/
def FabHeader.hops (f : FabHeader) (a b : Nat) : Nat :=
  ((List.range 3).map (fun d => (ringWay (f.dim d) (chipCoord a d) (chipCoord b d)).1)).foldl (· + ·) 0

/-- The port towards a neighbour. -/
def portOf (d : Nat) (up : Bool) : Port :=
  match d, up with
  | 0, true => .xp
  | 0, false => .xm
  | 1, true => .yp
  | 1, false => .ym
  | _, true => .zp
  | _, false => .zm

/-- Index of a port, in the order of the link slot tables (R309). -/
def portIdx : Port → Fin 6
  | .xp => 0
  | .xm => 1
  | .yp => 2
  | .ym => 3
  | .zp => 4
  | .zm => 5

/-- The port by which a value for physical chip b leaves physical chip a (R306): none where they are one chip. -/
def FabHeader.firstPort (f : FabHeader) (a b : Nat) : Option Port :=
  (([0, 1, 2] : List Nat).find? (fun d => (ringWay (f.dim d) (chipCoord a d) (chipCoord b d)).1 ≠ 0)).map
    (fun d => portOf d (ringWay (f.dim d) (chipCoord a d) (chipCoord b d)).2)

/-- The physical chip that a port leads to (R305). -/
def FabHeader.neighbour (f : FabHeader) (a : Nat) (p : Port) : Nat :=
  let step (d : Nat) (up : Bool) : Nat :=
    let c := chipCoord a d
    let n := f.dim d
    a - c * 16 ^ d + (if up then (c + 1) % n else (c + n - 1) % n) * 16 ^ d
  match p with
  | .xp => step 0 true
  | .xm => step 0 false
  | .yp => step 1 true
  | .ym => step 1 false
  | .zp => step 2 true
  | .zm => step 2 false

/-- An output of the chip. -/
def State.emit (s : State) (o : Out) : State := { s with outs := s.outs ++ [o] }

/-- A flit leaves by a port under the next number and enters the replay buffer of 512 flits (R311). -/
def State.sendFlit (s : State) (p : Port) (x : Flit) : State :=
  let i := portIdx p
  let l := s.links.get i
  { (s.emit (.flit p l.next x)) with
    links := s.links.set i.val { l with next := l.next + 1, replay := ((l.next, x) :: l.replay).take 512 } i.isLt }

/-- A message of n flits for a logical chip, by the first port of its route (R306). A request of the chip's own for a tier 5 page of its own
is served in the cycle of its sending. -/
def State.sendChip (s : State) (f : FabHeader) (chip n : Nat) (m : Msg) : State :=
  match f.firstPort (s.physOf f f.lchip) (s.physOf f chip), m with
  | some p, _ => (List.range n).foldl (fun acc i => acc.sendFlit p ⟨chip, m, i, n⟩) s
  | none, .tier5 r => if chip = f.lchip then { s with inputs := s.inputs ++ [(s.clock, .event (.tier5Request r))] }
      else s.emit (.twin chip m)
  | none, _ => if chip = f.lchip then s else s.emit (.twin chip m)

/-- Flit times that a flit takes at a port, fewer lanes taking more (R338). -/
def Link.perFlit (l : Link) : Nat := 24 / l.width

/-- A parcel joins those that wait at a port (R310). -/
def State.enqueue (s : State) (p : Port) (use : FlitUse) (q : PartId) (ready : Nat) (x : Parcel) : State :=
  let i := portIdx p
  let l := s.links.get i
  { s with links := s.links.set i.val { l with waiting := l.waiting ++ [⟨use, q, ready, s.clock, l.perFlit, x⟩] } i.isLt }

/-- A message of n flits of a partition for a logical chip waits at the port of its route for flit times of a use; one for this physical
chip needs none. -/
def State.sendBy (s : State) (use : FlitUse) (q : PartId) (ready n : Nat) (f : FabHeader) (chip : Nat) (m : Msg) : State :=
  match f.firstPort (s.physOf f f.lchip) (s.physOf f chip) with
  | some p => s.enqueue p use q ready (.flits chip m 0 n)
  | none => s.sendChip f chip n m

/-- Flits of 256 bytes that n bytes and a header of 16 take (R318). -/
def flitsFor (n : Nat) : Nat := (16 + n + 255) / 256

/-- Bytes that a message of a remote access carries. -/
def msgPayload (m : Msg) : Nat :=
  match m with
  | .tier5 r =>
    (match r.kind with
      | .write d => d.length
      | .read _ | .atomic _ _ | .fetchAdd _ | .claim => 0)
  | .tier5Answer _ _ d => d.length
  | .scarfData _ _ _ d => d.length
  | .unit _ _ _ _ => 65536
  | .node _ | .verdict _ | .scarfRead _ | .scarfError _ _ _ | .offset _ _ _ | .tables _ _ | .checked _ _ | .ptp _
  | .lost _ => 0

/-- A remote access of a partition (R310, R312): it waits for 0x41 flit times, at the earliest in pole cycle ready. -/
def State.remoteSend (s : State) (q : PartId) (ready : Nat) (f : FabHeader) (chip : Nat) (m : Msg) : State :=
  s.sendBy .remote q ready (flitsFor (msgPayload m)) f chip m

/-- The region of a connection that holds n bytes from an offset (R331): the host address of the first. -/
def State.hostAddr (s : State) (conn off n : Nat) : Option Nat :=
  match s.yard.conns.find? (fun c => decide (c.num = conn)) with
  | none => none
  | some c =>
    match c.region with
    | none => none
    | some r => if off + n ≤ r.2.2 * 65536 then some (r.1.toNat + off) else none

/-- Bytes of the region of a connection; none beyond it (R331). -/
def State.hostGet (s : State) (conn off n : Nat) : Option (List Byte) :=
  (s.hostAddr conn off n).map (fun a => Mem.readN s.hostMem a n)

/-- What flash holds behind a queue pair. -/
def State.flashOf (s : State) (pair : Nat) : Mem := assocGet [] s.flash pair

/-- Bytes written to flash. -/
def State.flashPut (s : State) (pair off : Nat) (data : List Byte) : State :=
  { s with flash := assocSet [] s.flash pair (Mem.writeN (s.flashOf pair) off data) }

/-- Bytes written to the region of a connection; none beyond it (R331). -/
def State.hostPut (s : State) (conn off : Nat) (data : List Byte) : Option State :=
  (s.hostAddr conn off data.length).map (fun a =>
    { (s.emit (.hostWrite conn off data)) with hostMem := Mem.writeN s.hostMem a data })

/-- USE of entry i of a port's merged link slot table (R310): 0xFF is idle. -/
def State.linkUse (s : State) (p : Port) (i : Nat) : Nat :=
  bits (assocGet (0x00FF : BitVec 16) s.linkTab ((portIdx p).val * 2 ^ 20 + i)) 0 8

/-- Owning partition of entry i of a port's merged link slot table (R310). -/
def State.linkPart (s : State) (p : Port) (i : Nat) : Nat :=
  bits (assocGet (0x00FF : BitVec 16) s.linkTab ((portIdx p).val * 2 ^ 20 + i)) 8 3

/-- The whole 16-byte cells that hold n bytes at an address: the first, and their bytes. A tier 5 read asks for them, since the bay's own
atomics act on cells (R214, R230). -/
def cellSpan (pa n : Nat) : Nat × Nat := (pa / 16 * 16, (pa % 16 + n + 15) / 16 * 16)

/-- The pole cycle in which a tier 5 access of a kind performs, or from which its write is visible (R213, R214). -/
def State.tier5Stamp (s : State) (b : BayId) (va : Addr) (k : Tier5Kind) : Nat :=
  match k with
  | .write _ | .atomic _ _ => s.poleTime b + 1
  | .read _ | .fetchAdd _ | .claim =>
    s.poleTime b + ((findEntry (s.partAt b).tt (vaNat va)).map (fun x => tierLatency b x.2)).getD 0

/-- Sends the request of a tier 5 access to the home of its page (R312). -/
def State.tier5Send (s : State) (b : BayId) (id : Nat) (va : Addr) (pl : Place) (k : Tier5Kind) : State :=
  match pl, (s.partAt b).fab, s.partOf b with
  | .chip c t pa, some f, some q =>
    let send (a : Nat) (x : Tier5Kind) : State :=
      s.remoteSend q (s.poleTime b + 10) f c
        (.tier5 ⟨f.lchip, b.val, placedMode (s.partAt b) va, s.tier5Stamp b va k, id, va, Fin.ofNat 8 t, a, x⟩)
    (match k with
      | .read n => send (cellSpan pa n).1 (.read (cellSpan pa n).2)
      | .write _ | .atomic _ _ | .fetchAdd _ | .claim => send pa k)
  | _, _, _ => s

/-- Pole cycle t + 10, in which the request of a tier 5 read triggered in pole cycle t enters its link slot, is one of an entry for remote
accesses that the partition owns, on the first port of the route (R310, R312, R338, log 103). -/
def State.remoteSlot (s : State) (q : PartId) (pl : Place) : Bool :=
  let p := s.part q
  match pl, p.fab with
  | .chip c _ _, some f =>
    match f.firstPort (s.physOf f f.lchip) (s.physOf f c) with
    | some port =>
      let e := (p.time + 10) % 2 ^ p.hdr.fexp / 64
      decide (s.linkUse port e = 0x41) && decide (s.linkPart port e = q.val)
    | none => true
  | _, _ => true

/-- A tier 5 access of a bay that asks at its trigger lies within the slots that the partition owns. -/
def State.remoteOk (s : State) (b : BayId) (pl : Place) : Bool :=
  match s.partOf b with
  | some q => s.remoteSlot q pl
  | none => true

end Sys2Proof.Machine
end

