-- ==== Sys2Proof/Machine/Va.lean ====
section
/-!
DEFINITION. An instruction's access to a virtual address, shared by LDG, STG, LDC, STP, the atomics, FETCHADD and HAND: the
checks at trigger (R203, R253, R287), the claim of its slot (R194, R470), its count and sample (R207, R208), and its entry in
flight (R213, R214).
-/

namespace Sys2Proof.Machine

/-- What distinguishes the VA operations. -/
structure VaOp where
  /-- Trigger port id. -/
  id : Nat
  kind : AccKind
  region : RKind
  need : Need
  gated : Bool
  /-- TYPE of R208: none for HAND, which R207 does not count. -/
  sample : Option Nat
  port : Option ResPort

/-- Entries of a bay's bookkeeping table in use (R253). -/
def Access.booked (a : Access) : Bool :=
  match a.kind with
  | .ldg | .stg | .ldc | .stp | .atomic _ | .fetchAdd | .hand => true
  | .ld | .st | .ldv | .stv | .hlook | .opt _ _ _ _ => false

/-- A tier 5 read or a walk of the bay is under way: what the bay sends to other chips it must still see in what comes from there (R214). -/
def Bay.awaitsFar (b : Bay) : Bool :=
  b.acc.any (fun a =>
    match a.place with
    | some (.chip _ _ _) => true
    | some (.ring _ _) | some (.lpddr _ _) | none => false) || b.walks.toList.any (fun l => !l.isEmpty)

/-- A bay by its number. -/
def State.bayN (s : State) (n : Nat) : Bay := s.bay (Fin.ofNat 192 n)

/-- Bookkeeping entries that a bay holds: VA accesses, walker units, and lines of SEND and RECV (R253). For a trigger of the cycle in which an
access performs, a read holds its entry no longer, while a write or a landing still does (log 102). -/
def State.booked (s : State) (b : BayId) : Nat :=
  let x := s.bay b
  let units := ((x.walks.toList).map (fun l => (l.map (fun w => w.units.length)).sum)).sum
  let sent := ((List.range 24).map (fun q =>
    ((s.bayN (24 * (bentOf b).val + q)).arriving.filter (fun l => decide (l.sender = b.val))).length)).sum
  (x.acc.filter Access.booked).length + units + x.arriving.length + sent

/-- The in-flight limit (R253). -/
def State.inFlightFull (s : State) (b : BayId) : Bool := decide (s.half b 8192 ≤ s.booked b)

/-- The checks of R203, R381, R429, R347 and R369 on a VA access of size bytes: the translated address and the claim made. -/
def vaCheck (s : State) (b : BayId) (o : VaOp) (size : Nat) (va : Addr) : Except (Cause × Info) (Xlat × List Claim) :=
  let p := s.partAt b
  match translate p va o.need false with
  | .error e => .error e
  | .ok x =>
    if teStier x.raw < 3 ∨ 5 < teStier x.raw then .error (.range, vaInfo va)
    else if vaNat va % size ≠ 0 then .error (.range, vaInfo va)
    else if !regionOk p b o.region va then .error (.region, vaInfo va)
    else
      match slotCheck p b x va p.time with
      | .error e => .error e
      | .ok cl => if o.gated || s.remoteOk b x.place then .ok (x, cl) else .error (.slot, vaInfo va)

/-- The timing faults that no entry lists, which rank before those of the operation (R106): result collision where the page gives a
latency (R64), gated writes of the window (R287), entries in flight (R253). -/
def vaLimits (s : State) (b : BayId) (o : VaOp) (va : Addr) : Check :=
  let coll : Check :=
    match o.port, translate (s.partAt b) va o.need false with
    | some p, .ok x => s.collision p true (tierLatency b x.raw) o.id
    | _, _ => none
  Check.andThen coll
    (if o.gated && decide (1024 ≤ (s.bay b).window.gstores) then some (.windowOverflow, 2)
    else if s.inFlightFull b then some (.inFlightLimit, 0)
    else none)

/-- A sample is committed: its counter goes up, saturating, and its record joins the queue, or is dropped and counted where that is full
(R207, R208). -/
def Part.commitSample (p : Part) (r : HotRec) : Part :=
  let hot := assocSet 0 p.hot r.hot (min 65535 (assocGet 0 p.hot r.hot + 1))
  if p.hotQueue.length < 256 then { p with hot := hot, hotQueue := p.hotQueue ++ [r] }
  else { p with hot := hot, hotDropped := p.hotDropped + 1 }

/-- A VA access counted, and sampled when its number, the count before it, says so (R207, log 102). A sample of what a window holds is
committed with the window, any other at once. -/
def State.sampleVa (s : State) (b : BayId) (held : Bool) (typ : Nat) (va : Addr) (raw : BitVec 128) : State :=
  let x := s.bay b
  let p := s.partAt b
  let s1 := s.onBay b (fun y => { y with counted := y.counted + 1 })
  let k := p.mem.sampk
  let r : HotRec := ⟨p.polec, typ, b.val, teHot raw, p.framec % 4096, va⟩
  match s.partOf b, decide (k ≠ 0) && decide (x.counted % 2 ^ k = 2 ^ k - 1) with
  | some q, true =>
    if held ∧ x.mode = .running then
      s1.onBay b (fun y => { y with window := { y.window with samples := y.window.samples ++ [r] } })
    else s1.onPart q (fun y => y.commitSample r)
  | _, _ => s1

/-- Claims added to the partition of a bay (R194, R470). -/
def State.claim (s : State) (b : BayId) (cl : List Claim) : State :=
  match s.partOf b with
  | none => s
  | some q => s.onPart q (fun p => { p with claims := cl ++ p.claims })


/-- A VA access enters flight: claim, count, entry in the access list, a gated write in the buffer, a result on its port.
The request of a tier 5 read or FETCHADD leaves at once (R312). -/
def State.vaStart (s : State) (b : BayId) (o : VaOp) (size : Nat) (signed : Bool) (va : Addr) (data : VReg) (x : Xlat)
    (cl : List Claim) (value : Option VReg) (g : Option GEffect) (t5 : Option Tier5Kind) : State :=
  let t := s.poleTime b
  let lat := tierLatency b x.raw
  let id := (s.bay b).nextId
  let win := (s.bay b).window.num
  let a : Access := ⟨id, o.kind, va, size, signed, data, 0, false, false, x.entry, some x.place, o.port, t + lat, win, t⟩
  let s1 := s.claim b cl
  let s2 := match o.sample with
    | some typ => s1.sampleVa b true typ va x.raw
    | none => s1
  let s3 := s2.onBay b (fun y =>
    let y1 := { y with acc := y.acc ++ [a], nextId := y.nextId + 1 }
    let y2 := match g with
      | some e => { y1 with
          gbuf := y1.gbuf ++ [⟨id, va, size, x.entry, none, win, e, [], 0, false⟩]
          window := { y1.window with gstores := y1.window.gstores + 1 } }
      | none => y1
    match o.port with
    | some p => y2.push ⟨p, t, t + lat, true, value⟩
    | none => y2)
  match t5 with
  | some k => s3.tier5Send b id va x.place k
  | none => s3

/-- The whole check of a VA operation: the timing faults, the check of its control value, those of its VA, and its last ones. -/
def vaChk (s : State) (o : VaOp) (first : Check) (size : Nat) (va : Addr) (last : Check) : Check :=
  Check.andThen (vaLimits s s.cur o va)
    (Check.andThen first
      (match vaCheck s s.cur o size va with
        | .error e => some e
        | .ok _ => last))

/-- The start of a VA operation whose check passed. -/
def State.vaGo (s : State) (o : VaOp) (size : Nat) (signed : Bool) (va : Addr) (data : VReg) (value : Option VReg)
    (g : Option (Place → GEffect)) (t5 : Option Tier5Kind) : State :=
  match vaCheck s s.cur o size va with
  | .error _ => s
  | .ok (x, cl) => s.vaStart s.cur o size signed va data x cl value (g.map (fun e => e x.place)) t5

end Sys2Proof.Machine
end

