-- ==== Sys2Proof/Machine/Lsu.lean ====
section
/-!
DEFINITION. The load-store units lsu0 and lsu1: ADDA, SUBA (R343), LD, LDG, LDC (R380 to R382), ST, STG, STP (R428 to R430).
-/

namespace Sys2Proof.Machine

/-- lsu.r. -/
def lsuR (u : Fin 2) : ResPort := if u.val = 0 then .lsu0R else .lsu1R
/-- lsu.ar. -/
def lsuAr (u : Fin 2) : ResPort := if u.val = 0 then .lsu0Ar else .lsu1Ar
/-- lsu.a. -/
def lsuA (u : Fin 2) : OpPort := if u.val = 0 then .lsu0A else .lsu1A
/-- lsu.d. -/
def lsuD (u : Fin 2) : OpPort := if u.val = 0 then .lsu0D else .lsu1D
/-- Trigger port id of lsu operation k (R98). -/
def lsuId (u : Fin 2) (k : Nat) : Nat := 400 + 16 * u.val + k

/-- An address stepped in bits [63:0], its address-space id kept (R343). -/
def stepAddr (a : Addr) (y : Word) : Addr := (a &&& (0xFF0000000000000000 : BitVec 72)) ||| y.setWidth 72

/-- The control value of an lsu (R380). -/
def Bay.ctlOf (b : Bay) (u : Fin 2) : Word := b.opW (lsuA u)

/-- The control-value check of R381 and R429. -/
def ctlChk (u : Fin 2) (id : Nat) (s : State) : Check :=
  if ctlOk (s.me.ctlOf u) then none else some (.reservedField, BitVec.ofNat 72 id)

/-- The address and alignment checks of LD and ST: the local offset is t[63:0] (R381, R429). -/
def localChk (size : Nat) (t : Word) (s : State) : Check :=
  if s.storeSize s.cur .scratch < t.toNat + size then some (.range, t.setWidth 72)
  else if t.toNat % size ≠ 0 then some (.range, t.setWidth 72)
  else none

/-- A local access of n bytes enters flight: it performs 4 cycles after its trigger on the bay's clock (R213). -/
def State.localStart (s : State) (kind : AccKind) (addr : Addr) (n : Nat) (signed : Bool) (data : VReg) (mask : MaskReg)
    (port : Option ResPort) (lat : Nat) : State :=
  let now := s.myNow
  s.onMe (fun b =>
    let a : Access := ⟨b.nextId, kind, addr, n, signed, data, mask, false, false, 0, none, port, now + lat, b.window.num,
      s.poleTime s.cur⟩
    let b1 := { b with acc := b.acc ++ [a], nextId := b.nextId + 1 }
    match port with
    | some p => b1.push ⟨p, now, now + lat, false, none⟩
    | none => b1)

/-- An lsu operation on an address: f takes the address operand of the unit and the moved value (R343). -/
def addrOp (c : Ctl) (u : Fin 2) (k : Nat) (f : Word → Word → Word) (s : State) : State :=
  s.trigger c (lsuId u k) (lsuAr u) 1 noCheck (fun v b =>
    let a := b.opA72 (lsuA u)
    (stepAddr a (f (a.setWidth 64) v.word)).setWidth 2048)

/-- ADDA (R343). -/
def execAdda (c : Ctl) (u : Fin 2) (s : State) : Step := .next (addrOp c u 0 (fun a t => a + t) s)

/-- SUBA (R343). -/
def execSuba (c : Ctl) (u : Fin 2) (s : State) : Step := .next (addrOp c u 1 (fun a t => a - t) s)

/-- LD (R380, R381): zero- or sign-extended bytes on lsu.r in the perform cycle. -/
def execLd (c : Ctl) (u : Fin 2) (s : State) : Step :=
  .next (s.move c
    (fun v t => Check.andThen (t.collision (lsuR u) false 4 (lsuId u 2))
      (Check.andThen (ctlChk u (lsuId u 2) t) (localChk (ctlBytes (t.me.ctlOf u)) v.word t)))
    (fun v t => t.localStart .ld (v.word.setWidth 72) (ctlBytes (t.me.ctlOf u)) (ctlSigned (t.me.ctlOf u)) 0 0
      (some (lsuR u)) 4))

/-- ST (R428, R429): the low bytes of lsu.d, performing 4 cycles on. -/
def execSt (c : Ctl) (u : Fin 2) (s : State) : Step :=
  .next (s.move c
    (fun v t => Check.andThen (ctlChk u (lsuId u 3) t) (localChk (ctlBytes (t.me.ctlOf u)) v.word t))
    (fun v t => t.localStart .st (v.word.setWidth 72) (ctlBytes (t.me.ctlOf u)) false (t.me.op (lsuD u)) 0 none 4))

/-- LDG and LDC as VA operations. -/
def loadOp (u : Fin 2) (consume : Bool) : VaOp :=
  ⟨lsuId u (if consume then 6 else 4), if consume then .ldc else .ldg, if consume then .ldc else .ldg, ⟨true, false, false⟩,
    false, some (if consume then 2 else 0), some (lsuR u)⟩

/-- STG and STP as VA operations. -/
def storeOp (u : Fin 2) (produce : Bool) : VaOp :=
  ⟨lsuId u (if produce then 7 else 5), if produce then .stp else .stg, if produce then .stp else .stg, ⟨false, true, false⟩,
    true, some (if produce then 3 else 1), none⟩

/-- A load from a virtual address (R380, R381). The change of line state by an LDC is none of the gated writes of R214. -/
def loadVa (c : Ctl) (u : Fin 2) (consume : Bool) (s : State) : State :=
  let o := loadOp u consume
  s.move c
    (fun v t => vaChk t o (ctlChk u o.id t) (ctlBytes (t.me.ctlOf u)) v.addr none)
    (fun v t => t.vaGo o (ctlBytes (t.me.ctlOf u)) (ctlSigned (t.me.ctlOf u)) v.addr 0 none none
      (some (.read (ctlBytes (t.me.ctlOf u)))))

/-- A store to a virtual address (R428 to R430): a gated write. -/
def storeVa (c : Ctl) (u : Fin 2) (produce : Bool) (s : State) : State :=
  let o := storeOp u produce
  s.move c
    (fun v t => vaChk t o (ctlChk u o.id t) (ctlBytes (t.me.ctlOf u)) v.addr none)
    (fun v t =>
      let n := ctlBytes (t.me.ctlOf u)
      let d := leBytes n (t.me.opW (lsuD u)).toNat
      t.vaGo o n false v.addr (t.me.op (lsuD u)) none
        (some (fun pl => if produce then .lineFull (vaNat v.addr / 128) pl d else .bytes pl d)) none)

/-- LDG (R380). -/
def execLdg (c : Ctl) (u : Fin 2) (s : State) : Step := .next (loadVa c u false s)

/-- STG (R428). -/
def execStg (c : Ctl) (u : Fin 2) (s : State) : Step := .next (storeVa c u false s)

/-- LDC (R380). -/
def execLdc (c : Ctl) (u : Fin 2) (s : State) : Step := .next (loadVa c u true s)

/-- STP (R428). -/
def execStp (c : Ctl) (u : Fin 2) (s : State) : Step := .next (storeVa c u true s)

end Sys2Proof.Machine
end

