-- ==== Sys2Proof/Machine/Shape.lean ====
section
/-!
DEFINITION. What a walk's command says of its units (R239, R241, R242, R247): ends, bases, clipping, and where each unit's bytes come from
and go to.
-/

namespace Sys2Proof.Machine

/-- The bay at a logical position of the bent of b. -/
def peerBay (b : BayId) (q : Nat) : BayId := Fin.ofNat 192 (24 * (bentOf b).val + q)

/-! ## A walk's shape -/

/-- An end of a walk (R239): space, signed row stride, register of the base and offset added to it. -/
structure WEnd where
  sp : Nat
  str : Int
  reg : Nat
  off : Int
deriving DecidableEq, Repr

/-- The source, or destination, end of a shape set (R239). -/
def wEnd (sh : Vector Shape 4) (dst : Bool) : WEnd :=
  let r : Shape := if dst then sh.get 1 else sh.get 0
  ⟨bits r 4 2, sbits r 38 40, bits r 0 4, sbits r 6 32⟩

/-- The end of a command. -/
def Cmd.wend (c : Cmd) (dst : Bool) : WEnd := wEnd c.sh dst

/-- The base of an end of a command (R241). -/
def Cmd.wbase (c : Cmd) (dst : Bool) : Addr := if dst then c.a1 else c.a0

/-- ROWB. -/
def Cmd.rowB (c : Cmd) : Nat := bits (c.sh.get 2) 0 20 + 1
/-- Rows. -/
def Cmd.nrows (c : Cmd) : Nat := bits (c.sh.get 2) 20 20 + 1
/-- CLIP. -/
def Cmd.clip (c : Cmd) : Bool := bitAt (c.sh.get 2) 40
/-- CSIDE: the destination is the clip side. -/
def Cmd.cside (c : Cmd) : Bool := bitAt (c.sh.get 2) 41
/-- FILL. -/
def Cmd.fill (c : Cmd) : Bool := bitAt (c.sh.get 2) 42
/-- TBASE. -/
def Cmd.tbase (c : Cmd) : Nat := bits (c.sh.get 2) 44 64
/-- TROWS. -/
def Cmd.trows (c : Cmd) : Nat := bits (c.sh.get 2) 108 32
/-- TCOLB. -/
def Cmd.tcolb (c : Cmd) : Nat := bits (c.sh.get 2) 140 32
/-- GVA. -/
def Cmd.gva (c : Cmd) : Addr := (c.sh.get 3).extractLsb' 0 72
/-- RSTEP. -/
def Cmd.rstep (c : Cmd) : Int := sbits (c.sh.get 3) 72 40

/-- The command is a WALKM (R102). -/
def Cmd.isM (c : Cmd) : Bool := decide (c.op = 265) || decide (c.op = 273)

/-- CROWS: every row of a WALK is common. -/
def Cmd.crows (c : Cmd) : Nat := if c.isM then bits c.word 49 20 else c.nrows

/-- Positions of the receivers of a WALKM, ascending (R247). -/
def Cmd.receivers (c : Cmd) : List Nat := (List.range 24).filter (fun q => bitAt c.word (25 + q))

/-- The local offset of a base, or its VA[63:0] (R241). -/
def Cmd.wpos (c : Cmd) (dst : Bool) : Nat :=
  if (c.wend dst).sp = 3 then vaNat (c.wbase dst) else bits (c.wbase dst) 0 21

/-- o of R242. -/
def Cmd.clipO (c : Cmd) : Int := (c.wpos c.cside : Int) - c.tbase

/-- Units of a row. -/
def Cmd.upr (c : Cmd) : Nat := c.rowB / c.unit

/-- Units of a command (R241, R247). -/
def Cmd.units (c : Cmd) : Nat :=
  if c.isM then c.crows * c.upr + c.receivers.length * ((c.nrows - c.crows) * c.upr) else c.nrows * c.upr

/-- A unit of a walk: its row, first byte of it, the source offset of its receiver's slice, and the rank that alone receives it
(R241, R247). -/
structure WU where
  row : Nat
  c0 : Nat
  shift : Int
  only : Option Nat
deriving DecidableEq, Repr

/-- Unit i of a command. -/
def Cmd.wu (c : Cmd) (i : Nat) : WU :=
  let common := c.crows * c.upr
  if i < common then ⟨i / c.upr, i % c.upr * c.unit, 0, none⟩
  else
    let own := (c.nrows - c.crows) * c.upr
    let k := (i - common) / own
    let j := (i - common) % own
    ⟨c.crows + j / c.upr, j % c.upr * c.unit, (k : Int) * c.rstep, some k⟩

/-- Bytes of a unit that are not clipped: they lead it (R242). -/
def Cmd.live (c : Cmd) (u : WU) : Nat :=
  if c.clip then
    let str := (c.wend c.cside).str
    let ro := c.clipO / str
    let co := (c.clipO % str).toNat
    if ro + u.row ≥ c.trows then 0 else min c.unit (c.tcolb - (co + u.c0))
  else c.unit

/-- Bytes that a unit writes at its destination (R242). -/
def Cmd.writes (c : Cmd) (u : WU) : Nat :=
  if c.clip && !c.cside && c.fill then c.unit else c.live u

/-- Distance of a unit's bytes from the base of an end. -/
def Cmd.step (c : Cmd) (dst : Bool) (u : WU) : Int :=
  (c.wend dst).str * u.row + u.c0 + (if dst then 0 else u.shift)

/-- The VA of a unit at an end: bits [63:0] modulo 2^64. -/
def Cmd.wva (c : Cmd) (dst : Bool) (u : WU) : Addr :=
  let b := c.wbase dst
  (b &&& (0xFF0000000000000000 : BitVec 72)) ||| (BitVec.ofInt 64 ((vaNat b : Int) + c.step dst u)).setWidth 72

/-- The local offset of a unit at an end. -/
def Cmd.woff (c : Cmd) (dst : Bool) (u : WU) : Int := (c.wpos dst : Int) + c.step dst u

/-- The bay store of a space (R239). -/
def spStore (sp : Nat) : BayStore :=
  match sp with
  | 0 => .scratch
  | 1 => .opA
  | _ => .opB

/-- Bytes that a unit moves at an end (R242, R244). -/
def Cmd.spanAt (c : Cmd) (dst : Bool) (u : WU) : Nat := if dst then c.writes u else c.live u

/-- The bays that a unit lands in (R247): the issuing bay of a WALK, the receivers of a WALKM. -/
def Cmd.landsIn (c : Cmd) (b : BayId) (u : WU) : List BayId :=
  if c.isM then
    match u.only with
    | none => c.receivers.map (peerBay b)
    | some k => ((c.receivers.drop k).take 1).map (peerBay b)
  else [b]

end Sys2Proof.Machine
end

