-- ==== Sys2Proof/Machine/Race.lean ====
section
/-!
DEFINITION. Ordered-before among the parties of a partition and the data races of shared memory (R212, R217 to R221). A party is a logical
bay of this chip or another, the host or a peer of it, the transfer agent at work for a bay, or the yard with the fabric. What a party is
ordered after is kept as pole times by party, each increased by one, and as the numbers of single accesses that gates and rounds order (R236).
-/

namespace Sys2Proof.Machine

/-! ## Parties and clocks -/

/-- The host (peer 0), or a peer chip that reaches the device through Ethernet (R212). -/
def hostParty (peer : Nat) : Nat := 2 ^ 22 + peer % 2 ^ 16
/-- The yard, which also lands collective results (R212, R319). -/
def yardParty : Nat := 194
/-- The transfer agent at work for a bay: it takes part in no ordering but the gate's (R248). -/
def agentParty (b : BayId) : Nat := 256 + b.val
/-- A bay of another logical chip (R212, R225). -/
def remoteParty (chip bay : Nat) : Nat := 1024 + 256 * (chip % 4096) + bay % 256
/-- All the bays of another logical chip. -/
def remoteAll (chip : Nat) : Nat := remoteParty chip 254

/-- The party is a bay of another chip. -/
def isRemote (p : Nat) : Bool := decide (1024 ≤ p) && decide (p < 2 ^ 22)

/-- The party belongs to the asynchronous domain of this chip. -/
def isAsyncParty (p : Nat) : Bool := decide (192 ≤ p) && !isRemote p

/-- What a party is ordered after (R217). -/
def State.seenBy (s : State) (p : Nat) : List (Nat × Nat) := assocGet [] s.vclocks p

/-- The later of two clocks, party by party. -/
def joinClock (a b : List (Nat × Nat)) : List (Nat × Nat) :=
  b.foldl (fun acc x => assocSet 0 acc x.1 (max (assocGet 0 acc x.1) x.2)) a

/-- A party is ordered after all that a clock names, from now on. -/
def State.join (s : State) (y : Nat) (v : List (Nat × Nat)) : State :=
  if v = [] then s else { s with vclocks := assocSet [] s.vclocks y (joinClock (s.seenBy y) v) }

/-- An ordering event (R218): what x has done by pole time tx, and what x was ordered after, given as a clock. -/
def eventClock (x tx : Nat) (seen : List (Nat × Nat)) : List (Nat × Nat) := joinClock seen [(x, tx + 1)]

/-- The clock that orders the single access of a number (R236). -/
def tagClock (tag : Nat) : List (Nat × Nat) := if tag = 0 then [] else [(tag, 1)]

/-- A party is ordered after a clock from the end of this clock cycle on. -/
def State.joinLater (s : State) (y : Nat) (v : List (Nat × Nat)) : State := { s with later := s.later ++ [(y, v)] }

/-- What was put off to the end of the clock cycle. -/
def State.makeLater (s : State) : State := { s.later.foldl (fun acc x => acc.join x.1 x.2) s with later := [] }

/-- A fresh number for an access that is ordered by itself. -/
def State.freshTag (s : State) : Nat × State := (s.nextTag, { s with nextTag := s.nextTag + 1 })

/-! ## Touches -/

/-- The key of a byte of this chip's shared memory; none for a place on another chip. -/
def placeKey : Place → Option (Nat × Nat)
  | .ring t o => some (t.val, o)
  | .lpddr t a => some (8 + t.val, a)
  | .chip _ _ _ => none

/-- A pair, the later access second, that is no race whatever orders it: two reads, two accesses of one exempt kind (R221), a gate that
changes and a read, whose value is an asynchronous input (R238, R254), or a packet put into a slot that has been read (R261). -/
def Touch.exempt (a b : Touch) : Bool :=
  (!a.write && !b.write) || (decide (a.kind ≠ 0) && decide (a.kind = b.kind)) || (decide (a.kind = 3) && !b.write)
    || (decide (b.kind = 3) && !a.write) || (decide (b.kind = 4) && !a.write)

/-- Two touches of different parties to one byte, the later one second, that are no exempt pair (R221). -/
def Touch.clashes (a b : Touch) : Bool :=
  decide (a.party ≠ b.party) && decide (a.part = b.part) && decide (a.key.1 = b.key.1)
    && decide (a.key.2 < b.key.2 + b.size) && decide (b.key.2 < a.key.2 + a.size) && !a.exempt b

/-- A touch is ordered before the present access of a party that has seen v: by its party, by its whole chip, or by itself. -/
def Touch.before (a : Touch) (v : List (Nat × Nat)) : Bool :=
  decide (a.stamp < assocGet 0 v a.party) || (decide (a.tag ≠ 0) && decide (0 < assocGet 0 v a.tag))
    || (isRemote a.party && decide (a.stamp < assocGet 0 v (remoteAll ((a.party - 1024) / 256))))

/-- A later access of the same party of the asynchronous domain replaces the touch. -/
def Touch.covered (a b : Touch) : Bool :=
  isAsyncParty a.party && decide (a.party = b.party) && decide (a.part = b.part) && decide (a.kind = b.kind) && decide (a.write = b.write)
    && decide (a.key.1 = b.key.1) && decide (b.key.2 ≤ a.key.2) && decide (a.key.2 + a.size ≤ b.key.2 + b.size)

/-- A partition's program has a data race (R221). -/
def State.race (s : State) (q : PartId) : State := s.onPart q (fun p => { p with racing := true })

/-- An access to n bytes of a store noted, by a party that has seen v. It races with an earlier one that it clashes with and is not ordered
after (R221, log 24). -/
def State.noteAt (s : State) (q : PartId) (party tag : Nat) (key : Nat × Nat) (n : Nat) (write : Bool) (kind stamp : Nat)
    (v : List (Nat × Nat)) : State :=
  if n = 0 then s
  else
    let t : Touch := ⟨party, tag, q.val, key, n, write, kind, stamp⟩
    let s1 := if s.touches.any (fun a => a.clashes t && !a.before v) then s.race q else s
    { s1 with touches := if s.touches.contains t then s.touches else t :: s.touches.filter (fun a => !a.covered t) }

/-- An access to shared memory noted; one to another chip is noted there. -/
def State.noteBy (s : State) (q : PartId) (party tag : Nat) (pl : Place) (n : Nat) (write : Bool) (kind stamp : Nat)
    (v : List (Nat × Nat)) : State :=
  match placeKey pl with
  | none => s
  | some k => s.noteAt q party tag k n write kind stamp v

/-- An access of a bay noted. -/
def State.note (s : State) (b : BayId) (pl : Place) (n : Nat) (write : Bool) (kind stamp : Nat) (seen : List (Nat × Nat)) : State :=
  match s.partOf b with
  | some q => s.noteBy q b.val 0 pl n write kind stamp seen
  | none => s

/-- The partitions with a data race are stuck from the end of the clock cycle on (R5, R221). -/
def State.stickRaced (s : State) : State :=
  { s with parts := s.parts.map (fun p => if p.racing then { p with mode := .raced, racing := false } else p) }

/-! ## Stores of a bay and asynchronous walks (R23, R248) -/

/-- Code of a bay store. -/
def storeCode : BayStore → Nat
  | .scratch => 0
  | .opA => 1
  | .opB => 2

/-- The key of a byte of a bay's store. -/
def storeKey (b : BayId) (k : BayStore) (off : Nat) : Nat × Nat := (32 + 3 * b.val + storeCode k, off)

/-- Unit i of a walk has a local end, in store k of bay t, that overlaps n bytes from off. -/
def AsyncWalk.meets (w : AsyncWalk) (i : Nat) (dst : Bool) (t : BayId) (k : BayStore) (off n : Nat) : Bool :=
  let c := w.cmd
  let u := c.wu i
  let bays := if dst then c.landsIn (Fin.ofNat 192 w.bay) u else [Fin.ofNat 192 w.bay]
  decide ((c.wend dst).sp ≠ 3) && decide (spStore (c.wend dst).sp = k) && bays.contains t
    && decide (c.woff dst u < (off + n : Nat)) && decide ((off : Int) < c.woff dst u + c.spanAt dst u)

/-- A unit of a walk that has neither landed nor failed writes some of n bytes of a bay's store or, where the bay writes them, reads
some. -/
def AsyncWalk.comesTo (w : AsyncWalk) (t : BayId) (k : BayStore) (off n : Nat) (write : Bool) : Bool :=
  (List.range w.total).any (fun i => !w.landed.contains i && !w.failed.contains i
    && (w.meets i true t k off n || (write && w.meets i false t k off n)))

/-- A bay's own access to n bytes of a store: it races with the units of asynchronous walks that it is not ordered after (R221, R248). -/
def State.useStore (s : State) (b : BayId) (k : BayStore) (off n : Nat) (write : Bool) : State :=
  match s.partOf b with
  | none => s
  | some q =>
    let t : Touch := ⟨b.val, 0, q.val, storeKey b k off, n, write, 0, 0⟩
    if s.touches.any (fun a => a.clashes t && !a.before (s.seenBy b.val))
        || (s.part q).asyncs.any (fun w => w.comesTo b k off n write) then s.race q else s

/-! ## Partitions -/

/-- The logical bays of a partition. -/
def Part.bays (p : Part) : List BayId := (List.finRange 192).filter (fun b => p.hdr.bents.getLsbD (b.val / 24))

/-- The clocks of a partition's bays dropped. -/
def State.dropClocks (s : State) (q : PartId) : State :=
  { s with vclocks := s.vclocks.filter (fun x => !(decide (x.1 < 192) && (s.part q).hdr.bents.getLsbD (x.1 / 24))) }

/-- The marks of a partition's plan dropped: a plan load orders its image before every access, and a resumption what came before the
pre-emption before what comes after it (R219). -/
def State.dropTouches (s : State) (q : PartId) : State :=
  { s.dropClocks q with touches := s.touches.filter (fun t => decide (t.part ≠ q.val)) }.onPart q (fun p => { p with
    lineSeen := [], regionUse := [], regionSeen := [] })

end Sys2Proof.Machine
end

