-- ==== Sys2Proof/Machine/Engine.lean ====
section
/-!
DEFINITION. Engine commands: their entry into the queues of 16 (R76, R103), their begin conditions and pegs (R232), and
PEGCLR (R407).
-/

namespace Sys2Proof.Machine

/-- Index of the shapes of an engine: mx 0, wk0 1, wk1 2; none for the others (R71). -/
def shapeUnit : Engine → Option (Fin 3)
  | .mx => some 0
  | .wk0 => some 1
  | .wk1 => some 2
  | .gate | .coll | .scarf | .jig | .peg => none

/-- The shapes that a command captures: the shadows when its swap bit is set (R71, R103). -/
def Bay.captured (b : Bay) (u : Fin 3) (w : BitVec 72) : Vector Shape 4 :=
  if swapBit w then b.shadow.get u else b.active.get u

/-- The swap of a command (R71). -/
def Bay.swap (b : Bay) (u : Fin 3) (w : BitVec 72) : Bay :=
  if swapBit w then
    { b with active := b.active.set u.val (b.shadow.get u) u.isLt, shadow := b.shadow.set u.val (b.active.get u) u.isLt }
  else b

/-- An a-register as the issuing bundle sees it. -/
def Bay.aSeen (b : Bay) (n : Nat) : Addr := b.seen.a.toList.getD n 0

/-- The queue of an engine. -/
def Bay.queue (b : Bay) (e : Engine) : List Cmd := b.queues.get (engineIdx e)

/-- The queue of an engine replaced. -/
def Bay.setQueue (b : Bay) (e : Engine) (l : List Cmd) : Bay :=
  { b with queues := b.queues.set (engineIdx e).val l (engineIdx e).isLt }

/-- A command word captured at issue, its shapes those of unit u where it has one. -/
def State.newCmd (s : State) (op : Nat) (w : BitVec 72) (u : Option (Fin 3)) : Cmd :=
  let b := s.me
  { id := b.nextId, op := op, word := w, issued := s.myNow
    sh := match u with
      | some k => b.captured k w
      | none => .replicate 4 0
    a0 := 0, a1 := 0, fa := 0, fb := 0, fo := 0, eab := 0, unit := 0, win := b.window.num, seen := s.seenBy s.cur.val }

/-- The bits lo to lo + n - 1 of a command word. -/
def fieldMask (lo n : Nat) : BitVec 72 := BitVec.ofNat 72 ((2 ^ n - 1) * 2 ^ lo)

/-- A reserved-field check by command word: mask of the bits that must be zero, SWAP among them for an engine without shapes
(R103). -/
def wordChk (e : Engine) (op : Nat) (mask : BitVec 72) (w : BitVec 72) : Check :=
  let m := if (shapeUnit e).isSome then mask else mask ||| 0x1000000
  if w &&& m ≠ 0 then some (.reservedField, BitVec.ofNat 72 op) else none

/-- A full queue (R76). -/
def queueChk (e : Engine) (op : Nat) (s : State) : Check :=
  if 16 ≤ (s.me.queue e).length then some (.queueFull, BitVec.ofNat 72 op) else none

/-- An operation that leaves the bay is issued in a hold (R41). -/
def holdChk (s : State) : Check := if (s.partAt s.cur).held then some (.slot, 0) else none

/-- The gated write of a QPUT would be one too many for the window (R287). -/
def gatedChk (op : Nat) (s : State) : Check := if op = 281 ∧ 1024 ≤ s.me.window.gstores then some (.windowOverflow, 2) else none

/-- The timing checks of a command at its trigger, which no entry lists and which rank before the others (R106): a full queue, a
command that leaves its bay in a hold (R41), a gated write beyond those of the window (R287). -/
def commandTiming (e : Engine) (op : Nat) (leaves : Bool) (s : State) : Check :=
  Check.andThen (queueChk e op s) (Check.andThen (if leaves then holdChk s else none) (gatedChk op s))

/-- A command trigger (R76, R103): its timing checks, the reserved bits of its word, then chk on the command as captured; it enters its
queue with its swap made. leaves tells a command that acts outside its bay, mk completes the command; eff is what else its issue does to
the bay. -/
def State.command (s : State) (c : Ctl) (e : Engine) (op : Nat) (mask : BitVec 72) (leaves : Cmd → Bool)
    (mk : State → Cmd → Cmd) (chk : Cmd → State → Check) (eff : Cmd → Bay → Bay) : State :=
  s.move c
    (fun v t =>
      let cmd := mk t (t.newCmd op v.addr (shapeUnit e))
      Check.andThen (commandTiming e op (leaves cmd) t) (Check.andThen (wordChk e op mask v.addr) (chk cmd t)))
    (fun v t =>
      let cmd := mk t (t.newCmd op v.addr (shapeUnit e))
      t.onMe (fun b =>
        let b1 := match shapeUnit e with
          | some u => b.swap u v.addr
          | none => b
        eff cmd { b1.setQueue e (b1.queue e ++ [cmd]) with nextId := b.nextId + 1 }))

/-- A command that stays in its bay. -/
def inBay : Cmd → Bool := fun _ => false

/-- A command that acts outside its bay (R41). -/
def outOfBay : Cmd → Bool := fun _ => true

/-- No completion of the command beyond its word and shapes. -/
def keepCmd : State → Cmd → Cmd := fun _ c => c

/-- No check beyond the reserved bits. -/
def noCmdChk : Cmd → State → Check := fun _ _ => none

/-- No other effect at issue. -/
def noCmdEff : Cmd → Bay → Bay := fun _ b => b

/-! ## Begin (R76, R232) -/

/-- A peg is produced. -/
def Bay.pegOn (b : Bay) (n : Nat) : Bool := b.pegs.getLsbD n

/-- A command may begin in a cycle: it was issued before, and every peg it consumes is produced and not consumed by an engine
that began before it in this cycle (R232). -/
def Bay.ready' (b : Bay) (c : Cmd) (now : Nat) : Bool :=
  decide (c.issued < now) && c.consumes.all (fun n => b.pegOn n && !b.pegUse.contains n)

/-- The begin of a command: its pegs are consumed (R232). -/
def Bay.consume (b : Bay) (c : Cmd) : Bay := { b with pegUse := c.consumes ++ b.pegUse }

/-- The completion of a command: its peg is produced at the end of the cycle (R232). -/
def Bay.produce (b : Bay) (c : Cmd) : Bay :=
  if c.ppeg = 63 then b else { b with pegSet := b.pegSet ++ [c.ppeg] }

/-- The head of an engine's queue leaves it. -/
def Bay.dequeue (b : Bay) (e : Engine) : Bay := b.setQueue e (b.queue e).tail

/-- The head command of an engine, when it is of the given trigger id and may begin. -/
def Bay.headReady (b : Bay) (e : Engine) (now : Nat) (op : Nat → Bool) : Option Cmd :=
  match b.queue e with
  | c :: _ => if op c.op && b.ready' c now then some c else none
  | [] => none

/-! ## PEGCLR -/

/-- Pegs that a PEGCLR names (R407). -/
def pegclrNames (w : BitVec 72) : List Nat :=
  let base := if bitAt w 25 then 32 else 0
  ((List.range 32).filter (fun k => bitAt w (26 + k))).map (fun k => base + k)

/-- PEGCLR (R407). MASK bit 31 with HI 1 names no peg and is reserved. -/
def execPegclr (c : Ctl) (s : State) : Step :=
  .next (s.command c .peg 312 (fieldMask 58 14) inBay keepCmd
    (fun x _ => if bitAt x.word 25 && bitAt x.word 57 then some (.reservedField, 312) else none) noCmdEff)

/-- PEGCLR_BEGIN (R407): the first PEGCLR whose pegs are produced begins; its pegs are cleared at the end of the cycle, and its
own is produced after that. -/
def execPegclrBegin (b : BayId) (s : State) : Step :=
  match (s.bay b).headReady .peg (s.now b) (fun _ => true) with
  | none => .next s
  | some c =>
    .next (s.onBay b (fun x =>
      let y := (x.dequeue .peg).consume c
      { y with
        pegClr := pegclrNames c.word ++ y.pegClr
        pegLate := if c.ppeg = 63 then y.pegLate else y.pegLate ++ [c.ppeg] }))

/-- The pegs of a bay after a cycle, and the first peg produced while it was produced (R232, R407). -/
def Bay.endPegs (b : Bay) : Bay × Option Nat :=
  let clear (x : BitVec 64) (n : Nat) : BitVec 64 := x &&& ~~~ ((1 : BitVec 64) <<< n)
  let set (acc : BitVec 64 × Option Nat) (n : Nat) : BitVec 64 × Option Nat :=
    if acc.1.getLsbD n then (acc.1, some (acc.2.getD n)) else (acc.1 ||| ((1 : BitVec 64) <<< n), acc.2)
  let used := b.pegUse.foldl clear b.pegs
  let made := b.pegSet.foldl set (used, none)
  let cleared := b.pegClr.foldl clear made.1
  let late := b.pegLate.foldl set (cleared, made.2)
  ({ b with pegs := late.1, pegUse := [], pegSet := [], pegClr := [], pegLate := [] }, late.2)

end Sys2Proof.Machine
end

