-- ==== Sys2Proof/Machine/Landing.lean ====
section
/-!
DEFINITION. Writes into the stores of a bay by whatever lands there: write collisions (R215), banks of operand SRAM (R173), the
line limit of the window (R287); and handles written (R180, R287, R289).
-/

namespace Sys2Proof.Machine

/-- BANKSZ of R172. -/
def State.bankSize (s : State) (b : BayId) : Nat := s.storeSize b .opA / 16

/-- Banks that a run of bytes in operand SRAM touches. -/
def banksOf (bank off n : Nat) : List Nat :=
  if n = 0 then [] else (List.range ((off + n - 1) / bank - off / bank + 1)).map (fun i => off / bank + i)

/-- The first bank of a list already accessed in this cycle in the same way (R173). -/
def Bay.bankClash (b : Bay) (grp write : Bool) (l : List Nat) : Option Nat :=
  l.find? (fun k => b.banks.contains (grp, k, write))

/-- Banks accessed in this cycle noted. -/
def Bay.useBanks (b : Bay) (grp write : Bool) (l : List Nat) : Bay :=
  { b with banks := l.map (fun k => (grp, k, write)) ++ b.banks }

/-- INFO of a bank conflict (R285). -/
def bankInfo (grp : Bool) (bank : Nat) : Info := BitVec.ofNat 72 ((if grp then 16 else 0) + bank)

/-- Byte runs written by one access into scratchpad or scale lines of a bay, at once. -/
def Bay.landNow (b : Bay) (k : BayStore) (runs : List (Nat × List Byte)) : Bay :=
  let bytes := runs.flatMap (fun r => (List.range r.2.length).map (fun i => (storeCode k, r.1 + i)))
  { b.writeRuns k runs with wrote := if k = .scratch then bytes ++ b.wrote else b.wrote }

/-- Banks of operand SRAM in which like accesses of this cycle meet: none of those accesses performs (R173). -/
def Bay.loseBanks (b : Bay) (grp write : Bool) (l : List Nat) : Bay :=
  { b with lost := (l.filter (fun k => b.banks.contains (grp, k, write))).map (fun k => (grp, k, write)) ++ b.lost }

/-- The first byte of the scratchpad that runs write a second time in this cycle (R215). -/
def Bay.rewritten (b : Bay) (runs : List (Nat × List Byte)) : Option Nat :=
  (runs.flatMap (fun r => (List.range r.2.length).map (fun i => r.1 + i))).find? (fun o =>
    b.wrote.contains (storeCode .scratch, o))

/-- Line writes of the window, those of operand SRAM in this cycle among them (R287). -/
def Bay.linesNow (b : Bay) : Nat := b.window.lines + (b.bankWrites.map (fun w => (runLines w.2).length)).sum

/-- Byte runs of one access land in a store of a bay. A byte of the scratchpad written twice in a cycle is a write collision (R215), and
a line past the 256 of the window an overflow (R287): they land nothing. A bank of operand SRAM written twice is a bank conflict (R173):
the writes of a bank are made at the end of the cycle, when all are known. Scale lines take no bank (R173). -/
def State.land (s : State) (b : BayId) (k : BayStore) (runs : List (Nat × List Byte)) (scale : Bool) : State :=
  let x := s.bay b
  let grp := decide (k = .opB)
  let s0 := runs.foldl (fun acc r => acc.useStore b k r.1 r.2.length true) s
  if 256 < x.linesNow + (runLines runs).length then s.strayFault b .windowOverflow 4
  else if k = .scratch then
    match x.rewritten runs with
    | some o => s.strayFault b .writeCollision (BitVec.ofNat 72 o)
    | none => s0.onBay b (fun y => y.landNow k runs)
  else if scale then s0.onBay b (fun y => y.landNow k runs)
  else
    let banks := (runs.flatMap (fun r => banksOf (s.bankSize b) r.1 r.2.length)).eraseDups
    let s1 := s0.onBay b (fun y =>
      { (y.loseBanks grp true banks).useBanks grp true banks with bankWrites := y.bankWrites ++ [(k, runs)] })
    match x.bankClash grp true banks with
    | some n => s1.strayFault b .bankConflict (bankInfo grp n)
    | none => s1

/-- A read of operand SRAM: its banks are accessed, and a second read of one in a cycle is a conflict (R173). -/
def State.bankRead (s : State) (b : BayId) (grp : Bool) (banks : List Nat) : State :=
  let s1 := s.onBay b (fun y => (y.loseBanks grp false banks).useBanks grp false banks)
  match (s.bay b).bankClash grp false banks with
  | some n => s1.strayFault b .bankConflict (bankInfo grp n)
  | none => s1

/-- A run of bytes lies in a bank whose accesses of this cycle do not perform (R173). -/
def Bay.isLost (b : Bay) (grp write : Bool) (bank off n : Nat) : Bool :=
  (banksOf bank off n).any (fun k => b.lost.contains (grp, k, write))

/-- The writes of operand SRAM banks of the cycle are made, but for those that met in a bank (R173). -/
def Bay.makeBankWrites (b : Bay) (bank : Nat) : Bay :=
  b.bankWrites.foldl (fun y w =>
    y.writeRuns w.1 (w.2.filter (fun r => !b.isLost (decide (w.1 = .opB)) true bank r.1 r.2.length))) { b with bankWrites := [] }

/-- A handle of a bay. -/
def Bay.handle (b : Bay) (h : Nat) : Handle := b.handles.toList.getD h .empty

/-- The state of a handle that mx commands issued so far leave (R178). -/
def Bay.viewOf (b : Bay) (h : Nat) : Handle := b.view.toList.getD h .empty

/-- A handle written for the first time in the window is counted, 5 at most or 2 when time-sliced (R287), and its former state
kept (R289); none where the limit is passed. -/
def State.touchHandle (s : State) (b : BayId) (h : Nat) : Option State :=
  let w := (s.bay b).window
  if w.handles.contains h then some s
  else if (if s.sliced b then 2 else 5) ≤ w.handles.length then none
  else some (s.onBay b (fun x => { x with window := { w with
    handles := h :: w.handles, shadows := (h, x.handle h) :: w.shadows } }))

/-- A handle changed, its write counted; an overflow of the window changes nothing (R287). -/
def State.writeHandle (s : State) (b : BayId) (h : Nat) (f : Handle → Handle) : State :=
  match s.touchHandle b h with
  | none => s.strayFault b .windowOverflow 8
  | some t => t.onBay b (fun x => { x with handles := x.handles.setIfInBounds h (f (x.handle h)) })

end Sys2Proof.Machine
end

