-- ==== Sys2Proof/Machine/Mem0.lean ====
section
/-!
DEFINITION. The unit mem0: atomics (R346, R347), FETCHADD (R369), HAND (R227, R372) and the tag table (R188, R189, R435).
-/

namespace Sys2Proof.Machine

/-- Trigger port id of mem0 operation k (R98). -/
def memId (k : Nat) : Nat := 432 + k

/-! ## Atomics -/

/-- The operand of an atomic: mem0.d[31:0] over mem0.a (R346). -/
def Bay.cellOperand (b : Bay) : BitVec 96 := (b.opW .mem0D).setWidth 32 ++ b.opW .mem0A

/-- An atomic as a VA operation. -/
def atomicOp (k : Nat) (op : AtomicOp) : VaOp :=
  ⟨memId k, .atomic op, .atomic, ⟨false, true, true⟩, true, some 4, some .mem0R⟩

/-- An atomic: a gated write, with zero on mem0.r at the tier latency (R230, R346, R347). -/
def atomicVa (c : Ctl) (k : Nat) (op : AtomicOp) (s : State) : State :=
  let o := atomicOp k op
  s.move c (fun v t => vaChk t o none 16 v.addr none)
    (fun v t => t.vaGo o 16 false v.addr 0 (some 0) (some (fun pl => .atomic op pl t.me.cellOperand)) none)

/-- ATADD (R346). -/
def execAtadd (c : Ctl) (s : State) : Step := .next (atomicVa c 0 .add s)

/-- ATMAX (R346). -/
def execAtmax (c : Ctl) (s : State) : Step := .next (atomicVa c 1 .max s)

/-- ATMIN (R346). -/
def execAtmin (c : Ctl) (s : State) : Step := .next (atomicVa c 2 .min s)

/-- ATOR (R346). -/
def execAtor (c : Ctl) (s : State) : Step := .next (atomicVa c 3 .or s)

/-- A 96-bit cell after an atomic with operand v (R130, R346). -/
def atomicCell (op : AtomicOp) (cell : BitVec 128) (v : BitVec 96) : BitVec 128 :=
  let x := (cell.setWidth 96).toInt
  let y := v.toInt
  let csat := bitAt cell 96
  let r : Int × Bool :=
    match op with
    | .add => (sat (x + y) 96, csat || clamps (x + y) 96)
    | .max => (if x ≥ y then x else y, csat)
    | .min => (if x ≤ y then x else y, csat)
    | .or => ((cell.setWidth 96 ||| v).toInt, csat)
  (BitVec.ofInt 96 r.1).setWidth 128 ||| (if r.2 then 1 <<< 96 else 0)

/-! ## FETCHADD -/

/-- FETCHADD as a VA operation. -/
def fetchOp : VaOp := ⟨memId 4, .fetchAdd, .fetchAdd, ⟨true, true, true⟩, false, some 5, some .mem0R⟩

/-- FETCHADD (R369). -/
def execFetchadd (c : Ctl) (s : State) : Step :=
  .next (s.move c (fun v t => vaChk t fetchOp none 8 v.addr none)
    (fun v t => t.vaGo fetchOp 8 false v.addr (t.me.op .mem0A) none none (some (.fetchAdd (t.me.opW .mem0A)))))

/-! ## HAND -/

/-- HAND as a VA operation. -/
def handOp : VaOp := ⟨memId 5, .hand, .hand, ⟨false, false, true⟩, true, none, some .mem0R⟩

/-- Whether a logical bay number lies in the bents of a partition (R26). -/
def Part.hasBay (p : Part) (n : Nat) : Bool := decide (n < 192) && p.hdr.bents.getLsbD (n / 24)

/-- The mode word in force for a bay: its own last pending HAND of the region counts (R227). -/
def modeInForce (b : Bay) (r : Nat) (m : Word) : Word :=
  b.gbuf.foldl (fun acc w =>
    match w.eff with
    | .hand q x => if q = r then x else acc
    | .bytes _ _ | .atomic _ _ _ | .lineEmpty _ | .lineFull _ _ _ => acc) m

/-- Checks 2 to 6 of R227 for the new mode word w. -/
def handChk (s : State) (va : Addr) (w : Word) : Check :=
  let p := s.partAt s.cur
  match regionAt p (vaNat va) with
  | none => some (.region, vaInfo va)
  | some (r, e) =>
    let m := modeInForce s.me r e.mode
    let outside := !(p.hasBay (mwBayA w) && p.hasBay (mwBayB w) && decide (mwChipA w = p.lchip)
      && decide (mwChipB w = p.lchip))
    if !isPartyA p s.cur m then some (.region, vaInfo va)
    else if mwMode m = 4 ∨ 4 ≤ mwMode w then some (.region, vaInfo va)
    else if mwMode w = 1 ∧ (granule p e.vabase ≠ 2 ^ 16 ∨ outside = true) then some (.region, vaInfo va)
    else if bits w 48 16 ≠ 0 ∨ bits w 3 5 ≠ 0 then some (.reservedField, BitVec.ofNat 72 (memId 5))
    else none

/-- The effect of a HAND whose checks passed: the new mode word carries VALID (R222, R227). -/
def handGo (va : Addr) (w : Word) (s : State) : State :=
  match regionAt (s.partAt s.cur) (vaNat va) with
  | none => s
  | some (r, e) =>
    let m := modeInForce s.me r e.mode
    let s1 := s.vaGo handOp 1 false va 0 (some (m.setWidth 2048)) (some (fun _ => .hand r (w ||| 0x1000000000000))) none
    s1.onMe (fun b => b.keepResult (s.poleTime s.cur) m.toNat)

/-- HAND (R227, R372): the mode word in force comes back on mem0.r at the tier latency. -/
def execHand (c : Ctl) (s : State) : Step :=
  .next (s.move c
    (fun v t => vaChk t handOp none 1 v.addr (handChk t v.addr (t.me.opW .mem0A)))
    (fun v t => handGo v.addr (t.me.opW .mem0A) t))

/-! ## Tag table -/

/-- Entries of the tag table of a bay (R188, R53). -/
def State.tagSlots (s : State) (b : BayId) : Nat := s.half b 512

/-- Entry s of the tag table. -/
def Bay.tagAt (b : Bay) (i : Nat) : Word := assocGet 0 b.tags i

/-- TAG of an entry. -/
def tagOf (e : Word) : Nat := bits e 4 60

/-- TLOOK of R189: the slot or -1. -/
def tlookValue (b : Bay) (n : Nat) (va : Addr) : Word :=
  match (List.range n).find? (fun i => bitAt (b.tagAt i) 0 && decide (tagOf (b.tagAt i) = bits va 12 60)) with
  | some i => BitVec.ofNat 64 i
  | none => -1

/-- The slot check of TFILL and TEVICT (R189, R435). -/
def slotRangeChk (i : Word) (s : State) : Check :=
  if s.tagSlots s.cur ≤ i.toNat then some (.range, i.setWidth 72) else none

/-- A tag operation enters flight: the table changes at the end of this cycle, the result is ready 4 cycles on. -/
def tagStart (op : TagOp) (s : State) : State :=
  let now := s.myNow
  s.onMe (fun b => ({ b with tagOp := some op }).push ⟨.mem0R, now, now + 4, false, none⟩)

/-- TFILL of R189 on a table of n slots: the table and the status. -/
def tfillTable (tags : List (Nat × Word)) (n i tag : Nat) : List (Nat × Word) × Word :=
  let e := assocGet 0 tags i
  if (List.range n).any (fun t =>
      decide (t ≠ i) && bitAt (assocGet 0 tags t) 0 && decide (tagOf (assocGet 0 tags t) = tag)) then (tags, 1)
  else if bitAt e 0 && bitAt e 1 then (tags, 2)
  else (assocSet 0 tags i (BitVec.ofNat 64 (tag * 16 + 1)), 0)

/-- The tag operation of the cycle, made at its end: table and value (R189, R435). -/
def tagResult (tags : List (Nat × Word)) (n : Nat) (op : TagOp) : List (Nat × Word) × Word :=
  match op with
  | .fill i tag => tfillTable tags n i tag
  | .evict i => (assocSet 0 tags i 0, assocGet 0 tags i)

/-- TLOOK (R189). -/
def execTlook (c : Ctl) (s : State) : Step :=
  .next (s.trigger c (memId 6) .mem0R 3 noCheck
    (fun v b => (tlookValue b (s.tagSlots s.cur) v.addr).setWidth 2048))

/-- TFILL (R189): slot in mem0.a, VA moved. -/
def execTfill (c : Ctl) (s : State) : Step :=
  .next (s.move c
    (fun _ t => Check.andThen (t.collision .mem0R false 4 (memId 7)) (slotRangeChk (t.me.opW .mem0A) t))
    (fun v t => tagStart (.fill (t.me.opW .mem0A).toNat (bits v.addr 12 60)) t))

/-- TEVICT (R189): slot moved. -/
def execTevict (c : Ctl) (s : State) : Step :=
  .next (s.move c
    (fun v t => Check.andThen (t.collision .mem0R false 4 (memId 8)) (slotRangeChk v.word t))
    (fun v t => tagStart (.evict v.word.toNat) t))

end Sys2Proof.Machine
end

