-- ==== Sys2Proof/Machine/Perform.lean ====
section
/-!
DEFINITION. Accesses to shared memory as they perform: what a bay reads, its own gated writes included (R213, R214, R216), the line
states of channel regions (R229), atomics on cells (R230), gates (R254, R255), and the perform of an access in flight.
-/

namespace Sys2Proof.Machine

/-! ## What a pre-emption or a checkpoint keeps of a partition (R59, R304) -/

/-- The state of a bay that is saved. -/
def Bay.save (b : Bay) (n : Nat) : SavedBay := ⟨n, b⟩

/-- The saved state of the bays of a partition. -/
def State.saveBays (s : State) (q : PartId) : List SavedBay := (s.part q).bays.map (fun b => (s.bay b).save b.val)

/-- Saved bays put back. -/
def State.restoreBays (s : State) (l : List SavedBay) : State :=
  l.foldl (fun acc v => acc.onBay (Fin.ofNat 192 v.bay) (fun _ => v.kept)) s

/-- The ring segments of a partition's bents. -/
def State.saveRing (s : State) (q : PartId) : List (Nat × Mem) :=
  ((List.finRange 8).filter (fun t => (s.part q).hdr.bents.getLsbD t.val)).map (fun t => (t.val, s.ring.get t))

/-- Ring segments put back. -/
def State.restoreRing (s : State) (l : List (Nat × Mem)) : State :=
  { s with ring := l.foldl (fun acc x => acc.setIfInBounds x.1 x.2) s.ring }

/-- What happens to a partition while it is pre-empted happens to what was saved of it (R303). -/
def State.within (s : State) (q : PartId) (f : State → State) : State :=
  let p := s.part q
  if p.mode = .preempted then
    let bays := s.saveBays q
    let ring := s.saveRing q
    let t := f ((s.restoreBays p.saved).restoreRing p.savedRing)
    let u := (t.restoreBays bays).restoreRing ring
    u.onPart q (fun x => { x with saved := t.saveBays q, savedRing := t.saveRing q })
  else f s

/-! ## Writes and reads -/

/-- The bytes of a gated write put into this chip's memory (R214, R230). Line states and mode words are none. -/
def State.applyBytes (s : State) (e : GEffect) : State :=
  match e with
  | .bytes pl d => s.writePlace pl d
  | .lineFull _ pl d => s.writePlace pl d
  | .atomic op pl v =>
    let cell : BitVec 128 := BitVec.ofNat 128 (leNat (s.readPlaceN pl 16))
    s.writePlace pl (leBytes 16 (atomicCell op cell v).toNat)
  | .lineEmpty _ => s
  | .hand _ _ => s

/-- The order in which gated writes of one bay take effect: perform cycle (R214). -/
def GWrite.at (w : GWrite) : Nat := w.performed.getD 0

/-- Memory as a bay sees it in pole cycle t: with its own gated writes that performed before t (R214). -/
def State.ownView (s : State) (b : BayId) (t : Nat) : State :=
  ((sortOn GWrite.at (s.bay b).gbuf).filter (fun w =>
    match w.performed with
    | some p => decide (p < t)
    | none => false)).foldl (fun acc w => acc.applyBytes w.eff) s

/-- n bytes at a place as a bay reads them in pole cycle t. -/
def State.readAs (s : State) (b : BayId) (t : Nat) (pl : Place) (n : Nat) : List Byte :=
  (s.ownView b t).readPlaceN pl n

/-- What a gated write to another chip makes of the bytes that were read there from address base on. -/
def GEffect.overlay (e : GEffect) (chip bent base : Nat) (bs : List Byte) : List Byte :=
  match e with
  | .bytes (.chip c t a) d =>
    if c = chip ∧ t = bent then
      bs.zipIdx.map (fun x => if a ≤ base + x.2 ∧ base + x.2 < a + d.length then d.getD (base + x.2 - a) 0 else x.1)
    else bs
  | .atomic op (.chip c t a) v =>
    if c = chip ∧ t = bent ∧ base ≤ a ∧ a + 16 ≤ base + bs.length then
      bs.take (a - base) ++ leBytes 16 (atomicCell op (BitVec.ofNat 128 (leNat ((bs.drop (a - base)).take 16))) v).toNat
        ++ bs.drop (a - base + 16)
    else bs
  | .bytes _ _ | .atomic _ _ _ | .lineEmpty _ | .lineFull _ _ _ | .hand _ _ => bs

/-- The n bytes at an address of another chip as a bay reads them in pole cycle t: those of the whole cells that came for a request made in
pole cycle asked, with the writes of the partition that are visible before t and had not left for that chip when the request did, and the
bay's own gated writes that performed before t (R213, R214, R216). -/
def State.farRead (s : State) (b : BayId) (asked t chip bent pa n : Nat) (came : List Byte) : List Byte :=
  let left := ((s.partAt b).sent.filter (fun x =>
    decide (asked ≤ x.1) && (decide (x.1 < t) || decide (x.2.1 = b.val)))).map (fun x => x.2.2)
  let l := (left ++ sortOn GWrite.at (s.bay b).gbuf).filter (fun w =>
    match w.performed with
    | some p => decide (p < t)
    | none => false)
  ((l.foldl (fun acc w => w.eff.overlay chip bent (cellSpan pa n).1 acc) came).drop (pa % 16)).take n

/-! ## Lines of channel regions (R229) -/

/-- The number of the 128-byte line of an address. -/
def lineOf (va : Addr) : Nat := vaNat va / 128

/-- An STP of the bay to a line that is not yet visible. -/
def Bay.stpPending (b : Bay) (line : Nat) : Bool :=
  b.gbuf.any (fun w =>
    match w.eff with
    | .lineFull l _ _ => decide (l = line) && w.performed.isSome
    | .bytes _ _ | .atomic _ _ _ | .lineEmpty _ | .hand _ _ => false)

/-- An LDC of the bay of a line whose change of state is not yet visible. -/
def Bay.ldcPending (b : Bay) (line : Nat) : Bool :=
  b.gbuf.any (fun w =>
    match w.eff with
    | .lineEmpty l => decide (l = line)
    | .bytes _ _ | .atomic _ _ _ | .lineFull _ _ _ | .hand _ _ => false)

/-- The line-state check of an access of kind k that performs (R225, R229). -/
def lineChk (p : Part) (b : Bay) (k : RKind) (va : Addr) : Check :=
  if inChannel p va then
    let full := p.full.contains (lineOf va)
    let bad : Bool :=
      match k with
      | .ldg => !full
      | .ldc => !full || b.ldcPending (lineOf va)
      | .stg | .stp => full || b.stpPending (lineOf va)
      | .atomic | .fetchAdd | .hand => false
    if bad then some (.channelLine, vaInfo va) else none
  else none

/-- Ordering of an access of a bay that performs (R218): by a channel line, where a consumer that finds it full comes after the STP that
filled it, and a producer that finds it empty after the LDC that emptied it; and by the HANDs of the region, which come after the accesses
under earlier modes. -/
def State.orderAccess (s : State) (b : BayId) (va : Addr) : State :=
  let p := s.partAt b
  match regionAt p (vaNat va) with
  | none => s
  | some (k, r) =>
    let s1 := s.join b.val (assocGet [] p.regionSeen k)
    if mwMode r.mode = 1 then s1.join b.val (assocGet [] p.lineSeen (lineOf va)) else s1

/-- An access of a party to a region counts for its next HAND (R228): stamp is its perform or visibility cycle. -/
def State.useRegion (s : State) (q : PartId) (va : Addr) (party stamp : Nat) (seen : List (Nat × Nat)) : State :=
  match regionAt (s.part q) (vaNat va) with
  | none => s
  | some (k, _) => s.onPart q (fun p => { p with
      regionUse := assocSet [] p.regionUse k (joinClock (assocGet [] p.regionUse k) (eventClock party stamp seen)) })

/-- A read of a bay that performs now, noted. -/
def State.noteRead (s : State) (b : BayId) (va : Addr) (pl : Place) (n : Nat) : State :=
  match s.partOf b with
  | none => s
  | some q => (s.note b pl n false 0 (s.poleTime b) (s.seenBy b.val)).useRegion q va b.val (s.poleTime b) (s.seenBy b.val)

/-- PENDING of a translation entry set by a write to its page (R205). -/
def State.markPending (s : State) (q : PartId) (x : Nat) : State :=
  s.onPart q (fun p => { p with tt := p.tt.zipIdx.map (fun e => if e.2 = x then { e.1 with pending := true } else e.1) })

/-! ## Gangs (R33) -/

/-- The gang of a bay's task; 0 is none (R33). -/
def State.gangOf (s : State) (b : BayId) : Nat :=
  match (s.bay b).task with
  | some t => t.gang
  | none => 0

/-- A bay is a member of a gang: a story-pole entry of the gang is its own, or it runs a task of the gang (R33, R36). -/
def State.member (s : State) (b : BayId) (g : Nat) : Bool :=
  decide (s.gangOf b = g)
    || (s.partAt b).entries.any (fun e => !e.template && decide (e.bay = b.val) && decide (e.gang = g))

/-- Logical position q of the bent is in the gang of the issuing task (R33). -/
def State.inGangOf (s : State) (b : BayId) (q : Nat) : Bool :=
  decide (s.gangOf b ≠ 0) && decide (q < 24) && s.member (peerBay b q) (s.gangOf b)

/-! ## Gates (R254 to R257) -/

/-- The place of a gate of a partition: on a STIER 3 or 4 page, aligned to 16, at an unregioned address (R254). -/
def gatePlace (p : Part) (va : Addr) : Option Place :=
  match findEntry p.tt (vaNat va) with
  | none => none
  | some (_, e) =>
    if bits va 64 8 = p.mem.asid.toNat ∧ (teStier e = 3 ∨ teStier e = 4) ∧ vaNat va % 16 = 0
        ∧ (regionAt p (vaNat va)).isNone = true then
      some (tePlace e (vaNat va - teBase e))
    else none

/-- A gate object. -/
def State.gateAt (s : State) (pl : Place) : BitVec 128 := BitVec.ofNat 128 (leNat (s.readPlaceN pl 16))

/-- EXPECT of a gate. -/
def gateExpect (g : BitVec 128) : Nat := bits g 0 48
/-- ARRIVED of a gate. -/
def gateArrived (g : BitVec 128) : Nat := bits g 48 48

/-- PENDING of a translation entry, set by a write to its page, from the end of the cycle on (R205). -/
def State.markLate (s : State) (q : PartId) (x : Nat) : State := s.onPart q (fun p => { p with written := x :: p.written })

/-- What was written in the cycle is pending (R205). -/
def Part.markWritten (p : Part) : Part :=
  if p.written = [] then p
  else { p with written := [], tt := p.tt.zipIdx.map (fun e => if p.written.contains e.2 then { e.1 with pending := true } else e.1) }

/-- PENDING of the entry that holds an address, set by a write there (R205). -/
def State.markAt (s : State) (q : PartId) (va : Addr) : State :=
  match findEntry (s.part q).tt (vaNat va) with
  | some (x, _) => s.markLate q x
  | none => s

/-- A gate changed by something applied in this cycle; its page has been written (R205). -/
def State.onGate (s : State) (q : PartId) (va : Addr) (f : BitVec 128 → BitVec 128) : State :=
  match gatePlace (s.part q) va with
  | none => s
  | some pl =>
    ((s.writePlace pl (leBytes 16 (f (s.gateAt pl)).toNat)).markAt q va).onPart q (fun p =>
      if p.gatesDue.contains va then p else { p with gatesDue := p.gatesDue ++ [va] })

/-- A gate is changed by a party: that is no race but with plain writes (R254). -/
def State.noteGate (s : State) (q : PartId) (party : Nat) (va : Addr) : State :=
  match gatePlace (s.part q) va with
  | none => s
  | some pl => s.noteBy q party 0 pl 16 true 3 ((s.part q).time + 1) (s.seenBy party)

/-- An arrival of n bytes at a gate by a party: ARRIVED saturates at 2^48 - 1 (R255). What it counts for, cover, is ordered before the tasks
that the gate releases (R236). -/
def State.arrive (s : State) (q : PartId) (party : Nat) (va : Addr) (n : Nat) (cover : List (Nat × Nat)) : State :=
  ((s.onGate q va (fun g => setBits g 48 48 (min (2 ^ 48 - 1) (gateArrived g + n)))).noteGate q party va).onPart q (fun p => { p with
    gateSeen := assocSet [] p.gateSeen va.toNat (joinClock (assocGet [] p.gateSeen va.toNat) cover) })

/-- An arrival at the gate that a walk, a round or a queue names: a VA of zero names none (R239, R259, R316). -/
def State.arriveAt (s : State) (q : PartId) (party : Nat) (va : Addr) (n : Nat) (cover : List (Nat × Nat)) : State :=
  if va = 0 then s else s.arrive q party va n cover

/-- GATE SET by a party: EXPECT takes the value and ARRIVED 0; PHASE is kept (R257). -/
def State.gateSet (s : State) (q : PartId) (party : Nat) (va : Addr) (v : Nat) : State :=
  (s.onGate q va (fun g => setBits (setBits g 0 48 v) 48 48 0)).noteGate q party va

/-! ## An access in flight performs (R213) -/

/-- A result in flight on a port with a due cycle takes its value. -/
def Bay.fill (b : Bay) (p : ResPort) (remote : Bool) (due : Nat) (v : VReg) : Bay :=
  { b with inflight := b.inflight.map (fun r =>
      if r.port = p ∧ r.remote = remote ∧ r.due = due ∧ r.value.isNone = true then { r with value := some v } else r) }

/-- An access leaves the list. -/
def Bay.dropAcc (b : Bay) (id : Nat) : Bay := { b with acc := b.acc.filter (fun a => decide (a.id ≠ id)) }

/-- The value that a load of n bytes delivers (R380). -/
def loadValue (signed : Bool) (bs : List Byte) : VReg :=
  let n := 8 * bs.length
  let x := leNat bs
  (if signed ∧ n ≠ 0 ∧ 2 ^ (n - 1) ≤ x then BitVec.ofNat 64 (x + 2 ^ 64 - 2 ^ n) else BitVec.ofNat 64 x).setWidth 2048

/-- A gated write performs: from the next cycle its bay sees it (R214). -/
def Bay.performG (b : Bay) (id t : Nat) (seen : List (Nat × Nat)) : Bay :=
  { b with gbuf := b.gbuf.map (fun w => if w.id = id then { w with performed := some t, seen := seen } else w) }

/-- A gated write dropped. -/
def Bay.dropG (b : Bay) (id : Nat) : Bay := { b with gbuf := b.gbuf.filter (fun w => decide (w.id ≠ id)) }

/-- A local load performs (R380, R383): its bytes reach the port of its result. -/
def Bay.performLoad (b : Bay) (a : Access) (v : VReg) : Bay :=
  match a.port with
  | some p => (b.fill p false a.due v).dropAcc a.id
  | none => b.dropAcc a.id

/-- The bytes of a store that its mask lets through, in runs (R431). -/
def maskedRuns (off : Nat) (data : List Byte) (m : MaskReg) : List (Nat × List Byte) :=
  (data.zipIdx.filter (fun x => m.getLsbD x.2)).map (fun x => (off + x.2, [x.1]))

/-- A store to the scratchpad lands (R428, R431). -/
def State.landStore (s : State) (b : BayId) (off : Nat) (data : List Byte) (m : Option MaskReg) : State :=
  match m with
  | none => s.land b .scratch [(off, data)] false
  | some k => s.land b .scratch (maskedRuns off data k) false

/-- A response that has not come by the perform cycle of a tier 5 access (R312). -/
def lateAnswer (a : Access) : Bool :=
  match a.place with
  | some (.chip _ _ _) => !a.answered
  | some (.ring _ _) => false
  | some (.lpddr _ _) => false
  | none => false

/-- A response that is late (R312): the rerun issues the request of a read again and waits for its answer; a second time it is a slot
fault. A claim or a FETCHADD is not delivered again (R292). -/
def State.lateAccess (s : State) (b : BayId) (a : Access) : State :=
  if a.repeated then (s.onBay b (fun x => x.dropAcc a.id)).strayFault b .slot (vaInfo a.addr)
  else
    let s1 := s.onBay b (fun x => { x with acc := x.acc.map (fun y =>
      if y.id = a.id then { y with repeated := true, trigT := s.poleTime b } else y) })
    let s2 := match a.kind, a.place with
      | .fetchAdd, _ => s1
      | _, some pl => s1.tier5Send b a.id a.addr pl (.read a.size)
      | _, none => s1
    s2.strayLate b (vaInfo a.addr) (.accessPerform b a.id)

/-- The data of a VA read: from the answer for tier 5, else as the bay sees memory. -/
def State.vaRead (s : State) (b : BayId) (a : Access) : List Byte :=
  match a.place with
  | some (.chip c t pa) => s.farRead b a.trigT (s.poleTime b) c t pa a.size (leBytes (cellSpan pa a.size).2 a.data.toNat)
  | some pl => s.readAs b (s.poleTime b) pl a.size
  | none => []

/-- A load from a virtual address performs (R213, R229, R380). -/
def State.performVaLoad (s : State) (b : BayId) (a : Access) (k : RKind) : State :=
  let t := s.poleTime b
  if lateAnswer a then s.lateAccess b a
  else
    match lineChk (s.partAt b) (s.bay b) k a.addr with
    | some f => (s.onBay b (fun x => x.dropAcc a.id)).strayFault b f.1 f.2
    | none =>
      let s1 := s.orderAccess b a.addr
      let bs := s1.vaRead b a
      let s2 := match a.place with
        | some pl => s1.noteRead b a.addr pl a.size
        | none => s1
      s2.onBay b (fun x =>
        let y := match a.port with
          | some p => x.fill p true a.due (loadValue a.signed bs)
          | none => x
        let z := (y.dropAcc a.id).keepReplay t (leNat bs)
        match k with
        | .ldc => { z with gbuf := z.gbuf ++ [⟨a.id, a.addr, 128, a.entry, some t, a.win, .lineEmpty (lineOf a.addr),
            s1.seenBy b.val, 0, false⟩] }
        | .ldg | .stg | .stp | .atomic | .fetchAdd | .hand => z)

/-- Two places overlap. -/
def Place.meets (x : Place) (n : Nat) (y : Place) (m : Nat) : Bool :=
  match x, y with
  | .ring t a, .ring u b => decide (t = u) && decide (a < b + m) && decide (b < a + n)
  | .lpddr t a, .lpddr u b => decide (t = u) && decide (a < b + m) && decide (b < a + n)
  | .chip c t a, .chip d u b => decide (c = d) && decide (t = u) && decide (a < b + m) && decide (b < a + n)
  | _, _ => false

/-- The bytes that a gated write changes. -/
def GEffect.span (e : GEffect) : Option (Place × Nat) :=
  match e with
  | .bytes pl d => some (pl, d.length)
  | .lineFull _ pl d => some (pl, d.length)
  | .atomic _ pl _ => some (pl, 16)
  | .lineEmpty _ => none
  | .hand _ _ => none

/-- A write of the bay has performed in cycle t on a byte that another, performing now, writes too (R215): a gated one, or a FETCHADD or a
claim. -/
def Bay.gatedClash (b : Bay) (t : Nat) (e : GEffect) : Bool :=
  match e.span with
  | none => false
  | some (pl, n) =>
    b.fetched.any (fun x => x.1.meets x.2 pl n) || b.gbuf.any (fun w => decide (w.performed = some t) &&
      (match w.eff.span with
        | some (q, m) => q.meets m pl n
        | none => false))

/-- The gated write of an access that performs now would be the second of its cycle on a byte (R215). -/
def Bay.rewritesG (b : Bay) (id t : Nat) : Bool := (b.gbuf.filter (fun w => decide (w.id = id))).any (fun w => b.gatedClash t w.eff)

/-- A gated access to a virtual address performs (R213 to R215, R229): its checks, then the bay's own view of it. -/
def State.performVaStore (s : State) (b : BayId) (a : Access) (k : RKind) : State :=
  let t := s.poleTime b
  let gone : State := s.onBay b (fun x => (x.dropAcc a.id).dropG a.id)
  match lineChk (s.partAt b) (s.bay b) k a.addr with
  | some f => gone.strayFault b f.1 f.2
  | none =>
    if (s.bay b).rewritesG a.id t then gone.strayFault b .writeCollision (vaInfo a.addr)
    else
      let s1 := s.orderAccess b a.addr
      s1.onBay b (fun x => (x.dropAcc a.id).performG a.id (s.poleTime b) (s1.seenBy b.val))

/-- A FETCHADD performs at the home of its word (R231). -/
def State.performFetch (s : State) (b : BayId) (a : Access) : State :=
  let t := s.poleTime b
  if lateAnswer a then s.lateAccess b a
  else if a.place.any (fun pl => (s.bay b).gatedClash t (.bytes pl (List.replicate 8 0))) then
    (s.onBay b (fun x => x.dropAcc a.id)).strayFault b .writeCollision (vaInfo a.addr)
  else
    let old := leNat (match a.place with
      | some (.chip _ _ _) => leBytes 8 a.data.toNat
      | some pl => s.readPlaceN pl 8
      | none => [])
    let s1 := match a.place with
      | some (.chip _ _ _) => s
      | some pl => (s.writePlace pl (leBytes 8 (old + (a.data.setWidth 64).toNat))).note b pl 8 true 2 (t + 1) (s.seenBy b.val)
      | none => s
    let s2 := match s.partOf b with
      | some q => s1.markLate q a.entry
      | none => s1
    s2.onBay b (fun x =>
      let y := match a.port with
        | some p => x.fill p true a.due (BitVec.ofNat 2048 old)
        | none => x
      { (y.dropAcc a.id).keepResult t old with fetched := (match a.place with
          | some pl => (pl, 8) :: y.fetched
          | none => y.fetched) })

end Sys2Proof.Machine
end

