-- ==== Sys2Proof/Machine/Vec.lean ====
section
/-!
DEFINITION. The vector units vec0 and vec1 (R99 to R101): R341 to R345, R348, R356, R378, R383, R389 to R391, R393, R394,
R399, R400, R406, R420 to R423, R431, R432, R440.
-/

namespace Sys2Proof.Machine

/-! ## Ports and operands -/

/-- vr of a vec unit. -/
def vecVr (u : Fin 2) : ResPort := if u.val = 0 then .vec0Vr else .vec1Vr
/-- mr of a vec unit. -/
def vecMr (u : Fin 2) : ResPort := if u.val = 0 then .vec0Mr else .vec1Mr
/-- s of a vec unit. -/
def vecS (u : Fin 2) : ResPort := if u.val = 0 then .vec0S else .vec1S
/-- va of a vec unit. -/
def Bay.va (b : Bay) (u : Fin 2) : VReg := if u.val = 0 then b.op .vec0Va else b.op .vec1Va
/-- vb of a vec unit. -/
def Bay.vb (b : Bay) (u : Fin 2) : VReg := if u.val = 0 then b.op .vec0Vb else b.op .vec1Vb
/-- vm of a vec unit. -/
def Bay.vm (b : Bay) (u : Fin 2) : VReg := if u.val = 0 then b.op .vec0Vm else b.op .vec1Vm

/-- Trigger port id of vec operation k (R99). -/
def vecId (u : Fin 2) (k : Nat) (w : Width) : Nat := 256 + 160 * u.val + 4 * k + w.code

/-- What a lane function reads: va, vb and the moved value t (R340). -/
structure VecIn where
  va : VReg
  vb : VReg
  t : VReg

/-- The operands of a vec unit with the moved value. -/
def Bay.vecIn (b : Bay) (u : Fin 2) (v : Val) : VecIn := ⟨b.va u, b.vb u, v.bits⟩

/-- A vec operation that delivers f on vr. -/
def vecOp (c : Ctl) (u : Fin 2) (k : Nat) (w : Width) (lat : Nat) (f : VecIn → VReg) (s : State) : State :=
  s.trigger c (vecId u k w) (vecVr u) lat noCheck (fun v b => f (b.vecIn u v))

/-- A vec operation that delivers a mask on mr. -/
def vecMaskOp (c : Ctl) (u : Fin 2) (k : Nat) (w : Width) (f : VecIn → MaskReg) (s : State) : State :=
  s.trigger c (vecId u k w) (vecMr u) 2 noCheck (fun v b => (f (b.vecIn u v)).setWidth 2048)

/-- A vec operation that delivers a scalar on s. -/
def vecScalarOp (c : Ctl) (u : Fin 2) (k : Nat) (w : Width) (f : VecIn → Word) (s : State) : State :=
  s.trigger c (vecId u k w) (vecS u) 2 noCheck (fun v b => (f (b.vecIn u v)).setWidth 2048)

/-! ## Lane functions -/

/-- A lane function of signed va and t. -/
def lanes2 (w : Width) (f : Int → Int → Int) (x : VecIn) : VReg :=
  vecOf w.bits (fun i => f (laneS x.va w.bits i) (laneS x.t w.bits i))

/-- A compare of signed lanes (R356). -/
def cmpS (w : Width) (f : Int → Int → Bool) (x : VecIn) : MaskReg :=
  maskOf w.bits (fun i => f (laneS x.va w.bits i) (laneS x.t w.bits i))

/-- A compare of unsigned lanes (R356). -/
def cmpU (w : Width) (f : Nat → Nat → Bool) (x : VecIn) : MaskReg :=
  maskOf w.bits (fun i => f (laneU x.va w.bits i) (laneU x.t w.bits i))

/-- A per-lane shift: count t[i] unsigned (R420). -/
def shlLanes (w : Width) (x : VecIn) : VReg :=
  vecOf w.bits (fun i =>
    let n := laneU x.t w.bits i
    if n ≥ w.bits then 0 else (laneU x.va w.bits i : Int) * 2 ^ n)

/-- SHR of R420. -/
def shrLanes (w : Width) (x : VecIn) : VReg :=
  vecOf w.bits (fun i =>
    let n := laneU x.t w.bits i
    if n ≥ w.bits then 0 else ((laneU x.va w.bits i / 2 ^ n : Nat) : Int))

/-- SAR of R420. -/
def sarLanes (w : Width) (x : VecIn) : VReg :=
  vecOf w.bits (fun i => asr (laneS x.va w.bits i) (min (laneU x.t w.bits i) (w.bits - 1)))

/-- SEL of R421: vb holds the mask. -/
def selLanes (w : Width) (x : VecIn) : VReg :=
  vecOf w.bits (fun i => if laneMask (x.vb.setWidth 256) w.bits i then laneS x.va w.bits i else laneS x.t w.bits i)

/-- MULW of R394. -/
def mulwLanes (w : Width) (x : VecIn) : VReg :=
  let n := laneCount w.bits
  let h := if bitAt x.vb 0 then n / 2 else 0
  vecOf (2 * w.bits) (fun i => laneS x.va w.bits (i + h) * laneS x.t w.bits (i + h))

/-- MULQ of R393, vector. -/
def mulqLanes (w : Width) (x : VecIn) : VReg :=
  let sh := bits x.vb 0 6
  vecOf w.bits (fun i => sat (rnd (laneS x.va w.bits i * laneS x.t w.bits i) sh) w.bits)

/-- MACW of R389. -/
def macwLanes (w : Width) (x : VecIn) : VReg :=
  let u := 2 * w.bits
  vecOf u (fun i => sat (laneS x.vb u i + laneS x.va w.bits (2 * i) * laneS x.t w.bits (2 * i)
    + laneS x.va w.bits (2 * i + 1) * laneS x.t w.bits (2 * i + 1)) u)

/-- WIDEN of R440: H is t[0], U is t[1]. -/
def widenLanes (w : Width) (x : VecIn) : VReg :=
  let h := if bitAt x.t 0 then laneCount w.bits / 2 else 0
  vecOf (2 * w.bits) (fun i => if bitAt x.t 1 then (laneU x.va w.bits (i + h) : Int) else laneS x.va w.bits (i + h))

/-- BCAST of R348. -/
def bcastLanes (w : Width) (x : VecIn) : VReg :=
  let y := sat (x.t.setWidth 64).toInt w.bits
  vecOf w.bits (fun _ => y)

/-- SWAPP of R432. -/
def swappLanes (w : Width) (x : VecIn) : VReg :=
  vecOf w.bits (fun i =>
    if i % 2 = 0 then
      let e := laneS x.va w.bits (i + 1)
      if bitAt x.t 0 then sat (-e) w.bits else e
    else
      let o := laneS x.va w.bits (i - 1)
      if bitAt x.t 1 then sat (-o) w.bits else o)

/-- Lane index of LANEGET and LANESET (R378). -/
def laneIx (w : Width) (x : VecIn) : Nat := bits x.t 0 64 % laneCount w.bits

/-- LANEGET of R378. -/
def lanegetWord (w : Width) (x : VecIn) : Word := word (laneS x.va w.bits (laneIx w x))

/-- LANESET of R378. -/
def lanesetLanes (w : Width) (x : VecIn) : VReg :=
  let k := laneIx w x
  let y := sat (x.vb.setWidth 64).toInt w.bits
  vecOf w.bits (fun i => if i = k then y else laneS x.va w.bits i)

/-! ## SHRS and NARROW -/

/-- The kerf value of SHRS (R423): with HI the top s bits of the value. -/
def shrsKerf (kv : Word) (hi : Bool) (s : Int) : Word :=
  if hi && decide (1 ≤ s) && decide (s ≤ 63) then kv >>> (64 - s.toNat) else kv

/-- SHRS of R423. -/
def shrsLanes (w : Width) (seed : Word) (base : Nat) (c : Addr) (va : VReg) : VReg :=
  let s := sbits c 0 8
  vecOf w.bits (fun i =>
    (sshr (laneS va w.bits i) s w.bits
      (shrsKerf (kerf seed (bits c 14 16) (bits c 8 6) (base + i)) (bitAt c 30) s)).1)

/-- Base operand of SHRS and NARROW: vb[41:0]. -/
def Bay.vecBase (b : Bay) (u : Fin 2) : Nat := bits (b.vb u) 0 42

/-- The check of the last index base + n - 1 (R143, R157). -/
def baseOk (base n : Nat) : Bool := decide (base + n - 1 < 2 ^ 42)

/-- SHRS (R422, R423). -/
def vecShrs (c : Ctl) (u : Fin 2) (w : Width) (s : State) : State :=
  let id := vecId u 28 w
  s.trigger c id (vecVr u) 2
    (fun v t =>
      if bits v.addr 31 41 ≠ 0 then some (.reservedField, BitVec.ofNat 72 id)
      else if !baseOk (t.me.vecBase u) (laneCount w.bits) then some (.range, anyInfo id)
      else none)
    (fun v b => shrsLanes w b.kseed (b.vecBase u) v.addr (b.va u))

/-- A NARROW computed at its trigger (R400): packed lanes and the register at its ready cycle. -/
def narrowResult (w : Width) (b : Bay) (u : Fin 2) (c : Addr) : VReg × BitVec 32 :=
  let r := b.scAt (bits c 0 8)
  let cont := bitAt c 32
  let e := writeE r cont
  let n := laneCount w.bits
  let half := w.bits / 2
  let shift := e.1 - sbits c 8 8
  let ys := (List.range n).map (fun i =>
    sshr (laneS (b.va u) w.bits i) shift half (kerf b.kseed (bits c 16 16) 0 (b.vecBase u + i)))
  let vals := ys.map (fun p => p.1)
  let packed : VReg := BitVec.ofNat 2048
    (vals.foldr (fun y acc => (y % 2 ^ half).toNat + 2 ^ half * acc) 0)
  (packed, scaledReg r cont e.1 (census vals half) (e.2 || ys.any (fun p => p.2)))

/-- The checks of R400, in its order. -/
def narrowChk (u : Fin 2) (w : Width) (v : Val) (s : State) : Check :=
  let id := vecId u 29 w
  let sc := bits v.addr 0 8
  let b := s.me
  if bits v.addr 33 39 ≠ 0 then some (.reservedField, BitVec.ofNat 72 id)
  else if s.half s.cur 256 ≤ sc ∨ baseOk (b.vecBase u) (laneCount w.bits) = false then some (.range, anyInfo id)
  else if scFmt (b.scAt sc) ≠ (if w.bits = 16 then 0 else 1) then
    some (.format, BitVec.ofNat 72 (2 * 2 ^ 30 + sc))
  else if b.scaleBusy sc s.myNow then some (.scaleBusy, BitVec.ofNat 72 sc)
  else none

/-- NARROW (R399, R400): a scaled write whose register is updated in its ready cycle. -/
def vecNarrow (c : Ctl) (u : Fin 2) (w : Width) (s : State) : State :=
  s.move c
    (fun v t => Check.andThen (t.collision (vecVr u) false 2 (vecId u 29 w)) (narrowChk u w v t))
    (fun v t =>
      let now := t.myNow
      t.onMe (fun b =>
        let y := narrowResult w b u v.addr
        { b.result now (vecVr u) 2 y.1 with
          scaling := b.scaling ++ [⟨bits v.addr 0 8, now + 1, some (now + 2, y.2)⟩] }))

/-! ## LDV and STV -/

/-- The offset checks of LDV and STV (R383, R431). -/
def vecOffChk (v : Val) (s : State) : Check :=
  let off := bits v.bits 0 21
  if off % 128 ≠ 0 ∨ s.storeSize s.cur .scratch < off + 256 then some (.range, BitVec.ofNat 72 off) else none

/-- LDV (R383). -/
def vecLdv (c : Ctl) (u : Fin 2) (w : Width) (s : State) : State :=
  s.move c
    (fun v t => Check.andThen (t.collision (vecVr u) false 4 (vecId u 33 w)) (vecOffChk v t))
    (fun v t => t.localStart .ldv (BitVec.ofNat 72 (bits v.bits 0 21)) 256 false 0 0 (some (vecVr u)) 4)

/-- STV (R431): masked by vm when t[21] is 1. -/
def vecStv (c : Ctl) (u : Fin 2) (s : State) : State :=
  s.move c vecOffChk
    (fun v t => t.localStart .stv (BitVec.ofNat 72 (bits v.bits 0 21)) 256 false (t.me.va u)
      (if bitAt v.bits 21 then (t.me.vm u).setWidth 256 else BitVec.allOnes 256) none 4)

/-! ## The meanings -/

/-- VEC0_ADD (R342). -/
def execVec0Add (c : Ctl) (w : Width) (s : State) : Step :=
  .next (vecOp c 0 0 w 2 (fun x => vecOf w.bits (fun i => (laneU x.va w.bits i : Int) + laneU x.t w.bits i)) s)

/-- VEC1_ADD (R342). -/
def execVec1Add (c : Ctl) (w : Width) (s : State) : Step :=
  .next (vecOp c 1 0 w 2 (fun x => vecOf w.bits (fun i => (laneU x.va w.bits i : Int) + laneU x.t w.bits i)) s)

/-- VEC0_SUB (R342). -/
def execVec0Sub (c : Ctl) (w : Width) (s : State) : Step :=
  .next (vecOp c 0 1 w 2 (fun x => vecOf w.bits (fun i => (laneU x.va w.bits i : Int) - laneU x.t w.bits i)) s)

/-- VEC1_SUB (R342). -/
def execVec1Sub (c : Ctl) (w : Width) (s : State) : Step :=
  .next (vecOp c 1 1 w 2 (fun x => vecOf w.bits (fun i => (laneU x.va w.bits i : Int) - laneU x.t w.bits i)) s)

/-- VEC0_ADDS (R344). -/
def execVec0Adds (c : Ctl) (w : Width) (s : State) : Step :=
  .next (vecOp c 0 2 w 2 (lanes2 w (fun a t => sat (a + t) w.bits)) s)

/-- VEC1_ADDS (R344). -/
def execVec1Adds (c : Ctl) (w : Width) (s : State) : Step :=
  .next (vecOp c 1 2 w 2 (lanes2 w (fun a t => sat (a + t) w.bits)) s)

/-- VEC0_SUBS (R344). -/
def execVec0Subs (c : Ctl) (w : Width) (s : State) : Step :=
  .next (vecOp c 0 3 w 2 (lanes2 w (fun a t => sat (a - t) w.bits)) s)

/-- VEC1_SUBS (R344). -/
def execVec1Subs (c : Ctl) (w : Width) (s : State) : Step :=
  .next (vecOp c 1 3 w 2 (lanes2 w (fun a t => sat (a - t) w.bits)) s)

/-- VEC0_AND (R345). -/
def execVec0And (c : Ctl) (w : Width) (s : State) : Step :=
  .next (vecOp c 0 4 w 2 (fun x => x.va &&& x.t) s)

/-- VEC1_AND (R345). -/
def execVec1And (c : Ctl) (w : Width) (s : State) : Step :=
  .next (vecOp c 1 4 w 2 (fun x => x.va &&& x.t) s)

/-- VEC0_OR (R345). -/
def execVec0Or (c : Ctl) (w : Width) (s : State) : Step :=
  .next (vecOp c 0 5 w 2 (fun x => x.va ||| x.t) s)

/-- VEC1_OR (R345). -/
def execVec1Or (c : Ctl) (w : Width) (s : State) : Step :=
  .next (vecOp c 1 5 w 2 (fun x => x.va ||| x.t) s)

/-- VEC0_XOR (R345). -/
def execVec0Xor (c : Ctl) (w : Width) (s : State) : Step :=
  .next (vecOp c 0 6 w 2 (fun x => x.va ^^^ x.t) s)

/-- VEC1_XOR (R345). -/
def execVec1Xor (c : Ctl) (w : Width) (s : State) : Step :=
  .next (vecOp c 1 6 w 2 (fun x => x.va ^^^ x.t) s)

/-- VEC0_ANDN (R345). -/
def execVec0Andn (c : Ctl) (w : Width) (s : State) : Step :=
  .next (vecOp c 0 7 w 2 (fun x => x.va &&& ~~~ x.t) s)

/-- VEC1_ANDN (R345). -/
def execVec1Andn (c : Ctl) (w : Width) (s : State) : Step :=
  .next (vecOp c 1 7 w 2 (fun x => x.va &&& ~~~ x.t) s)

/-- VEC0_SHL (R420). -/
def execVec0Shl (c : Ctl) (w : Width) (s : State) : Step :=
  .next (vecOp c 0 8 w 2 (shlLanes w) s)

/-- VEC1_SHL (R420). -/
def execVec1Shl (c : Ctl) (w : Width) (s : State) : Step :=
  .next (vecOp c 1 8 w 2 (shlLanes w) s)

/-- VEC0_SHR (R420). -/
def execVec0Shr (c : Ctl) (w : Width) (s : State) : Step :=
  .next (vecOp c 0 9 w 2 (shrLanes w) s)

/-- VEC1_SHR (R420). -/
def execVec1Shr (c : Ctl) (w : Width) (s : State) : Step :=
  .next (vecOp c 1 9 w 2 (shrLanes w) s)

/-- VEC0_SAR (R420). -/
def execVec0Sar (c : Ctl) (w : Width) (s : State) : Step :=
  .next (vecOp c 0 10 w 2 (sarLanes w) s)

/-- VEC1_SAR (R420). -/
def execVec1Sar (c : Ctl) (w : Width) (s : State) : Step :=
  .next (vecOp c 1 10 w 2 (sarLanes w) s)

/-- VEC0_MIN (R390). -/
def execVec0Min (c : Ctl) (w : Width) (s : State) : Step :=
  .next (vecOp c 0 11 w 2 (lanes2 w (fun a t => if a ≤ t then a else t)) s)

/-- VEC1_MIN (R390). -/
def execVec1Min (c : Ctl) (w : Width) (s : State) : Step :=
  .next (vecOp c 1 11 w 2 (lanes2 w (fun a t => if a ≤ t then a else t)) s)

/-- VEC0_MAX (R390). -/
def execVec0Max (c : Ctl) (w : Width) (s : State) : Step :=
  .next (vecOp c 0 12 w 2 (lanes2 w (fun a t => if a ≥ t then a else t)) s)

/-- VEC1_MAX (R390). -/
def execVec1Max (c : Ctl) (w : Width) (s : State) : Step :=
  .next (vecOp c 1 12 w 2 (lanes2 w (fun a t => if a ≥ t then a else t)) s)

/-- VEC0_ABS (R341). -/
def execVec0Abs (c : Ctl) (w : Width) (s : State) : Step :=
  .next (vecOp c 0 13 w 2 (lanes2 w (fun _ t => sat t.natAbs w.bits)) s)

/-- VEC1_ABS (R341). -/
def execVec1Abs (c : Ctl) (w : Width) (s : State) : Step :=
  .next (vecOp c 1 13 w 2 (lanes2 w (fun _ t => sat t.natAbs w.bits)) s)

/-- VEC0_SEL (R421). -/
def execVec0Sel (c : Ctl) (w : Width) (s : State) : Step :=
  .next (vecOp c 0 14 w 2 (selLanes w) s)

/-- VEC1_SEL (R421). -/
def execVec1Sel (c : Ctl) (w : Width) (s : State) : Step :=
  .next (vecOp c 1 14 w 2 (selLanes w) s)

/-- VEC0_CMPEQ (R356). -/
def execVec0Cmpeq (c : Ctl) (w : Width) (s : State) : Step :=
  .next (vecMaskOp c 0 15 w (cmpS w (fun a t => decide (a = t))) s)

/-- VEC1_CMPEQ (R356). -/
def execVec1Cmpeq (c : Ctl) (w : Width) (s : State) : Step :=
  .next (vecMaskOp c 1 15 w (cmpS w (fun a t => decide (a = t))) s)

/-- VEC0_CMPNE (R356). -/
def execVec0Cmpne (c : Ctl) (w : Width) (s : State) : Step :=
  .next (vecMaskOp c 0 16 w (cmpS w (fun a t => decide (a ≠ t))) s)

/-- VEC1_CMPNE (R356). -/
def execVec1Cmpne (c : Ctl) (w : Width) (s : State) : Step :=
  .next (vecMaskOp c 1 16 w (cmpS w (fun a t => decide (a ≠ t))) s)

/-- VEC0_CMPLT (R356). -/
def execVec0Cmplt (c : Ctl) (w : Width) (s : State) : Step :=
  .next (vecMaskOp c 0 17 w (cmpS w (fun a t => decide (a < t))) s)

/-- VEC1_CMPLT (R356). -/
def execVec1Cmplt (c : Ctl) (w : Width) (s : State) : Step :=
  .next (vecMaskOp c 1 17 w (cmpS w (fun a t => decide (a < t))) s)

/-- VEC0_CMPLE (R356). -/
def execVec0Cmple (c : Ctl) (w : Width) (s : State) : Step :=
  .next (vecMaskOp c 0 18 w (cmpS w (fun a t => decide (a ≤ t))) s)

/-- VEC1_CMPLE (R356). -/
def execVec1Cmple (c : Ctl) (w : Width) (s : State) : Step :=
  .next (vecMaskOp c 1 18 w (cmpS w (fun a t => decide (a ≤ t))) s)

/-- VEC0_CMPLTU (R356). -/
def execVec0Cmpltu (c : Ctl) (w : Width) (s : State) : Step :=
  .next (vecMaskOp c 0 19 w (cmpU w (fun a t => decide (a < t))) s)

/-- VEC1_CMPLTU (R356). -/
def execVec1Cmpltu (c : Ctl) (w : Width) (s : State) : Step :=
  .next (vecMaskOp c 1 19 w (cmpU w (fun a t => decide (a < t))) s)

/-- VEC0_CMPLEU (R356). -/
def execVec0Cmpleu (c : Ctl) (w : Width) (s : State) : Step :=
  .next (vecMaskOp c 0 20 w (cmpU w (fun a t => decide (a ≤ t))) s)

/-- VEC1_CMPLEU (R356). -/
def execVec1Cmpleu (c : Ctl) (w : Width) (s : State) : Step :=
  .next (vecMaskOp c 1 20 w (cmpU w (fun a t => decide (a ≤ t))) s)

/-- VEC0_PAND (R406). -/
def execVec0Pand (c : Ctl) (w : Width) (s : State) : Step :=
  .next (vecMaskOp c 0 21 w (fun x => x.va.setWidth 256 &&& x.t.setWidth 256) s)

/-- VEC1_PAND (R406). -/
def execVec1Pand (c : Ctl) (w : Width) (s : State) : Step :=
  .next (vecMaskOp c 1 21 w (fun x => x.va.setWidth 256 &&& x.t.setWidth 256) s)

/-- VEC0_POR (R406). -/
def execVec0Por (c : Ctl) (w : Width) (s : State) : Step :=
  .next (vecMaskOp c 0 22 w (fun x => x.va.setWidth 256 ||| x.t.setWidth 256) s)

/-- VEC1_POR (R406). -/
def execVec1Por (c : Ctl) (w : Width) (s : State) : Step :=
  .next (vecMaskOp c 1 22 w (fun x => x.va.setWidth 256 ||| x.t.setWidth 256) s)

/-- VEC0_PXOR (R406). -/
def execVec0Pxor (c : Ctl) (w : Width) (s : State) : Step :=
  .next (vecMaskOp c 0 23 w (fun x => x.va.setWidth 256 ^^^ x.t.setWidth 256) s)

/-- VEC1_PXOR (R406). -/
def execVec1Pxor (c : Ctl) (w : Width) (s : State) : Step :=
  .next (vecMaskOp c 1 23 w (fun x => x.va.setWidth 256 ^^^ x.t.setWidth 256) s)

/-- VEC0_PNOT (R406). -/
def execVec0Pnot (c : Ctl) (w : Width) (s : State) : Step :=
  .next (vecMaskOp c 0 24 w (fun x => ~~~ x.t.setWidth 256) s)

/-- VEC1_PNOT (R406). -/
def execVec1Pnot (c : Ctl) (w : Width) (s : State) : Step :=
  .next (vecMaskOp c 1 24 w (fun x => ~~~ x.t.setWidth 256) s)

/-- VEC0_MULW (R394). -/
def execVec0Mulw (c : Ctl) (w : Width) (s : State) : Step :=
  .next (vecOp c 0 25 w 4 (mulwLanes w) s)

/-- VEC1_MULW (R394). -/
def execVec1Mulw (c : Ctl) (w : Width) (s : State) : Step :=
  .next (vecOp c 1 25 w 4 (mulwLanes w) s)

/-- VEC0_MULQ (R393). -/
def execVec0Mulq (c : Ctl) (w : Width) (s : State) : Step :=
  .next (vecOp c 0 26 w 4 (mulqLanes w) s)

/-- VEC1_MULQ (R393). -/
def execVec1Mulq (c : Ctl) (w : Width) (s : State) : Step :=
  .next (vecOp c 1 26 w 4 (mulqLanes w) s)

/-- VEC0_MACW (R389). -/
def execVec0Macw (c : Ctl) (w : Width) (s : State) : Step :=
  .next (vecOp c 0 27 w 4 (macwLanes w) s)

/-- VEC1_MACW (R389). -/
def execVec1Macw (c : Ctl) (w : Width) (s : State) : Step :=
  .next (vecOp c 1 27 w 4 (macwLanes w) s)

/-- VEC0_SHRS (R423). -/
def execVec0Shrs (c : Ctl) (w : Width) (s : State) : Step :=
  .next (vecShrs c 0 w s)

/-- VEC1_SHRS (R423). -/
def execVec1Shrs (c : Ctl) (w : Width) (s : State) : Step :=
  .next (vecShrs c 1 w s)

/-- VEC0_NARROW (R400). -/
def execVec0Narrow (c : Ctl) (w : Width) (s : State) : Step :=
  .next (vecNarrow c 0 w s)

/-- VEC1_NARROW (R400). -/
def execVec1Narrow (c : Ctl) (w : Width) (s : State) : Step :=
  .next (vecNarrow c 1 w s)

/-- VEC0_WIDEN (R440). -/
def execVec0Widen (c : Ctl) (w : Width) (s : State) : Step :=
  .next (vecOp c 0 30 w 2 (widenLanes w) s)

/-- VEC1_WIDEN (R440). -/
def execVec1Widen (c : Ctl) (w : Width) (s : State) : Step :=
  .next (vecOp c 1 30 w 2 (widenLanes w) s)

/-- VEC0_BCAST (R348). -/
def execVec0Bcast (c : Ctl) (w : Width) (s : State) : Step :=
  .next (vecOp c 0 31 w 2 (bcastLanes w) s)

/-- VEC1_BCAST (R348). -/
def execVec1Bcast (c : Ctl) (w : Width) (s : State) : Step :=
  .next (vecOp c 1 31 w 2 (bcastLanes w) s)

/-- VEC0_SWAPP (R432). -/
def execVec0Swapp (c : Ctl) (w : Width) (s : State) : Step :=
  .next (vecOp c 0 32 w 2 (swappLanes w) s)

/-- VEC1_SWAPP (R432). -/
def execVec1Swapp (c : Ctl) (w : Width) (s : State) : Step :=
  .next (vecOp c 1 32 w 2 (swappLanes w) s)

/-- VEC0_LDV (R383). -/
def execVec0Ldv (c : Ctl) (w : Width) (s : State) : Step :=
  .next (vecLdv c 0 w s)

/-- VEC1_LDV (R383). -/
def execVec1Ldv (c : Ctl) (w : Width) (s : State) : Step :=
  .next (vecLdv c 1 w s)

/-- VEC0_STV (R431). -/
def execVec0Stv (c : Ctl) (_ : Width) (s : State) : Step :=
  .next (vecStv c 0 s)

/-- VEC1_STV (R431). -/
def execVec1Stv (c : Ctl) (_ : Width) (s : State) : Step :=
  .next (vecStv c 1 s)

/-- VEC0_MCOUNT (R391). -/
def execVec0Mcount (c : Ctl) (w : Width) (s : State) : Step :=
  .next (vecScalarOp c 0 35 w (fun x => BitVec.ofNat 64 (popcount (x.t.setWidth 256))) s)

/-- VEC1_MCOUNT (R391). -/
def execVec1Mcount (c : Ctl) (w : Width) (s : State) : Step :=
  .next (vecScalarOp c 1 35 w (fun x => BitVec.ofNat 64 (popcount (x.t.setWidth 256))) s)

/-- VEC0_LANEGET (R378). -/
def execVec0Laneget (c : Ctl) (w : Width) (s : State) : Step :=
  .next (vecScalarOp c 0 36 w (lanegetWord w) s)

/-- VEC1_LANEGET (R378). -/
def execVec1Laneget (c : Ctl) (w : Width) (s : State) : Step :=
  .next (vecScalarOp c 1 36 w (lanegetWord w) s)

/-- VEC0_LANESET (R378). -/
def execVec0Laneset (c : Ctl) (w : Width) (s : State) : Step :=
  .next (vecOp c 0 37 w 2 (lanesetLanes w) s)

/-- VEC1_LANESET (R378). -/
def execVec1Laneset (c : Ctl) (w : Width) (s : State) : Step :=
  .next (vecOp c 1 37 w 2 (lanesetLanes w) s)

end Sys2Proof.Machine
end

