-- ==== Sys2Proof/Machine/MulDiv.lean ====
section
/-!
DEFINITION. The scalar multiplier mul0 (R392, R393) and divider div0 (R364, R365, R427).
-/

namespace Sys2Proof.Machine

/-- The largest d with d * d ≤ x, found bit by bit from bit k - 1 down. -/
def isqrtBits (x : Nat) : Nat → Nat → Nat
  | 0, d => d
  | k + 1, d => if (d + 2 ^ k) * (d + 2 ^ k) ≤ x then isqrtBits x k (d + 2 ^ k) else isqrtBits x k d

/-- isqrt of R404: 0 for x ≤ 0, else the largest d with d * d ≤ x. -/
def isqrt (x : Int) : Int :=
  match x with
  | .ofNat n => isqrtBits n (natBits n / 2 + 1) 0
  | .negSucc _ => 0

/-- Division of R10, truncating towards zero. -/
def tdiv (a b : Int) : Int := a.tdiv b

/-- A mul0 operation: f takes operand a and the moved value. -/
def mulOp (c : Ctl) (k : Nat) (f : Word → Word → Word) (s : State) : State :=
  s.trigger c (384 + k) .mul0R 3 noCheck (fun v b => (f (b.opW .mul0A) v.word).setWidth 2048)

/-- A div0 operation of latency lat. -/
def divOp (c : Ctl) (k lat : Nat) (f : Word → Word → Word) (s : State) : State :=
  s.trigger c (392 + k) .div0R lat noCheck (fun v b => (f (b.opW .div0A) v.word).setWidth 2048)

/-- MULQ of R393, scalar: Q2.29. -/
def mulqWord (a t : Word) : Word := word (sat (rnd (a.toInt * t.toInt) 29) 31)

/-- DIV of R364. -/
def divWord (a t : Word) : Word := if t = 0 then 0 else word (sat (tdiv a.toInt t.toInt) 64)

/-- DIVU of R364. -/
def divuWord (a t : Word) : Word := if t = 0 then 0 else BitVec.ofNat 64 (a.toNat / t.toNat)

/-- REM of R364. -/
def remWord (a t : Word) : Word := if t = 0 then a else word (a.toInt - t.toInt * tdiv a.toInt t.toInt)

/-- DIVQ of R365. -/
def divqInt (x y : Int) : Int :=
  if y = 0 then
    if x = 0 then 0 else if sat x 31 ≥ 0 then 2 ^ 30 - 1 else -(2 ^ 30 - 1)
  else
    let q := rnd (tdiv ((x.natAbs : Int) * 2 ^ 30) y.natAbs) 1
    sat (if decide (x < 0) != decide (y < 0) then -q else q) 31

/-- SQRTQ of R427. -/
def sqrtqInt (x : Int) : Int := if x ≤ 0 then 0 else sat (rnd (isqrt (x * 2 ^ 31)) 1) 31

/-- MUL (R392). -/
def execMul (c : Ctl) (s : State) : Step := .next (mulOp c 0 (fun a t => a * t) s)

/-- MULH (R392). -/
def execMulh (c : Ctl) (s : State) : Step :=
  .next (mulOp c 1 (fun a t => word (asr (a.toInt * t.toInt) 64)) s)

/-- MULHU (R392). -/
def execMulhu (c : Ctl) (s : State) : Step :=
  .next (mulOp c 2 (fun a t => BitVec.ofNat 64 (a.toNat * t.toNat / 2 ^ 64)) s)

/-- MULQ (R393). -/
def execMulq (c : Ctl) (s : State) : Step := .next (mulOp c 3 mulqWord s)

/-- DIV (R364). -/
def execDiv (c : Ctl) (s : State) : Step := .next (divOp c 0 20 divWord s)

/-- DIVU (R364). -/
def execDivu (c : Ctl) (s : State) : Step := .next (divOp c 1 20 divuWord s)

/-- REM (R364). -/
def execRem (c : Ctl) (s : State) : Step := .next (divOp c 2 20 remWord s)

/-- DIVQ (R365). -/
def execDivq (c : Ctl) (s : State) : Step :=
  .next (divOp c 3 14 (fun a t => word (divqInt a.toInt t.toInt)) s)

/-- SQRTQ (R427). -/
def execSqrtq (c : Ctl) (s : State) : Step :=
  .next (divOp c 4 14 (fun _ t => word (sqrtqInt t.toInt)) s)

end Sys2Proof.Machine
end

