-- ==== Sys2Proof/Machine/Vfn.lean ====
section
/-!
DEFINITION. The function unit vfn: R359, R367, R385, R401 to R404, R410, R418, R424. Every routine has latency 10 and acts on 64
lanes of 32 bits.
-/

namespace Sys2Proof.Machine

/-- Trigger port id of vfn routine k (R99). -/
def vfnId (k : Nat) : Nat := 576 + k

/-- A routine of the moved value alone: f takes a lane, signed. -/
def vfnOp (c : Ctl) (k : Nat) (f : Int → Int) (s : State) : State :=
  s.trigger c (vfnId k) .vfnVr 10 noCheck (fun v _ => vecOf 32 (fun i => f (laneS v.bits 32 i)))

/-! ## EXP2Q -/

/-- The largest y below d + 2^k with y^64 ≤ x, at or above d. -/
def root64Bits (x : Nat) : Nat → Nat → Nat
  | 0, d => d
  | k + 1, d => if (d + 2 ^ k) ^ 64 ≤ x then root64Bits x k (d + 2 ^ k) else root64Bits x k d

/-- T[j] of R367. -/
def expTable (j : Nat) : Int := root64Bits (2 ^ (1920 + j)) 32 0

/-- A lane of EXP2Q (R367). -/
def exp2q (x : Int) : Int :=
  let i := asr x 24
  let f := x % 2 ^ 24
  let j := (f / 2 ^ 18).toNat
  let g := f % 2 ^ 18
  let p1 := 257941248 + asr (59597083 * g) 24
  let p2 := 744261118 + asr (p1 * g) 24
  let p := 2 ^ 30 + asr (p2 * g) 24
  let y := asr (expTable j * p) 30
  let s := 6 - i
  if s ≤ 0 then sat (y * 2 ^ s.natAbs) 32 else sat (rnd y s.natAbs) 32

/-! ## LOG2Q -/

/-- L[j] of R385, in units 2^-30: the largest integer at or below 2^30 log2(2^30 / R[j]). -/
def logTable : List Int :=
  [0, 24017256, 47667824, 70962729, 93912511, 116527248, 138816583, 160789745] ++
  [182455582, 203822568, 224898839, 245692199, 266210140, 286459868, 306448299, 326182094] ++
  [345667660, 364911163, 383918542, 402695524, 421247626, 439580170, 457698297, 475606959] ++
  [493310945, 510814882, 528123241, 545240343, 562170369, 578917366, 595485245, 611877800] ++
  [628098703, 644151511, 660039670, 675766526, 691335320, 706749199, 722011213, 737124330] ++
  [752091421, 766915284, 781598637, 796144115, 810554284, 824831638, 838978605, 852997541] ++
  [866890748, 880660455, 894308844, 907838030, 921250079, 934547001, 947730760, 960803258] ++
  [973766362, 986621890, 999371607, 1012017246, 1024560488, 1037002981, 1049346329, 1061592098]

/-- R[j] of R385. -/
def recTable (j : Nat) : Int := 2 ^ 36 / (64 + j)

/-- A lane of LOG2Q (R385). -/
def log2q (x : Int) : Int :=
  if x ≤ 0 then -(2 ^ 31 - 1)
  else
    let b := bitlen x - 1
    let m := x * 2 ^ (30 - b)
    let j := ((m - 2 ^ 30) / 2 ^ 24).toNat
    let w := asr (m * recTable j) 30 - 2 ^ 30
    let q1 := -774541002 + asr (516360668 * w) 30
    let q := 1549082005 + asr (q1 * w) 30
    let lw := asr (q * w) 30
    sat (rnd (((b : Int) - 24) * 2 ^ 30 + logTable.getD j 0 + lw) 6) 32

/-! ## RCPQ, RSQQ, SINQ, COSQ -/

/-- A lane of RCPQ (R410). -/
def rcpq (x : Int) : Int :=
  if x = 0 then 2 ^ 31 - 1
  else
    let q := rnd (2 ^ 49 / (x.natAbs : Int)) 1
    sat (if x < 0 then -q else q) 32

/-- A lane of RSQQ (R418). -/
def rsqq (x : Int) : Int := if x ≤ 0 then 2 ^ 31 - 1 else sat (rnd (isqrt (2 ^ 74 / x)) 1) 32

/-- sinq of R424, on an unsigned angle. -/
def sinq (th : Int) : Int :=
  let q := th / 2 ^ 30
  let f := th % 2 ^ 30
  let x := if q = 1 ∨ q = 3 then 2 ^ 30 - f else f
  let z := asr (x * x) 30
  let p1 := 5026995 - asr (172272 * z) 30
  let p2 := 85569306 - asr (p1 * z) 30
  let p3 := 693598668 - asr (p2 * z) 30
  let p := 1686629713 - asr (p3 * z) 30
  let c := rnd (asr (p * x) 30) 16
  sat (if q ≥ 2 then -c else c) 15

/-- A lane of COSQ (R359). -/
def cosq (th : Int) : Int := sinq ((th + 2 ^ 30) % 2 ^ 32)

/-- EXP2Q (R367). -/
def execExp2q (c : Ctl) (s : State) : Step := .next (vfnOp c 0 exp2q s)

/-- LOG2Q (R385). -/
def execLog2q (c : Ctl) (s : State) : Step := .next (vfnOp c 1 log2q s)

/-- RCPQ (R410). -/
def execRcpq (c : Ctl) (s : State) : Step := .next (vfnOp c 2 rcpq s)

/-- RSQQ (R418). -/
def execRsqq (c : Ctl) (s : State) : Step := .next (vfnOp c 3 rsqq s)

/-- SINQ (R424): the angle is the lane read unsigned. -/
def execSinq (c : Ctl) (s : State) : Step := .next (vfnOp c 4 (fun x => sinq (zext x 32)) s)

/-- COSQ (R359). -/
def execCosq (c : Ctl) (s : State) : Step := .next (vfnOp c 5 (fun x => cosq (zext x 32)) s)

/-! ## The optimiser routines -/

/-- The parameter block (R401). -/
structure OptParams where
  b1 : Nat
  b2 : Nat
  lr : Nat
  eps : Nat
  sm : Nat
  sv : Nat
  sw : Nat

/-- The parameter block read at an offset (R401). -/
def optParams (m : Mem) (off : Nat) : OptParams :=
  let x : BitVec 128 := BitVec.ofNat 128 (Mem.nat m off 16)
  ⟨bits x 0 4, bits x 4 4, bits x 8 16, bits x 24 8, bits x 32 16, bits x 48 16, bits x 64 16⟩

/-- powq of R404, over the bits of n from bit k - 1 down. -/
def powqBits (b : Int) (n : Nat) : Nat → Int → Int
  | 0, p => p
  | k + 1, p =>
    let p1 := rnd (p * p) 30
    powqBits b n k (if n.testBit k then rnd (p1 * b) 30 else p1)

/-- powq of R404: bits 64 down to 0. -/
def powq (b n : Nat) : Int := powqBits (2 ^ 30 - 2 ^ (30 - b)) n 65 (2 ^ 30)

/-- The kerf value of lane i of a routine with stream field st (R402). -/
def optKerf (seed stepc : Word) (st base i : Nat) : Word := kerf seed ((st + stepc.toNat) % 2 ^ 16) 0 (base + i)

/-- The result of routine k: 0 OPTM, 1 OPTV, 2 OPTW (R403, R404). c is the control word. -/
def optResult (k : Fin 3) (p : OptParams) (c : Addr) (va vb : VReg) (stepc seed : Word) : VReg :=
  let base := bits c 0 42
  if k.val = 0 then
    vecOf 32 (fun i =>
      let m := laneS va 32 i
      sat (m + (sshr (laneS vb 32 i * 256 - m) p.b1 32 (optKerf seed stepc p.sm base i)).1) 32)
  else if k.val = 1 then
    vecOf 32 (fun i =>
      let v := laneS va 32 i
      let g := laneS vb 32 i
      sat (v + (sshr (g * g - v) p.b2 32 (optKerf seed stepc p.sv base i)).1) 32)
  else
    let n := stepc.toNat + 1
    let c1 := 2 ^ 30 - powq p.b1 n
    let c2 := 2 ^ 30 - powq p.b2 n
    vecOf 16 (fun i =>
      if i < 64 then
        let d := isqrt (tdiv (laneS vb 32 i * 2 ^ 30) c2)
        let den := d + (max p.eps 1 : Nat)
        let x := tdiv ((p.lr : Int) * laneS va 32 i * 2 ^ 30) (c1 * den)
        (sshr x 16 16 (optKerf seed stepc p.sw base i)).1
      else 0)

/-- The checks of R402. -/
def optChk (k : Nat) (v : Val) (s : State) : Check :=
  let off := 16 * bits v.addr 42 17
  if bits v.addr 59 13 ≠ 0 then some (.reservedField, BitVec.ofNat 72 (vfnId k))
  else if s.storeSize s.cur .scratch < off + 16 then some (.range, BitVec.ofNat 72 off)
  else if 2 ^ 42 ≤ bits v.addr 0 42 + 63 then some (.range, anyInfo (vfnId k))
  else none

/-- An optimiser routine: its parameter read performs 4 cycles on, its result is ready 10 cycles on (R401, R402). -/
def optOp (c : Ctl) (k : Fin 3) (s : State) : State :=
  s.move c
    (fun v t => Check.andThen (t.collision .vfnVr false 10 (vfnId (6 + k.val))) (optChk (6 + k.val) v t))
    (fun v t =>
      let now := t.myNow
      let b := t.me
      (t.localStart (.opt k (b.op .vfnVb) b.stepc b.kseed) v.addr 16 false (b.op .vfnVa) 0 none 4).onMe (fun x =>
        (x.push ⟨.vfnVr, now, now + 10, false, none⟩).keepReplay (t.poleTime t.cur) b.stepc.toNat))

/-- OPTM (R403). -/
def execOptm (c : Ctl) (s : State) : Step := .next (optOp c 0 s)

/-- OPTV (R403). -/
def execOptv (c : Ctl) (s : State) : Step := .next (optOp c 1 s)

/-- OPTW (R404). -/
def execOptw (c : Ctl) (s : State) : Step := .next (optOp c 2 s)

end Sys2Proof.Machine
end

