-- ==== Sys2Proof/Machine/Vred.lean ====
section
/-!
DEFINITION. The vector reduction unit vred: R354, R362, R363, R373, R374, R379, R388, R408, R412.
-/

namespace Sys2Proof.Machine

/-- Trigger port id of vred operation k (R99). -/
def vredId (k : Nat) (w : Width) : Nat := 608 + 4 * k + w.code

/-- A vred operation that delivers f on vr: f takes va and the moved value. -/
def vredOp (c : Ctl) (k : Nat) (w : Width) (lat : Nat) (f : VReg → VReg → VReg) (s : State) : State :=
  s.trigger c (vredId k w) .vredVr lat noCheck (fun v b => f (b.op .vredVa) v.bits)

/-! ## Reductions within a register (R412) -/

/-- The tree levels of the lanes of t up to level top. -/
def lanesLevel (mode : Mode) (w : Width) (t : VReg) (top : Nat) : List Int :=
  let leaves := (List.range (laneCount w.bits)).map (fun i => some (⟨[laneS t w.bits i], 0⟩ : TVal))
  (treeLevels ⟨mode, 64, 0, 0⟩ top 0 leaves).1.map (fun o =>
    match o with
    | some v => v.elems.headD 0
    | none => 0)

/-- log2 of the lane count. -/
def laneLog (w : Width) : Nat :=
  match w with
  | .w8 => 8
  | .w16 => 7
  | .w32 => 6

/-- G outside its range is a format fault whose INFO is kind 3 with G (R412, R471). -/
def redChk (w : Width) (s : State) : Check :=
  let g := bits (s.me.op .vredVa) 0 4
  if g < laneLog w - 6 ∨ laneLog w < g then some (.format, BitVec.ofNat 72 (3 * 2 ^ 30 + g)) else none

/-- A reduction: level-G nodes on vr and the root on s (R412). -/
def redOp (c : Ctl) (k : Nat) (mode : Mode) (w : Width) (s : State) : State :=
  let id := vredId k w
  s.move c
    (fun _ t => Check.andThen (t.collision .vredVr false 6 id)
      (Check.andThen (t.collision .vredS false 6 id) (redChk w t)))
    (fun v t =>
      let now := t.myNow
      t.onMe (fun b =>
        let g := bits (b.op .vredVa) 0 4
        let nodes := lanesLevel mode w v.bits g
        let root := (lanesLevel mode w v.bits (laneLog w)).headD 0
        (b.result now .vredVr 6 (vecOf 32 (fun i =>
          if i < laneCount w.bits / 2 ^ g then sat (nodes.getD i 0) 32 else 0))).result now .vredS 6
            ((word root).setWidth 2048)))

/-- REDADD (R412). -/
def execRedadd (c : Ctl) (w : Width) (s : State) : Step := .next (redOp c 0 .exact w s)

/-- REDMAX (R412). -/
def execRedmax (c : Ctl) (w : Width) (s : State) : Step := .next (redOp c 1 .max w s)

/-- REDMIN (R412). -/
def execRedmin (c : Ctl) (w : Width) (s : State) : Step := .next (redOp c 2 .min w s)

/-! ## CENSUS, PERM, LANEROT, LUT -/

/-- The census of the lanes of a register (R354). -/
def laneCensus (w : Width) (t : VReg) : Int :=
  (census ((List.range (laneCount w.bits)).map (fun i => laneS t w.bits i)) w.bits).getD 0

/-- CENSUS (R354). -/
def execCensus (c : Ctl) (w : Width) (s : State) : Step :=
  .next (s.trigger c (vredId 3 w) .vredS 4 noCheck (fun v _ => (word (laneCensus w v.bits)).setWidth 2048))

/-- PERM (R408). -/
def execPerm (c : Ctl) (w : Width) (s : State) : Step :=
  .next (vredOp c 4 w 4 (fun x t => vecOf 8 (fun j => laneS x 8 (laneU t 8 j))) s)

/-- LANEROT of R379. -/
def lanerotLanes (w : Width) (x t : VReg) : VReg :=
  let n := laneCount w.bits
  let m := ((t.setWidth 64).toInt % n).toNat
  vecOf w.bits (fun i => laneS x w.bits ((i + m) % n))

/-- LANEROT (R379). -/
def execLanerot (c : Ctl) (w : Width) (s : State) : Step := .next (vredOp c 5 w 4 (lanerotLanes w) s)

/-- LUT (R388). -/
def execLut (c : Ctl) (w : Width) (s : State) : Step :=
  .next (vredOp c 7 w 3 (fun x t =>
    vecOf w.bits (fun i => laneS x w.bits (laneU t w.bits i % laneCount w.bits))) s)

/-! ## HLOOK -/

/-- Bucket of a key in a table of 2^logb buckets (R374). -/
def hashBucket (key logb : Nat) : Nat := key * 0x9E3779B1 % 2 ^ 32 / 2 ^ (32 - logb) % 2 ^ logb

/-- The entries searched for a key: offsets of its two buckets, in order (R374). -/
def hashProbe (off logb key : Nat) : List Nat :=
  let q := hashBucket key logb
  ((List.range 8).map (fun s => off + 64 * q + 8 * s)) ++
    ((List.range 8).map (fun s => off + 64 * ((q + 1) % 2 ^ logb) + 8 * s))

/-- The value found for a key (R374). -/
def hashFind (m : Mem) (off logb key : Nat) : Option Nat :=
  if key = 0xFFFFFFFF then none
  else ((hashProbe off logb key).find? (fun a => decide (Mem.nat m a 4 = key))).map (fun a => Mem.nat m (a + 4) 4)

/-- Results of an HLOOK over the scratchpad: values and mask (R374). -/
def hlookResult (m : Mem) (desc : Addr) (keys : VReg) : VReg × MaskReg :=
  let found := (List.range 64).map (fun i => hashFind m (bits desc 0 21) (bits desc 21 5) (laneU keys 32 i))
  (vecOf 32 (fun i => ((found.getD i none).getD 0xFFFFFFFF : Nat)),
    maskOf 32 (fun i => (found.getD i none).isSome))

/-- The table that an HLOOK searches: offset and bytes (R374). -/
def hlookSpan (desc : Addr) : Nat × Nat := (bits desc 0 21, 64 * 2 ^ bits desc 21 5)

/-- The checks of R374. -/
def hlookChk (w : Width) (v : Val) (s : State) : Check :=
  let off := bits v.addr 0 21
  if bits v.addr 26 46 ≠ 0 then some (.reservedField, BitVec.ofNat 72 (vredId 6 w))
  else if off % 64 ≠ 0 ∨ s.storeSize s.cur .scratch < off + 64 * 2 ^ bits v.addr 21 5 then
    some (.range, BitVec.ofNat 72 off)
  else none

/-- HLOOK (R373, R374): its reads perform 4 cycles on, its results are ready 12 cycles on. -/
def execHlook (c : Ctl) (w : Width) (s : State) : Step :=
  .next (s.move c
    (fun v t => Check.andThen (t.collision .vredVr false 12 (vredId 6 w))
      (Check.andThen (t.collision .vredMr false 12 (vredId 6 w)) (hlookChk w v t)))
    (fun v t =>
      let now := t.myNow
      (t.localStart .hlook v.addr 0 false (t.me.op .vredVa) 0 none 4).onMe (fun b =>
        (b.push ⟨.vredVr, now, now + 12, false, none⟩).push ⟨.vredMr, now, now + 12, false, none⟩)))

/-! ## DEC4 and ENC4 -/

/-- Magnitudes of a Q4 type by index (R133). -/
def q4mag (ty k : Nat) : Int :=
  match ty with
  | 1 => ([0, 1, 2, 3, 4, 6, 8, 12] : List Int).getD k 0
  | 2 => ([0, 1, 2, 4, 8, 16, 32, 64] : List Int).getD k 0
  | _ => ([0, 1, 2, 3, 4, 8, 16, 32] : List Int).getD k 0

/-- q4dec of R133. -/
def q4dec (code ty : Nat) : Int :=
  if ty = 0 then sext code 4
  else if code / 8 % 2 = 1 then -(q4mag ty (code % 8)) else q4mag ty (code % 8)

/-- The index whose magnitude is nearest to |x|: the larger magnitude on a tie (R363). -/
def q4near (ty : Nat) (x : Int) : Nat :=
  (List.range 8).foldl (fun best k =>
    if (q4mag ty k - x.natAbs).natAbs ≤ (q4mag ty best - x.natAbs).natAbs then k else best) 0

/-- The code of x under a type (R363). -/
def q4enc (ty : Nat) (x : Int) : Nat :=
  if ty = 0 then (sat x 4 % 16).toNat
  else
    let k := q4near ty x
    if x ≥ 0 ∨ k = 0 then k else 8 + k

/-- Type bits of the scale byte of element e: byte e / 32 of va (R362). -/
def scaleType (va : VReg) (e : Nat) : Nat := laneU va 8 (e / 32) / 64

/-- DEC4 of R362. -/
def dec4Lanes (va t : VReg) : VReg := vecOf 8 (fun e => q4dec (laneU t 4 e) (scaleType va e))

/-- ENC4 of R363: codes in bits [1023:0], zero above. -/
def enc4Lanes (va t : VReg) : VReg :=
  vecOf 4 (fun e => if e < 256 then (q4enc (scaleType va e) (laneS t 8 e) : Int) else 0)

/-- DEC4 (R362). -/
def execDec4 (c : Ctl) (w : Width) (s : State) : Step := .next (vredOp c 8 w 3 dec4Lanes s)

/-- ENC4 (R363). -/
def execEnc4 (c : Ctl) (w : Width) (s : State) : Step := .next (vredOp c 9 w 3 enc4Lanes s)

end Sys2Proof.Machine
end

