-- ==== Sys2Proof/Machine/Access.lean ====
section
/-!
DEFINITION. Results that become ready on their ports (R63) and accesses in flight that perform (R213).
-/

namespace Sys2Proof.Machine

/-! ## RESULT_READY -/

/-- The results of a bay that become ready now on a port: due on the bay's clock, or on pole time where the operation left the
bay (R63, R468). -/
def Result.isDue (r : Result) (now pole : Nat) : Bool :=
  r.value.isSome && (if r.remote then decide (r.due ≤ pole) else decide (r.due ≤ now))

/-- The width of a value that reaches its bridge (R65, R66). -/
def Bay.cross (b : Bay) (p : ResPort) : Bay :=
  if p = .xab then { b with bridges := (b.bridging.1, b.bridges.2) }
  else if p = .xba then { b with bridges := (b.bridges.1, b.bridging.2) }
  else b

/-- RESULT_READY (R63): the value stays on its port until the next result of the port. -/
def execResultReady (b : BayId) (p : ResPort) (s : State) : Step :=
  let now := s.now b
  let pole := s.poleTime b
  match (s.bay b).inflight.find? (fun r => decide (r.port = p) && r.isDue now pole) with
  | none => .next s
  | some r =>
    .next (s.onBay b (fun x => { x.cross p with
      res := x.res.set (resIdx p).val (r.value.getD 0) (resIdx p).isLt
      ready := x.ready.set (resIdx p).val (some now) (resIdx p).isLt
      inflight := x.inflight.erase r }))

/-! ## ACCESS_PERFORM -/

/-- Whether an access leaves the bay, and so runs on pole time (R468). -/
def AccKind.remote : AccKind → Bool
  | .ld | .st | .ldv | .stv | .hlook | .opt _ _ _ _ => false
  | .ldg | .stg | .ldc | .stp | .atomic _ | .fetchAdd | .hand => true

/-- An access performs in this cycle. -/
def State.accDue (s : State) (b : BayId) (a : Access) : Bool :=
  if a.kind.remote then !(s.partAt b).held && decide (a.due ≤ s.poleTime b) else decide (a.due ≤ s.now b)

/-- An HLOOK's search of the scratchpad fills its two results, ready 8 cycles later (R374). -/
def Bay.performHlook (b : Bay) (a : Access) : Bay :=
  let r := hlookResult b.scratch a.addr a.data
  (((b.fill .vredVr false (a.due + 8) r.1).fill .vredMr false (a.due + 8) (r.2.setWidth 2048))).dropAcc a.id

/-- An optimiser routine's parameter read fills its result, ready 6 cycles later (R402). -/
def Bay.performOpt (b : Bay) (a : Access) (k : Fin 3) (vb : VReg) (stepc seed : Word) : Bay :=
  let p := optParams b.scratch (16 * bits a.addr 42 17)
  (b.fill .vfnVr false (a.due + 6) (optResult k p a.addr a.data vb stepc seed)).dropAcc a.id

/-- The perform of an access, by its kind (R213). -/
def State.performAccess (s : State) (b : BayId) (a : Access) : State :=
  let off := (a.addr.setWidth 64).toNat
  match a.kind with
  | .ld => (s.useStore b .scratch off a.size false).onBay b (fun x => x.performLoad a (loadValue a.signed (Mem.readN x.scratch off a.size)))
  | .ldv => (s.useStore b .scratch (a.addr.toNat % 2 ^ 21) 256 false).onBay b (fun x =>
      x.performLoad a (BitVec.ofNat 2048 (Mem.nat x.scratch (a.addr.toNat % 2 ^ 21) 256)))
  | .st => (s.onBay b (fun x => x.dropAcc a.id)).landStore b off (leBytes a.size a.data.toNat) none
  | .stv =>
    (s.onBay b (fun x => x.dropAcc a.id)).landStore b (a.addr.toNat % 2 ^ 21) (leBytes 256 a.data.toNat)
      (if a.mask = BitVec.allOnes 256 then none else some a.mask)
  | .hlook => (s.useStore b .scratch (hlookSpan a.addr).1 (hlookSpan a.addr).2 false).onBay b (fun x => x.performHlook a)
  | .opt k vb stepc seed =>
    (s.useStore b .scratch (16 * bits a.addr 42 17) 16 false).onBay b (fun x => x.performOpt a k vb stepc seed)
  | .ldg => s.performVaLoad b a .ldg
  | .ldc => s.performVaLoad b a .ldc
  | .stg => s.performVaStore b a .stg
  | .stp => s.performVaStore b a .stp
  | .atomic _ => s.performVaStore b a .atomic
  | .hand => s.performVaStore b a .hand
  | .fetchAdd => s.performFetch b a

/-- ACCESS_PERFORM (R213): the access performs in its perform cycle. -/
def execAccessPerform (b : BayId) (id : Nat) (s : State) : Step :=
  match (s.bay b).acc.find? (fun a => decide (a.id = id)) with
  | none => .next s
  | some a => .next (if s.accDue b a then s.performAccess b a else s)

end Sys2Proof.Machine
end

