-- ==== Sys2Proof/Machine/Alu.lean ====
section
/-!
DEFINITION. The scalar arithmetic and logic units alu0 and alu1: R341 to R345, R355, R356, R368, R390, R406, R417, R420,
R421. Each result is ready on alu.r one cycle after its trigger (R75, R97).
-/

namespace Sys2Proof.Machine

/-- The result port of an alu. -/
def aluPort (u : Fin 2) : ResPort := if u.val = 0 then .alu0R else .alu1R

/-- Operand a of an alu. -/
def Bay.aluA (b : Bay) (u : Fin 2) : Word := if u.val = 0 then b.opW .alu0A else b.opW .alu1A

/-- Operand b of an alu. -/
def Bay.aluB (b : Bay) (u : Fin 2) : Word := if u.val = 0 then b.opW .alu0B else b.opW .alu1B

/-- An alu operation of offset k (R97): f takes operands a, b and the moved value t. -/
def aluOp (c : Ctl) (u : Fin 2) (k : Nat) (f : Word → Word → Word → Word) (s : State) : State :=
  s.trigger c (256 + 64 * u.val + k) (aluPort u) 1 noCheck
    (fun v b => (f (b.aluA u) (b.aluB u) v.word).setWidth 2048)

/-- 1 or 0 as a scalar (R356). -/
def truth (p : Bool) : Word := if p then 1 else 0

/-- CLZ of R355. -/
def clzWord (t : Word) : Word := BitVec.ofNat 64 (64 - natBits t.toNat)

/-- CLS of R355: redundant sign bits of a 64-bit value. -/
def clsWord (t : Word) : Word := word (rsb t.toInt 64)

/-- EXT of R368. -/
def extWord (a c : Word) : Word :=
  let len := bits c 6 6 + 1
  let f := a.toNat / 2 ^ bits c 0 6 % 2 ^ len
  if bitAt c 12 then word (sext f len) else BitVec.ofNat 64 f

/-- INS of R368. -/
def insWord (a v c : Word) : Word :=
  let pos := bits c 0 6
  let mask : Word := BitVec.ofNat 64 (2 ^ (bits c 6 6 + 1) - 1)
  (a &&& ~~~ (mask <<< pos)) ||| ((v &&& mask) <<< pos)

/-- SHL of R420: a count at or above the width gives 0. -/
def shlWord (a c : Word) : Word := if c.toNat ≥ 64 then 0 else a <<< c.toNat

/-- SHR of R420. -/
def shrWord (a c : Word) : Word := if c.toNat ≥ 64 then 0 else a >>> c.toNat

/-- SAR of R420. -/
def sarWord (a c : Word) : Word := a.sshiftRight (min c.toNat 63)

/-- ROTL of R417. -/
def rotlWord (a t : Word) : Word := a.rotateLeft (bits t 0 6)

/-- ADD (R342). -/
def execAdd (c : Ctl) (u : Fin 2) (s : State) : Step := .next (aluOp c u 0 (fun a _ t => a + t) s)

/-- SUB (R342). -/
def execSub (c : Ctl) (u : Fin 2) (s : State) : Step := .next (aluOp c u 1 (fun a _ t => a - t) s)

/-- ADDS (R344). -/
def execAdds (c : Ctl) (u : Fin 2) (s : State) : Step :=
  .next (aluOp c u 2 (fun a _ t => word (sat (a.toInt + t.toInt) 64)) s)

/-- SUBS (R344). -/
def execSubs (c : Ctl) (u : Fin 2) (s : State) : Step :=
  .next (aluOp c u 3 (fun a _ t => word (sat (a.toInt - t.toInt) 64)) s)

/-- AND (R345). -/
def execAnd (c : Ctl) (u : Fin 2) (s : State) : Step := .next (aluOp c u 4 (fun a _ t => a &&& t) s)

/-- OR (R345). -/
def execOr (c : Ctl) (u : Fin 2) (s : State) : Step := .next (aluOp c u 5 (fun a _ t => a ||| t) s)

/-- XOR (R345). -/
def execXor (c : Ctl) (u : Fin 2) (s : State) : Step := .next (aluOp c u 6 (fun a _ t => a ^^^ t) s)

/-- ANDN (R345). -/
def execAndn (c : Ctl) (u : Fin 2) (s : State) : Step := .next (aluOp c u 7 (fun a _ t => a &&& ~~~ t) s)

/-- SHL (R420). -/
def execShl (c : Ctl) (u : Fin 2) (s : State) : Step := .next (aluOp c u 8 (fun a _ t => shlWord a t) s)

/-- SHR (R420). -/
def execShr (c : Ctl) (u : Fin 2) (s : State) : Step := .next (aluOp c u 9 (fun a _ t => shrWord a t) s)

/-- SAR (R420). -/
def execSar (c : Ctl) (u : Fin 2) (s : State) : Step := .next (aluOp c u 10 (fun a _ t => sarWord a t) s)

/-- ROTL (R417). -/
def execRotl (c : Ctl) (u : Fin 2) (s : State) : Step := .next (aluOp c u 11 (fun a _ t => rotlWord a t) s)

/-- MIN (R390). -/
def execMin (c : Ctl) (u : Fin 2) (s : State) : Step :=
  .next (aluOp c u 12 (fun a _ t => if a.toInt ≤ t.toInt then a else t) s)

/-- MAX (R390). -/
def execMax (c : Ctl) (u : Fin 2) (s : State) : Step :=
  .next (aluOp c u 13 (fun a _ t => if a.toInt ≥ t.toInt then a else t) s)

/-- MINU (R390). -/
def execMinu (c : Ctl) (u : Fin 2) (s : State) : Step :=
  .next (aluOp c u 14 (fun a _ t => if a.toNat ≤ t.toNat then a else t) s)

/-- MAXU (R390). -/
def execMaxu (c : Ctl) (u : Fin 2) (s : State) : Step :=
  .next (aluOp c u 15 (fun a _ t => if a.toNat ≥ t.toNat then a else t) s)

/-- ABS (R341). -/
def execAbs (c : Ctl) (u : Fin 2) (s : State) : Step :=
  .next (aluOp c u 16 (fun _ _ t => word (sat t.toInt.natAbs 64)) s)

/-- CLZ (R355). -/
def execClz (c : Ctl) (u : Fin 2) (s : State) : Step := .next (aluOp c u 17 (fun _ _ t => clzWord t) s)

/-- CLS (R355). -/
def execCls (c : Ctl) (u : Fin 2) (s : State) : Step := .next (aluOp c u 18 (fun _ _ t => clsWord t) s)

/-- POPC (R355). -/
def execPopc (c : Ctl) (u : Fin 2) (s : State) : Step :=
  .next (aluOp c u 19 (fun _ _ t => BitVec.ofNat 64 (popcount t)) s)

/-- EXT (R368). -/
def execExt (c : Ctl) (u : Fin 2) (s : State) : Step := .next (aluOp c u 20 (fun a _ t => extWord a t) s)

/-- INS (R368). -/
def execIns (c : Ctl) (u : Fin 2) (s : State) : Step := .next (aluOp c u 21 (fun a b t => insWord a b t) s)

/-- SEL (R421). -/
def execSel (c : Ctl) (u : Fin 2) (s : State) : Step :=
  .next (aluOp c u 22 (fun a b t => if t ≠ 0 then a else b) s)

/-- CMPEQ (R356). -/
def execCmpeq (c : Ctl) (u : Fin 2) (s : State) : Step :=
  .next (aluOp c u 23 (fun a _ t => truth (decide (a = t))) s)

/-- CMPNE (R356). -/
def execCmpne (c : Ctl) (u : Fin 2) (s : State) : Step :=
  .next (aluOp c u 24 (fun a _ t => truth (decide (a ≠ t))) s)

/-- CMPLT (R356). -/
def execCmplt (c : Ctl) (u : Fin 2) (s : State) : Step :=
  .next (aluOp c u 25 (fun a _ t => truth (decide (a.toInt < t.toInt))) s)

/-- CMPLE (R356). -/
def execCmple (c : Ctl) (u : Fin 2) (s : State) : Step :=
  .next (aluOp c u 26 (fun a _ t => truth (decide (a.toInt ≤ t.toInt))) s)

/-- CMPLTU (R356). -/
def execCmpltu (c : Ctl) (u : Fin 2) (s : State) : Step :=
  .next (aluOp c u 27 (fun a _ t => truth (decide (a.toNat < t.toNat))) s)

/-- CMPLEU (R356). -/
def execCmpleu (c : Ctl) (u : Fin 2) (s : State) : Step :=
  .next (aluOp c u 28 (fun a _ t => truth (decide (a.toNat ≤ t.toNat))) s)

/-- PAND (R406). -/
def execPand (c : Ctl) (u : Fin 2) (s : State) : Step :=
  .next (aluOp c u 29 (fun a _ t => truth (decide (a ≠ 0) && decide (t ≠ 0))) s)

/-- POR (R406). -/
def execPor (c : Ctl) (u : Fin 2) (s : State) : Step :=
  .next (aluOp c u 30 (fun a _ t => truth (decide (a ≠ 0) || decide (t ≠ 0))) s)

/-- PXOR (R406). -/
def execPxor (c : Ctl) (u : Fin 2) (s : State) : Step :=
  .next (aluOp c u 31 (fun a _ t => truth (xor (decide (a ≠ 0)) (decide (t ≠ 0)))) s)

/-- PNOT (R406). -/
def execPnot (c : Ctl) (u : Fin 2) (s : State) : Step :=
  .next (aluOp c u 32 (fun _ _ t => truth (decide (t = 0))) s)

end Sys2Proof.Machine
end

