-- ==== Sys2Proof/Machine/Coll.lean ====
section
/-!
DEFINITION. The coll engine: SEND and RECV (R251, R252, R411), and the collective commands CRED (R360), CBCAST (R353) and COMMIT
(R357, R358) up to the taking of their contribution (R361).
-/

namespace Sys2Proof.Machine

/-! ## SEND and RECV -/

/-- First scratchpad line. -/
def Cmd.xline (c : Cmd) : Nat := bits c.word 25 14
/-- Lines of a transfer. -/
def Cmd.xlines (c : Cmd) : Nat := bits c.word 39 8 + 1
/-- PEER. -/
def Cmd.xpeer (c : Cmd) : Nat := bits c.word 47 5
/-- TAG. -/
def Cmd.xtag (c : Cmd) : Nat := bits c.word 52 8

/-- The range faults of R251: a peer that is the bay itself or no member of its gang, and lines past the scratchpad. -/
def xferChk (c : Cmd) (s : State) : Check :=
  if c.xpeer = s.cur.val % 24 ∨ s.inGangOf s.cur c.xpeer = false then some (.range, anyInfo c.op)
  else if s.storeSize s.cur .scratch < 128 * (c.xline + c.xlines) then some (.range, BitVec.ofNat 72 (128 * c.xline))
  else none

/-- SEND (R251, R411). -/
def execSend (c : Ctl) (s : State) : Step :=
  .next (s.command c .coll 288 (fieldMask 60 12) outOfBay keepCmd xferChk noCmdEff)

/-- RECV (R251, R411). -/
def execRecv (c : Ctl) (s : State) : Step :=
  .next (s.command c .coll 289 (fieldMask 60 12) outOfBay keepCmd xferChk noCmdEff)

/-- A SEND reads a line, and presents it at the receiver 24 cycles later (R252). The line holds an entry of the sender's and of the
receiver's table from now to its landing; where either is full the fault is the sender's (R253, log 91). -/
def State.sendLine (s : State) (b : BayId) (r : XferRun) : State :=
  let t := s.poleTime b
  let c := r.cmd
  let next (y : State) : State := y.onBay b (fun x =>
    if r.pos + 1 = c.xlines then { x with sends := x.sends.filter (fun z => decide (z.cmd.id ≠ c.id)) }.produce c
    else { x with sends := x.sends.map (fun z => if z.cmd.id = c.id then { z with pos := z.pos + 1 } else z) })
  if s.inFlightFull b || s.inFlightFull (peerBay b c.xpeer) then (next s).strayFault b .inFlightLimit 0
  else
    let line : SentLine := ⟨b.val, c.issued - (s.bay b).lead, r.begun, t + 24, c.xtag, c.xlines - 1, r.pos, c.xpeer,
      Mem.readN (s.bay b).scratch (128 * (c.xline + r.pos)) 128, c.seen⟩
    next ((s.useStore b .scratch (128 * (c.xline + r.pos)) 128 false).onBay (peerBay b c.xpeer) (fun x =>
      { x with arriving := x.arriving ++ [line] }))

/-- SEND_BEGIN (R252): a SEND in course reads its next line; then the head command, a SEND whose pegs are produced, begins once the
SEND before it has read its last line, and reads its first. Nothing moves during a hold (R468). -/
def execSendBegin (b : BayId) (s : State) : Step :=
  if (s.partAt b).held then .next s
  else
    let t := s.poleTime b
    match (s.bay b).sends.find? (fun r => decide (r.begun < t)) with
    | some r => .next (s.sendLine b r)
    | none =>
      match (s.bay b).headReady .coll (s.now b) (fun op => decide (op = 288)), (s.bay b).sends with
      | some c, [] =>
        let r : XferRun := ⟨c, t, 0⟩
        let s1 := s.onBay b (fun x => let y := (x.dequeue .coll).consume c; { y with sends := [r] })
        .next (s1.sendLine b r)
      | _, _ => .next s

/-- RECV_BEGIN (R252): the head command, a RECV whose pegs are produced, begins once the RECV before it has landed its last
line. -/
def execRecvBegin (b : BayId) (s : State) : Step :=
  if (s.partAt b).held then .next s
  else
    match (s.bay b).headReady .coll (s.now b) (fun op => decide (op = 289)), (s.bay b).recvs with
    | some c, [] => .next (s.onBay b (fun x =>
        let y := (x.dequeue .coll).consume c
        { y with recvs := [⟨c, s.poleTime b, 0⟩] }))
    | _, _ => .next s

/-- A line presented to a bay belongs to the RECV that expects one (R252). -/
def lineMatches (b : BayId) (r : XferRun) (l : SentLine) : Bool :=
  decide (r.begun = l.begun + 24) && decide (l.peer = b.val % 24) && decide (peerBay b r.cmd.xpeer = Fin.ofNat 192 l.sender)
    && decide (r.cmd.xtag = l.tag) && decide (r.cmd.xlines = l.nlm1 + 1) && decide (l.j = r.pos)

/-- INFO of a transfer mismatch (R285). -/
def mismatchInfo (tag j : Nat) : Info := BitVec.ofNat 72 (256 * tag + j)

/-- A RECV moves on by a line, and produces its peg with the last (R252). -/
def Bay.recvNext (b : Bay) (r : XferRun) : Bay :=
  if r.pos + 1 = r.cmd.xlines then { b with recvs := b.recvs.filter (fun y => decide (y.cmd.id ≠ r.cmd.id)) }.produce r.cmd
  else { b with recvs := b.recvs.map (fun y => if y.cmd.id = r.cmd.id then { y with pos := y.pos + 1 } else y) }

/-- The RECV that lands its first line in this cycle: it has begun, or it begins now (R252). -/
def State.recvNow (s : State) (b : BayId) : Option XferRun :=
  match (s.bay b).recvs with
  | r :: _ => if r.pos = 0 then some r else none
  | [] => ((s.bay b).headReady .coll (s.now b) (fun op => decide (op = 289))).map (fun c => ⟨c, s.poleTime b, 0⟩)

/-- The link of a SEND and the RECV that matches it takes effect in the RECV's first landing cycle (R218, R234). -/
def State.linkRecv (s : State) (b : BayId) : State :=
  if (s.partAt b).held then s
  else
    match s.recvNow b with
    | none => s
    | some r =>
      match (s.bay b).arriving.find? (fun l => decide (l.due ≤ s.poleTime b) && lineMatches b r l) with
      | some l => s.join b.val (eventClock l.sender l.issued l.seen)
      | none => s

/-- RECV_LINE_LANDING (R252): the lines presented in this cycle, and the line that a RECV expects. A line without its RECV, and a
RECV without its line, are timing faults of the receiving bay. -/
def execRecvLineLanding (b : BayId) (s : State) : Step :=
  if (s.partAt b).held then .next s
  else
    let t := s.poleTime b
    let x := s.bay b
    let here := x.arriving.filter (fun l => decide (l.due ≤ t))
    let s0 := s.onBay b (fun y => { y with arriving := y.arriving.filter (fun l => decide (t < l.due)) })
    match x.recvs with
    | r :: _ =>
      let stray := here.find? (fun l => !lineMatches b r l)
      let s1 := match here.find? (lineMatches b r) with
        | none => s0.strayFault b .transferMismatch (mismatchInfo r.cmd.xtag r.pos)
        | some l =>
          let s2 := s0.land b .scratch [(128 * (r.cmd.xline + r.pos), l.data)] false
          s2.onBay b (fun y => y.keepReplay t (leNat l.data))
      let s2 := match stray with
        | some l => s1.strayFault b .transferMismatch (mismatchInfo l.tag l.j)
        | none => s1
      .next (s2.onBay b (fun y => y.recvNext r))
    | [] =>
      match here with
      | l :: _ => .next (s0.strayFault b .transferMismatch (mismatchInfo l.tag l.j))
      | [] => .next s0

/-! ## Collective commands -/

/-- SLOT of a collective command. -/
def Cmd.cslot (c : Cmd) : Nat := bits c.word 25 6
/-- The descriptor of a slot on this chip (R316). -/
def Part.descOf (p : Part) (slot : Nat) : Option RDesc := p.rds.find? (fun d => decide (d.slot.val = slot))
/-- Element width of a descriptor in bits (R316). -/
def RDesc.width (d : RDesc) : Nat := 8 * 2 ^ d.w
/-- Leaf of a chip in a descriptor's list. -/
def RDesc.leaf (d : RDesc) (lchip : Nat) : Nat := (d.chips.findIdx? (fun c => decide (c = lchip))).getD 0
/-- Bytes of a contribution or result. -/
def RDesc.bytes (d : RDesc) : Nat := d.nel * d.width / 8

/-- The range fault of a contribution's data (R360). -/
def contribChk (c : Cmd) (d : RDesc) (s : State) : Check :=
  if s.storeSize s.cur .scratch < 64 * bits c.word 43 15 + d.bytes then some (.range, BitVec.ofNat 72 (64 * bits c.word 43 15))
  else none

/-- A format fault with INFO equal to the slot. -/
def slotFormat (c : Cmd) : Check := some (.format, BitVec.ofNat 72 c.cslot)

/-- The faults of CRED (R360). -/
def credChk (c : Cmd) (s : State) : Check :=
  match (s.partAt s.cur).descOf c.cslot with
  | none => slotFormat c
  | some d => if d.bc then slotFormat c else contribChk c d s

/-- The faults of CBCAST (R353): range for leaf 0's chip alone. -/
def cbcastChk (c : Cmd) (s : State) : Check :=
  match (s.partAt s.cur).descOf c.cslot with
  | none => slotFormat c
  | some d =>
    if !d.bc then slotFormat c
    else if d.leaf (s.partAt s.cur).lchip = 0 then contribChk c d s
    else none

/-- The selector word of a COMMIT (R357). -/
def selectorChk (p : Part) (b : BayId) (va : Addr) : Except (Cause × Info) Xlat :=
  match translate p va ⟨false, true, false⟩ false with
  | .error e => .error e
  | .ok x =>
    if vaNat va % 8 ≠ 0 ∨ (teStier x.raw ≠ 3 ∧ teStier x.raw ≠ 4) then .error (.range, vaInfo va)
    else
      match regionAt p (vaNat va) with
      | none => .ok x
      | some (_, r) =>
        if mwMode r.mode = 0 ∧ isPartyA p b r.mode = true then .ok x else .error (.region, vaInfo va)

/-- The faults of COMMIT (R357). -/
def commitChk (c : Cmd) (s : State) : Check :=
  match (s.partAt s.cur).descOf c.cslot with
  | none => slotFormat c
  | some d =>
    if d.mode ≠ 5 ∨ d.w ≠ 0 ∨ d.nel ≠ 1 ∨ d.bc = true then slotFormat c
    else
      match selectorChk (s.partAt s.cur) s.cur c.a0 with
      | .error e => some e
      | .ok _ =>
        if s.storeSize s.cur .scratch < 64 * bits c.word 43 15 + 4 * bits c.word 58 5 then
          some (.range, BitVec.ofNat 72 (64 * bits c.word 43 15))
        else none

/-- A collective command with the a-register it reads at issue: DREG (R360). -/
def credCmd (s : State) (c : Cmd) : Cmd := { c with a0 := s.me.aSeen (bits c.word 31 4) }

/-- COMMIT with the VA of its selector word (R357). -/
def commitCmd (s : State) (c : Cmd) : Cmd := { c with a0 := s.me.aSeen (bits c.word 39 4) }

/-- CRED (R360, R361). -/
def execCred (c : Ctl) (s : State) : Step :=
  .next (s.command c .coll 290 (fieldMask 58 14) outOfBay credCmd credChk noCmdEff)

/-- CBCAST (R353, R361). -/
def execCbcast (c : Ctl) (s : State) : Step :=
  .next (s.command c .coll 291 (fieldMask 58 14) outOfBay credCmd cbcastChk noCmdEff)

/-- COMMIT (R357, R358). -/
def execCommit (c : Ctl) (s : State) : Step :=
  .next (s.command c .coll 292 (fieldMask 63 9) outOfBay commitCmd commitChk noCmdEff)

/-! ## The taking of a contribution (R361, R318) -/

/-- A contribution frame of a descriptor (R316). -/
def RDesc.contributes (d : RDesc) (f : Nat) : Bool := decide (f % 2 ^ d.pexp = d.phase)

/-- The round that takes contributions in a frame (R316). -/
def RDesc.roundOf (d : RDesc) (f : Nat) : Nat := (f - d.phase) / 2 ^ d.pexp

/-- TOF in frames: 0 means 2 (R316). -/
def RDesc.frames (d : RDesc) : Nat := if d.tof = 0 then 2 else d.tof

/-- The node mode of a descriptor: SAT for a code that the load refuses (R317). -/
def RDesc.nodeMode (d : RDesc) : Mode := (modeOf d.mode).getD .sat

/-- The contribution of a command that begins now on leaf c (R353, R358, R360, R361). -/
def Cmd.contribution (cmd : Cmd) (x : Bay) (d : RDesc) (leaf round : Nat) : NodeVal :=
  if cmd.op = 292 then
    let sat : Int := if scSat (x.scAt (bits cmd.word 31 8)) then 1 else 0
    let desc : BitVec 48 := BitVec.ofNat 48 (d.b0 * 2 ^ 42 + leaf * 2 ^ d.b0)
    ⟨d.slot, round, 0, leaf, [sat], 0, false, x.kseed, [⟨leaf, desc, 0⟩], d.w⟩
  else
    let sc := x.scAt (bits cmd.word 35 8)
    let off := 64 * bits cmd.word 43 15
    let elems := (List.range d.nel).map (fun i => sext (Mem.nat x.scratch (off + i * (d.width / 8)) (d.width / 8)) d.width)
    ⟨d.slot, round, 0, leaf, elems, scE sc, scSat sc, x.kseed, [⟨leaf, cmd.a0.setWidth 48, scE sc⟩], d.w⟩

/-- Another command of the chip's partition has contributed to a round. -/
def State.contributed (s : State) (p : Part) (slot : Fin 64) (round : Nat) : Bool :=
  p.bays.any (fun b => (s.bay b).colls.any (fun r => decide (r.slot = slot) && decide (r.round = round)))

/-- The region check of a COMMIT as it begins (R226). -/
def commitRegion (s : State) (b : BayId) (c : Cmd) : Check :=
  if c.op = 292 then
    match selectorChk (s.partAt b) b c.a0 with
    | .error (.region, i) => some (.region, i)
    | _ => none
  else none

/-- COLL_BEGIN (R361): the head command, a collective one whose pegs are produced, begins. Off COFF of a contribution frame, or
second in its round, it takes a slot fault; else its contribution is taken, and reaches the chip's own router 20 pole cycles
later (R318). None begins during a hold (R468). -/
def execCollBegin (b : BayId) (s : State) : Step :=
  let p := s.partAt b
  if p.held then .next s
  else
    match (s.bay b).headReady .coll (s.now b) (fun op => decide (290 ≤ op)) with
    | none => .next s
    | some c =>
      let s1 := s.onBay b (fun x => (x.dequeue .coll).consume c)
      match p.descOf c.cslot with
      | none => .next (s1.strayFault b .slot 0)
      | some d =>
        let round := d.roundOf p.framec
        match commitRegion s b c with
        | some f => .next (s1.strayFault b f.1 f.2)
        | none =>
        if p.polec ≠ d.coff ∨ d.contributes p.framec = false ∨ s.contributed p d.slot round = true then
          .next (s1.strayFault b .slot 0)
        else
          let leaf := d.leaf p.lchip
          let x := s1.bay b
          let n := if c.op = 292 then bits c.word 58 5 else 0
          let list := (List.range n).map (fun i => BitVec.ofNat 32 (Mem.nat x.scratch (64 * bits c.word 43 15 + 4 * i) 4))
          let read := s1.useStore b .scratch (64 * bits c.word 43 15)
            (if c.op = 292 then 4 * n else if c.op = 291 ∧ leaf ≠ 0 then 0 else d.bytes) false
          let s2 := read.onBay b (fun y => { y with colls := y.colls ++ [⟨c, d.slot, round, list, p.time, s.seenBy b.val⟩] })
          if c.op = 291 ∧ leaf ≠ 0 then .next s2
          else .next { s2 with arrivals := s2.arrivals ++ [(s2.clock + 20 * p.k, c.contribution x d leaf round)] }

end Sys2Proof.Machine
end

