-- ==== Sys2Proof/Machine/Control.lean ====
section
/-!
DEFINITION. Control flow: branches and calls (R79, R90 to R92, R349 to R352, R377, R415), loops (R77, R78, R386, R387), jigs (R80,
R82, R375, R376) and END (R366).
-/

namespace Sys2Proof.Machine

/-! ## Targets (R79, R91, R92) -/

/-- The loop level in force: the one pushed last, unless trap entry suspends it (R77, R297). -/
def Bay.topLoop (b : Bay) : Option LoopLevel := if b.suspended < b.loops.length then b.loops.head? else none

/-- INFO of a control-flow fault: bits [31:0] of a code address (R92). -/
def codeInfo (x : Int) : Info := BitVec.ofInt 72 (24 * x)

/-- The control-flow fault of a target given as a code address (R92). -/
def flowFault (addr : Int) : Check := some (.controlFlow, BitVec.ofInt 72 addr)

/-- Slot 7 of the bundle at an index of the bay's instruction memory. -/
def Bay.slot7At (b : Bay) (i : Nat) : Option Instr := decodeIn 7 (BitVec.ofNat 24 (Mem.nat b.imem (24 * i + 21) 3))

/-- The loop levels in force, the one pushed last first: those that trap entry does not suspend (R77, R297). -/
def Bay.loopsInForce (b : Bay) : List LoopLevel := b.loops.take (b.loops.length - b.suspended)

/-- A target is no code address of a valid bundle (R92). -/
def indexChk (s : State) (addr : Int) : Check :=
  if addr % 24 ≠ 0 ∨ addr / 24 < 0 ∨ (s.bundleLimit s.cur : Int) ≤ addr / 24 then flowFault addr else none

/-- A ranged transfer leaves the range of the top level (R79). -/
def Bay.outOfLoop (b : Bay) (idx : Int) : Bool :=
  match b.topLoop with
  | none => false
  | some l => decide (idx < l.start) || decide ((l.stop : Int) < idx)

/-- A taken transfer to a code address: its index must be valid, and it may not stand in the end bundle of a level; a ranged one stays in
the top level's range (R79, R92). -/
def targetChk (s : State) (addr : Int) (ranged : Bool) : Check :=
  let b := s.me
  Check.andThen (indexChk s addr)
    (if b.loopsInForce.any (fun l => decide (b.pc = l.stop)) || (ranged && b.outOfLoop (addr / 24)) then flowFault addr else none)

/-- The slot 7 pad that a target must hold (R92). -/
def padChk (s : State) (addr : Int) (pad : Instr) : Check :=
  if s.me.slot7At (addr / 24).toNat = some pad then none else flowFault addr

/-- A transfer taken: the target issues next (R91). -/
def State.goto (s : State) (addr : Int) : State := s.onMe (fun b => { b with xfer := some (addr / 24).toNat })

/-- The code address of bundle pc + offset. -/
def State.relative (s : State) (off : Int) : Int := 24 * ((s.me.pc : Int) + off)

/-- lk takes the code address of the following bundle (R351). -/
def State.linkNext (s : State) : State :=
  s.onMe (fun b => { b with regs := { b.regs with lk := BitVec.ofNat 64 (24 * (b.pc + 1)) } })

/-- The offset moved to BR or CALL: signed, in bundles (R91). -/
def Val.offset (v : Val) : Int := v.word.toInt

/-- A code address moved: bits [63:0]. -/
def Val.code (v : Val) : Int := v.word.toNat

/-! ## Branches -/

/-- BR (R349). -/
def execBr (c : Ctl) (s : State) : Step :=
  .next (s.move c (fun v t => targetChk t (t.relative v.offset) true) (fun v t => t.goto (t.relative v.offset)))

/-- Mask register MASK of a BRM as its bundle found it (R350). -/
def brmMask (s : State) (v : Val) : MaskReg := s.me.seen.m.get (Fin.ofNat 8 (bits v.addr 32 3))

/-- Whether a BRM over a uniform mask is taken (R350): none for a mixed mask. -/
def brmTaken (s : State) (v : Val) : Option Bool :=
  let m := brmMask s v
  if m = BitVec.allOnes 256 then some (!bitAt v.addr 35)
  else if m = 0 then some (bitAt v.addr 35)
  else none

/-- The target of a BRM. -/
def brmTarget (s : State) (v : Val) : Int := s.relative (sbits v.addr 0 32)

/-- The checks of BRM (R350): control flow ranks before a reserved field (R106). -/
def brmChk (v : Val) (s : State) : Check :=
  Check.andThen
    (match brmTaken s v with
      | none => flowFault (brmTarget s v)
      | some true => targetChk s (brmTarget s v) true
      | some false => none)
    (if bits v.addr 36 36 ≠ 0 then some (.reservedField, 257) else none)

/-- BRM (R350). -/
def execBrm (c : Ctl) (s : State) : Step :=
  .next (s.move c brmChk (fun v t => if brmTaken t v = some true then t.goto (brmTarget t v) else t))

/-- CALL (R351). -/
def execCall (c : Ctl) (s : State) : Step :=
  .next (s.move c (fun v t => targetChk t (t.relative v.offset) false)
    (fun v t => (t.goto (t.relative v.offset)).linkNext))

/-- CALLI (R352): the target holds a PAD C. -/
def execCalli (c : Ctl) (s : State) : Step :=
  .next (s.move c (fun v t => Check.andThen (targetChk t v.code false) (padChk t v.code .padC))
    (fun v t => (t.goto v.code).linkNext))

/-- The code address in lk as the bundle found it. -/
def State.lkCode (s : State) : Int := s.me.seen.lk.toNat

/-- RET (R415): the value moved is ignored. -/
def execRet (c : Ctl) (s : State) : Step :=
  .next (s.move c (fun _ t => targetChk t t.lkCode false) (fun _ t => t.goto t.lkCode))

/-- JMPI (R377): the target holds a PAD J and lies in the top level's range. -/
def execJmpi (c : Ctl) (s : State) : Step :=
  .next (s.move c (fun v t => Check.andThen (targetChk t v.code true) (padChk t v.code .padJ)) (fun v t => t.goto v.code))

/-! ## Loops -/

/-- COUNT of a loop descriptor. -/
def loopCount (v : Val) : Nat := bits v.addr 0 32
/-- ENDOFF. -/
def loopEnd (v : Val) : Nat := bits v.addr 32 8
/-- NUPD. -/
def loopUpd (v : Val) : Nat := bits v.addr 40 3
/-- UBASE. -/
def loopUbase (v : Val) : Nat := bits v.addr 43 4
/-- SBASE. -/
def loopSbase (v : Val) : Nat := bits v.addr 47 4

/-- The faults of LOOP (R387): with COUNT 0 it pushes no level, so it overflows nothing (R77, log 78). -/
def loopChk (v : Val) (s : State) : Check :=
  let b := s.me
  let stop := b.pc + loopEnd v
  if bits v.addr 51 21 ≠ 0 ∨ 4 < loopUpd v ∨ 16 < loopUbase v + loopUpd v ∨ 16 < loopSbase v + loopUpd v then
    some (.reservedField, 272)
  else if loopEnd v = 0 ∨ s.bundleLimit s.cur ≤ stop
      ∨ (match b.topLoop with
          | some l => decide (l.stop < stop)
          | none => false) = true then flowFault (24 * (stop : Int))
  else if loopCount v = 0 then indexChk s (24 * ((stop : Int) + 1))
  else if 4 ≤ b.loops.length then some (.loopOverflow, 0)
  else none

/-- The address updates of a level: registers and strides as the bundle found them (R386). -/
def loopUpdates (b : Bay) (v : Val) : List (Fin 16 × Int) :=
  (List.range (loopUpd v)).map (fun u =>
    (Fin.ofNat 16 (loopUbase v + u), (((b.seen.a.toList.getD (loopSbase v + u) 0).setWidth 32 : BitVec 32)).toInt))

/-- l register k replaced. -/
def Regs.setL (r : Regs) (k : Nat) (x : BitVec 32) : Regs := { r with l := r.l.setIfInBounds k x }

/-- LOOP (R77, R386, R387): a level is pushed with index 0, or with COUNT 0 control passes beyond the end bundle. -/
def execLoop (c : Ctl) (s : State) : Step :=
  .next (s.move c loopChk (fun v t =>
    if loopCount v = 0 then t.goto (24 * ((t.me.pc : Int) + loopEnd v + 1))
    else
      t.onMe (fun b => { b with
        regs := b.regs.setL b.loops.length 0
        loops := ⟨b.pc + 1, b.pc + loopEnd v, loopCount v, loopUpdates b v⟩ :: b.loops })))

/-- An address update: bits [71:64] are kept (R78). -/
def Regs.stepA (r : Regs) (u : Fin 16 × Int) : Regs :=
  let a := r.a.get u.1
  let lo : BitVec 64 := BitVec.ofInt 64 ((bits a 0 64 : Int) + u.2)
  { r with a := r.a.set u.1.val ((a &&& (0xFF0000000000000000 : BitVec 72)) ||| lo.setWidth 72) u.1.isLt }

/-- at_end of R78 over the levels in force that end at the bundle: what the registers and levels become, and the next bundle where
a level repeats. -/
def atEnd (pc : Nat) (kept : List LoopLevel) : List LoopLevel → Regs → Regs × List LoopLevel × Option Nat
  | [], r => (r, kept, none)
  | l :: ls, r =>
    if l.stop ≠ pc then (r, l :: ls ++ kept, none)
    else
      let r1 := l.updates.foldl Regs.stepA r
      let k := ls.length + kept.length
      let index := (r1.l.toList.getD k 0).toNat + 1
      if index < l.count then (r1.setL k (BitVec.ofNat 32 index), l :: ls ++ kept, some l.start)
      else atEnd pc kept ls (r1.setL k 0)

/-- The loop unit's act at the end of the bundle at pc (R78): registers, levels and the next bundle where a level repeats. -/
def Bay.loopStep (b : Bay) : Regs × List LoopLevel × Option Nat :=
  atEnd b.pc (b.loops.drop (b.loops.length - b.suspended)) b.loopsInForce b.regs

/-! ## Jigs -/

/-- Routine bundles of the jig store (R80, R375). -/
def State.jigLimit (s : State) (b : BayId) : Nat := if s.sliced b then 1365 else 2730

/-- MASK of a JIG. -/
def jigMask (w : BitVec 72) : BitVec 8 := BitVec.ofNat 8 (bits w 61 8)

/-- JMASK of the bay's task (R33): none is permitted without a task. -/
def Bay.jmask (b : Bay) : BitVec 8 :=
  match b.task with
  | some t => t.jmask
  | none => 0

/-- Masks of the running jigs; a JIG that has issued counts, since it begins in the next cycle (R376; log 48). -/
def Bay.jigMasks (b : Bay) : List (BitVec 8) :=
  b.jigs.toList.filterMap (fun j => j.map JigRun.mask) ++ (b.queue .jig).map (fun c => jigMask c.word)

/-- The faults of JIG (R375): reserved bits, consumed pegs, range, jig collision. -/
def jigChk (c : Cmd) (s : State) : Check :=
  let w := c.word
  let b := s.me
  let m := jigMask w
  if bits w 6 18 ≠ 0x3FFFF then some (.reservedField, 304)
  else if s.jigLimit s.cur ≤ bits w 25 12 + bits w 37 12 then
    some (.range, BitVec.ofNat 72 (24 * (bits w 25 12 + bits w 37 12)))
  else if m = 0 ∨ bitAt m 7 = true ∨ m &&& b.jmask ≠ m ∨ b.jigMasks.any (fun x => decide (x &&& m ≠ 0)) = true
      ∨ 2 ≤ b.jigMasks.length then some (.jigCollision, 0)
  else none

/-- JIG (R375). -/
def execJig (c : Ctl) (s : State) : Step :=
  .next (s.command c .jig 304 (fieldMask 69 3) inBay keepCmd jigChk noCmdEff)

/-- The lowest free micro-PC. -/
def Bay.freeJig (b : Bay) : Option (Fin 2) :=
  if (b.jigs.get 0).isNone then some 0 else if (b.jigs.get 1).isNone then some 1 else none

/-- JIG_START (R80, R376): a JIG begins in the cycle after its issue, and its first bundle merges into the bundle of the next. -/
def execJigStart (b : BayId) (s : State) : Step :=
  let now := s.now b
  match (s.bay b).headReady .jig now (fun _ => true), (s.bay b).freeJig with
  | some c, some j =>
    .next (s.onBay b (fun x =>
      let y := x.dequeue .jig
      let w := c.word
      { y with jigs := y.jigs.set j.val (some ⟨now + 1, bits w 25 12, bits w 37 12 + 1, jigMask w, bits w 49 12 + 1, bits w 25 12,
        c.ppeg, false, false⟩) j.isLt }))
  | _, _ => .next s

/-- JIG_END (R376): the jig whose last bundle has committed in this cycle ends, frees its micro-PC and produces its peg. -/
def execJigEnd (b : BayId) (j : Fin 2) (s : State) : Step :=
  match (s.bay b).jigs.get j with
  | none => .next s
  | some r =>
    if r.done then
      .next (s.onBay b (fun x => { x with
        jigs := x.jigs.set j.val none j.isLt
        pegSet := if r.ppeg = 63 then x.pegSet else x.pegSet ++ [r.ppeg] }))
    else .next s

/-- A jig after one of its bundles has merged (R376, R82). -/
def JigRun.advance (r : JigRun) : JigRun :=
  if r.next + 1 < r.first + r.len then { r with next := r.next + 1 }
  else if r.reps ≤ 1 then { r with reps := 0, next := 0, done := true }
  else { r with reps := r.reps - 1, next := r.first }

/-- JPC of a micro-PC (R82): zero when it is not in use. -/
def jpcWord (j : Option JigRun) : Word :=
  match j with
  | none => 0
  | some r => BitVec.ofNat 64 (r.reps * 4096 + r.next)

/-! ## END (R366) -/

/-- Pegs of begun commands that have not completed (R366). -/
def State.outstanding (s : State) (b : BayId) : List Nat :=
  let x := s.bay b
  let scarf := match s.partOf b with
    | some q =>
      let c := s.scarf.get q
      if c.bay = b.val then (match c.cmd with
        | some m => [m.ppeg]
        | none => []) else []
    | none => []
  x.nests.map (fun r => r.cmd.ppeg) ++ x.tails.map (fun r => r.cmd.ppeg) ++ x.drains.map (fun r => r.cmd.ppeg)
    ++ (x.walks.toList.flatMap (fun l => l.map (fun r => r.cmd.ppeg))) ++ x.sends.map (fun r => r.cmd.ppeg)
    ++ x.recvs.map (fun r => r.cmd.ppeg) ++ x.gates.map (fun r => r.cmd.ppeg) ++ x.qputs.map (fun r => r.cmd.ppeg)
    ++ x.colls.map (fun r => r.cmd.ppeg) ++ x.jigs.toList.filterMap (fun j => j.map JigRun.ppeg) ++ scarf

/-- An access that changes state outside the registers and has not performed (R366), be it in this cycle; a TFILL or TEVICT is known by its
result of latency 4. -/
def Bay.changing (b : Bay) (now : Nat) : Bool :=
  b.acc.any (fun a =>
    match a.kind with
    | .st | .stv => decide (now < a.due)
    | .ldc | .fetchAdd => true
    | .ld | .ldv | .hlook | .opt _ _ _ _ | .ldg | .stg | .stp | .atomic _ | .hand => false)
    || b.inflight.any (fun r => decide (r.port = .mem0R) && !r.remote && decide (r.due = r.trig + 4) && decide (now < r.due))

/-- The END state of R366: INFO, 0 where END may be executed. -/
def State.endState (s : State) (b : BayId) : Nat :=
  let x := s.bay b
  (if x.loops ≠ [] then 1 else 0)
    + (if x.queues.toList.any (fun q => decide (q ≠ [])) ∨ (s.outstanding b).any (fun p => decide (p ≠ 63)) then 2 else 0)
    + (if x.pegs ≠ 0 then 4 else 0) + (if x.jigs.toList.any Option.isSome then 8 else 0)
    + (if x.changing (s.now b) then 16 else 0)

/-- END (R366): the task ends with its bundle. -/
def execEndTask (c : Ctl) (s : State) : Step :=
  .next (s.move c
    (fun _ t => if t.endState t.cur ≠ 0 then some (.endState, BitVec.ofNat 72 (t.endState t.cur)) else none)
    (fun _ t => t.onMe (fun b => { b with closing := .ended })))

end Sys2Proof.Machine
end

