-- ==== Sys2Proof/Machine/Gates.lean ====
section
/-!
DEFINITION. The gate engine: GATE (R257, R370) and QPUT (R262, R409), their begin, the application of a GATE, and the claim and
landing of a QPUT.
-/

namespace Sys2Proof.Machine

/-! ## GATE -/

/-- A translation at begin or trigger for the gate engine: steps 1 to 5 of R203. -/
def gateXlat (p : Part) (va : Addr) (need : Need) : Except (Cause × Info) Xlat := translate p va need false

/-- The checks of R257 on a gate VA: R203 with PW, then R254. -/
def gateVaChk (p : Part) (va : Addr) : Check :=
  match gateXlat p va ⟨false, true, false⟩ with
  | .error e => some e
  | .ok _ => if (gatePlace p va).isNone then some (.range, vaInfo va) else none

/-- GATE with its gate VA and value (R257). -/
def gateCmd (s : State) (c : Cmd) : Cmd :=
  { c with a0 := s.me.aSeen (bits c.word 25 4), a1 := s.me.aSeen (bits c.word 29 4) }

/-- The checks of GATE (R257). -/
def gateChk (c : Cmd) (s : State) : Check :=
  if 2 ≤ bits c.word 33 2 then some (.reservedField, BitVec.ofNat 72 280)
  else gateVaChk (s.partAt s.cur) c.a0

/-- GATE (R257, R370). -/
def execGate (c : Ctl) (s : State) : Step :=
  .next (s.command c .gate 280 (fieldMask 35 37) outOfBay gateCmd gateChk noCmdEff)

/-- The tier latency to the page of an address (R186). -/
def State.vaLatency (s : State) (b : BayId) (va : Addr) : Nat :=
  match findEntry (s.partAt b).tt (vaNat va) with
  | some (_, e) => tierLatency b e
  | none => 0

/-! ## QPUT -/

/-- Scratchpad offset of the result word. -/
def Cmd.qres (c : Cmd) : Nat := 8 * bits c.word 44 18
/-- Scratchpad offset of the packet. -/
def Cmd.qpkt (c : Cmd) : Nat := 64 * bits c.word 29 15

/-- QPUT with its header VA (R262). -/
def qputCmd (s : State) (c : Cmd) : Cmd := { c with a0 := s.me.aSeen (bits c.word 25 4) }

/-- The checks of R409 on the header. -/
def qputVaChk (p : Part) (va : Addr) : Except (Cause × Info) Xlat :=
  match gateXlat p va ⟨true, true, true⟩ with
  | .error e => .error e
  | .ok x => if teStier x.raw < 3 ∨ 5 < teStier x.raw ∨ vaNat va % 64 ≠ 0 then .error (.range, vaInfo va) else .ok x

/-- An address of the partition lies in a QUEUE region (R225, R258, R409). -/
def inQueue (p : Part) (va : Addr) : Bool :=
  match regionAt p (vaNat va) with
  | some (_, r) => decide (bits va 64 8 = p.mem.asid.toNat) && decide (mwMode r.mode = 4)
  | none => false

/-- The checks of QPUT (R409) after its timing checks and its reserved bits. -/
def qputChk (c : Cmd) (s : State) : Check :=
  let size := s.storeSize s.cur .scratch
  if size < c.qpkt + 64 then some (.range, BitVec.ofNat 72 c.qpkt)
  else if size < c.qres + 8 then some (.range, BitVec.ofNat 72 c.qres)
  else
    match qputVaChk (s.partAt s.cur) c.a0 with
    | .error e => some e
    | .ok _ =>
      if !inQueue (s.partAt s.cur) c.a0 then some (.region, vaInfo c.a0) else none

/-- QPUT (R262, R409): its slot write is a gated write of the window (R287). -/
def execQput (c : Ctl) (s : State) : Step :=
  .next (s.command c .gate 281 (fieldMask 62 10) outOfBay qputCmd qputChk
    (fun _ b => { b with window := { b.window with gstores := b.window.gstores + 1 } }))

/-! ## Begin (R257) -/

/-- A GATE begins: its region check is made again (R226), and it performs at the tier latency. -/
def State.gateBegin (s : State) (b : BayId) (c : Cmd) : State :=
  let p := s.partAt b
  if (regionAt p (vaNat c.a0)).isSome then s.strayFault b .region (vaInfo c.a0)
  else
    s.onBay b (fun x => { x with
      gates := x.gates ++ [⟨x.nextId, c, p.time + s.vaLatency b c.a0⟩]
      nextId := x.nextId + 1 })

/-- A QPUT begins: its packet is read, and its claim sets out to the header's home (R262). -/
def State.qputBegin (s : State) (b : BayId) (c : Cmd) : State :=
  let p := s.partAt b
  match qputVaChk p c.a0 with
  | .error f => s.strayFault b f.1 f.2
  | .ok x =>
    if !inQueue p c.a0 then s.strayFault b .region (vaInfo c.a0)
    else
      let t := p.time
      let lat := tierLatency b x.raw
      let id := (s.bay b).nextId
      let s1 := (s.useStore b .scratch c.qpkt 64 false).onBay b (fun y => { y with
        qputs := y.qputs ++ [⟨id, c, t + lat, t + 2 * lat, x.place, x.entry, Mem.readN y.scratch c.qpkt 64, none, 0⟩],
        nextId := y.nextId + 1 })
      s1.tier5Send b id c.a0 x.place .claim

/-- A QPUT whose header lies on an absent page: it begins once the page has been brought (R203, R293). -/
def State.qputAbsent (s : State) (b : BayId) (c : Cmd) : Bool :=
  match qputVaChk (s.partAt b) c.a0 with
  | .error f => decide (c.op = 281) && decide (f.1 = .translation)
  | .ok _ => false

/-- GATE_BEGIN (R257): the head command of the gate engine begins when its pegs are produced; none begins during a hold (R468). -/
def execGateBegin (b : BayId) (s : State) : Step :=
  if (s.partAt b).held then .next s
  else
    match (s.bay b).headReady .gate (s.now b) (fun _ => true) with
    | none => .next s
    | some c =>
      if s.qputAbsent b c then .next (s.strayRetry b .translation (vaInfo c.a0) (.gateBegin b))
      else
        let s1 := s.onBay b (fun x => (x.dequeue .gate).consume c)
        .next (if c.op = 280 then s1.gateBegin b c else s1.qputBegin b c)

/-- GATE_PERFORM (R255, R257): the command is applied at the gate, is recorded (R289), and produces its peg. A GATE ADD orders what
the party has done before it ahead of the completion (R236). -/
def execGatePerform (b : BayId) (id : Nat) (s : State) : Step :=
  match (s.bay b).gates.find? (fun g => decide (g.id = id)), s.partOf b with
  | some g, some q =>
    let t := s.poleTime b
    if t < g.due ∨ (s.part q).held = true then .next s
    else
      let v := bits g.cmd.a1 0 48
      let s1 :=
        if bits g.cmd.word 33 2 = 0 then s.gateSet q b.val g.cmd.a0 v
        else s.arrive q b.val g.cmd.a0 v (eventClock b.val t (s.seenBy b.val))
      .next (s1.onBay b (fun x =>
        ({ x with gates := x.gates.filter (fun h => decide (h.id ≠ id)) }.produce g.cmd).keepResult t v))
  | _, _ => .next s

/-! ## The claim and landing of a QPUT (R262) -/

/-- WIDX of a queue header (R259). -/
def hdrWidx (h : BitVec 512) : Nat := bits h 64 64
/-- RIDX. -/
def hdrRidx (h : BitVec 512) : Nat := bits h 128 64
/-- LOG2N. -/
def hdrLog2n (h : BitVec 512) : Nat := bits h 16 4
/-- SLOTVA. -/
def hdrSlotVa (h : BitVec 512) : Addr := h.extractLsb' 272 72
/-- GATEVA. -/
def hdrGateVa (h : BitVec 512) : Addr := h.extractLsb' 192 72

/-- A queue header at a place. -/
def State.headerAt (s : State) (pl : Place) : BitVec 512 := BitVec.ofNat 512 (leNat (s.readPlaceN pl 64))

/-- The conditional claim of R262 on a header of this chip: the claim and the state with WIDX advanced. -/
def State.claimSlot (s : State) (pl : Place) : Option Nat × State :=
  let h := s.headerAt pl
  if hdrWidx h < hdrRidx h + 2 ^ hdrLog2n h then
    (some (hdrWidx h), s.writePlace (pl.add 8) (leBytes 8 (hdrWidx h + 1)))
  else (none, s)

/-- The claim of a QPUT and the header it was made on. -/
def Bay.setClaim (b : Bay) (id : Nat) (w : Option Nat) (h : BitVec 512) : Bay :=
  { b with qputs := b.qputs.map (fun y => if y.id = id then { y with claim := some w, header := h } else y) }

/-- QPUT_CLAIM (R262): the claim performs at the header's home; it is recorded, and no rerun repeats it. -/
def execQputClaim (b : BayId) (id : Nat) (s : State) : Step :=
  match (s.bay b).qputs.find? (fun g => decide (g.id = id)) with
  | none => .next s
  | some g =>
    let t := s.poleTime b
    if t < g.claimDue ∨ (s.partAt b).held = true ∨ g.claim.isSome = true then .next s
    else if (s.bay b).gatedClash t (.bytes (g.place.add 8) (List.replicate 8 0)) then
      .next ((s.onBay b (fun x => { x with qputs := x.qputs.filter (fun h => decide (h.id ≠ id)) }.produce g.cmd)).strayFault b
        .writeCollision (vaInfo g.cmd.a0))
    else
      match g.place with
      | .chip _ _ _ => .next s
      | .ring _ _ | .lpddr _ _ =>
        let h := s.headerAt g.place
        let r := s.claimSlot g.place
        let s0 := match s.partOf b, r.1 with
          | some q, some _ => r.2.markLate q g.entry
          | _, _ => r.2
        let s1 := s0.note b (g.place.add 8) 8 true 2 (t + 1) (s.seenBy b.val)
        let w : Nat := match r.1 with
          | some n => n
          | none => 2 ^ 64 - 1
        .next (s1.onBay b (fun x => { (x.setClaim id r.1 h).keepResult t w with fetched := (g.place.add 8, 8) :: x.fetched }))

/-- The VA of the slot that claim w of a QPUT writes (R262). -/
def QputRun.slotVa (g : QputRun) (w : Nat) : Addr := hdrSlotVa g.header + BitVec.ofNat 72 (64 * (w % 2 ^ hdrLog2n g.header))

/-- The slot of a claimed QPUT lies on an absent page. -/
def State.slotAbsent (s : State) (b : BayId) (g : QputRun) : Bool :=
  match g.claim with
  | some (some w) =>
    match gateXlat (s.partAt b) (g.slotVa w) ⟨false, true, false⟩ with
    | .error f => decide (f.1 = .translation)
    | .ok _ => false
  | some none => false
  | none => false

/-- The slot write of a QPUT that claimed w: SEQ stands in bytes 2 and 3 of the packet (R262, R409). -/
def State.qputPacket (s : State) (b : BayId) (g : QputRun) (w : Nat) : State :=
  let va := g.slotVa w
  match gateXlat (s.partAt b) va ⟨false, true, false⟩ with
  | .error f => s.strayFault b f.1 f.2
  | .ok x =>
    let data := g.packet.take 2 ++ leBytes 2 (w % 65536) ++ g.packet.drop 4
    if (s.bay b).gatedClash (s.poleTime b) (.bytes x.place data) then s.strayFault b .writeCollision (vaInfo va)
    else s.onBay b (fun y => { y with gbuf := y.gbuf ++
      [⟨g.id, va, 64, x.entry, some (s.poleTime b), g.cmd.win, .bytes x.place data, s.seenBy b.val, 0, true⟩] })

/-- QPUT_LANDING (R262): the result word lands in the scratchpad, the packet performs, and the peg is produced. A claim of another
chip that has not been answered is a slot fault (R312). -/
def execQputLanding (b : BayId) (id : Nat) (s : State) : Step :=
  match (s.bay b).qputs.find? (fun g => decide (g.id = id)) with
  | none => .next s
  | some g =>
    if s.poleTime b < g.landDue ∨ (s.partAt b).held = true then .next s
    else if s.slotAbsent b g then .next (s.strayRetry b .translation (vaInfo g.cmd.a0) (.qputLanding b id))
    else
      match g.claim with
      | none =>
        if (s.partAt b).resuming.any (fun r => decide (r.1 = b)) then
          .next ((s.onBay b (fun x => { x with qputs := x.qputs.filter (fun h => decide (h.id ≠ id)) }.produce g.cmd)).strayFault
            b .slot (vaInfo g.cmd.a0))
        else .next (s.strayLate b (vaInfo g.cmd.a0) (.qputLanding b id))
      | some r =>
        let w : Nat := match r with
          | some n => n
          | none => 2 ^ 64 - 1
        let s1 := s.onBay b (fun x => { x with qputs := x.qputs.filter (fun h => decide (h.id ≠ id)) })
        let s2 := s1.land b .scratch [(g.cmd.qres, leBytes 8 w)] false
        let s3 := match r with
          | some n => s2.qputPacket b g n
          | none => s2
        .next (s3.onBay b (fun x => x.produce g.cmd))

end Sys2Proof.Machine
end

