-- ==== Sys2Proof/Machine/Slips.lean ====
section
/-!
DEFINITION. What a partition writes and keeps outside its bays: writes through its translation table, the slip log (R45, R46), pod
cycles (R314), remap tables (R52), the spawn queues (R47 to R49), and the run queue (R38).
-/

namespace Sys2Proof.Machine

/-! ## Device-side access through the translation table -/

/-- The entry and place of a VA of a partition, for the yard, the fabric and the asynchronous domain: its page must be present in
ring SRAM, LPDDR-6 or another chip's. -/
def Part.vaPlace (p : Part) (va : Addr) : Option (Nat × Place) :=
  match findEntry p.tt (vaNat va) with
  | none => none
  | some (x, e) => if tePresent e && decide (teTier e ≤ 5) then some (x, tePlace e (vaNat va - teBase e)) else none

/-- Bytes written at a VA of a partition; PENDING is set (R205). -/
def State.putVa (s : State) (q : PartId) (va : Addr) (data : List Byte) : State :=
  match (s.part q).vaPlace va with
  | none => s
  | some (x, pl) => (s.writePlace pl data).markPending q x

/-- A write of the host that fills one slot-sized block counts as a packet (R259, R261; log 24). -/
def hostKind (party : Nat) (va : Addr) (n : Nat) : Nat := if hostParty 0 ≤ party ∧ n = 64 ∧ vaNat va % 64 = 0 then 4 else 0

/-- Bytes that a party of the asynchronous domain writes at a VA of a partition, noted under the number of the write (R23). -/
def State.putBy (s : State) (q : PartId) (party tag : Nat) (va : Addr) (data : List Byte) : State :=
  match (s.part q).vaPlace va with
  | none => s
  | some (_, pl) => (s.putVa q va data).noteBy q party tag pl data.length true (hostKind party va data.length) 0 (s.seenBy party)

/-- n bytes at a VA of a partition; zeros where its page is not here. -/
def State.getVa (s : State) (q : PartId) (va : Addr) (n : Nat) : List Byte :=
  match (s.part q).vaPlace va with
  | none => List.replicate n 0
  | some (_, pl) => s.readPlaceN pl n

/-! ## Traffic that waits for its slots (R24, R193, R470) -/

/-- Bytes of the yard for a VA of a partition that go through the 0xF0 slots (R24); they are lost where the page is not here (log 89). -/
def State.queueBytes (s : State) (q : PartId) (va : Addr) (data : List Byte) : State :=
  match (s.part q).vaPlace va with
  | none => s
  | some (_, pl) => s.freshTag.2.queueBurst q 0xF0 (some pl) data.length (.bytes yardParty s.freshTag.1 va data)

/-! ## The slip log (R45, R46) -/

/-- The 32 bytes of a slip record (R45). -/
def Slip.bits (r : Slip) : Nat :=
  r.frame % 2 ^ 64 * 2 ^ 192 + r.cycle % 2 ^ 20 * 2 ^ 172 + r.bay % 256 * 2 ^ 164 + r.task.toNat * 2 ^ 148
    + r.kind % 16 * 2 ^ 144 + (if r.spawned then 2 ^ 143 else 0) + r.cycles % 2 ^ 64 * 2 ^ 64 + r.ptp % 2 ^ 64

/-- A record for the slip log: record n goes to index n mod 2^SLIPEXP through the 0xF0 slots, and is counted (R46). Where the page of
its slot is not present it is counted and its bytes are lost (log 89). -/
def State.putSlip (s : State) (q : PartId) (r : Slip) : State :=
  let p := s.part q
  let n := p.slipw.toNat % 2 ^ p.hdr.slipexp
  (s.queueBytes q (p.hdr.slipva + BitVec.ofNat 72 (32 * n)) (leBytes 32 r.bits)).onPart q (fun x => { x with slipw := x.slipw + 1 })

/-- Several records in order. -/
def State.putSlips (s : State) (q : PartId) (l : List Slip) : State := l.foldl (fun acc r => acc.putSlip q r) s

/-- The order of records of one frame start: by pole cycle, then by logical bay (R45). -/
def Slip.key (r : Slip) : Nat := (r.frame * 2 ^ 20 + r.cycle) * 256 + r.bay

/-- The records of events that ended, in the order of R45: waits and idle frames first. -/
def slipOrder (l : List Slip) : List Slip :=
  l.filter (fun r => decide (r.kind = 3)) ++ sortOn Slip.key (l.filter (fun r => decide (r.kind ≠ 3)))

/-- An event of the whole partition that begins now, to be told by a slip record (R45). -/
def State.stopNow (s : State) (frame cycle kind : Nat) : Stop :=
  ⟨⟨frame, cycle, 0xFF, 0, kind, false, 0, s.ptp⟩, s.clock⟩

/-- An event of a bay that begins now. -/
def State.bayStop (s : State) (b : BayId) (kind : Nat) : Stop :=
  let p := s.partAt b
  match (s.bay b).task with
  | some t => ⟨⟨p.framec, p.polec, b.val, t.id, kind, t.spawned, 0, s.ptp⟩, s.clock⟩
  | none => ⟨⟨p.framec, p.polec, b.val, 0, kind, false, 0, s.ptp⟩, s.clock⟩

/-- The record of an event that ends at a clock cycle. -/
def Stop.ended (x : Stop) (clock : Nat) : Slip := { x.slip with cycles := clock - x.clock }

/-- The event in course of a partition ends with the beginning of a clock cycle: its record waits for the next frame start. -/
def Part.endStop (p : Part) (clock : Nat) : Part :=
  match p.stop with
  | some x => { p with stop := none, slips := p.slips ++ [x.ended clock] }
  | none => p

/-- The one record of a stall (R45, R291, R294): that of the lowest bay that rolled back in it, of kind 2 where a page was brought for any
of them (log 37). -/
def stallRecord (l : List Stop) : Option Stop :=
  (sortOn (fun (x : Stop) => x.slip.bay) l).head?.map (fun x =>
    if l.any (fun y => decide (y.slip.kind = 2)) then { x with slip := { x.slip with kind := 2 } } else x)

/-- The event in course of a partition ends now. -/
def State.endStop (s : State) (q : PartId) : State := s.onPart q (fun p => p.endStop s.clock)

/-! ## Pod time (R314) -/

/-- Pole cycles of a frame. -/
def Part.frameLen (p : Part) : Nat := 2 ^ p.hdr.fexp

/-- The pod cycle at a clock cycle. -/
def Part.podCycle (p : Part) (clock : Nat) : Int := (clock : Int) - p.pod.base

/-- The pod cycle before which frame f may not start (R314), its offset given. -/
def Part.podInstant (p : Part) (f offset : Nat) : Int := (f * p.frameLen * p.k + offset : Nat)

/-- D of R315. -/
def Part.podLag (p : Part) : Nat := max p.hdr.slack 2

/-- A(f): the former offset, or the largest reported for frame f - D (R315). -/
def Part.offsetAt (p : Part) (f : Nat) : Nat :=
  (p.pod.reports.filter (fun r => decide (r.1 + p.podLag = f))).foldl (fun acc r => max acc r.2) p.pod.offset

/-- A frame may start now by pod time; a single-chip plan does not wait (R314). -/
def Part.podReady (p : Part) (clock f : Nat) : Bool :=
  p.fab.isNone || decide (p.podInstant f (p.offsetAt f) ≤ p.podCycle clock)

/-- The other logical chips of the pod (R309). -/
def FabHeader.others (f : FabHeader) : List Nat := (List.range f.nlchip).filter (fun c => decide (c ≠ f.lchip))

/-- A message to every other yard of the pod, in the reserved flit times (R315). -/
def State.sendAll (s : State) (q : PartId) (f : FabHeader) (m : Msg) : State :=
  f.others.foldl (fun acc c => acc.sendBy .yard q 0 1 f c m) s

/-! ## Remap tables (R51 to R53) -/

/-- The remap table that R52 derives from the healthy positions of a bent. -/
def remapOf (healthy : List Nat) : Vector (BitVec 8) 24 :=
  let h := healthy.length
  let k := 24 - h
  .ofFn (fun p =>
    if p.val < 2 * k then BitVec.ofNat 8 (128 + 64 * (p.val % 2) + healthy.getD (p.val / 2) 0)
    else BitVec.ofNat 8 (healthy.getD (p.val - k) 0))

/-- The healthy positions of a bent. -/
def State.healthyOf (s : State) (t : Fin 8) : List Nat :=
  (List.range 26).filter (fun i => (s.phys.get (Fin.ofNat 208 (26 * t.val + i))).healthy)

/-- A bent of a partition has a sliced entry (R53). -/
def State.anySliced (s : State) (bents : BitVec 8) : Bool :=
  (List.finRange 8).any (fun t => bents.getLsbD t.val && (s.bents.get t).remap.toList.any (fun e => e.getLsbD 7))

/-- Clock cycles per pole cycle (R53, R308): two while any bent of the partition, or any chip of its pod, is sliced. -/
def State.rateOf (s : State) (p : Part) : Nat :=
  if s.anySliced p.hdr.bents || (p.fab.isSome && s.chipmap.any (fun e => e.2.getLsbD 15)) then 2 else 1

/-! ## Spawn queues (R47 to R49) and the run queue (R38) -/

/-- A number that orders spawn instants and names an entry of a spawn queue (R48). -/
def Spawn.order (e : Spawn) : Nat := (e.frame * 2 ^ 20 + e.cycle) * 2 ^ 16 + e.by'

/-- A spawn of the wheel or the queue reader at the start of a frame, put after all others of its instant (R48, R50, R263). -/
def State.frameSpawn (s : State) (b : BayId) (frame index : Nat) (args : List Word) : State :=
  s.onBay b (fun x =>
    let n := x.spawnq.countP (fun e => decide (e.frame = frame) && decide (e.cycle = 0) && decide (192 ≤ e.by'))
    { x with spawnq := x.spawnq ++ [⟨frame, 0, 192 + n, index, args⟩] })

/-- The first plan frame after f with F mod 2^PEXP = PHASE (R49). -/
def Entry.frameAfter (e : Entry) (f : Nat) : Nat := f + 1 + (e.phase + 2 ^ e.pexp - (f + 1) % 2 ^ e.pexp) % 2 ^ e.pexp

/-- A frame matches the period and phase of an entry (R35). -/
def Entry.inFrame (e : Entry) (f : Nat) : Bool := decide (f % 2 ^ e.pexp = e.phase)

/-- Rank of a kind among equal ticks (R38). -/
def releaseRank : ReleaseKind → Nat
  | .story => 0
  | .spawned => 1
  | .gated => 2

/-- The order of the run queue (R38): tick, kind, then spawn order or entry index. -/
def Release.before (a b : Release) : Bool :=
  if a.frame ≠ b.frame then decide (a.frame < b.frame)
  else if a.offset ≠ b.offset then decide (a.offset < b.offset)
  else if releaseRank a.kind ≠ releaseRank b.kind then decide (releaseRank a.kind < releaseRank b.kind)
  else decide (a.order ≤ b.order)

/-- The head of a run queue (R38). -/
def headOf : List Release → Option Release
  | [] => none
  | r :: rest =>
    match headOf rest with
    | none => some r
    | some h => some (if r.before h then r else h)

/-- The entry of a bay with an entry index (R33). -/
def Part.entryOf (p : Part) (bay index : Nat) : Option Entry :=
  p.entries.find? (fun e => decide (e.bay = bay) && decide (e.index = index))

/-- The pole clock of a partition runs in this clock cycle: no hold, stall, idle frame, wait or stop (R29, R43, R44). -/
def Part.poleRuns (p : Part) : Bool :=
  decide (p.mode = .running) && !p.held && decide (p.stall = 0) && p.bringing.isEmpty && !p.starting

/-- A pre-emption point but for the run queues (R57, R303): every bay idle with CLASS 0, no hold or stall, no command queued or
begun, no round that the partition has contributed to undelivered, and a scarf context that neither checks nor runs. -/
def State.preemptPoint (s : State) (q : PartId) : Bool :=
  let p := s.part q
  p.poleRuns
    && p.bays.all (fun b =>
      let x := s.bay b
      decide (x.mode = .idle) && decide (x.cls = 0) && x.queues.toList.all List.isEmpty && !x.busyCommands
        && x.runq.isEmpty)
    && decide ((s.scarf.get q).mode ≠ .checking) && decide ((s.scarf.get q).mode ≠ .running)

/-! ## Flit times (R310) -/

/-- First clock cycle of a chip's flit times within an entry: at half rate the second half serves CTX 1 (R310). -/
def State.linkCtx (s : State) (k : Nat) (f : FabHeader) (chip : Nat) : Nat :=
  if k = 2 ∧ (s.chipEntry f chip).getLsbD 14 then 64 else 0

/-- The flit times of an entry that begin in its pole cycle o (R310). -/
def flitStarts (o : Nat) : List Nat :=
  (List.range 3).filterMap (fun d =>
    let i := (125 * o + 63) / 64 + d
    if 64 * i / 125 = o ∧ i < 125 then some i else none)

/-- The flit times that begin in this clock cycle on the ports of a partition's chip: entry of the link slot table and number. Entries are
counted from the frame's instant in pod time, A included (R310, R314). -/
def State.flitsNow (s : State) (p : Part) : List (Nat × Nat) :=
  match p.fab with
  | none => []
  | some f =>
    let span := 64 * p.k
    let c : Nat := ((p.podCycle s.clock - p.pod.offset) % (p.frameLen * p.k : Nat)).toNat
    let ctx := s.linkCtx p.k f f.lchip
    let o := c % span - ctx
    if c % span < ctx ∨ 64 ≤ o then []
    else (flitStarts o).map (fun i => (c / span, i))

end Sys2Proof.Machine
end

