-- ==== Sys2Proof/Machine/System.lean ====
section
/-!
DEFINITION. The system unit: SPAWN and WHEEL (R47 to R50, R425, R426, R439), GSYNC (R233), WITNESS, TRAP, RESUME and RETIRE (R300,
R301), SYSR and SYSW (R72, R433, R434), TTLD and TTCLR (R206).
-/

namespace Sys2Proof.Machine

/-! ## SPAWN and WHEEL -/

/-- TEMPLATE of R425. -/
def spawnIndex (v : Val) : Nat := bits v.addr 0 16
/-- BAY of R425. -/
def spawnBay (v : Val) : Nat := bits v.addr 16 8
/-- Scratchpad offset of the argument block. -/
def spawnArgs (v : Val) : Nat := 64 * bits v.addr 24 15
/-- PRED of R425. -/
def spawnPred (v : Val) : Nat := bits v.addr 39 3

/-- The template entry of a bay with an entry index (R33). -/
def Part.template (p : Part) (bay index : Nat) : Option Entry :=
  p.entries.find? (fun e => decide (e.bay = bay) && decide (e.index = index) && e.template)

/-- The faults of SPAWN, and of WHEEL (R426, R439); the reserved bits start at lo. -/
def spawnChk (id lo : Nat) (v : Val) (s : State) : Check :=
  let p := s.partAt s.cur
  if bits v.addr lo (72 - lo) ≠ 0 ∨ spawnPred v = 0 then some (.reservedField, BitVec.ofNat 72 id)
  else if p.hasBay (spawnBay v) = false then some (.range, BitVec.ofNat 72 (spawnIndex v))
  else if (p.template (spawnBay v) (spawnIndex v)).isNone then some (.range, BitVec.ofNat 72 (spawnIndex v))
  else if s.storeSize s.cur .scratch < spawnArgs v + 64 then some (.range, BitVec.ofNat 72 (spawnArgs v))
  else if p.held then some (.slot, 0)
  else none

/-- The eight words of an argument block (R39). -/
def argWords (m : Mem) (off : Nat) : List Word := (List.range 8).map (fun k => BitVec.ofNat 64 (Mem.nat m (off + 8 * k) 8))

/-- The outcome written to a predicate (R47). -/
def Bay.setPred (b : Bay) (n : Nat) (v : Bool) : Bay :=
  { b with regs := { b.regs with p := b.regs.p.setIfInBounds (n - 1) v } }

/-- Whether a spawn queue has no free slot in this cycle (R47, R48). -/
def Bay.spawnFull (b : Bay) : Bool := decide (64 ≤ b.spawnq.length + b.freed)

/-- SPAWN (R47 to R49, R426). -/
def execSpawn (c : Ctl) (s : State) : Step :=
  .next (s.move c (spawnChk 288 42) (fun v t =>
    let p := t.partAt t.cur
    let target : BayId := Fin.ofNat 192 (spawnBay v)
    let e : Spawn := ⟨p.framec, p.polec, t.cur.val, spawnIndex v, argWords t.me.scratch (spawnArgs v)⟩
    let full := (t.bay target).spawnFull
    let t1 := if full then t else t.onBay target (fun x => { x with spawnq := x.spawnq ++ [e] })
    (t1.useStore t.cur .scratch (spawnArgs v) 64 false).onMe (fun b =>
      (b.setPred (spawnPred v) (!full)).keepResult p.time (if full then 0 else 1))))

/-- The release frame of a WHEEL for PTP time T (R50). -/
def wheelFrame (p : Part) (t : Nat) : Nat :=
  let cyc := ((t - p.hdr.epoch) * 6 + (5 * p.k - 1)) / (5 * p.k)
  (cyc + 2 ^ p.hdr.fexp - 1) / 2 ^ p.hdr.fexp

/-- WHEEL (R50, R439). -/
def execWheel (c : Ctl) (s : State) : Step :=
  .next (s.move c (spawnChk 298 46) (fun v t =>
    let p := t.partAt t.cur
    let at' := vaNat (t.me.aSeen (bits v.addr 42 4))
    let w : WheelEnt := ⟨spawnBay v, spawnIndex v, wheelFrame p at', argWords t.me.scratch (spawnArgs v)⟩
    let full := decide (256 ≤ p.wheel.length)
    let t1 := match t.partOf t.cur with
      | some q => if full then t else t.onPart q (fun x => { x with wheel := x.wheel ++ [w] })
      | none => t
    (t1.useStore t.cur .scratch (spawnArgs v) 64 false).onMe (fun b =>
      (b.setPred (spawnPred v) (!full)).keepResult p.time (if full then 0 else 1))))

/-! ## GSYNC -/

/-- The members of the gang of a bay's task, itself among them (R33, R233): a member whose task has not started, or has ended, is
missed too. -/
def State.gangBays (s : State) (b : BayId) : List BayId :=
  ((List.range 24).map (peerBay b)).filter (fun x => s.member x (s.gangOf b))

/-- Every other member of the gang issues a GSYNC of the same value in this cycle (R233). -/
def State.gangAgrees (s : State) (v : BitVec 8) : Bool :=
  (s.gangBays s.cur).all (fun x => decide (x = s.cur) || decide ((s.bay x).gsync = some v))

/-- The faults of GSYNC (R41, R233, R285), for which no entry gives an order: control flow, timing, reserved field (R106). -/
def gsyncChk (v : Val) (s : State) : Check :=
  if s.gangOf s.cur = 0 then some (.controlFlow, 0)
  else if (s.partAt s.cur).held then some (.slot, 0)
  else if !s.gangAgrees (v.addr.setWidth 8) then some (.gangSync, (v.addr.setWidth 8).setWidth 72)
  else if bits v.addr 8 64 ≠ 0 then some (.reservedField, 289)
  else none

/-- Every member of a gang is ordered, from the next pole cycle on, after all that any of them has done by this one (R218, R233). -/
def State.orderGang (s : State) (l : List BayId) : State :=
  let v := l.foldl (fun acc b => joinClock acc (eventClock b.val (s.poleTime b) (s.seenBy b.val))) []
  l.foldl (fun acc b => acc.joinLater b.val v) s

/-- GSYNC (R233, R371): it orders the members' accesses (R218). -/
def execGsync (c : Ctl) (s : State) : Step :=
  .next (s.move c gsyncChk (fun _ t => t.orderGang (t.gangBays t.cur)))

/-! ## Windows and traps -/

/-- WITNESS (R286, R441): its bundle closes the window and opens the next. -/
def execWitness (c : Ctl) (s : State) : Step :=
  .next (s.move c noCheck (fun _ t => t.onMe (fun b => { b with closing := .witness })))

/-- The yard stops a partition for an error (R301). -/
def State.stopPart (s : State) (b : BayId) : State :=
  match s.partOf b with
  | some q => s.onPart q (fun p => { p with mode := .stopped })
  | none => s

/-- TRAP (R300, R301, R436): the software trap, or with the handler active the escalation to the yard. -/
def execTrap (c : Ctl) (s : State) : Step :=
  .next (s.move c
    (fun v t => if t.me.handlerActive then none else some (.softwareTrap, v.addr))
    (fun v t => (t.logFault t.cur 6 t.me.cls (causeCode .softwareTrap) (v.addr)).stopPart t.cur))

/-- A jig that runs again (R300). -/
def resumeJig (j : Option JigRun) : Option JigRun :=
  match j with
  | some r => some { r with suspended := false }
  | none => none

/-- The return from the trap (R300): CLASS 0 with the other fields of TCAUSE kept, suspended jigs and loop levels resumed. -/
def Bay.trapReturn (b : Bay) : Bay :=
  { b with
    tcause := b.tcause &&& ~~~(7 : Word)
    suspended := 0
    jigs := b.jigs.map resumeJig
    closing := .resumed }

/-- The faults of RESUME (R300): its target is checked as under R92. -/
def resumeChk (v : Val) (s : State) : Check :=
  let b := s.me
  if b.handlerActive = false ∨ b.suspended < b.loops.length then flowFault v.code
  else if v.code % 24 ≠ 0 ∨ (s.bundleLimit s.cur : Int) ≤ v.code / 24 then flowFault v.code
  else none

/-- RESUME (R300, R414). -/
def execResume (c : Ctl) (s : State) : Step :=
  .next (s.move c resumeChk (fun v t => (t.goto v.code).onMe Bay.trapReturn))

/-- RETIRE (R299, R300, R416): ACTION 1, with what TCAUSE holds (R302). -/
def execRetire (c : Ctl) (s : State) : Step :=
  .next (s.move c noCheck (fun _ t => t.retire t.cur 1))

/-! ## System registers (R72, R73) -/

/-- WSTATE (R73). -/
def Bay.wstate (b : Bay) : Word :=
  let w := b.window
  BitVec.ofNat 64 (w.bundles * 2 ^ 23 + w.handles.length * 2 ^ 20 + w.lines * 2 ^ 11 + w.gstores)

/-- BAYID (R72): the physical bay id, by the remap table of the bent (R51), and the logical one. -/
def State.bayId (s : State) (b : BayId) : Word :=
  let e := s.remapEntry b
  BitVec.ofNat 64 ((26 * (bentOf b).val + bits e 0 5) * 256 + b.val)

/-- The value of a system register; none where R72 lists none or keeps it for the yard. -/
def State.sysRead (s : State) (b : BayId) (id : Nat) : Option Word :=
  let x := s.bay b
  let p := s.partAt b
  if id = 0x00 then some (s.bayId b)
  else if id = 0x01 then some (BitVec.ofNat 64 (match s.partOf b with
    | some q => q.val
    | none => 0))
  else if id = 0x02 then some (BitVec.ofNat 64 p.framec)
  else if id = 0x03 then some (BitVec.ofNat 64 p.polec)
  else if id = 0x04 then some p.slipw
  else if id = 0x05 then some x.stepc
  else if id = 0x06 then some x.kseed
  else if id = 0x08 then some x.tcause
  else if id = 0x09 then some x.tbundle
  else if id = 0x0A then some (x.tslot.setWidth 64)
  else if id = 0x0B then some (jpcWord (x.jigs.get 0))
  else if id = 0x0C then some (jpcWord (x.jigs.get 1))
  else if id = 0x0D then some x.wstate
  else if 0x10 ≤ id ∧ id < 0x20 then some ((x.fmtAt (id - 0x10)).setWidth 64)
  else if 0x20 ≤ id ∧ id < 0x38 then
    some (((s.bents.get (bentOf b)).remap.toList.getD (id - 0x20) 0).setWidth 64)
  else if 0x100 ≤ id ∧ id < 0x200 then some ((x.scAt (id - 0x100)).setWidth 64)
  else none

/-- A register id that R72 does not list (R434). -/
def sysPortChk (port id : Nat) (s : State) : Check :=
  if (s.sysRead s.cur id).isNone ∧ ¬ (0x800 ≤ id ∧ id < 0x1000) then some (.unimplementedPort, BitVec.ofNat 72 (1024 + port))
  else none

/-- The other faults of a register id (R72, R434): yard only, or beyond a context's half. -/
def sysIdChk (id : Nat) (s : State) : Check :=
  if 0x800 ≤ id ∧ id < 0x1000 then some (.privilege, BitVec.ofNat 72 id)
  else if s.sliced s.cur = true ∧ ((0x18 ≤ id ∧ id < 0x20) ∨ (0x180 ≤ id ∧ id < 0x200)) then
    some (.range, BitVec.ofNat 72 id)
  else none

/-- The faults of SYSR (R433, R434), for which the entry gives no order: unimplemented port, timing, the rest (R106). -/
def sysrChk (v : Val) (s : State) : Check :=
  let id := bits v.addr 0 12
  Check.andThen (sysPortChk 294 id s)
    (Check.andThen (s.collision .systemR false 1 294)
      (Check.andThen (if bits v.addr 12 60 ≠ 0 then some (.reservedField, 294) else none) (sysIdChk id s)))

/-- SYSR (R433). -/
def execSysr (c : Ctl) (s : State) : Step :=
  .next (s.move c sysrChk (fun v t =>
    let x := ((s.sysRead s.cur (bits v.addr 0 12)).getD 0).setWidth 2048
    t.onMe (fun b => b.result t.myNow .systemR 1 x)))

/-- The round of a COMMIT of the bay is delivered in this cycle (R358, R434). -/
def Part.deliversNow (p : Part) (r : CollRun) : Bool :=
  p.rds.any (fun d => decide (d.slot = r.slot) && decide (p.polec = d.doff)
    && decide (p.framec = r.round * 2 ^ d.pexp + d.phase + (if d.tof = 0 then 2 else d.tof)))

/-- A COMMIT of the bay whose list names a scale register is delivered in this cycle (R434). -/
def State.commitNames (s : State) (b : BayId) (i : Nat) : Bool :=
  (s.bay b).colls.any (fun r => decide (r.cmd.op = 292) && (s.partAt b).deliversNow r
    && r.list.any (fun e => decide (bits e 0 8 = i) && decide (bits e 8 8 = 0)))

/-- A scale register that a scaled write in flight, or a COMMIT delivered in this cycle, names (R142, R434). -/
def syswBusy (id : Nat) (s : State) : Check :=
  if 0x100 ≤ id ∧ id < 0x200 ∧ (s.me.scaleBusy (id - 0x100) s.myNow = true ∨ s.commitNames s.cur (id - 0x100) = true) then
    some (.scaleBusy, BitVec.ofNat 72 (id - 0x100))
  else none

/-- The faults of SYSW (R434), in the order of R106. -/
def syswChk (v : Val) (s : State) : Check :=
  let id := bits v.addr 0 12
  Check.andThen (sysPortChk 295 id s)
    (Check.andThen (syswBusy id s)
      (Check.andThen (if bits v.addr 16 56 ≠ 0 then some (.reservedField, 295) else none) (sysIdChk id s)))

/-- A system register written: KSEED, a format entry or a scale register; a write to another id is ignored (R8, R434). -/
def Bay.sysWrite (b : Bay) (id : Nat) (v : Word) : Bay :=
  if id = 0x06 then { b with kseed := v }
  else if 0x10 ≤ id ∧ id < 0x20 then { b with fmt := b.fmt.setIfInBounds (id - 0x10) (syswFmt v) }
  else if 0x100 ≤ id ∧ id < 0x200 then b.setSc (id - 0x100) (syswScale v)
  else b

/-- SYSW (R434): the data is a[DREG] as the bundle found it. -/
def execSysw (c : Ctl) (s : State) : Step :=
  .next (s.move c syswChk (fun v t => t.onMe (fun b =>
    b.sysWrite (bits v.addr 0 12) ((b.aSeen (bits v.addr 12 4)).setWidth 64))))

/-! ## Translation entries (R206) -/

/-- A translation entry as TTLD reports it: DIRTY is DIRTY | PENDING (R205). -/
def ttldWord (e : TTEntry) (half : Bool) : Word :=
  let r := if e.pending then e.raw ||| 4 else e.raw
  if half then r.extractLsb' 64 64 else r.extractLsb' 0 64

/-- The faults of TTLD and TTCLR (R206). -/
def ttChk (id lo : Nat) (v : Val) (s : State) : Check :=
  if bits v.addr lo (72 - lo) ≠ 0 then some (.reservedField, BitVec.ofNat 72 id)
  else if (s.partAt s.cur).tt.length ≤ bits v.addr 0 12 then some (.range, BitVec.ofNat 72 (bits v.addr 0 12))
  else none

/-- TTLD (R206). -/
def execTtld (c : Ctl) (s : State) : Step :=
  .next (s.trigger c 296 .systemR 1 (ttChk 296 13)
    (fun v _ =>
      match (s.partAt s.cur).tt[bits v.addr 0 12]? with
      | some e => (ttldWord e (bitAt v.addr 12)).setWidth 2048
      | none => 0))

/-- TTCLR (R206): a clear is requested for the next frame start. -/
def execTtclr (c : Ctl) (s : State) : Step :=
  .next (s.move c (ttChk 297 12) (fun v t =>
    match t.partOf t.cur with
    | none => t
    | some q => t.onPart q (fun p => { p with tt := p.tt.zipIdx.map (fun x =>
        if x.2 = bits v.addr 0 12 then { x.1 with clr := true } else x.1) })))

end Sys2Proof.Machine
end

