-- ==== Sys2Proof/Machine/Walker.lean ====
section
/-!
DEFINITION. The tile walkers: WALK and WALKM with their checks (R239 to R243, R247, R438), the timeline of a walk (R244 to R246),
and asynchronous walks (R248, R249).
-/

namespace Sys2Proof.Machine

/-! ## Checks at trigger (R243, R247, R248) -/

/-- What an end's accesses need of a page (R225: a walk counts as LDG or STG). -/
def walkNeed (dst : Bool) : Need := if dst then ⟨false, true, false⟩ else ⟨true, false, false⟩

/-- The region column of an end (R225). -/
def walkKind (dst : Bool) : RKind := if dst then .stg else .ldg

/-- STIER of the page of an end's base; none for a local end or a page that is not there. -/
def Cmd.wtier (c : Cmd) (p : Part) (dst : Bool) : Option Nat :=
  if (c.wend dst).sp = 3 then (findEntry p.tt (vaNat (c.wbase dst))).map (fun x => teStier x.2) else none

/-- U of a walk (R241). -/
def Cmd.walkUnit (c : Cmd) (p : Part) : Nat :=
  if c.wtier p false = some 4 ∨ c.wtier p false = some 5 ∨ c.wtier p true = some 4 ∨ c.wtier p true = some 5 then 64 else 128

/-- The check of the base of an end (R243). -/
def walkBaseChk (c : Cmd) (dst : Bool) (s : State) : Check :=
  if (c.wend dst).sp = 3 then
    match translate (s.partAt s.cur) (c.wbase dst) (walkNeed dst) true with
    | .error e => some e
    | .ok _ => none
  else if s.storeSize s.cur (spStore (c.wend dst).sp) ≤ c.wpos dst then some (.range, BitVec.ofNat 72 (c.wpos dst))
  else none

/-- A format fault over a shape field (R471). -/
def shapeFault (i : Nat) : Check := some (.format, BitVec.ofNat 72 i)

/-- A format fault of kind 3 with a trigger port id (R471). -/
def portFormat (id : Nat) : Check := some (.format, BitVec.ofNat 72 (3 * 2 ^ 30 + id))

/-- TIER of an entry before a migration or replication took its page, on which no result depends (R210). -/
def Part.homeTier (p : Part) (e : Nat × BitVec 128) : Nat :=
  match p.tt[e.1]? with
  | some y => teTier (y.home.getD e.2)
  | none => teTier e.2

/-- The conditions of an asynchronous walk (R248); x is its STIER 6 end. -/
def asyncChk (c : Cmd) (p : Part) (x : Bool) : Check :=
  let other := c.wtier p (!x)
  let tier := (findEntry p.tt (vaNat (c.wbase x))).map (fun e => p.homeTier e)
  if other = some 5 ∨ other = some 6 ∨ other = some 7 then shapeFault (if x then 1 else 5)
  else if c.gva = 0 then shapeFault 16
  else if tier = some 7 ∧ c.wpos x % 4096 ≠ 0 then shapeFault (if x then 6 else 2)
  else if tier = some 7 ∧ (c.wend x).str % 4096 ≠ 0 then shapeFault (if x then 7 else 3)
  else if tier = some 7 ∧ c.rowB % 4096 ≠ 0 then shapeFault 8
  else if c.ppeg ≠ 63 then portFormat c.op
  else none

/-- The format row of R243. -/
def walkFormat (c : Cmd) (p : Part) : Check :=
  let u := c.unit
  let s0 := c.wend false
  let s1 := c.wend true
  if c.rowB % u ≠ 0 then shapeFault 8
  else if c.wpos false % u ≠ 0 then shapeFault 2
  else if s0.str % (u : Int) ≠ 0 then shapeFault 3
  else if c.wpos true % u ≠ 0 then shapeFault 6
  else if s1.str % (u : Int) ≠ 0 then shapeFault 7
  else if c.clip ∧ (c.wend c.cside).str ≤ 0 then shapeFault (if c.cside then 7 else 3)
  else if c.clip ∧ c.clipO < 0 then shapeFault 13
  else if c.wtier p false = some 6 then asyncChk c p false
  else if c.wtier p true = some 6 then asyncChk c p true
  else none

/-- The conditions of R247. -/
def walkmChk (c : Cmd) (s : State) : Check :=
  if c.isM then
    if (c.wend true).sp = 3 then shapeFault 5
    else if c.receivers = [] ∨ c.receivers.any (fun q => !s.inGangOf s.cur q) ∨ c.nrows < c.crows then portFormat c.op
    else none
  else none

/-- A must-be-zero bit of the captured shapes (R239). -/
def walkReserved (c : Cmd) : Bool :=
  decide (bits (c.sh.get 0) 78 178 ≠ 0) || decide (bits (c.sh.get 1) 78 178 ≠ 0)
    || decide (bits (c.sh.get 2) 172 84 ≠ 0) || bitAt (c.sh.get 2) 43 || decide (bits (c.sh.get 3) 112 144 ≠ 0)

/-- The checks of R243 and R247. -/
def walkChk (c : Cmd) (s : State) : Check :=
  if walkReserved c then some (.reservedField, BitVec.ofNat 72 c.op)
  else
    Check.andThen (walkBaseChk c false s)
      (Check.andThen (walkBaseChk c true s) (Check.andThen (walkFormat c (s.partAt s.cur)) (walkmChk c s)))

/-- A base address: the register with the offset added to bits [63:0] (R241). -/
def wbaseOf (b : Bay) (e : WEnd) : Addr :=
  let a := b.aSeen e.reg
  (a &&& (0xFF0000000000000000 : BitVec 72)) ||| (BitVec.ofInt 64 ((vaNat a : Int) + e.off)).setWidth 72

/-- A walk with the bases and unit size of its issue cycle (R241). -/
def walkCmd (s : State) (c : Cmd) : Cmd :=
  let c1 := { c with a0 := wbaseOf s.me (wEnd c.sh false), a1 := wbaseOf s.me (wEnd c.sh true) }
  { c1 with unit := c1.walkUnit (s.partAt s.cur) }

/-- Both ends of a walk are stores of the issuing bay: the walk runs on the bay's clock (R468). -/
def Cmd.bothLocal (c : Cmd) : Bool :=
  !c.isM && decide ((c.wend false).sp ≠ 3) && decide ((c.wend true).sp ≠ 3)

/-- The walk leaves the bay (R41). -/
def Cmd.walkLeaves (c : Cmd) : Bool := !c.bothLocal

/-- WK0_WALK (R438). -/
def execWk0Walk (c : Ctl) (s : State) : Step :=
  .next (s.command c .wk0 264 (fieldMask 25 47) Cmd.walkLeaves walkCmd walkChk noCmdEff)

/-- WK0_WALKM (R247, R438). -/
def execWk0Walkm (c : Ctl) (s : State) : Step :=
  .next (s.command c .wk0 265 (fieldMask 69 3) Cmd.walkLeaves walkCmd walkChk noCmdEff)

/-- WK1_WALK (R438). -/
def execWk1Walk (c : Ctl) (s : State) : Step :=
  .next (s.command c .wk1 272 (fieldMask 25 47) Cmd.walkLeaves walkCmd walkChk noCmdEff)

/-- WK1_WALKM (R247, R438). -/
def execWk1Walkm (c : Ctl) (s : State) : Step :=
  .next (s.command c .wk1 273 (fieldMask 69 3) Cmd.walkLeaves walkCmd walkChk noCmdEff)

/-! ## The timeline (R244) -/

/-- The clock that a walk runs on (R468). -/
def State.walkClock (s : State) (b : BayId) (c : Cmd) : Nat := if c.bothLocal then s.now b else s.poleTime b

/-- A walk moves in this cycle: one with a VA end or other receivers is frozen during a hold (R40, R468). -/
def State.walkMoves (s : State) (b : BayId) (c : Cmd) : Bool := c.bothLocal || !(s.partAt b).held

/-- Exactly one end on a STIER 6 page (R248). -/
def Cmd.isAsync (c : Cmd) (p : Part) : Bool :=
  decide (c.wtier p false = some 6) != decide (c.wtier p true = some 6)

/-- Latency of a unit at an end: 0 for a local one (R244, R186). -/
def unitLatency (p : Part) (b : BayId) (va : Addr) : Option Nat :=
  (findEntry p.tt (vaNat va)).map (fun x => tierLatency b x.2)

/-- Latency of a unit at a VA end: that of its page, and of the base's page for one on no page (log 51). -/
def Cmd.unitLat (c : Cmd) (p : Part) (b : BayId) (dst : Bool) (va : Addr) : Nat :=
  (unitLatency p b va).getD ((unitLatency p b (c.wbase dst)).getD 0)

/-- The access of n bytes that a unit starts at a VA end (R244): it lies in one burst of LPDDR-6 or one line of ring SRAM (R191, R470), and
its port or slot is claimed (R194, R470). Its page is checked again when it performs. -/
def unitStartChk (p : Part) (b : BayId) (va : Addr) (n : Nat) : Except (Cause × Info) (List Claim) :=
  match findEntry p.tt (vaNat va) with
  | none => .ok []
  | some (x, e) =>
    let block := if teStier e = 3 then 128 else 64
    if 3 ≤ teStier e ∧ teStier e ≤ 5 ∧ block < vaNat va % block + n then .error (.range, vaInfo va)
    else slotCheck p b ⟨x, e, tePlace e (vaNat va - teBase e)⟩ va p.time

/-- The same with the link slot of a tier 5 read (R312, R338). -/
def State.unitSlots (s : State) (b : BayId) (dst : Bool) (va : Addr) (n : Nat) : Except (Cause × Info) (List Claim) :=
  match unitStartChk (s.partAt b) b va n, findEntry (s.partAt b).tt (vaNat va) with
  | .ok cl, some (_, e) => if dst || s.remoteOk b (tePlace e (vaNat va - teBase e)) then .ok cl else .error (.slot, vaInfo va)
  | r, _ => r

/-- A unit that starts an access in this cycle, to be claimed and counted behind the bundle's (R207, R470). -/
def Bay.startUnit (b : Bay) (k : Fin 2) (c : Cmd) (id : Nat) (dst : Bool) : Bay := { b with starts := b.starts ++ [⟨k, c.id, id, dst⟩] }

/-- The walks of walker k of a bay. -/
def Bay.walksOf (b : Bay) (k : Fin 2) : List WalkRun := b.walks.get k

/-- The walks of walker k replaced. -/
def Bay.setWalks (b : Bay) (k : Fin 2) (l : List WalkRun) : Bay := { b with walks := b.walks.set k.val l k.isLt }

/-- A walk with one unit more. -/
def WalkRun.add (w : WalkRun) (u : WalkUnit) : WalkRun := { w with next := w.next + 1, units := w.units ++ [u] }

/-- The walk of a command replaced in walker k. -/
def Bay.onWalk (b : Bay) (k : Fin 2) (id : Nat) (f : WalkRun → WalkRun) : Bay :=
  b.setWalks k ((b.walksOf k).map (fun w => if w.cmd.id = id then f w else w))

/-- Whether a unit's write is gated: a VA destination of tiers 3 to 5 (R214). -/
def Cmd.gatedUnit (c : Cmd) (u : WU) : Bool := decide ((c.wend true).sp = 3) && decide (0 < c.writes u)

/-- A walk whose last unit is over leaves the walker and produces its peg (R244). -/
def Bay.walkOver (b : Bay) (k : Fin 2) (c : Cmd) : Bay :=
  match (b.walksOf k).find? (fun q => decide (q.cmd.id = c.id)) with
  | none => b
  | some q =>
    if q.landed = q.total then (b.setWalks k ((b.walksOf k).filter (fun v => decide (v.cmd.id ≠ c.id)))).produce c else b

/-- A unit whose fault recurs moves nothing, and its walk goes on without it (log 38): w is the walk as its next unit leaves it. -/
def Bay.unitGone (b : Bay) (k : Fin 2) (c : Cmd) (w : WalkRun) : Bay :=
  (b.onWalk k c.id (fun q => { q with next := w.next, landed := q.landed + 1 })).walkOver k c

/-- A unit that fails leaves its walk (log 38). -/
def State.dropUnit (s : State) (b : BayId) (k : Fin 2) (c : Cmd) (id : Nat) : State :=
  s.onBay b (fun x => (x.onWalk k c.id (fun q => { q with
    landed := q.landed + 1, units := q.units.filter (fun v => decide (v.id ≠ id)) })).walkOver k c)

/-- Unit i of a walk triggers its read in this cycle (R244, R253, R287): an entry of the bookkeeping table, a gated write of the
window, the port or burst of a VA source. A fault belongs to no bundle. -/
def State.unitTrigger (s : State) (b : BayId) (k : Fin 2) (w : WalkRun) : State :=
  let c := w.cmd
  let i := w.next
  let u := c.wu i
  let gated := c.gatedUnit u
  let skip (t : State) : State := t.onBay b (fun x => x.unitGone k c { w with next := i + 1 })
  if s.inFlightFull b then (skip s).strayFault b .inFlightLimit 0
  else if gated && decide (1024 ≤ (s.bay b).window.gstores) then (skip s).strayFault b .windowOverflow 2
  else
    let srcVa := decide ((c.wend false).sp = 3)
    let lat := if srcVa then c.unitLat (s.partAt b) b false (c.wva false u) else 0
    let id := (s.bay b).nextId
    let unit : WalkUnit := ⟨i, id, false, false, s.walkClock b c + lat, none, [], (s.bay b).window.num⟩
    s.onBay b (fun x =>
      let y := { x.onWalk k c.id (fun r => r.add unit) with nextId := x.nextId + 1 }
      let z := if gated then { y with window := { y.window with gstores := y.window.gstores + 1 } } else y
      if srcVa && decide (0 < c.live u) then z.startUnit k c id false else z)

/-- A unit's access as it starts (R207, R244, R312, R470): its claim, its count, and the request of a tier 5 read. A fault belongs to no
bundle, and the unit moves nothing. -/
def State.makeStart (s : State) (b : BayId) (x : UnitStart) : State :=
  match ((s.bay b).walksOf x.walker).find? (fun w => decide (w.cmd.id = x.cmd)) with
  | none => s
  | some w =>
    match w.units.find? (fun r => decide (r.id = x.unit)) with
    | none => s
    | some r =>
      let c := w.cmd
      let u := c.wu r.i
      let va := c.wva x.dst u
      match s.unitSlots b x.dst va (c.spanAt x.dst u) with
      | .error f => (s.dropUnit b x.walker c r.id).strayFault b f.1 f.2
      | .ok cl =>
        match findEntry (s.partAt b).tt (vaNat va) with
        | none => s
        | some (_, e) =>
          let s1 := s.claim b cl
          let s2 := if teStier e = 4 ∨ teStier e = 5 then s1.sampleVa b true (if x.dst then 7 else 6) va e else s1
          if x.dst then s2 else s2.tier5Send b r.id va (tePlace e (vaNat va - teBase e)) (.read (c.live u))

/-- The accesses that the units of a bay's walkers start in this cycle: those of wk0, then those of wk1 (R207, R470). -/
def State.makeStarts (s : State) (b : BayId) : State :=
  let l := (s.bay b).starts
  if l = [] then s
  else
    (l.filter (fun x => decide (x.walker = 0)) ++ l.filter (fun x => decide (x.walker = 1))).foldl (fun acc x => acc.makeStart b x)
      (s.onBay b (fun y => { y with starts := [] }))

/-- The bytes that a unit reads from a local source, with the banks of operand SRAM it takes (R173, R241). -/
def State.unitLocalRead (s : State) (b : BayId) (c : Cmd) (u : WU) : Except (Cause × Info) (State × List Byte) :=
  let n := c.live u
  let off := c.woff false u
  let st := spStore (c.wend false).sp
  if n = 0 then .ok (s, [])
  else if off < 0 ∨ (s.storeSize b st : Int) < off + n then .error (.range, BitVec.ofInt 72 off)
  else
    let bs := Mem.readN ((s.bay b).store st) off.toNat n
    let s1 := s.useStore b st off.toNat n false
    if st = .scratch then .ok (s1, bs)
    else .ok (s1.bankRead b (decide (st = .opB)) (banksOf (s.bankSize b) off.toNat n), bs)

/-- The checks of R203 on a unit's bytes at a VA end as it performs, and its line state (R229, R245). Its region was checked as the walk
began (R226). -/
def unitVaChk (s : State) (b : BayId) (dst : Bool) (va : Addr) : Except (Cause × Info) Xlat :=
  let p := s.partAt b
  match translate p va (walkNeed dst) false with
  | .error e => .error e
  | .ok x =>
    match lineChk p (s.bay b) (walkKind dst) va with
    | some f => .error f
    | none => .ok x

/-- The first VA of a walk whose access the table of R225 forbids: the region check of all its units as it begins (R226). -/
def Cmd.forbidden (c : Cmd) (p : Part) (b : BayId) : Option Addr :=
  (List.range c.units).findSome? (fun i =>
    let u := c.wu i
    ([false, true] : List Bool).findSome? (fun d =>
      if (c.wend d).sp = 3 ∧ c.spanAt d u ≠ 0 ∧ regionOk p b (walkKind d) (c.wva d u) = false then some (c.wva d u) else none))

/-- The bytes that a unit reads from a VA source. -/
def State.unitVaRead (s : State) (b : BayId) (c : Cmd) (r : WalkUnit) (u : WU) :
    Except (Cause × Info) (State × List Byte) :=
  let n := c.live u
  let va := c.wva false u
  if n = 0 then .ok (s, [])
  else
    match unitVaChk s b false va with
    | .error f => .error f
    | .ok x =>
      match x.place with
      | .chip f t pa =>
        let asked := if r.repeated then r.readDue else r.readDue - c.unitLat (s.partAt b) b false va
        if r.answered then .ok (s, s.farRead b asked (s.poleTime b) f t pa n r.data) else .error (.slot, vaInfo va)
      | .ring _ _ | .lpddr _ _ =>
        let s1 := s.orderAccess b va
        .ok (s1.noteRead b va x.place n, s1.readAs b (s.poleTime b) x.place n)

/-- The response of a unit's tier 5 read has not come (R312). -/
def State.unitLate (s : State) (b : BayId) (c : Cmd) (r : WalkUnit) (u : WU) : Bool :=
  if decide ((c.wend false).sp = 3) && decide (0 < c.live u) && !r.answered then
    match unitVaChk s b false (c.wva false u) with
    | .error _ => false
    | .ok x =>
      match x.place with
      | .chip _ _ _ => true
      | .ring _ _ | .lpddr _ _ => false
  else false

/-- The request of a unit's tier 5 read is repeated, and the read made again (R312). -/
def State.lateUnit (s : State) (b : BayId) (k : Fin 2) (c : Cmd) (r : WalkUnit) (u : WU) : State :=
  let va := c.wva false u
  let s1 := s.onBay b (fun x => x.onWalk k c.id (fun q => { q with units := q.units.map (fun v =>
    if v.id = r.id then { v with repeated := true } else v) }))
  let s2 := match findEntry (s.partAt b).tt (vaNat va) with
    | some (_, e) => s1.tier5Send b r.id va (tePlace e (vaNat va - teBase e)) (.read (c.live u))
    | none => s1
  s2.strayLate b (vaInfo va) (.walkUnitRead b k)

/-- A unit's read performs: its data is taken, and its landing is fixed (R244). -/
def State.unitRead (s : State) (b : BayId) (k : Fin 2) (w : WalkRun) (r : WalkUnit) : State :=
  let c := w.cmd
  let u := c.wu r.i
  let local' := decide ((c.wend false).sp ≠ 3)
  match (if local' then s.unitLocalRead b c u else s.unitVaRead b c r u) with
  | .error f =>
    if s.unitLate b c r u && !r.repeated then s.lateUnit b k c r u
    else if f.1 = .translation then s.strayRetry b f.1 f.2 (.walkUnitRead b k)
    else (s.dropUnit b k c r.id).strayFault b f.1 f.2
  | .ok (s1, bs) =>
    let data := bs ++ List.replicate (c.writes u - bs.length) 0
    let dstVa := decide ((c.wend true).sp = 3)
    let lat := if dstVa then c.unitLat (s.partAt b) b true (c.wva true u) else if c.isM then 24 else 1
    s1.onBay b (fun x =>
      let y := x.onWalk k c.id (fun q => { q with units := q.units.map (fun v =>
        if v.id = r.id then { v with data := data, landDue := some (r.readDue + lat) } else v) })
      let z := if dstVa && decide (c.writes u ≠ 0) then y.startUnit k c r.id true else y
      if local' then z else z.keepReplay (s.poleTime b) (leNat bs))

/-- A unit whose read of this cycle met another in a bank has read nothing (R173). -/
def WalkUnit.dropLost (r : WalkUnit) (x : Bay) (c : Cmd) (bank clock : Nat) : WalkUnit :=
  let st := spStore (c.wend false).sp
  if (c.wend false).sp ≠ 3 ∧ st ≠ .scratch ∧ r.readDue = clock ∧ r.landDue.isSome = true
      ∧ x.isLost (decide (st = .opB)) false bank (c.woff false (c.wu r.i)).toNat (c.live (c.wu r.i)) = true then { r with data := [] }
  else r

/-- What the reads of the walkers of a bay in this cycle leave when banks of theirs are lost (R173). -/
def State.dropLostUnits (s : State) (b : BayId) : State :=
  let x := s.bay b
  if x.lost.any (fun l => !l.2.2) then
    s.onBay b (fun y => { y with walks := y.walks.map (fun l => l.map (fun w =>
      { w with units := w.units.map (fun r => r.dropLost x w.cmd (s.bankSize b) (s.walkClock b w.cmd)) })) })
  else s

/-- The walker reads a unit of its walk in this cycle. -/
def WalkUnit.reads (r : WalkUnit) (t : Nat) : Bool := r.landDue.isNone && decide (r.readDue ≤ t)

/-- All the units of a walk whose reads perform now, in order. -/
def State.walkReads (s : State) (b : BayId) (k : Fin 2) (w : WalkRun) : State :=
  if s.walkMoves b w.cmd then
    (w.units.filter (fun r => r.reads (s.walkClock b w.cmd))).foldl (fun acc r => acc.unitRead b k w r) s
  else s

/-- WALK_UNIT_READ (R244): of every walk of the walker that has begun, the next unit triggers its read if one is due, and the
units whose reads perform in this cycle are read. -/
def execWalkUnitRead (b : BayId) (k : Fin 2) (s : State) : Step :=
  let s1 := ((s.bay b).walksOf k).foldl (fun acc w =>
    if s.walkMoves b w.cmd ∧ w.next < w.total ∧ w.begun + w.next ≤ s.walkClock b w.cmd then acc.unitTrigger b k w else acc) s
  .next (((s1.bay b).walksOf k).foldl (fun acc w => acc.walkReads b k w) s1)

/-! ## Landings -/

/-- A unit's bytes land in a store of a bay (R245): out of the store is a range fault of the commanding bay. -/
def State.unitLandLocal (s : State) (b t : BayId) (c : Cmd) (u : WU) (data : List Byte) : State :=
  let st := spStore (c.wend true).sp
  let off := c.woff true u
  if data = [] then s
  else if off < 0 ∨ (s.storeSize t st : Int) < off + data.length then s.strayFault b .range (BitVec.ofInt 72 off)
  else
    let s1 := s.land t st [(off.toNat, data)] false
    if t = b then s1 else s1.onBay t (fun x => x.keepReplay (s.poleTime t) (leNat data))

/-- A unit's bytes land at a VA: a gated write that has performed (R214, R245), under its number where a gate counts it (R236). -/
def State.unitLandVa (s : State) (b : BayId) (c : Cmd) (r : WalkUnit) (u : WU) (tag : Nat) : State :=
  let va := c.wva true u
  if c.writes u = 0 then s
  else
    match unitVaChk s b true va with
    | .error f => s.strayFault b f.1 f.2
    | .ok x =>
      if (s.bay b).gatedClash (s.poleTime b) (.bytes x.place r.data) then s.strayFault b .writeCollision (vaInfo va)
      else
        let s1 := s.orderAccess b va
        s1.onBay b (fun y => { y with gbuf := y.gbuf ++
          [⟨r.id, va, r.data.length, x.entry, some (s.poleTime b), r.win, .bytes x.place r.data, s1.seenBy b.val, tag, false⟩] })

/-- The destination of a unit lies on an absent page: it lands once the page has been brought (R203, R293). -/
def State.destAbsent (s : State) (b : BayId) (c : Cmd) (u : WU) : Bool :=
  if (c.wend true).sp = 3 ∧ c.writes u ≠ 0 then
    match unitVaChk s b true (c.wva true u) with
    | .error f => decide (f.1 = .translation)
    | .ok _ => false
  else false

/-- A unit lands: its bytes, then U at the gate for each receiver, and the peg with the last unit (R246, R244). -/
def State.unitLand (s : State) (b : BayId) (k : Fin 2) (w : WalkRun) (r : WalkUnit) : State :=
  let c := w.cmd
  let u := c.wu r.i
  if s.destAbsent b c u then s.strayRetry b .translation (vaInfo (c.wva true u)) (.walkUnitLanding b k)
  else
    let ts := c.landsIn b u
    let g := if c.gva = 0 then (0, s) else s.freshTag
    let s1 := if (c.wend true).sp = 3 then g.2.unitLandVa b c r u g.1
      else ts.foldl (fun acc t => acc.unitLandLocal b t c u r.data) g.2
    let s2 := match s.partOf b with
      | some q =>
        if (s1.bay b).pending = (s.bay b).pending then s1.arriveAt q b.val c.gva (ts.length * c.unit) (tagClock g.1) else s1
      | none => s1
    s2.dropUnit b k c r.id

/-- WALK_UNIT_LANDING (R244 to R246): the units of the walker that land in this cycle. -/
def execWalkUnitLanding (b : BayId) (k : Fin 2) (s : State) : Step :=
  .next (((s.bay b).walksOf k).foldl (fun acc w =>
    if s.walkMoves b w.cmd then
      (w.units.filter (fun r =>
        match r.landDue with
        | some t => decide (t ≤ s.walkClock b w.cmd)
        | none => false)).foldl (fun acc2 r => acc2.unitLand b k w r) acc
    else acc) s)

/-! ## Asynchronous walks (R248 to R250) -/

/-- NVMe-oF queue pair, or RoCE connection, of a page of TIER 7 or 6 (R201). -/
def tePair (e : BitVec 128) : Nat := nbits (tePhys e) 40 8

/-- Byte offset of a page of TIER 6 or 7 in its region or namespace (R201). -/
def teRemote (e : BitVec 128) : Nat := nbits (tePhys e) 0 40 * 65536

/-- The page of a unit at an end: the checks of R203 and R226 that its bytes there meet (R245). -/
def asyncXlat (p : Part) (b : BayId) (dst : Bool) (va : Addr) : Option Xlat :=
  match translate p va (walkNeed dst) true with
  | .error _ => none
  | .ok x => if regionOk p b (walkKind dst) va then some x else none

/-- The n bytes that a unit reads in one page, none where they cannot be had: from this chip's memory, from the host's region, or from
flash; those of another chip's page come with the unit. -/
def State.asyncPiece (s : State) (x : Xlat) (off n : Nat) (came : List Byte) : Option (List Byte) :=
  match teTier x.raw with
  | 5 => some came
  | 6 => s.hostGet (tePair x.raw) (teRemote x.raw + off) n
  | 7 => some (Mem.readN (s.flashOf (tePair x.raw)) (teRemote x.raw + off) n)
  | _ => some (s.readPlaceN x.place n)

/-- The pieces of n bytes from a VA that lie in one 64 KiB page each: VA, first byte and length. -/
def unitPieces (va : Addr) (n : Nat) : List (Addr × Nat × Nat) :=
  let room := 65536 - vaNat va % 65536
  if n ≤ room then [(va, 0, n)] else [(va, 0, room), (va + BitVec.ofNat 72 room, room, n - room)]

/-- The bytes that a unit reads at its source: none where a check fails. -/
def State.asyncSource (s : State) (p : Part) (b : BayId) (c : Cmd) (u : WU) (came : List Byte) : Option (List Byte) :=
  let n := c.live u
  if n = 0 then some []
  else if (c.wend false).sp ≠ 3 then
    let off := c.woff false u
    let st := spStore (c.wend false).sp
    if off < 0 ∨ (s.storeSize b st : Int) < off + n then none else some (Mem.readN ((s.bay b).store st) off.toNat n)
  else
    (unitPieces (c.wva false u) n).foldl (fun acc x =>
      match acc, asyncXlat p b false x.1 with
      | some l, some y => (s.asyncPiece y (vaNat x.1 - teBase y.raw) x.2.2 ((came.drop x.2.1).take x.2.2)).map (fun m => l ++ m)
      | _, _ => none) (some [])

/-- What a unit's bytes in one page do (R201, R205, R249, R331): memory of this chip or another for tiers 3 to 5, where they are noted under
the unit's number (R23), the host's region for tier 6; none where the host has registered no such region. Those for flash go by whole
blocks. -/
def State.asyncWrite (s : State) (q : PartId) (b : BayId) (x : Xlat) (va : Addr) (off : Nat) (data : List Byte) (tag : Nat)
    (seen : List (Nat × Nat)) : Option State :=
  (match teTier x.raw with
    | 5 =>
      match x.place, (s.part q).fab with
      | .chip c t pa, some f => some (s.remoteSend q 0 f c
          (.tier5 ⟨f.lchip, b.val, placedMode (s.part q) va, (s.part q).time + 1, 0, va, Fin.ofNat 8 t, pa, .write data⟩))
      | _, _ => none
    | 6 => s.hostPut (tePair x.raw) (teRemote x.raw + off) data
    | 7 => none
    | _ => some ((s.writePlace x.place data).noteBy q (agentParty b) tag x.place data.length true 0 0 seen) : Option State).map
      (fun t => t.markPending q x.entry)

/-- A unit's bytes land in a store of a bay, in whatever cycle they come, and are noted under its number (R23): none out of the store. Banks
do not count them; the lines of a window and its undo log do where a window is open (R287, log 82). -/
def State.asyncLocal (s : State) (q : PartId) (b t : BayId) (c : Cmd) (u : WU) (data : List Byte) (tag : Nat) (seen : List (Nat × Nat)) :
    Option State :=
  let st := spStore (c.wend true).sp
  let off := c.woff true u
  if data = [] then some s
  else if off < 0 ∨ (s.storeSize t st : Int) < off + data.length then none
  else
    some ((s.onBay t (fun x =>
      let y := x.writeStore st off.toNat data
      if x.mode = .idle then { y with window := x.window } else y)).noteAt q (agentParty b) tag (storeKey t st off.toNat) data.length true 0 0
        seen)

/-- The bays that a unit lands in whose window has no room for its lines (R287). -/
def State.asyncFull (s : State) (b : BayId) (c : Cmd) (u : WU) (data : List Byte) : List BayId :=
  if (c.wend true).sp = 3 ∨ c.woff true u < 0 then []
  else
    (c.landsIn b u).filter (fun t => decide ((s.bay t).mode ≠ .idle)
      && decide (256 < (s.bay t).linesNow + (runLines [((c.woff true u).toNat, data)]).length))

/-- A unit's bytes land at its destination: none where a check fails; a unit that writes nothing is not checked (R242). -/
def State.asyncDest (s : State) (q : PartId) (b : BayId) (c : Cmd) (u : WU) (data : List Byte) (tag : Nat) (seen : List (Nat × Nat)) :
    Option State :=
  if data = [] then some s
  else if (c.wend true).sp ≠ 3 then
    (c.landsIn b u).foldl (fun acc t =>
      match acc with
      | some x => x.asyncLocal q b t c u data tag seen
      | none => none) (some s)
  else
    (unitPieces (c.wva true u) data.length).foldl (fun acc x =>
      match acc, asyncXlat (s.part q) b true x.1 with
      | some y, some z => if x.2.2 = 0 then some y
          else y.asyncWrite q b z x.1 (vaNat x.1 - teBase z.raw) ((data.drop x.2.1).take x.2.2) tag seen
      | _, _ => none) (some s)

/-- The reads of a unit at its source noted under its number (R23): memory of this chip, or a store of the bay. -/
def State.noteSource (s : State) (q : PartId) (b : BayId) (c : Cmd) (u : WU) (tag : Nat) (seen : List (Nat × Nat)) : State :=
  if (c.wend false).sp ≠ 3 then
    s.noteAt q (agentParty b) tag (storeKey b (spStore (c.wend false).sp) (c.woff false u).toNat) (c.live u) false 0 0 seen
  else
    (unitPieces (c.wva false u) (c.live u)).foldl (fun acc x =>
      match asyncXlat (s.part q) b false x.1 with
      | some y => if teTier y.raw ≤ 4 then acc.noteBy q (agentParty b) tag y.place x.2.2 false 0 0 seen else acc
      | none => acc) s

/-- Units of a walk in one block of 4,096 bytes of a TIER 7 end (R248, R249). -/
def Cmd.perBlock (c : Cmd) : Nat := 4096 / c.unit

/-- Units of block k of a walk. -/
def Cmd.blockUnits (c : Cmd) (k : Nat) : List Nat := (List.range c.perBlock).map (fun j => k * c.perBlock + j)

/-- Where block k of a walk lies in flash at an end, if its page is of TIER 7 now and some byte of it moves there (R242, R249): queue pair and
byte offset. -/
def Cmd.blockAt (c : Cmd) (p : Part) (dst : Bool) (k : Nat) : Option (Nat × Nat) :=
  let va := c.wva dst (c.wu (k * c.perBlock))
  if (c.wend dst).sp = 3 ∧ (c.blockUnits k).any (fun i => decide (c.spanAt dst (c.wu i) ≠ 0)) = true then
    match findEntry p.tt (vaNat va) with
    | some (_, e) => if teTier e = 7 then some (tePair e, teRemote e + (vaNat va - teBase e)) else none
    | none => none
  else none

/-- Blocks of a walk. -/
def AsyncWalk.blocks (w : AsyncWalk) : Nat := (w.total + w.cmd.perBlock - 1) / w.cmd.perBlock

/-- A unit of a walk has landed or failed. -/
def AsyncWalk.settled (w : AsyncWalk) (i : Nat) : Bool := w.landed.contains i || w.failed.contains i

/-- Every unit of block k has landed or failed. -/
def AsyncWalk.over (w : AsyncWalk) (k : Nat) : Bool := (w.cmd.blockUnits k).all w.settled

/-- Read commands of a walk that are outstanding at a queue pair (R249). -/
def AsyncWalk.outstanding (w : AsyncWalk) (p : Part) (pair : Nat) : Nat :=
  (List.range w.issued).countP (fun k => decide ((w.cmd.blockAt p false k).map (fun x => x.1) = some pair) && !w.over k)

/-- A walk of the agent changed. -/
def Part.onAsync (p : Part) (id : Nat) (f : AsyncWalk → AsyncWalk) : Part :=
  { p with asyncs := p.asyncs.map (fun v => if v.id = id then f v else v) }

/-- The STIER 6 end of a walk is its destination. -/
def Cmd.outward (c : Cmd) (p : Part) : Bool := decide (c.wtier p true = some 6)

/-- The walk goes past a block. -/
def AsyncWalk.past (w : AsyncWalk) : AsyncWalk := { w with issued := w.issued + 1 }

/-- The Read commands that a walk issues now, one for each block in unit order that lies in flash, at most 1,024 of a queue pair outstanding
(R249). -/
def State.askFlash (s : State) (q : PartId) (id : Nat) : Nat → State
  | 0 => s
  | fuel + 1 =>
    let p := s.part q
    match p.asyncs.find? (fun w => decide (w.id = id)) with
    | none => s
    | some w =>
      if w.cmd.outward p = true ∨ w.blocks ≤ w.issued then s
      else
        match w.cmd.blockAt p false w.issued with
        | none => (s.onPart q (fun x => x.onAsync id AsyncWalk.past)).askFlash q id fuel
        | some (pair, off) =>
          if 1024 ≤ (s.parts.toList.flatMap (fun x => x.asyncs.map (fun v => v.outstanding x pair))).sum then s
          else ((s.emit (.flashRead pair (off / 4096))).onPart q (fun x => x.onAsync id AsyncWalk.past)).askFlash q id fuel

/-- Every walk of the agents issues what its queue pairs have room for. -/
def State.askAll (s : State) : State :=
  (List.finRange 8).foldl (fun acc q => (acc.part q).asyncs.foldl (fun t w => t.askFlash q w.id (w.blocks + 1)) acc) s

/-- The first block of a walk that waits for its Write command, written whole (R246, R249): each unit that landed adds its bytes to the gate
now. A block of which a unit failed is not written. -/
def State.writeBlock (s : State) (q : PartId) (w : AsyncWalk) (pair off : Nat) : State :=
  let c := w.cmd
  let mine := (c.blockUnits w.issued).filter (fun i => decide (i < w.total))
  let s1 := s.onPart q (fun x => x.onAsync w.id (fun v => { v.past with waiting := v.waiting.filter (fun y => !mine.contains y.1) }))
  if mine.any w.failed.contains then s1
  else
    let data := mine.flatMap (fun i => assocGet [] w.waiting i)
    (((s1.emit (.flashWrite pair off data)).flashPut pair off data).markAt q (c.wva true (c.wu (w.issued * c.perBlock)))).arriveAt q
      (agentParty (Fin.ofNat 192 w.bay)) c.gva (mine.length * c.unit) []

/-- Units that wait for the rest of a block whose page has left flash land where it is now (R210). -/
def State.landMoved (s : State) (q : PartId) (w : AsyncWalk) : State :=
  let c := w.cmd
  let b : BayId := Fin.ofNat 192 w.bay
  (w.waiting.filter (fun x => decide (x.1 / c.perBlock = w.issued))).foldl (fun acc x =>
    let g := acc.freshTag
    let t := g.2.onPart q (fun y => y.onAsync w.id (fun v => { v with waiting := v.waiting.filter (fun z => decide (z.1 ≠ x.1)) }))
    match t.asyncDest q b c (c.wu x.1) x.2 g.1 w.begun with
    | some u => u.arriveAt q (agentParty b) c.gva c.unit (tagClock g.1)
    | none => (t.onPart q (fun y => y.onAsync w.id (fun v => { v with failed := x.1 :: v.failed }))).log (.note 248 w.id)) s

/-- The Write commands of the blocks of a walk to flash that are whole, in unit order (R249). -/
def State.writeFlash (s : State) (q : PartId) (id : Nat) : Nat → State
  | 0 => s
  | fuel + 1 =>
    let p := s.part q
    match p.asyncs.find? (fun w => decide (w.id = id)) with
    | none => s
    | some w =>
      if w.cmd.outward p = false ∨ w.blocks ≤ w.issued then s
      else
        match w.cmd.blockAt p true w.issued with
        | none => ((s.landMoved q w).onPart q (fun x => x.onAsync id AsyncWalk.past)).writeFlash q id fuel
        | some (pair, off) => if w.over w.issued then (s.writeBlock q w pair off).writeFlash q id fuel else s

/-- Walks of which every unit has landed or failed, and every block to be written has been, leave the agent. -/
def Part.dropAsyncs (p : Part) : Part :=
  { p with asyncs := p.asyncs.filter (fun v => decide (v.landed.length + v.failed.length < v.total) || !v.waiting.isEmpty) }

/-- What follows the landing or the failure of a unit of a walk: Write commands, Read commands, and the walk's end. -/
def State.asyncNext (s : State) (q : PartId) (w : AsyncWalk) : State :=
  ((s.writeFlash q w.id (w.blocks + 1)).askAll).onPart q Part.dropAsyncs

/-- A unit fails: it lands nothing, adds nothing to the gate, and is logged (R248). -/
def State.asyncFail (s : State) (q : PartId) (w : AsyncWalk) (i : Nat) : State :=
  ((s.onPart q (fun p => p.onAsync w.id (fun v => { v with failed := i :: v.failed }))).log (.note 248 w.id)).asyncNext q w

/-- The bursts of a unit counted, one for each 64 bytes (R191, R207): of its ends on LPDDR-6, and on STIER 6 pages. -/
def State.asyncCount (s : State) (q : PartId) (b : BayId) (c : Cmd) (u : WU) : State :=
  ([false, true] : List Bool).foldl (fun acc d =>
    if (c.wend d).sp = 3 then
      (List.range ((c.spanAt d u + 63) / 64)).foldl (fun t j =>
        let va := c.wva d u + BitVec.ofNat 72 (64 * j)
        match findEntry (s.part q).tt (vaNat va) with
        | some (_, e) => if teStier e = 3 then t else t.sampleVa b false (if d then 7 else 6) va e
        | none => t) acc
    else acc) s

/-- Unit i of an asynchronous walk lands (R248), or fails. One bound for a block in flash waits there for the rest of it. -/
def State.asyncLand (s : State) (q : PartId) (w : AsyncWalk) (i : Nat) (came : List Byte) : State :=
  let c := w.cmd
  let b : BayId := Fin.ofNat 192 w.bay
  let u := c.wu i
  let s0 := s.asyncCount q b c u
  match s.asyncSource (s.part q) b c u came with
  | none => s0.asyncFail q w i
  | some l =>
    let data := l ++ List.replicate (c.writes u - l.length) 0
    let g := s0.freshTag
    let s1 := g.2.noteSource q b c u g.1 w.begun
    let took (t : State) : State := t.onPart q (fun p => p.onAsync w.id (fun v => { v with landed := i :: v.landed }))
    if (c.blockAt (s.part q) true (i / c.perBlock)).isSome then
      if data ≠ [] ∧ (asyncXlat (s.part q) b true (c.wva true u)).isNone = true then s0.asyncFail q w i
      else ((took s1).onPart q (fun p => p.onAsync w.id (fun v => { v with waiting := v.waiting ++ [(i, data)] }))).asyncNext q w
    else
      match s.asyncFull b c u data, s1.asyncDest q b c u data g.1 w.begun with
      | [], some s2 =>
        ((took s2).arriveAt q (agentParty b) c.gva ((c.landsIn b u).length * c.unit) (tagClock g.1)).asyncNext q w
      | full, _ => (full.foldl (fun acc t => acc.strayFault t .windowOverflow 4) s0).asyncFail q w i

/-- The memory of this chip that a unit passes through, at its source and then at its destination, in the 0xF0 slots and ports (R24, R193,
R470). -/
def asyncPlaces (p : Part) (c : Cmd) (u : WU) : List (Place × Nat) :=
  ([false, true] : List Bool).filterMap (fun d =>
    if (c.wend d).sp = 3 ∧ c.spanAt d u ≠ 0 then
      match findEntry p.tt (vaNat (c.wva d u)) with
      | some (_, e) => if teTier e ≤ 4 then some (tePlace e (vaNat (c.wva d u) - teBase e), c.spanAt d u) else none
      | none => none
    else none)

/-- Slots for accesses at several places, and then an act: the last of them acts. -/
def State.queueAll (s : State) (q : PartId) (code : Nat) (act : Traffic) : List (Place × Nat) → State
  | [] => s.queueBurst q code none 0 act
  | [x] => s.queueBurst q code (some x.1) x.2 act
  | x :: rest => (s.queueBurst q code (some x.1) x.2 .bulk).queueAll q code act rest

/-- ASYNC_UNIT_LANDING (R248): unit i of walk w comes in whatever cycle, with its data where another chip holds it, and lands once it has
had its 0xF0 slots; a unit that fails outside lands nothing, and the failure is logged. -/
def execAsyncUnitLanding (q : PartId) (walk : Nat) (i : Nat) (data : Option (List Byte)) (s : State) : Step :=
  match (s.part q).asyncs.find? (fun w => decide (w.id = walk)) with
  | none => .next s
  | some w =>
    if w.total ≤ i ∨ w.settled i = true then .next s
    else
      match data with
      | none => .next (s.asyncFail q w i)
      | some d => .next (s.queueAll q 0xF0 (.unit walk i d) (asyncPlaces (s.part q) w.cmd (w.cmd.wu i)))

/-- WALK_BEGIN (R244): the head command begins when its pegs are produced and the walk before it has triggered its last read. Its region
check is made, and one that fails moves nothing and produces no peg (R226, log 38). An asynchronous walk goes to the transfer agent (R248). -/
def execWalkBegin (b : BayId) (k : Fin 2) (s : State) : Step :=
  let e : Engine := if k = 0 then .wk0 else .wk1
  match (s.bay b).headReady e (s.now b) (fun _ => true) with
  | none => .next s
  | some c =>
    let free := ((s.bay b).walksOf k).all (fun w =>
      decide (w.next = w.total) && decide (w.begun + w.total ≤ s.walkClock b w.cmd))
    if !free || !s.walkMoves b c then .next s
    else
      let s1 := s.onBay b (fun x => (x.dequeue e).consume c)
      match c.forbidden (s.partAt b) b with
      | some va => .next (s1.strayFault b .region (vaInfo va))
      | none =>
      if c.isAsync (s.partAt b) then
        match s.partOf b with
        | none => .next s1
        | some q =>
          let id := (s.part q).nextWalk
          .next ((s1.onPart q (fun p => { p with
            asyncs := p.asyncs ++ [⟨id, b.val, c, c.units, [], [], 0, [], eventClock b.val (s.poleTime b) (s.seenBy b.val)⟩]
            nextWalk := p.nextWalk + 1 })).askFlash q id (c.units + 1))
      else
        let w : WalkRun := ⟨c, s.walkClock b c, c.units, 0, [], 0⟩
        let s2 := s1.onBay b (fun x => x.setWalks k (x.walksOf k ++ [w]))
        let s3 := s2.unitTrigger b k w
        .next (((s3.bay b).walksOf k).foldl (fun acc v => if v.cmd.id = c.id then acc.walkReads b k v else acc) s3)

end Sys2Proof.Machine
end

