-- ==== Sys2Proof/Machine/Frame.lean ====
section
/-!
DEFINITION. Frames and releases: FRAME_START with all its work (R30, R34, R45, R50, R52, R204, R209, R211, R263, R314, R325, R337),
STORY_RELEASE and TASK_START (R35 to R40), gate completions (R256), refresh (R195, R196), the pod offset (R315), page copies (R210)
and the idling of retired bays (R299).
-/

namespace Sys2Proof.Machine

/-! ## The pod offset at a frame start (R314, R315) -/

/-- At the start of frame f the offset takes the reports of frame f - D; the excess is noted, and the sum is reported to every
yard of the pod. -/
def State.podFrame (s : State) (q : PartId) (f : Nat) : State :=
  let p := s.part q
  match p.fab with
  | none => s
  | some h =>
    let a := p.offsetAt f
    let excess := (p.podCycle s.clock - p.podInstant f a).toNat
    let s1 := s.onPart q (fun x => { x with pod := { x.pod with
      offset := a
      excess := excess
      reports := (x.pod.reports.filter (fun r => decide (f < r.1 + p.podLag))) ++ [(f, a + excess)] } })
    s1.sendAll q h (.offset h.lchip f (a + excess))

/-! ## Bays of the chip and their tables (R52, R53) -/

/-- The remap tables of a partition's bents rebuilt (R52): a bent with fewer than 12 healthy bays is retired. -/
def State.rebuildTables (s : State) (bents : BitVec 8) : State :=
  { s with bents := .ofFn (fun t =>
      let x := s.bents.get t
      if bents.getLsbD t.val then { x with remap := remapOf (s.healthyOf t), retired := x.retired || decide ((s.healthyOf t).length < 12) }
      else x) }

/-- A partition stopped for an error, with the rule that has it logged. -/
def State.stopFor (s : State) (q : PartId) (rule : Nat) : State :=
  (s.log (.note rule q.val)).onPart q (fun p => { p with mode := .stopped })

/-- The time for which a partition stands, to be told by a slip record of kind 5, counts from now, where it does not count already (R45, R326);
an idle frame or a wait in course has ended. -/
def State.standStill (s : State) (q : PartId) : State :=
  if (s.part q).stop.any (fun x => decide (x.slip.kind = 5)) then s
  else (s.endStop q).onPart q (fun p => { p with stop := some (s.stopNow p.framec p.polec 5) })

/-- A partition stops (R326). -/
def State.halt (s : State) (q : PartId) : State := (s.standStill q).onPart q (fun p => { p with mode := .stopped })

/-- The pod plan stops on this chip (R327): a pre-empted partition stands already. -/
def State.haltPod (s : State) : State :=
  (List.finRange 8).foldl (fun acc q =>
    if (acc.part q).fab.isSome && decide ((acc.part q).mode ≠ .unformed) && decide ((acc.part q).mode ≠ .preempted) then acc.halt q
    else acc) s

/-- A chip of the pod is lost (R315, R327): it is noted once, and the pod plan stops. -/
def State.chipLost (s : State) (chip : Nat) : State :=
  if s.yard.lost.contains chip then s
  else (({ s with yard := { s.yard with lost := s.yard.lost ++ [chip] } } : State).log (.note 315 chip)).haltPod

/-- This chip of a pod plan is lost by its data or by a bent (R327): every yard learns it. -/
def State.selfLost (s : State) (q : PartId) : State :=
  match (s.part q).fab with
  | some f => (s.chipLost f.lchip).sendAll q f (.lost f.lchip)
  | none => s

/-- A change of the remap tables at a frame start (R52, R53): a retired bent, or slicing under a plan without HALFFIT, stops the
partition, and with a bent a chip of a pod plan is lost (R327); else a slip record of kind 4 will tell of it. -/
def State.applyRemap (s : State) (q : PartId) : State :=
  let p := s.part q
  if p.remapDue then
    let s1 := s.rebuildTables p.hdr.bents
    let lost := (List.finRange 8).any (fun t => p.hdr.bents.getLsbD t.val && (s1.bents.get t).retired)
    let k := s1.rateOf p
    if lost then ((s1.onPart q (fun x => { x with remapDue := false })).stopFor q 52).selfLost q
    else if k = 2 ∧ p.hdr.halffit = false then (s1.onPart q (fun x => { x with remapDue := false })).stopFor q 53
    else
      s1.onPart q (fun x => { x with
        remapDue := false
        k := k
        slips := x.slips ++ [⟨x.framec, 0, 0xFF, 0, 4, false, k, s.ptp⟩] })
  else s

/-! ## The update port and the home's grants (R204, R210, R211) -/

/-- A page of LPDDR-6 frames in a translation entry (R201): TIER 4 and PRESENT. -/
def movedEntry (e : BitVec 128) (bent frame : Nat) : BitVec 128 :=
  setBits (setBits (setBits e 9 3 4) 32 48 (bent * 2 ^ 21 + frame)) 1 1 1

/-- The bytes that a page holds in the host's region or in flash, copied to local frames (R210); those of another chip come from
outside. -/
def State.copyPage (s : State) (q : PartId) (c : CopyRun) : State :=
  match (s.part q).tt[c.entry]? with
  | none => s
  | some e =>
    let n := teSize e.raw
    let fill (m : Mem) (a : Nat) : State :=
      { s with lpddr := s.lpddr.set c.bent.val (Mem.copyRange m a n (s.lpddr.get c.bent) (c.frame * 65536)) c.bent.isLt }
    if teTier e.raw = 6 then
      match s.hostAddr (tePair e.raw) (teRemote e.raw) n with
      | none => s
      | some a => fill s.hostMem a
    else if teTier e.raw = 7 then fill (s.flashOf (tePair e.raw)) (teRemote e.raw)
    else s

/-- The copies of a partition at the start of frame f (R210): a write in the frame that ended begins the wait anew; the entry write of a
copy made after a whole frame without one is queued. -/
def State.copyStep (s : State) (q : PartId) (f : Nat) (c : CopyRun) : State :=
  match (s.part q).tt[c.entry]? with
  | none => s
  | some e =>
    if e.pending then
      s.onPart q (fun p => { p with copies := p.copies.map (fun x => if x.entry = c.entry then { x with quiet := f, done := false } else x) })
    else if c.done then
      s.onPart q (fun p => { p with
        copies := p.copies.filter (fun x => decide (x.entry ≠ c.entry))
        decisions := p.decisions.filter (fun x => decide (x.1 ≠ c.entry))
        tt := p.tt.zipIdx.map (fun x => if x.2 = c.entry then { x.1 with home := some e.raw } else x.1)
        updates := p.updates ++ [(c.entry, movedEntry e.raw c.bent.val c.frame)] })
    else s

/-- A page moved to the host's region that its entry named before, at a frame start, once it has had its slots (R211, log 46): the entry
names it again, with DIRTY as it stands. -/
def State.pageToHost (s : State) (q : PartId) (x : Nat) (e : TTEntry) (h : BitVec 128) : State :=
  let n := teSize e.raw
  match tePlace e.raw 0 with
  | .lpddr t a =>
    match s.hostAddr (nbits (tePhys h) 40 8) (nbits (tePhys h) 0 40 * 65536) n with
    | none => s
    | some b =>
      let s1 := s.emit (.hostPage (nbits (tePhys h) 40 8) (nbits (tePhys h) 0 40 * 65536) n (Mem.copyRange (s.lpddr.get t) a n [] 0))
      let s2 : State := { s1 with hostMem := Mem.copyRange (s.lpddr.get t) a n s.hostMem b }
      let back := setBits h 2 1 (bits e.raw 2 1)
      s2.onPart q (fun p => { p with
        tt := p.tt.zipIdx.map (fun y => if y.2 = x then { y.1 with home := none } else y.1)
        updates := p.updates ++ [(x, back)] })
  | .ring _ _ | .chip _ _ _ => s

/-- The device's side asked for the page of an entry in frame f: by a decision of the comparator, or by a walker's translation fault
(R211). -/
def Part.deviceAsked (p : Part) (x f : Nat) : Bool :=
  (decide (p.decidedAt = f) && p.decisions.any (fun d => decide (d.1 = x) && decide (d.2 ≠ .remote)))
    || p.walkerWants.contains (x, f)

/-- A host request for a STIER 6 page, served at the start of frame f (R211): one that meets a device's request of the frame before leaves
the page where it is, and the device's is dropped with it; one that comes while an earlier copy is under way waits its turn; else the page
moves to the host. -/
def State.grantHost (s : State) (q : PartId) (f x : Nat) : State :=
  let p := s.part q
  match p.tt[x]? with
  | none => s
  | some e =>
    if f ≠ 0 ∧ p.deviceAsked x (f - 1) = true then
      s.onPart q (fun y => { y with
        decisions := y.decisions.filter (fun d => decide (d.1 ≠ x)), copies := y.copies.filter (fun c => decide (c.entry ≠ x)) })
    else if p.copies.any (fun c => decide (c.entry = x)) then
      { s with yard := { s.yard with hostWants := s.yard.hostWants ++ [(q.val, x)] } }
    else
      match e.home, tePlace e.raw 0 with
      | some h, pl => if teTier e.raw = 4 ∧ teTier h = 6 then s.queueBurst q 0xF0 (some pl) (teSize e.raw) (.pageOut x) else s
      | none, _ => s

/-- The pages that have had their slots move to the host, as long as the update port takes their entry writes in this frame (R204, R211). -/
def State.movePages (s : State) (q : PartId) : State :=
  let n := 256 - (s.part q).updates.length
  let s1 := ((s.part q).pagesOut.take n).foldl (fun acc x =>
    match (acc.part q).tt[x]? with
    | some e =>
      match e.home with
      | some h => acc.pageToHost q x e h
      | none => acc
    | none => acc) s
  s1.onPart q (fun p => { p with pagesOut := p.pagesOut.drop n })

/-- The grants at the start of frame f, in order of arrival (R211). -/
def State.homeGrants (s : State) (q : PartId) (f : Nat) : State :=
  let mine := s.yard.hostWants.filter (fun w => decide (w.1 = q.val))
  let s1 : State := { s with yard := { s.yard with hostWants := s.yard.hostWants.filter (fun w => decide (w.1 ≠ q.val)) } }
  (mine.foldl (fun acc w => acc.grantHost q f w.2) s1).onPart q (fun p => { p with
    walkerWants := p.walkerWants.filter (fun w => decide (f ≤ w.2)) })

/-- An entry after the port's steps 2 and 3 (R204): DIRTY takes PENDING, and a requested clear clears it. -/
def TTEntry.folded (e : TTEntry) : TTEntry :=
  let r := if e.pending then e.raw ||| 4 else e.raw
  { e with raw := if e.clr then r &&& ~~~ (4 : BitVec 128) else r, pending := false, clr := false }

/-- The update port at a frame start (R204): at most 256 entry writes in order of arrival, then PENDING, then TTCLR. -/
def State.updatePort (s : State) (q : PartId) : State :=
  s.onPart q (fun p =>
    let written := (p.updates.take 256).foldl (fun (l : List TTEntry) u =>
      l.zipIdx.map (fun e => if e.2 = u.1 then { e.1 with raw := u.2 } else e.1)) p.tt
    { p with tt := written.map TTEntry.folded, updates := p.updates.drop 256 })

/-! ## Gated entries, wheel and queue reader (R37, R45, R50, R263) -/

/-- A gated entry is released in frame f that starts now (R37). -/
def Entry.dueIn (e : Entry) (f clock : Nat) : Bool :=
  match e.eligible with
  | some x => decide (x.1 < clock) && e.inFrame f && decide (e.due = none)
  | none => false

/-- The slip record of a gated release (R45). -/
def Entry.slip6 (e : Entry) (f : Nat) : Slip :=
  ⟨f, e.offset, e.bay, e.task, 6, false, f - e.armed, (e.eligible.getD (0, 0)).2⟩

/-- The gated entries of a frame that starts (R37, R45). -/
def State.gatedDue (s : State) (q : PartId) (f : Nat) : State :=
  let l := (s.part q).entries.filter (fun e => e.dueIn f s.clock)
  (s.putSlips q (sortOn Slip.key (l.map (fun e => e.slip6 f)))).onPart q (fun p => { p with
    entries := p.entries.map (fun e => if e.dueIn f s.clock then { e with due := some f, eligible := none } else e) })

/-- One wheel entry at the start of frame f (R50): it moves at the start of the frame before its own, unless the queue is full. -/
def State.wheelMove (s : State) (q : PartId) (f : Nat) (w : WheelEnt) : State :=
  let b : BayId := Fin.ofNat 192 w.bay
  if f + 1 < w.frame ∨ (s.bay b).spawnFull = true then s.onPart q (fun p => { p with wheel := p.wheel ++ [w] })
  else s.frameSpawn b f w.index w.args

/-- The wheel at the start of frame f (R50). -/
def State.wheelMoves (s : State) (q : PartId) (f : Nat) : State :=
  (s.part q).wheel.foldl (fun acc w => acc.wheelMove q f w) (s.onPart q (fun p => { p with wheel := [] }))

/-- VERSION and SIZE of a block under R123 and R260: the status of a packet. -/
def packetStatus (s : BitVec 512) : Nat :=
  let v := bits s 0 8
  if v = 0 ∨ bits s 8 8 ≠ 1 then 1
  else if bits s 56 8 ≠ 0 then (if 1 < v then 2 else 3)
  else 0

/-- A queue header with a packet consumed, rejected where the status is not 0 (R259, R263). -/
def headerNext (h : BitVec 512) (status : Nat) : BitVec 512 :=
  let h1 := setBits h 128 64 (hdrRidx h + 1)
  if status = 0 then h1 else setBits (setBits h1 24 8 status) 32 32 (bits h 32 32 + 1)

/-- RIDX, RJCT and LASTST of a queue header taken from another. -/
def headerWith (h k : BitVec 512) : BitVec 512 :=
  setBits (setBits (setBits h 128 64 (hdrRidx k)) 24 8 (bits k 24 8)) 32 32 (bits k 32 32)

/-- The header of a queue as the queue reader knows it: with what it has written and the 0xF0 slots have not yet taken (R263). -/
def State.queueHeader (s : State) (q : PartId) (va : Addr) : BitVec 512 :=
  (s.part q).traffic.foldl (fun h x =>
    match x.act with
    | .header a k => if a = va then headerWith h k else h
    | _ => h) (BitVec.ofNat 512 (leNat (s.getVa q va 64)))

/-- The queue reader changes a header, through the 0xF0 slots (R263). -/
def State.putHeader (s : State) (q : PartId) (va : Addr) (h : BitVec 512) : State :=
  match (s.part q).vaPlace va with
  | none => s
  | some (_, pl) => s.queueBurst q 0xF0 (some pl) 64 (.header va h)

/-- The queue reader reads 64 bytes: it takes what stands there at the frame start, and the read takes its 0xF0 slot in the frame (R263,
log 102). -/
def State.queueRead (s : State) (q : PartId) (va : Addr) : State :=
  match (s.part q).vaPlace va with
  | none => s
  | some (_, pl) => s.queueBurst q 0xF0 (some pl) 64 .bulk

/-- The queue reader on one queue, up to n packets (R263). -/
def State.readQueue (s : State) (q : PartId) (f : Nat) (va : Addr) : Nat → State
  | 0 => s
  | n + 1 =>
    let p := s.part q
    let h := s.queueHeader q va
    let ridx := hdrRidx h
    let slot := hdrSlotVa h + BitVec.ofNat 72 (64 * (ridx % 2 ^ hdrLog2n h))
    let k : BitVec 512 := BitVec.ofNat 512 (leNat (s.getVa q slot 64))
    let s := s.queueRead q slot
    if bits k 16 16 ≠ ridx % 65536 then s
    else
      let bay := bits k 48 8
      let st := packetStatus k
      let status := if st ≠ 0 then st else if p.hasBay bay && (p.template bay (bits k 32 16)).isSome then 0 else 4
      if status ≠ 0 then (s.putHeader q va (headerNext h status)).readQueue q f va n
      else
        let b : BayId := Fin.ofNat 192 bay
        if (s.bay b).spawnFull then s
        else
          let args := ((List.range 7).map (fun i => BitVec.ofNat 64 (bits k (64 + 64 * i) 64))) ++ [BitVec.ofNat 64 ridx]
          let task : BitVec 16 := match p.template bay (bits k 32 16) with
            | some e => e.task
            | none => 0
          let s1 := (s.frameSpawn b f (bits k 32 16) args).putHeader q va (headerNext h 0)
          (s1.onPart q (fun x => { x with slips := x.slips ++ [⟨f, 0, bay, task, 7, true, ridx, s.ptp⟩] })).readQueue q f va n

/-- The queue reader at a frame start: every queue in ascending index, up to four packets of each (R263); then its records, by logical bay
and for one bay as they entered its spawn queue (R45). -/
def State.queueReader (s : State) (q : PartId) (f : Nat) : State :=
  let s1 := (sortOn (fun x => x.1) (s.part q).queues).foldl (fun acc x => (acc.queueRead q x.2).readQueue q f x.2 4) s
  (s1.putSlips q (sortOn Slip.key (s1.part q).slips)).onPart q (fun p => { p with slips := [] })

/-! ## The comparator (R209) -/

/-- Frames of 64 KiB of a bent, and those of its safe-tier reservation (R198, R323). -/
def bentFrames : Nat := Config.channelGiB * 12 * 16384

/-- Frames of a bent's safe-tier reservation (R323). -/
def reservedFrames : Nat := (bentFrames + 6) / 7

/-- The frame ranges that a partition's entries and copies, and what the yard saved of it (R304), hold in a bent's LPDDR-6. -/
def Part.heldFrames (p : Part) (t : Fin 8) : List (Nat × Nat) :=
  (p.tt.filter (fun e => teValid e.raw && decide (teTier e.raw = 4) && decide (physBent (tePhys e.raw) = t.val))).map
      (fun e => (nbits (tePhys e.raw) 0 21, teSize e.raw / 65536))
    ++ (p.copies.filter (fun c => decide (c.bent = t))).map (fun c =>
      (c.frame, match p.tt[c.entry]? with
        | some e => teSize e.raw / 65536
        | none => 0))
    ++ ((p.saveArea ++ p.ckArea).filter (fun x => decide (x.1 = t))).map (fun x => x.2)

/-- The frame ranges held in a bent by every plan that is loaded, pre-empted ones included (R304). -/
def State.usedFrames (s : State) (t : Fin 8) : List (Nat × Nat) :=
  sortOn (fun x => x.1) ((s.parts.toList.filter (fun p => decide (p.mode ≠ .unformed))).flatMap (fun p => p.heldFrames t))

/-- Frames covered by ranges in ascending order, from a first frame on. -/
def covered : Nat → List (Nat × Nat) → Nat
  | _, [] => 0
  | from', (a, n) :: rest =>
    let lo := max from' a
    let hi := max lo (a + n)
    (hi - lo) + covered hi rest

/-- The frames of a bent that lie below the reservation, halved for a pod plan that may be sliced (R202, R308). -/
def frameLimit (p : Part) : Nat :=
  if p.hdr.halffit && p.fab.isSome then (bentFrames - reservedFrames) / 2 else bentFrames - reservedFrames

/-- Free frames of a partition's LPDDR-6 (R209). -/
def State.freeFrames (s : State) (p : Part) : Nat :=
  (((List.finRange 8).filter (fun t => p.hdr.bents.getLsbD t.val)).map
    (fun t => frameLimit p - covered 0 (s.usedFrames t))).sum

/-- The decisions of the comparator, entries in ascending order (R209), by the requests that wait on a page's path, the frames left and
the entries left. -/
def compareFrom (p : Part) (wait : BitVec 128 → Nat) : Nat → Nat → List TTEntry → List (Nat × Migration)
  | _, _, [] => []
  | x, free, e :: rest =>
    if teStier e.raw ≠ 6 ∨ tePresent e.raw = false ∨ teTier e.raw = 4 ∨ teValid e.raw = false then compareFrom p wait (x + 1) free rest
    else
      let need := teSize e.raw / 65536
      if p.mem.mthr + p.mem.mqw * wait e.raw ≤ assocGet 0 p.hot (teHot e.raw) ∧ need + p.mem.mresv ≤ free then
        (x, if tePW e.raw then .migrate else .replicate) :: compareFrom p wait (x + 1) (free - need) rest
      else compareFrom p wait (x + 1) free rest

/-- A unit of a walk moves bytes of a page of TIER 6 behind a connection. -/
def Cmd.unitBehind (c : Cmd) (p : Part) (conn i : Nat) : Bool :=
  ([false, true] : List Bool).any (fun d => decide ((c.wend d).sp = 3) && decide (c.spanAt d (c.wu i) ≠ 0) &&
    (match findEntry p.tt (vaNat (c.wva d (c.wu i))) with
      | some (_, e) => decide (teTier e = 6) && decide (tePair e = conn)
      | none => false))

/-- Requests of a partition's asynchronous walks that a connection (TIER 6) or a queue pair (TIER 7) still carries: units, or the blocks of
4,096 bytes that a command moves (R249). -/
def Part.unitsWaiting (p : Part) (tier pair : Nat) : Nat :=
  (p.asyncs.map (fun w =>
    if tier = 7 then (List.range w.blocks).countP (fun k => !w.over k && ([false, true] : List Bool).any (fun d =>
      decide ((w.cmd.blockAt p d k).map (fun x => x.1) = some pair)))
    else (List.range w.total).countP (fun i => !w.settled i && w.cmd.unitBehind p pair i))).sum

/-- Q of R209: requests that wait on the path of a page. They are those of the remote-access queue of its route's first port, and the units
of asynchronous walks that its connection or queue pair still carries (log 28). -/
def State.pathQueue (s : State) (p : Part) (e : BitVec 128) : Nat :=
  min 255 (
    if teTier e = 5 then
      match tePlace e 0, p.fab with
      | .chip c _ _, some f =>
        match f.firstPort (s.physOf f f.lchip) (s.physOf f c) with
        | some port => (s.links.get (portIdx port)).waiting.countP (fun w => decide (w.use = .remote))
        | none => 0
      | _, _ => 0
    else (s.parts.toList.map (fun x => x.unitsWaiting (teTier e) (tePair e))).sum)

/-- The comparator at the start of frame f (R209); every counter is cleared. -/
def State.comparator (s : State) (q : PartId) (f : Nat) : State :=
  let p := s.part q
  if p.mem.sampk ≠ 0 ∧ f % 2 ^ p.mem.mwexp = 0 then
    let new := (compareFrom p (s.pathQueue p) 0 (s.freeFrames p) p.tt).filter (fun d => !p.copies.any (fun c => decide (c.entry = d.1)))
    s.onPart q (fun x => { x with hot := [], decisions := new, decidedAt := f })
  else s

/-! ## Monitors and checkpoints at a frame start (R325, R337) -/

/-- The highest temperature of the physical bays of a partition (R337). -/
def State.hottest (s : State) (p : Part) : Option Int :=
  ((List.finRange 208).filter (fun i => p.hdr.bents.getLsbD (i.val / 26))).foldl (fun (acc : Option Int) i =>
    let t := (s.phys.get i).temp
    match acc with
    | some a => some (if a ≥ t then a else t)
    | none => some t) none

/-- The monitors at a frame start (R337): above 105 degrees an idle frame is due at the next frame start, at every second one while
the bay stays hot; at 115 the partition stops. Droop and process readings are logged. -/
def State.monitors (s : State) (q : PartId) : State :=
  let p := s.part q
  let hot := (s.hottest p).getD 0
  let s1 := (List.finRange 8).foldl (fun acc t =>
    if p.hdr.bents.getLsbD t.val then acc.log (.reading t.val (s.bents.get t).droop (s.bents.get t).process) else acc) s
  if 115 ≤ hot then s1.stopFor q 337
  else s1.onPart q (fun x => { x with idleDue := decide (105 < hot) && decide (1 ≤ x.idleAgo) })

/-- A checkpoint is due at the first pre-emption point at or after the start of a checkpoint frame (R325). -/
def Part.checkpointFrame (p : Part) (f : Nat) : Bool :=
  match p.fab with
  | some h => decide (h.ckexp ≠ 0) && decide (0 < f) && decide (f % 2 ^ h.ckexp = 0)
  | none => false

/-! ## FRAME_START -/

/-- Plan frame f starts now: the records of what ended, then the work of the frame start (R45). -/
def State.beginFrame (s : State) (q : PartId) (f : Nat) : State :=
  let s1 := s.onPart q (fun p => { p with mode := .running, starting := false, framec := f, polec := 0 })
  let s2 := (s1.podFrame q f).applyRemap q
  if (s2.part q).mode = .stopped then s2
  else
    let s3 := (s2.putSlips q (slipOrder (s2.part q).slips)).onPart q (fun p => { p with slips := [] })
    let s4 := (s3.part q).copies.foldl (fun acc c => acc.copyStep q f c) ((s3.movePages q).homeGrants q f)
    let s5 := ((s4.updatePort q).gatedDue q f).wheelMoves q f
    let s6 := (s5.queueReader q f).comparator q f
    let s7 := (s6.onPart q (fun p => { p with ckDue := p.ckDue || p.checkpointFrame f })).monitors q
    { s7 with yard := { s7.yard with
      recalibrate := false, switching := s7.yard.switching.map (fun l => l.filter (fun x => decide (x ≠ q.val))) } }

/-- The start of frame f when nothing delays it: else the wait for pod time begins (R314). -/
def State.startOrWait (s : State) (q : PartId) (f : Nat) : State :=
  let s1 := s.onPart q (fun p => { p with idleAgo := p.idleAgo + 1 })
  if (s.part q).podReady s.clock f then s1.beginFrame q f
  else s1.onPart q (fun p => { p with mode := .podWait, stop := some (s.stopNow f 0 3) })

/-- The load of a plan has completed (R317, R467): the tables of its chips are here, and their yards have passed the pod-wide checks. -/
def Part.podDone (p : Part) : Bool := decide (p.awaiting = []) && p.tables.all (fun t => p.passed.contains t.1)

/-- Every other chip of the pod plan counts as heard in a clock cycle, after which its reports are awaited (R315, R327). -/
def Part.hearAll (p : Part) (clock : Nat) : Part :=
  { p with pod := { p.pod with heard := (p.tables.filter (fun t => decide (t.1 ≠ p.lchip))).map (fun t => (t.1, clock)) } }

/-- FRAME_START (R30, R467): plan frame 0 of a loaded plan once PTP time, as it stood when the plan was loaded, has reached EPOCH, so that no
later correction moves it (R313), its chips' reports awaited from this frame on (R315); a later frame at the end of the one before, after an
idle frame that is due (R337) and the wait for pod time (R314). -/
def execFrameStart (q : PartId) (s : State) : Step :=
  let p := s.part q
  match p.mode with
  | .waiting =>
    if p.podDone = true ∧ 0 ≤ p.podCycle s.clock ∧ p.podReady s.clock 0 = true then
      .next (((s.endStop q).onPart q (fun x =>
        { x.hearAll (s.clock - p.frameLen * p.k) with idleAgo := 1 })).beginFrame q 0)
    else .next s
  | .running =>
    if p.starting = false ∨ p.stall ≠ 0 ∨ p.held = true ∨ p.bringing ≠ [] then .next s
    else if p.idleDue then
      .next (s.onPart q (fun x => { x with
        mode := .idleFrame (x.frameLen * x.k), idleDue := false, idleAgo := 0, stop := some (s.stopNow (x.framec + 1) 0 3) }))
    else .next (s.startOrWait q (p.framec + 1))
  | .idleFrame n =>
    if n = 0 then
      let s1 := s.endStop q
      if (s1.part q).podReady s.clock (p.framec + 1) then .next (s1.beginFrame q (p.framec + 1))
      else .next (s1.onPart q (fun x => { x with mode := .podWait, stop := some (s.stopNow (p.framec + 1) 0 3) }))
    else .next s
  | .podWait =>
    if p.podReady s.clock (p.framec + 1) then
      .next ((s.endStop q).beginFrame q (p.framec + 1))
    else .next s
  | .unformed | .preempted | .checkpointed | .stopped | .raced => .next s

/-! ## The pod offset (R315) -/

/-- A report of the offset of another chip is taken by every partition of a pod plan; one for a frame whose offset is already in force
comes too late to count. -/
def Part.hear (p : Part) (chip frame offset clock : Nat) : Part :=
  match p.fab with
  | none => p
  | some _ => { p with pod := { p.pod with
      reports := if p.mode ≠ .waiting ∧ frame + p.podLag ≤ p.framec then p.pod.reports else p.pod.reports ++ [(frame, offset)]
      heard := p.pod.heard.filter (fun h => decide (h.1 ≠ chip)) ++ [(chip, clock)] } }

/-- OFFSET_REPORT (R315): a report of another yard arrives. -/
def execOffsetReport (chip frame offset : Nat) (s : State) : Step :=
  .next { s with parts := s.parts.map (fun p => p.hear chip frame offset s.clock) }

/-- The frame of pod time in which a clock cycle lies. -/
def Part.podFrameAt (p : Part) (clock : Nat) : Int := p.podCycle clock / (p.frameLen * p.k : Nat)

/-- No report of the chip has come in the two frames of pod time that have passed last (R315, R464). -/
def Part.silent (p : Part) (chip clock : Nat) : Bool :=
  p.pod.heard.any (fun h => decide (h.1 = chip) && decide (p.podFrameAt h.2 + 3 ≤ p.podFrameAt clock))

/-- A lost chip is reported to all yards of the pod, and the pod plan stops (R315, R327). -/
def State.allLost (s : State) (chip : Nat) : State :=
  (List.finRange 8).foldl (fun acc q =>
    match (acc.part q).fab with
    | some f => acc.sendAll q f (.lost chip)
    | none => acc) (s.chipLost chip)

/-- UNRESPONSIVE (R315): it is reported to all yards, once. -/
def execUnresponsive (chip : Nat) (s : State) : Step :=
  if s.parts.toList.any (fun p => p.silent chip s.clock) then
    let s1 : State := { s with parts := s.parts.map (fun p =>
      { p with pod := { p.pod with heard := p.pod.heard.filter (fun h => decide (h.1 ≠ chip)) } }) }
    .next ((State.allLost s1 chip).emit (.unresponsive chip))
  else .next s

/-- The frame whose nominal start is a pod cycle that has come and which the partition has not started (R315). -/
def Part.nominalDue (p : Part) (clock : Nat) : Option Nat :=
  match p.fab with
  | none => none
  | some _ =>
    let c := p.podCycle clock
    if c < 0 ∨ p.mode = .unformed then none
    else
      let f := c.toNat / (p.frameLen * p.k)
      let started := if p.mode = .waiting then 0 else p.framec + 1
      if started ≤ f ∧ p.pod.nominal ≤ f then some f else none

/-- NOMINAL_FRAME_START (R315): a partition that has not started a frame at its nominal start reports its current offset. -/
def State.nominalReport (s : State) (q : PartId) : State :=
  let p := s.part q
  match p.nominalDue s.clock, p.fab with
  | some f, some h =>
    let o := p.pod.offset + p.pod.excess
    let s1 := s.onPart q (fun x => { x with pod := { x.pod with nominal := f + 1, reports := x.pod.reports ++ [(f, o)] } })
    s1.sendAll q h (.offset h.lchip f o)
  | _, _ => s

/-- NOMINAL_FRAME_START (R315), for every partition of a pod plan. -/
def execNominalFrameStart (s : State) : Step := .next ((List.finRange 8).foldl (fun acc q => acc.nominalReport q) s)

/-! ## Release and start (R35 to R40) -/

/-- The tick of an entry in frame f finds a bay that is not idle: an overrun, or the wait of a retired bay (R40). -/
def State.tickAt (s : State) (q : PartId) (b : BayId) (r : Release) : State :=
  let x := s.bay b
  if x.runq.any (fun o => decide (o.kind = r.kind) && decide (o.frame = r.frame) && decide (o.offset = r.offset)
      && decide (o.order = r.order)) then s
  else
    let task : BitVec 16 := match (s.part q).entryOf b.val r.index with
      | some e => e.task
      | none => 0
    let late : Option Stop :=
      if x.mode = .retiring ∧ r.kind ≠ .spawned then some ⟨⟨r.frame, r.offset, b.val, task, 0, false, 0, s.ptp⟩, s.clock⟩ else none
    let s1 := s.onBay b (fun y => { y with runq := y.runq ++ [{ r with late := late }] })
    if x.mode = .running ∧ r.kind ≠ .spawned then
      s1.onPart q (fun p => { p with holding := p.holding ++ [b], holdStops := p.holdStops ++ [s.bayStop b 0] })
    else s1

/-- The release that the entry idx of a kind makes now, if its tick is this pole cycle (R35, R37, R49). For a spawned task idx
is its place in the spawn queue. -/
def State.releaseNow (s : State) (p : Part) (b : BayId) (k : ReleaseKind) (idx : Nat) : Option Release :=
  match k with
  | .story =>
    match p.entryOf b.val idx with
    | none => none
    | some e =>
      if e.template = false ∧ e.gate = 0 ∧ e.offset = p.polec ∧ e.inFrame p.framec = true then
        some ⟨p.framec, e.offset, .story, idx, idx, [], none, []⟩
      else none
  | .gated =>
    match p.entryOf b.val idx with
    | none => none
    | some e =>
      if e.template = false ∧ e.gate ≠ 0 ∧ e.offset = p.polec ∧ e.due = some p.framec then
        some ⟨p.framec, e.offset, .gated, idx, idx, [], none, e.cover⟩
      else none
  | .spawned =>
    match (s.bay b).spawnq[idx]? with
    | none => none
    | some w =>
      match p.entryOf b.val w.index with
      | none => none
      | some e =>
        if e.offset = p.polec ∧ e.frameAfter w.frame = p.framec then
          some ⟨p.framec, e.offset, .spawned, w.order, w.index, w.args, none, []⟩
        else none

/-- A gated entry that is released is armed again; what its gate counted goes with the release (R37, R236). -/
def State.rearm (s : State) (q : PartId) (b : BayId) (idx : Nat) : State :=
  match (s.part q).entryOf b.val idx with
  | none => s
  | some _ =>
    s.onPart q (fun p => { p with
      entries := p.entries.map (fun x =>
        if x.bay = b.val ∧ x.index = idx then { x with armed := p.framec, due := none, cover := [] } else x) })

/-- STORY_RELEASE (R35, R37, R49): an entry whose tick is this pole cycle enters its bay's run queue; a story-pole or gated one that
finds a task running makes the partition hold (R40). -/
def execStoryRelease (b : BayId) (k : ReleaseKind) (idx : Nat) (s : State) : Step :=
  match s.partOf b with
  | none => .next s
  | some q =>
    match s.releaseNow (s.part q) b k idx with
    | none => .next s
    | some r =>
      let s1 := s.tickAt q b r
      .next (if k = .gated then s1.rearm q b idx else s1)

/-- The task of an entry begins on a bay (R39, R62, R298, R286): registers and ports cleared, the arguments of a spawned task in g1
to g8. t is the cycle before its first bundle. -/
def Bay.startTask (b : Bay) (e : Entry) (spawned : Bool) (args : List Word) (t : Int) : Bay :=
  let r := Regs.clear
  { b with
    regs := { r with g := .ofFn (fun i => if i.val = 0 ∨ 8 < i.val then 0 else args.getD (i.val - 1) 0) }
    ops := .replicate 25 0
    res := .replicate 23 0
    ready := .replicate 23 none
    bridges := (false, false)
    pegs := 0
    tcause := b.tcause &&& ~~~ (7 : Word)
    pc := e.code
    suspended := 0
    mode := .running
    task := some ⟨e.task, e.index, e.gang, e.jmask, spawned⟩
    window := Window.opened (b.window.num + 1) t b.lead }

/-- The bay with the head of its run queue taken, a spawned one's slot freed (R38, R48). -/
def Bay.takeRelease (b : Bay) (r : Release) : Bay :=
  let c := { b with runq := b.runq.erase r }
  if r.kind = .spawned then { c with spawnq := b.spawnq.filter (fun e => decide (e.order ≠ r.order)), freed := b.freed + 1 } else c

/-- A story-pole or gated entry whose tick is this pole cycle waits for a bay that has just started an older spawned task: the partition holds
(R38, R40, R56, log 81). -/
def State.overrunBySpawn (s : State) (q : PartId) (b : BayId) : State :=
  let p := s.part q
  if (s.bay b).runq.any (fun r => decide (r.kind ≠ .spawned) && r.late.isNone && decide (r.frame = p.framec) && decide (r.offset = p.polec)) then
    s.onPart q (fun y => { y with holding := y.holding ++ [b], holdStops := y.holdStops ++ [s.bayStop b 0] })
  else s

/-- TASK_START (R38, R39): an idle bay starts the head of its run queue. A released task comes after what its gate counted (R236). -/
def execTaskStart (b : BayId) (s : State) : Step :=
  match s.partOf b with
  | none => .next s
  | some q =>
    let p := s.part q
    let x := s.bay b
    match headOf x.runq with
    | none => .next s
    | some r =>
      match p.entryOf b.val r.index with
      | none => .next s
      | some e =>
        if x.mode = .idle ∧ p.poleRuns = true then
          let s1 := s.onBay b (fun y =>
            let z := (y.takeRelease r).startTask e (decide (r.kind = .spawned)) r.args ((p.time : Int) - 1)
            { z with window := { z.window with witness := some z.witnessNow } })
          let s2 := (s1.join b.val r.cover).overrunBySpawn q b
          .next (match r.late with
            | some l => s2.onPart q (fun y => { y with slips := y.slips ++ [l.ended s.clock] })
            | none => s2)
        else .next s

/-! ## Gates and retired bays -/

/-- A gate that reached EXPECT in the cycle before completes once; the entries armed on it become eligible (R256), and their tasks are
ordered after what it has counted since the completion before (R236). Bytes left over may have come in any of the arrivals. -/
def State.completeGate (s : State) (q : PartId) (gate : Addr) : State :=
  let drop (t : State) : State := t.onPart q (fun x => { x with gatesDue := x.gatesDue.erase gate })
  match gatePlace (s.part q) gate with
  | none => drop s
  | some pl =>
    let g := s.gateAt pl
    if gateExpect g = 0 ∨ gateArrived g < gateExpect g then drop s
    else
      let left := gateArrived g - gateExpect g
      let s1 := (s.writePlace pl (leBytes 16 (setBits (g ^^^ ((1 : BitVec 128) <<< 96)) 48 48 left).toNat)).markAt q gate
      s1.onPart q (fun x => { x with
        gatesDue := if gateExpect g ≤ left then x.gatesDue else x.gatesDue.erase gate
        gateSeen := if left = 0 then assocSet [] x.gateSeen gate.toNat [] else x.gateSeen
        entries := x.entries.map (fun e =>
          if e.gate = gate ∧ gate ≠ 0 ∧ e.template = false then
            { e with
              eligible := some (e.eligible.getD (s.clock, s.ptp))
              cover := joinClock e.cover (assocGet [] x.gateSeen gate.toNat) }
          else e) })

/-- GATE_COMPLETION (R256). -/
def execGateCompletion (q : PartId) (gate : Addr) (s : State) : Step :=
  if (s.part q).gatesDue.contains gate then .next (s.within q (fun t => t.completeGate q gate)) else .next s

/-- RETIRED_BAY_IDLE (R299): a bay whose task was retired becomes idle when the last command that it began has completed. -/
def execRetiredBayIdle (b : BayId) (s : State) : Step :=
  if (s.bay b).mode = .retiring ∧ (s.bay b).busyCommands = false ∧ s.scarfBusy b = false then
    .next (s.onBay b (fun x => { x with mode := .idle }))
  else .next s

/-! ## Refresh (R195, R196) -/

/-- Consecutive refresh codes that end before entry i of a channel's table, counted cyclically (R195). -/
def refreshRun (p : Part) (ch n : Nat) : Nat → Nat → Nat
  | 0, _ => 0
  | fuel + 1, i =>
    let j := (i + n - 1) % n
    if channelCode p ch j = 0xFE then 1 + refreshRun p ch n fuel j else 0

/-- A refresh slot starts at entry i of a channel's table (R195). -/
def refreshStart (p : Part) (ch i : Nat) : Bool :=
  let n := p.frameLen / 2
  decide (channelCode p ch i = 0xFE) && decide (refreshRun p ch n n i % 84 = 0)

/-- The partition of a channel (R17). -/
def State.partOfChannel (s : State) (ch : Fin 96) : Option PartId := s.partOfBent (Fin.ofNat 8 (ch.val / 12))

/-- A refresh command on a channel (R195). -/
def State.refreshNow (s : State) (ch : Fin 96) : State := { s with refresh := s.refresh.set ch.val s.clock ch.isLt }

/-- REFRESH_COMMAND (R195): the command at the start of a refresh slot, and of a time-sliced partition's second in its second clock
cycle. -/
def execRefreshCommand (ch : Fin 96) (s : State) : Step :=
  match s.partOfChannel ch with
  | none => .next s
  | some q =>
    let p := s.part q
    if p.poleRuns = true ∧ p.polec % 2 = 0 ∧ refreshStart p ch.val (p.polec / 2) = true then .next (s.refreshNow ch) else .next s

/-- The yard refreshes a channel: a partition holds its bent, which is not retired and so not in self-refresh (R196, R338). -/
def State.refreshes (s : State) (ch : Fin 96) : Bool :=
  (s.partOfChannel ch).isSome && !(s.bents.get (Fin.ofNat 8 (ch.val / 12))).retired

/-- HOLD_REFRESH (R196): while the pole clock is stopped, a command every 2,340 clock cycles. -/
def execHoldRefresh (ch : Fin 96) (s : State) : Step :=
  match s.partOfChannel ch with
  | none => .next s
  | some q =>
    if (s.part q).poleRuns = false ∧ s.refreshes ch = true ∧ s.refresh.get ch + 2340 ≤ s.clock then .next (s.refreshNow ch)
    else .next s

/-! ## Page copies (R210) -/

/-- The lowest n frames, aligned to n, of a partition's share of a bent that meet none of some ranges. -/
def freeRun (p : Part) (n : Nat) (taken : List (Nat × Nat)) : Option Nat :=
  ((List.range (frameLimit p / n)).find? (fun i =>
    taken.all (fun u => decide (u.1 + u.2 ≤ i * n) || decide ((i + 1) * n ≤ u.1)))).map (fun i => i * n)

/-- The lowest free frames of a partition for a page of n frames, aligned to its size. -/
def State.findFrames (s : State) (p : Part) (n : Nat) : Option (Fin 8 × Nat) :=
  ((List.finRange 8).filter (fun t => p.hdr.bents.getLsbD t.val)).findSome? (fun t =>
    (freeRun p n (s.usedFrames t)).map (fun a => (t, a)))

/-- A copy of a page goes to the 0xF0 slots (R210). -/
def State.sendCopy (s : State) (q : PartId) (c : CopyRun) (n : Nat) : State :=
  (s.queueBurst q 0xF0 (some (.lpddr c.bent (c.frame * 65536))) n (.copy c.entry)).onPart q (fun y => { y with
    copies := y.copies.map (fun d => if d.entry = c.entry then { d with moving := true } else d) })

/-- A copy has had its slots: it takes the bytes as they are, and is the last where no write has met the page for a whole frame
(R210). -/
def State.endCopy (s : State) (q : PartId) (x : Nat) : State :=
  match (s.part q).copies.find? (fun c => decide (c.entry = x)) with
  | none => s
  | some c =>
    (s.copyPage q c).onPart q (fun y => { y with copies := y.copies.map (fun d =>
      if d.entry = x then { d with done := decide (d.quiet < y.framec), moving := false } else d) })

/-- MIGRATION_COPY (R210): the yard begins to copy a page that the comparator chose into local frames, through the 0xF0 slots: a first copy
takes the frames, others follow until one comes after a whole frame without a write to the page. -/
def execMigrationCopy (q : PartId) (x : Nat) (s : State) : Step :=
  let p := s.part q
  match p.copies.find? (fun c => decide (c.entry = x)), p.tt[x]? with
  | some c, some e => .next (if c.moving then s else s.sendCopy q c (teSize e.raw))
  | none, some e =>
    match p.decisions.find? (fun d => decide (d.1 = x)) with
    | some d =>
      match s.findFrames p (teSize e.raw / 65536) with
      | none => .next s
      | some (t, fr) =>
        let c : CopyRun := ⟨x, d.2, t, fr, p.framec + 1, false, false⟩
        .next ((s.onPart q (fun y => { y with copies := y.copies ++ [c] })).sendCopy q c (teSize e.raw))
    | none => .next s
  | _, none => .next s

end Sys2Proof.Machine
end

