-- ==== Sys2Proof/Machine/Plan.lean ====
section
/-!
DEFINITION. The plan image (R333): its header, the story pole (R32, R33), the memory header (R199), the region and queue tables
(R222, R258), the fabric section (R309, R316), and the refusals of R34, R202, R223, R258 and R317 as checks on what was read.
-/

namespace Sys2Proof.Machine

/-! ## Fields of an image -/

/-- The number that n bytes of an image hold from an offset (R6). -/
def imgNat (img : List Byte) (off n : Nat) : Nat := leNat ((img.drop off).take n)

/-- The image header (R333). -/
def imgHeader (img : List Byte) : BitVec 512 := BitVec.ofNat 512 (imgNat img 0 64)

/-- A data record of an image (R333): VA, image offset and length. -/
structure DataRec where
  va : Addr
  off : Nat
  len : Nat
deriving DecidableEq, Repr

/-- A code record of an image (R333). -/
structure CodeRec where
  bay : Nat
  jig : Bool
  off : Nat
  len : Nat
deriving DecidableEq, Repr

/-- The records of a section of an image (R333): an offset of zero names no section, whatever the count. -/
def sectionCount (off n : Nat) : Nat := if off = 0 then 0 else n

/-- The 32-byte data records. -/
def imgData (img : List Byte) : List (BitVec 256) :=
  let h := imgHeader img
  (List.range (sectionCount (bits h 288 32) (bits h 320 16))).map (fun k => BitVec.ofNat 256 (imgNat img (bits h 288 32 + 32 * k) 32))

/-- The 16-byte code records. -/
def imgCode (img : List Byte) : List (BitVec 128) :=
  let h := imgHeader img
  (List.range (sectionCount (bits h 240 32) (bits h 272 16))).map (fun k => BitVec.ofNat 128 (imgNat img (bits h 240 32 + 16 * k) 16))

/-- A data record read. -/
def dataRec (r : BitVec 256) : DataRec := ⟨r.extractLsb' 0 72, bits r 72 32, bits r 104 32⟩

/-- A code record read. -/
def codeRec (r : BitVec 128) : CodeRec := ⟨bits r 0 8, bitAt r 8, bits r 32 32, bits r 64 32⟩

/-- A section of n bytes lies in the image. -/
def inImage (img : List Byte) (off n : Nat) : Bool := decide (off + n ≤ img.length)

/-- The image header and records are in order (R122, R333): version, size, part code, length, reserved bits, and sections within the
image. -/
def imageOk (img : List Byte) : Bool :=
  let h := imgHeader img
  decide (bits h 0 8 = 1) && decide (bits h 8 8 = 1) && decide (bits h 16 16 = 8) && decide (bits h 32 32 = img.length)
    && decide (bits h 336 176 = 0) && decide (bits h 64 32 ≠ 0) && decide (bits h 96 32 ≠ 0)
    && inImage img (bits h 64 32) 64 && inImage img (bits h 96 32) 64
    && decide (bits h 160 16 ≤ 1024) && inImage img (bits h 128 32) (16 * sectionCount (bits h 128 32) (bits h 160 16))
    && (decide (bits h 176 32 = 0) || inImage img (bits h 176 32) 1024)
    && (decide (bits h 208 32 = 0) || inImage img (bits h 208 32) 64)
    && inImage img (bits h 240 32) (16 * sectionCount (bits h 240 32) (bits h 272 16))
    && inImage img (bits h 288 32) (32 * sectionCount (bits h 288 32) (bits h 320 16))
    && (imgData img).all (fun r => decide (bits r 136 120 = 0) && inImage img (dataRec r).off (dataRec r).len)
    && (imgCode img).all (fun r => decide (bits r 9 23 = 0) && decide (bits r 96 32 = 0) && inImage img (codeRec r).off (codeRec r).len)

/-! ## The story pole (R32 to R34) -/

/-- The story-pole header of an image. -/
def storyHeader (img : List Byte) : BitVec 512 := BitVec.ofNat 512 (imgNat img (bits (imgHeader img) 64 32) 64)

/-- BENTS of a story-pole header. -/
def storyBents (h : BitVec 512) : BitVec 8 := h.extractLsb' 24 8

/-- PARTITION of a story-pole header. -/
def storyPart (h : BitVec 512) : Nat := bits h 16 8

/-- PRIO of a story-pole header. -/
def storyPrio (h : BitVec 512) : Nat := bits h 36 2

/-- The sets of bents that may form a partition (R26). -/
def bentSets : List (BitVec 8) := [1, 2, 4, 8, 16, 32, 64, 128, 3, 12, 48, 192, 15, 240, 255]

/-- FEXP of a story-pole header: 12 to 20 in four bits, of which 0 to 4 stand for 16 to 20 (R32, log 39). -/
def storyFexp (h : BitVec 512) : Nat := if bits h 32 4 < 12 then 16 + bits h 32 4 else bits h 32 4

/-- Fields in range and reserved bits zero (R32, R34). -/
def storyOk (h : BitVec 512) : Bool :=
  decide (bits h 0 8 = 1) && decide (bits h 8 8 = 1) && decide (storyPart h < 8) && bentSets.contains (storyBents h)
    && decide (storyFexp h ≤ 20) && decide (bits h 38 2 = 0) && decide (bits h 48 16 = 0) && decide (bits h 128 5 = 0)
    && decide (1 ≤ bits h 200 24) && decide (bits h 224 8 = 0) && decide (6 ≤ bits h 232 8) && decide (bits h 232 8 ≤ 20)
    && decide (bits h 240 5 = 0) && decide (bits h 313 199 = 0)

/-- The header fields that the machine keeps. -/
def storyFields (h : BitVec 512) : Header :=
  ⟨storyFexp h, storyPrio h, storyBents h, bits h 40 8, bits h 64 64, h.extractLsb' 240 72, bits h 232 8, bitAt h 312⟩

/-- An entry of the story pole (R33), its index within its bay's group to come. -/
def storyEntry (e : BitVec 256) (index : Nat) : Entry :=
  ⟨bits e 40 8, index, e.extractLsb' 184 72, e.extractLsb' 176 8, bits e 128 32, bits e 108 20, bits e 92 16, bits e 88 4,
    bits e 74 14, bits e 66 8, e.extractLsb' 48 16, bitAt e 34, 0, none, none, []⟩

/-- VALID of a story-pole entry. -/
def storyValid (e : BitVec 256) : Bool := bitAt e 32

/-- The entries of the array with their indices within their bays' groups (R33), the bays of the entries before them given: an entry that is
not valid is ignored, counts in the group of its own bay and ends no other. -/
def indexEntries : List (BitVec 256) → List Nat → List Entry
  | [], _ => []
  | e :: rest, before =>
    let more := indexEntries rest (bits e 40 8 :: before)
    if storyValid e then storyEntry e (before.count (bits e 40 8)) :: more else more

/-- Reserved bits of a valid entry are zero (R33). -/
def entryReserved (e : BitVec 256) : Bool :=
  !storyValid e || (decide (bits e 160 16 = 0) && decide (bits e 64 2 = 0) && decide (bits e 35 5 = 0)
    && !bitAt e 33 && decide (bits e 0 32 = 0))

/-- The fields of an entry are within what R34 allows; a bay's instruction memory holds so many bundles. -/
def entryOk (p : Part) (bundles : Nat → Nat) (e : Entry) : Bool :=
  p.hasBay e.bay && decide (e.code < bundles e.bay) && decide (e.phase < 2 ^ e.pexp) && decide (e.offset < p.frameLen)
    && decide (e.bound ≠ 0)
    && (decide (e.gate = 0) || (decide (bits e.gate 64 8 = p.mem.asid.toNat) && (findEntry p.tt (vaNat e.gate)).isSome))

/-- The order of R33: by bay, then templates last, then by offset; the templates of one bay stand in any order among themselves, for a
template has no tick that their offsets could order (log 83). -/
def entryKey (e : Entry) : Nat := (e.bay * 2 + (if e.template then 1 else 0)) * 2 ^ 20 + (if e.template then 0 else e.offset)

/-- A list is in ascending order of a key. -/
def ascending {α : Type} (f : α → Nat) : List α → Bool
  | a :: b :: rest => decide (f a ≤ f b) && ascending f (b :: rest)
  | _ => true

/-- Two entries of one bay have intervals that meet in some frames (R34): their ticks differ by d modulo the shorter period. -/
def entriesMeet (len : Nat) (a b : Entry) : Bool :=
  let g := len * 2 ^ min a.pexp b.pexp
  let sa := len * a.phase + a.offset
  let sb := len * b.phase + b.offset
  let d := (sb + g - sa % g) % g
  decide (d < a.bound) || decide (g - d < b.bound)

/-- Every two elements of a list pass a test. -/
def allPairs {α : Type} (f : α → α → Bool) : List α → Bool
  | [] => true
  | a :: rest => rest.all (f a) && allPairs f rest

/-- Two entries of one gang agree (R34). -/
def gangAgree (a b : Entry) : Bool :=
  decide (a.gang = 0) || decide (a.gang ≠ b.gang)
    || (decide (a.bay / 24 = b.bay / 24) && decide (a.offset = b.offset) && decide (a.pexp = b.pexp) && decide (a.phase = b.phase))

/-- The refusals of R34 on the entries. -/
def entriesOk (p : Part) (bundles : Nat → Nat) (raw : List (BitVec 256)) : Bool :=
  let l := p.entries
  let live := l.filter (fun e => !e.template)
  raw.all entryReserved && l.all (entryOk p bundles) && ascending entryKey l
    && allPairs (fun a b => decide (a.bay ≠ b.bay) || !entriesMeet p.frameLen a b) live
    && allPairs gangAgree live
    && live.all (fun e => decide (e.gang = 0) || decide ((live.filter (fun x => decide (x.gang = e.gang))).length ≤ 24))

/-! ## The memory header and translation table (R199 to R202, R334) -/

/-- The memory header of an image. -/
def memHeader (img : List Byte) : BitVec 512 := BitVec.ofNat 512 (imgNat img (bits (imgHeader img) 96 32) 64)

/-- Fields in range and reserved bits zero (R199, R202). -/
def memOk (h : BitVec 512) (part : Nat) : Bool :=
  let k := bits h 272 5
  decide (bits h 0 8 = 1) && decide (bits h 8 8 = 1) && decide (bits h 16 8 = part)
    && decide (1 ≤ bits h 32 13) && decide (bits h 32 13 ≤ 4096) && decide (bits h 45 3 = 0) && decide (bits h 48 4 = 0)
    && decide (bits h 192 4 = 0) && decide (8 ≤ bits h 264 5) && decide (bits h 264 5 ≤ 24) && decide (bits h 269 3 = 0)
    && (decide (k = 0) || (decide (4 ≤ k) && decide (k ≤ 16))) && decide (bits h 277 3 = 0) && decide (bits h 284 4 = 0)
    && decide (bits h 400 112 = 0)

/-- The memory header fields that the machine keeps. -/
def memFields (h : BitVec 512) : MemHeader :=
  ⟨h.extractLsb' 24 8, bits h 312 16, bits h 304 8, bits h 288 16, bits h 280 4, bits h 272 5, bits h 264 5, h.extractLsb' 192 72⟩

/-- TTVA. -/
def memTtva (h : BitVec 512) : Addr := h.extractLsb' 48 72
/-- NTTE. -/
def memNtte (h : BitVec 512) : Nat := bits h 32 13
/-- CSLOTVA. -/
def memCslot (h : BitVec 512) : Addr := h.extractLsb' 120 72
/-- RSLOTVA. -/
def memRslot (h : BitVec 512) : Addr := h.extractLsb' 328 72

/-- The entry array from the one data record that covers it wholly (R334). -/
def tableOf (img : List Byte) (h : BitVec 512) : Option (List TTEntry) :=
  let va := (memTtva h).toNat
  let n := 16 * memNtte h
  match ((imgData img).map dataRec).find? (fun r => decide (r.va.toNat ≤ va) && decide (va + n ≤ r.va.toNat + r.len)) with
  | none => none
  | some r =>
    some ((List.range (memNtte h)).map (fun k =>
      ⟨BitVec.ofNat 128 (imgNat img (r.off + (va - r.va.toNat) + 16 * k) 16), false, false, true, none⟩))

/-- PHYS of a valid entry stands as R201 says for its TIER. -/
def physOk (e : BitVec 128) : Bool :=
  let ph := tePhys e
  let n := teSize e / 65536
  match teTier e with
  | 3 => decide (nbits ph 24 24 = 0) && decide (nbits ph 9 12 = 0) && decide (bits e 7 2 ≤ 1) && decide (nbits ph 0 9 % n = 0)
  | 4 => decide (nbits ph 24 24 = 0) && decide (nbits ph 0 21 % n = 0)
  | 5 => decide (nbits ph 24 12 = 0) && decide (nbits ph 0 21 % n = 0)
  | 6 | 7 => decide (nbits ph 0 40 % n = 0)
  | _ => false

/-- The frames of a ring segment that a plan may name (R202, R308). -/
def ringLimit (p : Part) : Nat := if p.hdr.halffit && p.fab.isSome then 256 else 512

/-- A translation entry keeps R201 and R202: a page in this chip's memory lies in the partition's bents; a frame of LPDDR-6, of this chip or
of another, lies below the reservation (R187, R323) and in the lower half where the plan may run sliced (R308). -/
def entryTT (p : Part) (e : BitVec 128) : Bool :=
  let st := teStier e
  let ph := tePhys e
  let n := teSize e / 65536
  !teValid e ||
    (!bitAt e 6 && decide (teShop e ≤ 24)
      && (decide (3 ≤ st ∧ st ≤ 5 ∧ teTier e = st) || (decide (st = 6) && decide (4 ≤ teTier e)))
      && physOk e && decide (teBase e % teSize e = 0) && (decide (teTier e ≠ 5) || decide (nbits ph 0 21 + n ≤ frameLimit p))
      && (decide (teTier e ≠ 3 ∧ teTier e ≠ 4) ||
        (p.hdr.bents.getLsbD (physBent ph)
          && (if st = 3 then tePresent e && decide (nbits ph 0 9 + n ≤ ringLimit p) else decide (nbits ph 0 21 + n ≤ frameLimit p)))))

/-- Two valid entries do not overlap in VA (R202). -/
def ttApart (a b : BitVec 128) : Bool :=
  !teValid a || !teValid b || decide (teBase a + teSize a ≤ teBase b) || decide (teBase b + teSize b ≤ teBase a)

/-- The refusals of R202 on the translation table. -/
def tableOk (p : Part) : Bool :=
  let l := p.tt.map (fun e => e.raw)
  l.all (entryTT p) && allPairs ttApart l

/-! ## Slot tables (R193, R195, R202, R470) -/

/-- The channels of a partition in ascending order (R17). -/
def Part.channels (p : Part) : List Nat := (List.range 96).filter (fun c => p.hdr.bents.getLsbD (c / 12))

/-- The bents of a partition in ascending order. -/
def Part.bentList (p : Part) : List Nat := (List.range 8).filter (fun t => p.hdr.bents.getLsbD t)

/-- A slot-table code is one of R193 for the partition; 0xFE is reserved in a ring table (R470). -/
def codeOk (p : Part) (ring : Bool) (c : Nat) : Bool :=
  p.hasBay c || decide (c = 0xF0) || decide (c = 0xF1) || (decide (c = 0xFE) && !ring) || decide (c = 0xFF)

/-- The refresh slots of a channel keep R195: runs of 84 entries, never more than 2,340 pole cycles from one start to the next. -/
def refreshOk (p : Part) (ch : Nat) : Bool :=
  let n := p.frameLen / 2
  let starts := (List.range n).filter (refreshStart p ch)
  (List.range n).all (fun i => decide (channelCode p ch i ≠ 0xFE) || decide (channelCode p ch ((i + 1) % n) = 0xFE)
      || decide ((refreshRun p ch n n i + 1) % 84 = 0))
    && (List.range n).any (fun i => decide (channelCode p ch i ≠ 0xFE))
    && (match starts with
      | [] => false
      | a :: _ => (starts.zip (starts.drop 1 ++ [a + n])).all (fun x => decide (x.2 - x.1 ≤ 1170)))

/-- The links that a route from one ring stop to another crosses, in order: (link from position k up to k + 1, upwards) (R18, R19). -/
def ringRoute (a b : Nat) : List (Nat × Bool) :=
  let pa := ringPos a
  let pb := ringPos b
  let up := (pb + 10 - pa) % 10
  if up ≤ 5 then (List.range up).map (fun i => ((pa + i) % 10, true))
  else (List.range (10 - up)).map (fun i => ((pa + 9 - i) % 10, false))

/-- The items that a ring slot table entry may place on links (R470): (link, direction, pole cycle modulo 256). Entry 32c + k of
bent t names bay n. The data crosses the links of the request's route (R19), the last of them first. -/
def ringItems (t c n : Nat) : List (Nat × Bool × Nat) :=
  let b := n / 24
  if b = t then []
  else
    let go := ringRoute b t
    let h := go.length
    let back := go.reverse.map (fun x => (x.1, !x.2))
    (go.zipIdx.map (fun x => (x.1.1, x.1.2, (c + 2560 - 3 * (h - x.2)) % 256)))
      ++ (back.zipIdx.map (fun x => (x.1.1, x.1.2, (c + 3 * (x.2 + 1)) % 256)))

/-- All items that the ring slot tables of a partition could place. -/
def allRingItems (p : Part) : List (Nat × Bool × Nat) :=
  p.bentList.flatMap (fun t => (List.range 8192).flatMap (fun i =>
    let n := ringCode p t i
    if p.hasBay n then ringItems t (i / 32) n else []))

/-- At most 8 items on a link in a direction in a pole cycle (R202, R470). -/
def ringLoadOk (p : Part) : Bool :=
  let l := allRingItems p
  (List.range 10).all (fun k => ([true, false] : List Bool).all (fun d => (List.range 256).all (fun c =>
    decide (l.countP (fun x => decide (x = (k, d, c))) ≤ 8))))

/-- The refusals of R202 on the slot tables. -/
def slotsOk (p : Part) : Bool :=
  let n := p.frameLen / 2
  p.channels.all (fun ch => (List.range n).all (fun i => codeOk p false (channelCode p ch i)) && refreshOk p ch)
    && p.bentList.all (fun t => (List.range 8192).all (fun i => codeOk p true (ringCode p t i)))
    && ringLoadOk p

/-! ## Regions and queues (R222, R223, R258, R259) -/

/-- The region entries of an image (R222). -/
def imgRegions (img : List Byte) : List Region :=
  let h := imgHeader img
  (List.range (sectionCount (bits h 128 32) (bits h 160 16))).map (fun k =>
    let e : BitVec 128 := BitVec.ofNat 128 (imgNat img (bits h 128 32 + 16 * k) 16)
    ⟨bits e 80 48, bits e 64 16, e.extractLsb' 0 64⟩)

/-- Every page from an address to an end is valid and of one STIER from 3 to 5 (R223). -/
def spansOk (p : Part) (st to' : Nat) : Nat → Nat → Bool
  | 0, _ => false
  | fuel + 1, a =>
    if to' ≤ a then true
    else
      match findEntry p.tt a with
      | none => false
      | some (_, e) => decide (teStier e = st) && spansOk p st to' fuel (teBase e + teSize e)

/-- A region keeps R223. -/
def regionTableOk (p : Part) (r : Region) : Bool :=
  let base := r.vabase * 65536
  let size := regionSize p r
  !mwValid r.mode ||
    (match findEntry p.tt base with
      | none => false
      | some (_, e) =>
        decide (bits r.mode 49 15 = 0) && decide (bits r.mode 3 5 = 0) && decide (mwMode r.mode ≤ 4)
          && decide (teStier e ≠ 6) && decide (base % granule p r.vabase = 0)
          && spansOk p (teStier e) (base + size) (size / 65536 + 1) base
          && (decide (mwMode r.mode ≠ 1) ||
            (decide (teStier e = 3) && p.hasBay (mwBayA r.mode) && p.hasBay (mwBayB r.mode)
              && decide (mwChipA r.mode = p.lchip) && decide (mwChipB r.mode = p.lchip))))

/-- The refusals of R223. -/
def regionsOk (p : Part) : Bool :=
  p.regions.all (regionTableOk p)
    && allPairs (fun a b => !mwValid a.mode || !mwValid b.mode
      || decide (a.vabase * 65536 + regionSize p a ≤ b.vabase * 65536)
      || decide (b.vabase * 65536 + regionSize p b ≤ a.vabase * 65536)) p.regions

/-- The byte that the data records of an image put at an address (R333): that of the last which holds it, zero where none does. -/
def imgByte (img : List Byte) (a : Nat) : Byte :=
  (((imgData img).map dataRec).reverse.findSome? (fun r =>
    if vaNat r.va ≤ a ∧ a < vaNat r.va + r.len then img[r.off + (a - vaNat r.va)]? else none)).getD 0

/-- n bytes of one page as the yard reads them while it loads a plan (R334): from device memory, or from the backing location of a
page that is not present (R203). On a page of another chip it reads what it has just copied there (log 103). -/
def State.loadRead (s : State) (q : PartId) (va : Addr) (n : Nat) : List Byte :=
  match findEntry (s.part q).tt (vaNat va) with
  | none => List.replicate n 0
  | some (x, e) =>
    let off := vaNat va - teBase e
    if !tePresent e then Mem.readN (s.part q).backing (x * 2 ^ 36 + off) n
    else if teTier e ≤ 4 then s.readPlaceN (tePlace e off) n
    else (List.range n).map (fun i => imgByte (s.part q).image (vaNat va + i))

/-- Bytes from an address in the pieces that lie in one 64 KiB page each. -/
def pageChunks : Nat → Nat → List Byte → List (Nat × List Byte)
  | 0, _, _ => []
  | fuel + 1, a, data =>
    if data = [] then []
    else
      let room := 65536 - a % 65536
      (a, data.take room) :: pageChunks fuel (a + room) (data.drop room)

/-- Every page of n bytes from a VA is valid and of a partition's own address space. -/
def covers (p : Part) (va : Addr) (n : Nat) : Bool :=
  decide (bits va 64 8 = p.mem.asid.toNat)
    && (List.range (n / 65536 + 2)).all (fun k =>
      let a := (vaNat va / 65536 + k) * 65536
      decide (vaNat va + n ≤ a) || (findEntry p.tt (max a (vaNat va))).isSome)

/-- The queue table of an image (R258): index and entry. -/
def imgQueues (img : List Byte) : List (Nat × BitVec 128) :=
  let q := bits (imgHeader img) 176 32
  if q = 0 then []
  else (List.range 64).map (fun k => (k, BitVec.ofNat 128 (imgNat img (q + 16 * k) 16)))

/-- A queue header keeps R259. Its slots are looked at by blocks of 64 KiB, of which a region holds all or nothing (R222). -/
def headerOk (p : Part) (h : BitVec 512) : Bool :=
  let n := 64 * 2 ^ hdrLog2n h
  decide (bits h 0 8 = 1) && decide (bits h 8 8 = 1) && decide (4 ≤ hdrLog2n h) && decide (bits h 20 4 = 0)
    && decide (bits h 264 8 = 0) && decide (bits h 344 168 = 0) && decide (vaNat (hdrSlotVa h) % 64 = 0)
    && (List.range (n / 65536 + 2)).all (fun k => inQueue p (hdrSlotVa h + BitVec.ofNat 72 (min (65536 * k) (n - 1))))

/-- VALID of a queue entry (R258). -/
def queueValid (e : BitVec 128) : Bool := bitAt e 72

/-- The refusals of R258; the headers are read from device memory (R334). Must-be-zero bits count in every entry (R9). -/
def queuesOk (s : State) (q : PartId) (l : List (Nat × BitVec 128)) : Bool :=
  l.all (fun x =>
    let va : Addr := x.2.extractLsb' 0 72
    decide (bits x.2 73 55 = 0) && (!queueValid x.2 || (decide (vaNat va % 64 = 0) && inQueue (s.part q) va
      && headerOk (s.part q) (BitVec.ofNat 512 (leNat (s.loadRead q va 64))))))

/-! ## The fabric section (R309, R310, R316, R317) -/

/-- The fabric header of an image: none for a single-chip plan. -/
def imgFabric (img : List Byte) : Option (BitVec 512) :=
  let f := bits (imgHeader img) 208 32
  if f = 0 then none else some (BitVec.ofNat 512 (imgNat img f 64))

/-- Fields in range and reserved bits zero (R309). -/
def fabricOk (h : BitVec 512) : Bool :=
  decide (bits h 0 8 = 1) && decide (bits h 8 8 = 1) && decide (bits h 28 4 = 0) && decide (bits h 44 4 = 0)
    && decide (1 ≤ bits h 48 13) && decide (bits h 48 13 ≤ 4096) && decide (bits h 61 3 = 0)
    && (decide (bits h 64 6 = 0) || decide (bits h 48 13 % 8 = 0)) && decide (bits h 70 2 = 0) && decide (bits h 72 7 ≤ 64)
    && !bitAt h 79 && decide (bits h 152 6 = 0) && decide (bits h 224 288 = 0) && decide (bits h 32 12 < bits h 48 13)

/-- The fabric header fields that the machine keeps. -/
def fabricFields (h : BitVec 512) : FabHeader :=
  ⟨(bits h 16 4 + 1, bits h 20 4 + 1, bits h 24 4 + 1), bits h 32 12, bits h 48 13, bits h 64 6⟩

/-- A reduction descriptor with its chip list (R316). -/
def parseRd (x : BitVec 512) (chips : List Nat) : RDesc where
  slot := Fin.ofNat 64 (bits x 0 6)
  bc := bitAt x 6
  mode := bits x 8 4
  w := bits x 12 2
  nel := bits x 16 12 + 1
  n := bits x 28 12 + 1
  b0 := bits x 40 6
  tof := bits x 48 4
  pexp := bits x 52 4
  phase := bits x 56 16
  coff := bits x 72 20
  doff := bits x 92 20
  stream := bits x 112 16
  chips := chips
  resva := x.extractLsb' 200 72
  gateva := x.extractLsb' 272 72

/-- Reserved bits of a descriptor are zero. -/
def rdReserved (x : BitVec 512) : Bool :=
  !bitAt x 7 && decide (bits x 14 2 = 0) && decide (bits x 46 2 = 0) && decide (bits x 344 168 = 0)

/-- RESVA is aligned and on a STIER 3 page (R316). -/
def resvaOk (p : Part) (d : RDesc) : Bool :=
  decide (vaNat d.resva % 64 = 0) &&
    (match findEntry p.tt (vaNat d.resva) with
      | some (_, e) => decide (teStier e = 3)
      | none => false)

/-- The refusals of R317 that one descriptor of this chip can break. -/
def rdOk (p : Part) (d : RDesc) : Bool :=
  decide (1 ≤ d.mode) && decide (d.mode ≤ 5) && decide (d.w ≠ 3) && decide (d.b0 + bitlen ((d.n : Int) - 1) < 64)
    && d.chips.contains p.lchip && decide (d.chips.Nodup) && decide (d.phase < 2 ^ d.pexp) && decide (d.frames < 2 ^ d.pexp)
    && decide (d.coff < p.frameLen) && decide (d.doff < p.frameLen) && resvaOk p d

/-- The refusals of R317 on the descriptors of a plan, beside those of the chip's other plans. -/
def State.rdsOk (s : State) (q : PartId) (p : Part) : Bool :=
  p.rds.all (rdOk p) && allPairs (fun a b => decide (a.slot ≠ b.slot)) p.rds
    && (List.finRange 8).all (fun o => decide (o = q) || (s.part o).rds.all (fun a => p.rds.all (fun b => decide (a.slot ≠ b.slot))))

/-- A link slot table entry is one of R310. -/
def linkEntryOk (e : BitVec 16) : Bool :=
  let u := bits e 0 8
  decide (bits e 11 5 = 0) && (decide (u ≤ 0x41) || decide (u = 0xFF))

/-! ## Pod-wide checks (R317, R318) -/

/-- A descriptor without its VAs. -/
def RDesc.pod (d : RDesc) : PodDesc :=
  ⟨d.slot, d.bc, d.mode, d.w, d.nel, d.n, d.b0, d.tof, d.pexp, d.phase, d.coff, d.doff, d.stream, d.chips⟩

/-- Flit times of a contribution (R318). -/
def flitsOf (nel w : Nat) : Nat := (16 + nel * (8 * 2 ^ w) / 8 + 255) / 256

/-- The first n owner flit times of a slot at or after cycle c that are not taken (R310, R318); use gives USE by entry counted from
pod cycle 0, span the cycles of an entry and ctx the first flit cycle within it. The answer lists them, last first. -/
def findFlits (use : Nat → Nat) (slot span ctx : Nat) (taken : List (Nat × Nat)) (c : Nat) : Nat → Nat → Nat →
    List (Nat × Nat) → Option (List (Nat × Nat))
  | 0, _, _, _ => none
  | fuel + 1, e, n, acc =>
    let here := if use e = slot then
      (List.range 120).filter (fun i => decide (c ≤ span * e + ctx + 64 * i / 125) && !taken.contains (e, i)) else []
    let got := (here.take n).map (fun i => (e, i))
    if n ≤ got.length then some (got.reverse ++ acc)
    else findFlits use slot span ctx taken c fuel (e + 1) (n - got.length) (got.reverse ++ acc)

/-- A value on its way in the check of R317: the chip it is at, the cycle, and its node with the chip it goes to. -/
structure Moving where
  at' : Nat
  time : Nat
  dest : Nat
  lev : Nat
  j : Nat
deriving DecidableEq, Repr

/-- The chip whose router forms the parent of node (lev, j) (R318). -/
def parentChip (chips : List Nat) (lev j : Nat) : Nat := chips.getD (j / 2 * 2 ^ (lev + 1)) 0

/-- The check's state: values moving, flit times taken by chip and port, and cycles at which values reached their nodes. -/
structure PodSim where
  moving : List Moving
  taken : List (Nat × Port × List (Nat × Nat))
  reached : List (Nat × Nat × Nat)
deriving DecidableEq, Repr

/-- A node of a tree of n leaves exists. -/
def nodeExists (n lev j : Nat) : Bool := decide (j * 2 ^ lev < n)

/-- A value that is at its node's router: it is noted, and the parent forms when its sibling is there or absent. -/
def PodSim.arrive (m : PodSim) (d : PodDesc) (v : Moving) : PodSim :=
  let r := (v.lev, v.j, v.time) :: m.reached
  let sib := if v.j % 2 = 0 then v.j + 1 else v.j - 1
  let other := r.find? (fun x => decide (x.1 = v.lev) && decide (x.2.1 = sib))
  if bitlen ((d.n : Int) - 1) ≤ v.lev then { m with reached := r }
  else if nodeExists d.n v.lev sib && other.isNone then { m with reached := r }
  else
    let t := match other with
      | some x => max v.time x.2.2
      | none => v.time
    { m with reached := r, moving := ⟨v.dest, t, parentChip d.chips (v.lev + 1) (v.j / 2), v.lev + 1, v.j / 2⟩ :: m.moving }

/-- The first value of a list by cycle and node index. -/
def firstMoving : List Moving → Option Moving
  | [] => none
  | v :: rest =>
    match firstMoving rest with
    | none => some v
    | some w => some (if v.time < w.time ∨ (v.time = w.time ∧ v.j ≤ w.j) then v else w)

/-- Flit times that one flit takes at a port of a chip (R338): of its own ports the chip knows the lanes. -/
def State.flitTimes (s : State) (f : FabHeader) (chip : Nat) (port : Port) : Nat :=
  if chip = f.lchip then 24 / (s.links.get (portIdx port)).lanes else 1

/-- The check's run on one descriptor, in clock cycles of pod time: the earliest value arrives at its node or takes its flit times at the next port;
none where a value finds no flit times. -/
def PodSim.run (s : State) (f : FabHeader) (d : PodDesc) (links : List (Nat × PodTables)) (perFrame k : Nat) : Nat → PodSim → Option PodSim
  | 0, m => some m
  | fuel + 1, m =>
    match firstMoving m.moving with
    | none => some m
    | some v =>
      let m1 := { m with moving := m.moving.erase v }
      match f.firstPort (s.physOf f v.at') (s.physOf f v.dest) with
      | none => PodSim.run s f d links perFrame k fuel (m1.arrive d { v with at' := v.dest })
      | some port =>
        let table := match links.find? (fun l => decide (l.1 = v.at')) with
          | some l => l.2.links.getD (portIdx port).val []
          | none => []
        let taken := (m.taken.filter (fun x => decide (x.1 = v.at') && decide (x.2.1 = port))).flatMap (fun x => x.2.2)
        let span := 64 * k
        let ctx := s.linkCtx k f v.at'
        match findFlits (fun e => table.getD (e % perFrame) 0xFF) d.slot.val span ctx taken v.time (18 * perFrame) (v.time / span)
            (flitsOf d.nel d.w * s.flitTimes f v.at' port) [] with
        | none => none
        | some [] => none
        | some ((e, i) :: more) =>
          let next := (f.neighbour (s.physOf f v.at') port)
          let chip := ((List.range f.nlchip).find? (fun c => decide (s.physOf f c = next))).getD v.dest
          PodSim.run s f d links perFrame k fuel { m1 with
            moving := ⟨chip, span * e + ctx + 64 * i / 125 + 180 * k, v.dest, v.lev, v.j⟩ :: m1.moving
            taken := (v.at', port, (e, i) :: more) :: m1.taken }

/-- The values of the leaves in the check of R317: each is at its own router 20 cycles after COFF. -/
def podStart (d : PodDesc) (k : Nat) : PodSim :=
  ⟨(if d.bc then [0] else List.range d.n).map (fun c => ⟨d.chips.getD c 0, (d.coff + 20) * k, parentChip d.chips 0 c, 0, c⟩), [], []⟩

/-- The largest hop count from the root to a listed chip (R319). -/
def rootHops (s : State) (f : FabHeader) (chips : List Nat) : Nat :=
  chips.foldl (fun acc c => max acc (f.hops (s.physOf f (chips.getD 0 0)) (s.physOf f c))) 0

/-- Every value of a descriptor reaches its node by the decision instant less SLACK frames (R317). -/
def descInTime (s : State) (f : FabHeader) (slack fexp k : Nat) (links : List (Nat × PodTables)) (d : PodDesc) : Bool :=
  let frames := if d.tof = 0 then 2 else d.tof
  let last : Int := (frames * 2 ^ fexp + d.doff : Nat) - (20 + 180 * rootHops s f d.chips : Nat) - (slack * 2 ^ fexp : Nat)
  match PodSim.run s f d links (2 ^ (fexp - 6)) k (64 * d.n * 50) (podStart d k) with
  | none => false
  | some m => m.moving.isEmpty && m.reached.all (fun x => decide ((x.2.2 : Int) ≤ last * k))

/-- The pod-wide checks of R317 over the tables of every listed chip, this one's among them: the descriptors of one slot agree on
every chip that they list, and their values are in time. -/
def podOk (s : State) (f : FabHeader) (slack fexp k : Nat) (tables : List (Nat × PodTables)) : Bool :=
  tables.all (fun t => t.2.descs.all (fun d =>
    d.chips.all (fun c => tables.all (fun u => decide (u.1 ≠ c) || u.2.descs.contains d))
      && descInTime s f slack fexp k tables d))

end Sys2Proof.Machine
end

