-- ==== Sys2Proof/Machine/ScarfPlan.lean ====
section
/-!
DEFINITION. Layout records (R264 to R267), the checks of a re-shard (R268, R279), and the transfer plan (R269, R270).
-/

namespace Sys2Proof.Machine

/-! ## The record (R264) -/

/-- A layout record. -/
abbrev Layout := BitVec 2048

/-- MERGE. -/
def lyMerge (r : Layout) : Bool := bitAt r 23
/-- NDIM. -/
def lyNdim (r : Layout) : Nat := bits r 20 3
/-- FMT. -/
def lyFmt (r : Layout) : Nat := bits r 16 4
/-- MMODE. -/
def lyMode (r : Layout) : Nat := bits r 24 4
/-- MBASE. -/
def lyBase (r : Layout) : Nat := bits r 28 6
/-- STREAM. -/
def lyStream (r : Layout) : Nat := bits r 48 16
/-- Source shard VA. -/
def lySrcVa (r : Layout) : Addr := r.extractLsb' 384 72
/-- Destination shard VA. -/
def lyDstVa (r : Layout) : Addr := r.extractLsb' 456 72
/-- Source chip list VA. -/
def lySrcList (r : Layout) : Addr := r.extractLsb' 528 72
/-- Destination chip list VA. -/
def lyDstList (r : Layout) : Addr := r.extractLsb' 600 72
/-- Progress block VA. -/
def lyProg (r : Layout) : Addr := r.extractLsb' 672 72
/-- Staging area VA. -/
def lyStage (r : Layout) : Addr := r.extractLsb' 744 72
/-- Merge descriptor table VA. -/
def lyTable (r : Layout) : Addr := r.extractLsb' 816 72
/-- MN. -/
def lyMn (r : Layout) : Nat := bits r 888 48
/-- MSLOT. -/
def lySlot (r : Layout) : Nat := bits r 936 6

/-- Sizes of a mesh: M0, M1, M2 and NREP (R264). -/
structure Mesh where
  m0 : Nat
  m1 : Nat
  m2 : Nat
  rep : Nat
deriving DecidableEq, Repr

/-- The source, or destination, mesh of a record. -/
def lyMesh (r : Layout) (dst : Bool) : Mesh :=
  let o := if dst then 368 else 352
  ⟨bits r o 4 + 1, bits r (o + 4) 4 + 1, bits r (o + 8) 4 + 1, bits r (o + 12) 4 + 1⟩

/-- Chips of a mesh. -/
def Mesh.chips (m : Mesh) : Nat := m.m0 * m.m1 * m.m2 * m.rep
/-- Chips of one replica. -/
def Mesh.plane (m : Mesh) : Nat := m.m0 * m.m1 * m.m2

/-- Size of an axis. -/
def Mesh.axis (m : Mesh) (ax : Nat) : Nat :=
  match ax with
  | 0 => m.m0
  | 1 => m.m1
  | _ => m.m2

/-- Coordinate of position p along an axis (R266). -/
def Mesh.coord (m : Mesh) (p ax : Nat) : Nat :=
  match ax with
  | 0 => p % m.m0
  | 1 => p / m.m0 % m.m1
  | _ => p / (m.m0 * m.m1) % m.m2

/-- A dimension at one end: its size and placement (R265). -/
structure Dim where
  n : Nat
  pl : Nat
  ax : Nat
  cexp : Nat
deriving DecidableEq, Repr

/-- Placement byte of dimension k. -/
def lyPlace (r : Layout) (dst : Bool) (k : Nat) : Nat := bits r ((if dst then 304 else 256) + 8 * k) 8

/-- Dimension k at an end. -/
def lyDim (r : Layout) (dst : Bool) (k : Nat) : Dim :=
  let b := lyPlace r dst k
  ⟨bits r (64 + 32 * k) 32, nbits b 0 2, nbits b 2 2, nbits b 4 4⟩

/-- The dimensions of a record at an end, 0 first. -/
def lyDims (r : Layout) (dst : Bool) : List Dim := (List.range (lyNdim r)).map (lyDim r dst)

/-- Local extent of a dimension over an axis of size m (R265). -/
def Dim.extent (d : Dim) (m : Nat) : Nat :=
  match d.pl with
  | 0 => d.n
  | 1 => (d.n + m - 1) / m
  | _ => (d.n + 2 ^ d.cexp * m - 1) / (2 ^ d.cexp * m) * 2 ^ d.cexp

/-- Global index of local index li at coordinate c; none for padding (R265). -/
def Dim.global (d : Dim) (m c li : Nat) : Option Nat :=
  let i :=
    match d.pl with
    | 0 => li
    | 1 => c * d.extent m + li
    | _ => (li / 2 ^ d.cexp * m + c) * 2 ^ d.cexp + li % 2 ^ d.cexp
  if i < d.n then some i else none

/-- The holder coordinate of index i, and its local index (R265). -/
def Dim.holder (d : Dim) (m i : Nat) : Option Nat × Nat :=
  match d.pl with
  | 0 => (none, i)
  | 1 => (some (i / d.extent m), i % d.extent m)
  | _ =>
    let c := 2 ^ d.cexp
    (some (i / c % m), i / (c * m) * c + i % c)

/-- Product of a list. -/
def prodOf (l : List Nat) : Nat := l.foldl (· * ·) 1

/-- Coordinates of a row-major flat index, dimension 0 outermost (R143). -/
def unflat : List Nat → Nat → List Nat
  | [], _ => []
  | _ :: ls, x => x / prodOf ls :: unflat ls (x % prodOf ls)

/-- Row-major flat index of coordinates. -/
def flat (ls xs : List Nat) : Nat := (ls.zip xs).foldl (fun acc p => acc * p.1 + p.2) 0

/-- Local extents of a shard at an end (R265). -/
def lyExtents (r : Layout) (dst : Bool) : List Nat :=
  (lyDims r dst).map (fun d => d.extent ((lyMesh r dst).axis d.ax))

/-- Half bytes of an element (R132). -/
def fmtNib (f : Nat) : Nat :=
  match f with
  | 0 => 2
  | 1 => 4
  | 2 => 8
  | _ => 1

/-- Width of an element in bits. -/
def lyWidth (r : Layout) : Nat := 4 * fmtNib (lyFmt r)

/-- Elements of a shard, padding included. -/
def lyElems (r : Layout) (dst : Bool) : Nat := prodOf (lyExtents r dst)

/-- Bytes of a shard. -/
def lyBytes (r : Layout) (dst : Bool) : Nat := (lyElems r dst * fmtNib (lyFmt r) + 1) / 2

/-- Elements of a segment of 256 bytes (R269). -/
def lySegElems (r : Layout) : Nat := 512 / fmtNib (lyFmt r)

/-- Segments of a destination shard. -/
def lySegs (r : Layout) : Nat := (lyElems r true + lySegElems r - 1) / lySegElems r

/-- Bytes of the staging area (R280). -/
def lyStageBytes (r : Layout) : Nat := (lyMesh r false).rep * 8 * lyElems r true

/-- The global coordinates of a local slot of the destination shard at position q; none for padding. -/
def lyGlobal (r : Layout) (q li : Nat) : Option (List Nat) :=
  let m := lyMesh r true
  ((lyDims r true).zip (unflat (lyExtents r true) li)).mapM (fun p =>
    p.1.global (m.axis p.1.ax) (m.coord q p.1.ax) p.2)

/-- The logical index of an element (R143). -/
def lyIndex (r : Layout) (g : List Nat) : Nat := flat ((lyDims r true).map Dim.n) g

/-- The source positions that hold an element, ascending: of replica k for a merge (R266, R270). -/
def lyHolders (r : Layout) (k : Option Nat) (g : List Nat) : List Nat :=
  let m := lyMesh r false
  (List.range m.chips).filter (fun p =>
    (match k with
      | some x => decide (p / m.plane = x)
      | none => true) &&
    ((lyDims r false).zip g).all (fun x =>
      match (x.1.holder (m.axis x.1.ax) x.2).1 with
      | none => true
      | some c => decide (m.coord p x.1.ax = c)))

/-- The local index of an element in its source shard. -/
def lySource (r : Layout) (g : List Nat) : Nat :=
  let m := lyMesh r false
  flat (lyExtents r false) (((lyDims r false).zip g).map (fun x => (x.1.holder (m.axis x.1.ax) x.2).2))

/-! ## The transfer plan (R269, R270) -/

/-- An element of a destination shard: its place there, its replica, source chip and place in the source shard. -/
structure Elem where
  dst : Nat
  replica : Nat
  chip : Nat
  src : Nat
deriving DecidableEq, Repr

/-- The elements that a local slot of the destination at position q takes: one of each replica of a merge. -/
def lySlotElems (r : Layout) (srcL : List Nat) (q li : Nat) : List Elem :=
  match lyGlobal r q li with
  | none => []
  | some g =>
    (if lyMerge r then (List.range (lyMesh r false).rep).map some else [none]).filterMap (fun k =>
      let hs := lyHolders r k g
      (hs[q % hs.length]?).map (fun p => ⟨li, k.getD 0, srcL.getD p 0, lySource r g⟩))

/-- Elements joined into transfers where chip, replica and both places run on. -/
def joinElems (seg : Nat) : List Elem → List Transfer
  | [] => []
  | e :: es =>
    match joinElems seg es with
    | [] => [⟨0, seg, e.dst, e.src, 1, e.chip, e.replica⟩]
    | t :: ts =>
      if t.replica = e.replica ∧ t.chip = e.chip ∧ t.src = e.src + 1 ∧ t.dst = e.dst + 1 then
        { t with dst := e.dst, src := e.src, count := t.count + 1 } :: ts
      else ⟨0, seg, e.dst, e.src, 1, e.chip, e.replica⟩ :: t :: ts

/-- The order of transfers in a segment: source replica, source chip, source offset (R269). -/
def elemKey (e : Elem) : Nat := (e.replica * 65536 + e.chip) * 2 ^ 48 + e.src

/-- The transfers of the destination chip at position q, in plan order, not yet numbered (R269). -/
def chipPlan (r : Layout) (srcL : List Nat) (q : Nat) : List Transfer :=
  (List.range (lySegs r)).flatMap (fun seg =>
    let n := lySegElems r
    let slots := (List.range (min n (lyElems r true - seg * n))).map (fun i => seg * n + i)
    joinElems seg (sortOn elemKey (slots.flatMap (lySlotElems r srcL q))))

/-- The transfers of a chip with their indices in the whole plan (R269). -/
def planOf (r : Layout) (srcL dstL : List Nat) (lchip : Nat) : List Transfer :=
  let order := sortOn (fun x => x.1) dstL.zipIdx
  let before := ((order.filter (fun x => decide (x.1 < lchip))).map (fun x => (chipPlan r srcL x.2).length)).sum
  match order.find? (fun x => decide (x.1 = lchip)) with
  | none => []
  | some x => (chipPlan r srcL x.2).zipIdx.map (fun t => { t.1 with index := before + t.2 })

/-! ## The checks (R268) -/

/-- Bytes of a record beyond the layout that the engine knows (R123): a later version may only have added some. -/
def lyExtra (r : Layout) : Nat := if 1 < bits r 0 8 then 64 * (bits r 8 8 - 4) else 0

/-- Rules 1 to 3 of R123 on the record: a code, 0 for accepted. Of a later version SIZE may be above 4 (log 93), and unknown tells whether
a byte beyond the known layout is not zero. -/
def recordCode (r : Layout) (unknown : Bool) : Nat :=
  let ver := bits r 0 8
  let size := bits r 8 8
  if ver = 0 ∨ size < 4 ∨ (ver = 1 ∧ size ≠ 4) then 1
  else if unknown then 2
  else
    let high := (List.range 6).any (fun k => decide (lyNdim r ≤ k) &&
      (decide (lyPlace r false k ≠ 0) || decide (lyPlace r true k ≠ 0) || decide (bits r (64 + 32 * k) 32 ≠ 0)))
    let plain := !lyMerge r && (decide (lySlot r ≠ 0) || decide (lyMn r ≠ 0) || decide (lyTable r ≠ 0)
      || decide (lyStage r ≠ 0) || decide (lyBase r ≠ 0) || decide (lyMode r ≠ 0) || decide (lyStream r ≠ 0))
    let cexp := (lyDims r false ++ lyDims r true).any (fun d => decide (d.cexp ≠ 0) && decide (d.pl ≠ 2))
    if bits r 942 1106 ≠ 0 ∨ bits r 34 14 ≠ 0 ∨ high = true ∨ plain = true ∨ cexp = true then 3
    else 0

/-- FORMAT of R268. -/
def formatBad (r : Layout) : Bool :=
  let ds := lyDims r false ++ lyDims r true
  decide (3 < lyFmt r)
    || (decide (lyFmt r = 3) && (decide ((lyExtents r false).getLastD 0 % 2 = 1) || decide ((lyExtents r true).getLastD 0 % 2 = 1)))
    || ds.any (fun d => decide (d.pl = 3) || decide (d.ax = 3)) || (lyMerge r && decide (6 ≤ lyMode r))

/-- An axis used by two dimensions, or with PL 0 (R265, R268). -/
def axisBad (ds : List Dim) : Bool :=
  let used := (ds.filter (fun d => decide (d.pl ≠ 0))).map Dim.ax
  decide (used.eraseDups.length ≠ used.length) || ds.any (fun d => decide (d.pl = 0) && decide (d.ax ≠ 0))

/-- GEOMETRY of R268; nl is the number of logical chips. Sizes outside R264 are counted here. What a list holds counts only where it can be
read; one that fails R203 is a matter of RANGE. -/
def geometryBad (r : Layout) (src dst : Option (List Nat)) (nl lchip : Nat) : Bool :=
  let srcL := src.getD []
  let dstL := dst.getD []
  decide (4096 < (lyMesh r false).chips) || decide (4096 < (lyMesh r true).chips)
    || axisBad (lyDims r false) || axisBad (lyDims r true)
    || decide (srcL.eraseDups.length ≠ srcL.length) || decide (dstL.eraseDups.length ≠ dstL.length)
    || (srcL ++ dstL).any (fun c => decide (nl ≤ c))
    || (lyMerge r && decide ((lyMesh r false).rep = 1)) || dst.any (fun l => !l.contains lchip)
    || decide (lyNdim r = 0) || decide (6 < lyNdim r) || (lyDims r true).any (fun d => decide (d.n = 0))
    || (lyMerge r && (decide (lyMn r = 0) || decide (2 ^ 42 < lyMn r)))

/-- Descriptor entry: START, LOG2LEN and exponent (R278). -/
def tabStart (e : Word) : Nat := bits e 0 42
/-- LOG2LEN of a descriptor entry. -/
def tabLog (e : Word) : Nat := bits e 42 6
/-- Exponent of a descriptor entry. -/
def tabExp (e : Word) : Int := sbits e 48 8

/-- Whether nodes in ascending order tile from a position on (R279). -/
def tiles (n : Nat) : Nat → List Word → Bool
  | at', [] => decide (n ≤ at')
  | at', e :: es =>
    decide (tabStart e = at') && decide (tabStart e % 2 ^ tabLog e = 0) && decide (tabStart e < n)
      && tiles n (at' + 2 ^ tabLog e) es

/-- MISALIGNED: the descriptors break R279. -/
def mergeMisaligned (r : Layout) (tab : List Word) : Bool :=
  !tiles (lyMn r) 0 (sortOn tabStart tab)
    || (decide (lyMode r ≠ 2) && tab.any (fun e => decide (tabExp e ≠ tabExp (tab.getD 0 0))))

/-- The nodes that the replicas deliver, one in each plane (R278, R280). -/
def tableNodes (tab : List Word) : List SNode :=
  tab.zipIdx.map (fun x => ⟨tabLog x.1, tabStart x.1 / 2 ^ tabLog x.1, x.2, tabExp x.1, none⟩)

/-- The pairs of nodes of level lev - 1 that a level pass joins. -/
def levelPairs (nodes : List SNode) (lev : Nat) : List (SNode × SNode) :=
  nodes.filterMap (fun l =>
    if l.lev + 1 = lev ∧ l.j % 2 = 0 then
      (nodes.find? (fun n => decide (n.lev + 1 = lev ∧ n.j = l.j + 1))).map (fun n => (l, n))
    else none)

/-- The nodes after a level pass: sums in the plane of the left child, single children unchanged (R154, R280). -/
def levelNodes (nodes : List SNode) (lev : Nat) : List SNode :=
  nodes.filterMap (fun n =>
    if n.lev + 1 ≠ lev then some n
    else if n.j % 2 = 0 then
      match nodes.find? (fun m => decide (m.lev + 1 = lev ∧ m.j = n.j + 1)) with
      | some m => some ⟨lev, n.j / 2, n.plane, if n.exp ≥ m.exp then n.exp else m.exp, none⟩
      | none => some { n with lev := lev, j := n.j / 2 }
    else if nodes.any (fun m => decide (m.lev + 1 = lev ∧ m.j + 1 = n.j)) then none
    else some { n with lev := lev, j := n.j / 2 })

/-- The nodes that a merge forms from level lev on, for n levels: levels and positions. -/
def formedNodes (nodes : List SNode) (lev : Nat) : Nat → List (Nat × Nat)
  | 0 => []
  | n + 1 => (levelPairs nodes lev).map (fun x => (lev, x.1.j / 2)) ++ formedNodes (levelNodes nodes lev) (lev + 1) n

/-- A merge breaks R157: it forms a node of level 64 or more, or, where kerf values count, one with a position of 2^42 or more. -/
def mergeRange (r : Layout) (tab : List Word) : Bool :=
  let m := prodOf ((lyDims r true).map Dim.n)
  let top := bitlen ((lyMn r : Int) - 1)
  let low := tab.foldl (fun acc e => min acc (tabLog e)) 64
  decide (64 ≤ lyBase r + top)
    || (decide (lyMode r = 2) && (formedNodes (tableNodes tab) (low + 1) (top - low)).any (fun x =>
      decide (2 ^ 42 ≤ x.2 * 2 ^ bitlen ((m : Int) - 1) + (m - 1))))

/-- The pages that n bytes from an address touch, all on STIER 3 or 4 pages that pass R203 for the commanding bay, its last step, the
region, included (R226). -/
def spanOk (p : Part) (b : BayId) (va : Addr) (n : Nat) (need : Need) : Bool :=
  (List.range ((n + 65535) / 65536 + 1)).all (fun k =>
    let o := min (65536 * k) (n - 1)
    match translate p (va + BitVec.ofNat 72 o) need false with
    | .error _ => false
    | .ok x => (decide (teStier x.raw = 3) || decide (teStier x.raw = 4))
      && (!need.r || regionOk p b .ldg (va + BitVec.ofNat 72 o)) && (!need.w || regionOk p b .stg (va + BitVec.ofNat 72 o)))

/-- Two ranges of addresses overlap. -/
def overlaps (a : Addr) (n : Nat) (b : Addr) (m : Nat) : Bool :=
  decide (0 < n) && decide (0 < m) && decide (a.toNat < b.toNat + m) && decide (b.toNat < a.toNat + n)

/-- RANGE of R268; this chip reads its source shard only where it is a source. A progress block, a table or a staging area off the alignment
of R264 counts here, for which the spec gives no code of its own (log 102). -/
def rangeBad (p : Part) (b : BayId) (r : Layout) (tab : List Word) (isSrc : Bool) : Bool :=
  decide (2 ^ 42 < prodOf ((lyDims r true).map Dim.n))
    || !spanOk p b (lyDstVa r) (lyBytes r true) ⟨false, true, false⟩
    || (isSrc && !spanOk p b (lySrcVa r) (lyBytes r false) ⟨true, false, false⟩)
    || !spanOk p b (lySrcList r) (2 * (lyMesh r false).chips) ⟨true, false, false⟩
    || !spanOk p b (lyDstList r) (2 * (lyMesh r true).chips) ⟨true, false, false⟩
    || !spanOk p b (lyProg r) 16 ⟨true, true, false⟩ || decide (vaNat (lyProg r) % 16 ≠ 0)
    || (lyMerge r && (!spanOk p b (lyTable r) (8 * (lyMesh r false).rep) ⟨true, false, false⟩
        || !spanOk p b (lyStage r) (lyStageBytes r) ⟨true, true, false⟩ || decide (vaNat (lyTable r) % 8 ≠ 0)
        || decide (vaNat (lyStage r) % 64 ≠ 0) || mergeRange r tab))

/-- OVERLAP of R268 on this chip; rec is the record's VA. -/
def overlapBad (r : Layout) (rec' : Addr) (isSrc : Bool) : Bool :=
  let dests := (lyDstVa r, lyBytes r true) :: (if lyMerge r then [(lyStage r, lyStageBytes r)] else [])
  let others := (if isSrc then [(lySrcVa r, lyBytes r false)] else []) ++
    [(rec', 256), (lySrcList r, 2 * (lyMesh r false).chips), (lyDstList r, 2 * (lyMesh r true).chips), (lyProg r, 16)]
  dests.any (fun d => others.any (fun o => overlaps d.1 d.2 o.1 o.2))

/-- The code of a record's check (R268), 0 where it is accepted; lists and table as they are read, none where one fails R203. -/
def checkCode (p : Part) (b : BayId) (r : Layout) (unknown : Bool) (rec' : Addr) (src dst : Option (List Nat)) (table : Option (List Word)) : Nat :=
  let nl := match p.fab with
    | some f => f.nlchip
    | none => 1
  let isSrc := (src.getD []).contains p.lchip
  let tab := table.getD []
  if recordCode r unknown ≠ 0 then recordCode r unknown
  else if lyMerge r ∧ tab.any (fun e => decide (bits e 56 8 ≠ 0)) then 3
  else if formatBad r then 4
  else if geometryBad r src dst nl p.lchip then 5
  else if rangeBad p b r tab isSrc then 6
  else if lyMerge r ∧ mergeMisaligned r tab then 7
  else if overlapBad r rec' isSrc then 8
  else 0

/-- Blocks of 64 bytes of the lists and the table (R268). -/
def checkBlocks (r : Layout) : Nat :=
  let f (n : Nat) := (n + 63) / 64
  f (2 * (lyMesh r false).chips) + f (2 * (lyMesh r true).chips) + (if lyMerge r then f (8 * (lyMesh r false).rep) else 0)

/-- The checking time in pole cycles (R268). -/
def checkTime (r : Layout) : Nat := 256 + 2 * checkBlocks r

end Sys2Proof.Machine
end

