-- ==== Sys2Proof/Machine/Scarf.lean ====
section
/-!
DEFINITION. The scarf engine: RESHARD and RSSTAT (R282, R283), a context's check, requests, landings, stops and completion (R271
to R276), and the passes of a merge (R280, R281).
-/

namespace Sys2Proof.Machine

/-! ## Contexts and the status word -/

/-- The scarf context of a partition (R276). -/
def State.scarfOf (s : State) (q : PartId) : Scarf := s.scarf.get q

/-- A function applied to a context. -/
def State.onScarf (s : State) (q : PartId) (f : Scarf → Scarf) : State :=
  { s with scarf := s.scarf.set q.val (f (s.scarf.get q)) q.isLt }

/-- STATE code of a context (R272). -/
def scarfState : ScarfMode → Nat
  | .idle => 0
  | .checking => 1
  | .running => 2
  | .done => 3
  | .stopped => 4

/-- NEXT over the landings that a test admits (R272): the first transfer of the plan, or segment of a pass, not landed. A command whose check
or resumption is refused has no plan, and its NEXT is 0, also over that of the block that a RESUME named (log 102). -/
def Scarf.nextBy (c : Scarf) (ok : Nat → Bool) : Nat :=
  let got := (c.landed.filter (fun x => ok x.2)).map (fun x => x.1)
  if c.pass = 0 then
    match c.plan.find? (fun t => !got.contains t.index) with
    | some t => t.index
    | none =>
      match c.plan.getLast? with
      | some t => t.index + 1
      | none => c.next
  else ((List.range (lySegs c.record)).find? (fun k => !got.contains k)).getD (lySegs c.record)

/-- The status word with a NEXT (R272). -/
def Scarf.status (c : Scarf) (next : Nat) : Word :=
  BitVec.ofNat 64 (next % 2 ^ 40 * 2 ^ 24 + c.pass * 2 ^ 16 + c.code * 2 ^ 8 + scarfState c.mode)

/-- NEXT of all landings, as RSSTAT reports it (R283). -/
def Scarf.allNext (c : Scarf) : Nat :=
  match c.mode with
  | .idle => 0
  | .checking => c.next
  | .running | .done | .stopped => c.nextBy (fun _ => true)

/-- The commanding bay of a context. -/
def Scarf.party (c : Scarf) : BayId := Fin.ofNat 192 c.bay

/-- Whether a landing of window w of the commanding bay is visible in this cycle (R214, R272): its window was closed before. -/
def State.landVisible (s : State) (c : Scarf) (w : Nat) : Bool := decide (w < (s.bay c.party).window.num)

/-- The progress block's words written with the landings that are visible now (R272), and the result word at the end of a merge
(R281). -/
def State.scarfProgress (s : State) (q : PartId) (result : Option Word) : State :=
  let c := s.scarfOf q
  match translate (s.part q) (lyProg c.record) ⟨false, true, false⟩ false with
  | .error _ => s
  | .ok x =>
    let s1 := (s.writePlace x.place (leBytes 8 (c.status (c.nextBy (s.landVisible c))).toNat)).markPending q x.entry
    match result with
    | none => s1
    | some w => s1.writePlace (x.place.add 8) (leBytes 8 w.toNat)

/-- In the cycle after the release of a window of the commanding bay, t, the status word is written: that of a running context, and that of
one that has stopped or completed where the release makes landings visible (R272). -/
def State.scarfRelease (s : State) (q : PartId) (t : Nat) : State :=
  let c := s.scarfOf q
  match c.told with
  | none => s
  | some r =>
    if t ≤ r then s
    else
      let tells := decide (c.mode = .running) || ((decide (c.mode = .done) || decide (c.mode = .stopped))
        && c.landed.any (fun x => decide (x.2 + 1 = (s.bay c.party).window.num)))
      (if tells then s.scarfProgress q none else s).onScarf q (fun y => { y with told := none })

/-- A command leaves its context: its peg is produced (R273, R275). -/
def State.scarfLeave (s : State) (q : PartId) : State :=
  let c := s.scarfOf q
  match c.cmd with
  | none => s
  | some m => (s.onBay c.party (fun x => x.produce m)).onScarf q (fun y => { y with cmd := none })

/-- The engine stops with a code, and writes the status word (R272, R273). -/
def State.scarfStop (s : State) (q : PartId) (code : Nat) : State :=
  let s1 := s.onScarf q (fun c => { c with
    mode := .stopped, code := code, toIssue := [], flights := [], orWait := false, orRound := none })
  (s1.scarfProgress q none).scarfLeave q

/-- The command completes (R275), with the result word of a merge (R281). -/
def State.scarfDone (s : State) (q : PartId) : State :=
  let c := s.scarfOf q
  let result : Option Word :=
    if lyMerge c.record then
      let e := match c.nodes with
        | n :: _ => n.exp
        | [] => tabExp (c.table.getD 0 0)
      some ((BitVec.ofInt 8 e).setWidth 64 ||| (if c.sat then 0x100 else 0))
    else none
  ((s.onScarf q (fun y => { y with mode := .done })).scarfProgress q result).scarfLeave q

/-! ## RESHARD and RSSTAT -/

/-- RESHARD with its record's VA (R282). -/
def reshardCmd (s : State) (c : Cmd) : Cmd := { c with a0 := s.me.aSeen (bits c.word 25 4) }

/-- The check of R282: a record VA that fails R203, its region check included (R226), is a range fault. One that is not 64-aligned, or lies on
a STIER 5 page, against R264, has no fault of its own: the record is read as it stands (log 102). -/
def reshardChk (c : Cmd) (s : State) : Check :=
  match translate (s.partAt s.cur) c.a0 ⟨true, false, false⟩ false with
  | .error _ => some (.range, vaInfo c.a0)
  | .ok _ => if regionOk (s.partAt s.cur) s.cur .ldg c.a0 then none else some (.range, vaInfo c.a0)

/-- RESHARD (R282). -/
def execReshard (c : Ctl) (s : State) : Step :=
  .next (s.command c .scarf 296 (fieldMask 30 42) outOfBay reshardCmd reshardChk noCmdEff)

/-- The status word of the context of a bay's partition (R276, R283). -/
def State.scarfStatus (s : State) (b : BayId) : Word :=
  match s.partOf b with
  | none => 0
  | some q => (s.scarfOf q).status (s.scarfOf q).allNext

/-- RSSTAT (R283). -/
def execRsstat (c : Ctl) (s : State) : Step :=
  .next (s.trigger c 297 .scarfSt 2
    (fun v _ => if v.addr ≠ 0xFFFFFF then some (.reservedField, 297) else none)
    (fun _ _ => (s.scarfStatus s.cur).setWidth 2048))

/-! ## Begin and check (R268, R274, R276) -/

/-- Bytes at a VA as the commanding bay reads them; none where the page cannot be read. -/
def State.scarfRead (s : State) (q : PartId) (b : BayId) (va : Addr) (n : Nat) : Option (List Byte) :=
  (List.range n).mapM (fun k =>
    match translate (s.part q) (va + BitVec.ofNat 72 k) ⟨true, false, false⟩ false with
    | .error _ => none
    | .ok x => some ((s.readAs b (s.part q).time x.place 1).getD 0 0))

/-- A read of the engine noted as one of the commanding bay's (R212). -/
def State.scarfNote (s : State) (q : PartId) (b : BayId) (va : Addr) (n : Nat) : State :=
  let room := 65536 - vaNat va % 65536
  ([(va, min n room), (va + BitVec.ofNat 72 room, n - room)] : List (Addr × Nat)).foldl (fun acc x =>
    match translate (s.part q) x.1 ⟨true, false, false⟩ false with
    | .error _ => acc
    | .ok y => (acc.orderAccess b x.1).noteRead b x.1 y.place x.2) s

/-- n words of w bytes at a VA: none where one cannot be read (R203). -/
def State.scarfWords (s : State) (q : PartId) (b : BayId) (va : Addr) (w n : Nat) : Option (List Nat) :=
  (List.range n).mapM (fun k => (s.scarfRead q b (va + BitVec.ofNat 72 (w * k)) w).map leNat)

/-- A byte that is not zero among n at a VA; one that cannot be read counts as zero (log 93). -/
def State.scarfNonzero (s : State) (q : PartId) (b : BayId) (va : Addr) (n : Nat) : Bool :=
  (List.range n).any (fun k => decide ((s.scarfRead q b (va + BitVec.ofNat 72 k) 1).getD [0] ≠ [0]))

/-- RESHARD_BEGIN (R276): an idle context begins the offered command of its lowest bay, and reads its record. A region check that fails now
(R226) is reported in CODE, since only the trigger's checks are faults (R282, log 96). -/
def execReshardBegin (q : PartId) (s : State) : Step :=
  let c := s.scarfOf q
  if c.mode = .checking ∨ c.mode = .running ∨ (s.part q).held = true then .next s
  else
    match (s.part q).bays.findSome? (fun b =>
      ((s.bay b).headReady .scarf (s.now b) (fun _ => true)).map (fun m => (b, m))) with
    | none => .next s
    | some (b, m) =>
      let s1 := s.onBay b (fun x => (x.dequeue .scarf).consume m)
      let r : Layout := BitVec.ofNat 2048 (leNat ((s1.scarfRead q b m.a0 256).getD []))
      let s2 := ((s1.scarfNote q b m.a0 256).freshTag.2).onScarf q (fun _ => { Scarf.reset with
        mode := .checking, bay := b.val, cmd := some m, record := r, checkEnd := (s.part q).time + checkTime r
        run := s1.nextTag })
      .next (if regionOk (s.part q) b .ldg m.a0 then s2 else s2.scarfStop q 10)

/-- The transfers that a RESUME takes up (R274): none where the progress block does not allow it. -/
def resumeAt (status : Nat) (plan : List Transfer) (merge : Bool) : Option Nat :=
  let st := nbits status 0 3
  let next := nbits status 24 40
  if st ≠ 4 ∧ st ≠ 2 then none
  else if merge ∧ nbits status 16 8 ≠ 0 then some ((plan.head?.map Transfer.index).getD 0)
  else if plan.any (fun t => decide (t.index = next)) then some next
  else none

/-- A pass of a merge begins (R280): its first segment takes 2 pole cycles. -/
def Scarf.startPass (c : Scarf) (t : Nat) : Scarf :=
  { c with pass := c.pass + 1, seg := 0, segDue := t + 2, landed := [], flags := [] }

/-- What follows when pass 0 has nothing left to land: completion, or the first pass of a merge. -/
def State.scarfGathered (s : State) (q : PartId) : State :=
  let c := s.scarfOf q
  if c.mode = .running ∧ c.pass = 0 ∧ c.plan.all (fun t => c.landed.any (fun x => decide (x.1 = t.index))) then
    if lyMerge c.record then
      s.onScarf q (fun y => { y.startPass (s.part q).time with nodes := tableNodes y.table })
    else s.scarfDone q
  else s

/-- RESHARD_CHECK_END (R268, R274): the check ends in a code, or the context runs from index 0 or from the progress block. -/
def execReshardCheckEnd (q : PartId) (s : State) : Step :=
  let c := s.scarfOf q
  let p := s.part q
  match c.mode, c.cmd with
  | .checking, some m =>
    if p.time < c.checkEnd ∨ p.held = true then .next s
    else
      let r := c.record
      let b := c.party
      let src := s.scarfWords q b (lySrcList r) 2 (min 4096 (lyMesh r false).chips)
      let dst := s.scarfWords q b (lyDstList r) 2 (min 4096 (lyMesh r true).chips)
      let tab : Option (List Word) := if lyMerge r then
        (s.scarfWords q b (lyTable r) 8 (lyMesh r false).rep).map (fun l => l.map (BitVec.ofNat 64)) else some []
      let code := checkCode p b r (s.scarfNonzero q b (m.a0 + 256) (lyExtra r)) m.a0 src dst tab
      if code ≠ 0 then .next (s.scarfStop q code)
      else
        let srcL := src.getD []
        let dstL := dst.getD []
        let plan := planOf r srcL dstL p.lchip
        let status := leNat ((s.scarfRead q b (lyProg r) 8).getD [])
        let start : Option Nat := if bitAt m.word 29 then resumeAt status plan (lyMerge r)
          else some ((plan.head?.map Transfer.index).getD 0)
        match start with
        | none => .next (s.scarfStop q 12)
        | some n =>
          let old := plan.filter (fun t => decide (t.index < n))
          let lists := [(lySrcList r, 2 * srcL.length), (lyDstList r, 2 * dstL.length), (lyTable r, 8 * (tab.getD []).length)]
          let s0 := lists.foldl (fun acc x => acc.scarfNote q b x.1 x.2) s
          let s1 := s0.onScarf q (fun y => { y with
            mode := .running, srcList := srcL, dstList := dstL, table := tab.getD [], plan := plan
            toIssue := plan.filter (fun t => decide (n ≤ t.index))
            landed := old.map (fun t => (t.index, 0)), next := n })
          .next (s1.scarfGathered q)
  | _, _ => .next s

/-! ## Requests and landings (R271, R273) -/

/-- First byte of an element in its shard, and the bytes that hold a run of elements. -/
def elemByte (r : Layout) (i : Nat) : Nat := i * fmtNib (lyFmt r) / 2
/-- Bytes that hold n elements from element i. -/
def elemSpan (r : Layout) (i n : Nat) : Nat := ((i + n) * fmtNib (lyFmt r) + 1) / 2 - elemByte r i

/-- A bulk flit time of the partition begins on the first port of the route to a chip: the transfer's request may leave (R271, R276). -/
def State.bulkSlot (s : State) (q : PartId) (f : FabHeader) (chip : Nat) : Bool :=
  match f.firstPort (s.physOf f f.lchip) (s.physOf f chip) with
  | some port => (s.flitsNow (s.part q)).any (fun x =>
      decide (x.2 < 120) && decide (s.linkUse port x.1 = 0x40) && decide (s.linkPart port x.1 = q.val))
  | none => false

/-- The bytes of a run with an address in each 64 KiB page that they touch. -/
def pageEnds (va : Addr) (n : Nat) : List Addr := if n = 0 then [] else [va, va + BitVec.ofNat 72 (n - 1)]

/-- The VA of a transfer's source bytes. -/
def Transfer.srcVa (t : Transfer) (r : Layout) : Addr := lySrcVa r + BitVec.ofNat 72 (elemByte r t.src)

/-- A request enters flight with its landing cycle. -/
def State.scarfFly (s : State) (q : PartId) (t : Transfer) (due : Nat) : State :=
  s.onScarf q (fun c => { c with toIssue := c.toIssue.tail, flights := c.flights ++ [⟨t, due, none⟩] })

/-- SCARF_REQUEST (R271): the next transfer in plan order issues its read request, at most one in a pole cycle and 64 in flight. A source on
another chip is checked here by this chip's own table, as an LDG of the commanding bay (R225), and there by that chip's. -/
def execScarfRequest (q : PartId) (s : State) : Step :=
  let c := s.scarfOf q
  let p := s.part q
  if c.mode ≠ .running ∨ c.pass ≠ 0 ∨ 64 ≤ c.flights.length ∨ p.held = true then .next s
  else
    match c.toIssue with
    | [] => .next s
    | t :: _ =>
      let va := t.srcVa c.record
      if t.chip = p.lchip then
        match findEntry p.tt (vaNat va) with
        | none => .next (s.scarfStop q 6)
        | some (_, e) =>
          .next ((s.scarfFly q t (p.time + tierLatency c.party e)).queueBurst q 0xF1 (some (tePlace e (vaNat va - teBase e)))
            (elemSpan c.record t.src t.count) .bulk)
      else
        match p.fab with
        | none => .next s
        | some f =>
          if (pageEnds va (elemSpan c.record t.src t.count)).any (fun a => !regionOk p c.party .ldg a) then .next (s.scarfStop q 10)
          else if s.bulkSlot q f t.chip then
            let h := f.hops (s.physOf f f.lchip) (s.physOf f t.chip)
            let s1 := s.scarfFly q t (p.time + 380 + 360 * h)
            .next (s1.sendChip f t.chip 1 (.scarfRead ⟨f.lchip, c.bay, placedMode p va, q, c.run, t.index, va, elemSpan c.record t.src t.count⟩))
          else .next s

/-- The code of a failure at either end of a transfer (R268, R273). -/
def scarfCode (c : Cause) : Nat :=
  match c with
  | .region => 10
  | .translation => 11
  | _ => 6

/-- Half bytes of a byte list, low first. -/
def nibbles (bs : List Byte) : List Nat := bs.flatMap (fun b => [b.toNat % 16, b.toNat / 16])

/-- Bytes of a list of half bytes. -/
def ofNibbles : List Nat → List Byte
  | a :: b :: rest => BitVec.ofNat 8 (a + 16 * b) :: ofNibbles rest
  | [a] => [BitVec.ofNat 8 a]
  | [] => []

/-- Elements of a transfer as raw values of their width, from the bytes that hold them. -/
def rawElems (r : Layout) (first count : Nat) (bs : List Byte) : List Nat :=
  let w := fmtNib (lyFmt r)
  let ns := (nibbles bs).drop (first * w % 2)
  (List.range count).map (fun i => ((ns.drop (i * w)).take w).foldr (fun d acc => d + 16 * acc) 0)

/-- The pieces of a write that lie in one 64 KiB page each. -/
def pagePieces (va : Addr) (data : List Byte) : List (Addr × List Byte) :=
  let room := 65536 - vaNat va % 65536
  if data.length ≤ room then [(va, data)] else [(va, data.take room), (va + BitVec.ofNat 72 room, data.drop room)]

/-- The lines of a channel region that n bytes of a scarf transfer touch let it pass (R225, R229). -/
def linesOk (p : Part) (b : Bay) (k : RKind) (va : Addr) (n : Nat) : Bool :=
  (List.range (n / 128 + 2)).all (fun i => (lineChk p b k (va + BitVec.ofNat 72 (min (128 * i) (n - 1)))).isNone)

/-- One gated write of the commanding bay for a landing of the engine (R214, R271, R287): a code where a check fails, the state of a channel
line among them (R225, R282). It takes its 0xF1 slots (log 88). -/
def State.scarfPiece (s : State) (q : PartId) (b : BayId) (va : Addr) (data : List Byte) : Except Nat State :=
  let p := s.part q
  match translate p va ⟨false, true, false⟩ false with
  | .error f => .error (scarfCode f.1)
  | .ok x =>
    if !regionOk p b .stg va || !linesOk p (s.bay b) .stg va data.length then .error 10
    else
      let s1 := s.orderAccess b va
      .ok ((s1.onBay b (fun y => { y with
        gbuf := y.gbuf ++
          [⟨y.nextId, va, data.length, x.entry, some p.time, y.window.num, .bytes x.place data, s1.seenBy b.val, 0, false⟩]
        nextId := y.nextId + 1 })).queueBurst q 0xF1 (some x.place) data.length .bulk)

/-- The window of the commanding bay, be it one that its bundle of this cycle closes, has no room for another landing (R286, R287). While
the bay is retiring, with no task's window open, the window that follows the retirement takes it (log 98). -/
def State.landsFull (s : State) (b : BayId) : Bool := decide (1024 ≤ (s.bay b).window.gstores)

/-- Landing k of a context counted in its window (R272, R287). -/
def State.scarfLanded (s : State) (q : PartId) (b : BayId) (k : Nat) : State :=
  let w := (s.bay b).window.num
  (s.onBay b (fun y => { y with window := { y.window with gstores := y.window.gstores + 1 } })).onScarf q
    (fun y => { y with landed := y.landed ++ [(k, w)] })

/-- A piece of a landing would be the bay's second write of the cycle on a byte (R215). -/
def State.piecesClash (s : State) (q : PartId) (b : BayId) (l : List (Addr × List Byte)) : Bool :=
  l.any (fun x =>
    match translate (s.part q) x.1 ⟨false, true, false⟩ false with
    | .ok y => (s.bay b).gatedClash (s.part q).time (.bytes y.place x.2)
    | .error _ => false)

/-- A landing of the engine that cannot be made in this cycle (R215, R287): the fault of the commanding bay that says why. -/
def State.landChk (s : State) (q : PartId) (b : BayId) (l : List (Addr × List Byte)) : Check :=
  if s.landsFull b then some (.windowOverflow, 2)
  else if s.piecesClash q b l then some (.writeCollision, vaInfo ((l.headD (0, [])).1)) else none

/-- Several pieces, the first failure deciding. -/
def State.scarfPieces (s : State) (q : PartId) (b : BayId) : List (Addr × List Byte) → Except Nat State
  | [] => .ok s
  | (va, d) :: rest =>
    match s.scarfPiece q b va d with
    | .error e => .error e
    | .ok t => t.scarfPieces q b rest

/-- Bytes at a VA that a landing of the commanding bay may write, as the bay sees them; zeros where it may not. -/
def State.scarfOld (s : State) (q : PartId) (b : BayId) (va : Addr) (n : Nat) : List Byte :=
  (List.range n).map (fun k =>
    match translate (s.part q) (va + BitVec.ofNat 72 k) ⟨false, true, false⟩ false with
    | .error _ => 0
    | .ok x => (s.readAs b (s.part q).time x.place 1).getD 0 0)

/-- The bytes of a run of elements written to a shard from element i on: of INT4, the half bytes beside the run are kept. -/
def State.runBytes (s : State) (q : PartId) (b : BayId) (r : Layout) (base : Addr) (i : Nat) (vals : List Nat) :
    Addr × List Byte :=
  let w := fmtNib (lyFmt r)
  let va := base + BitVec.ofNat 72 (elemByte r i)
  let n := elemSpan r i vals.length
  let old := nibbles (s.scarfOld q b va n)
  let new := vals.flatMap (fun v => (List.range w).map (fun k => v / 16 ^ k % 16))
  let head := i * w % 2
  (va, ofNibbles (old.take head ++ new ++ old.drop (head + new.length)))

/-- The bytes of elements in a staging plane, 8 bytes each (R280). -/
def stageBytes (vals : List Int) : List Byte := vals.flatMap (fun v => leBytes 8 (v % 2 ^ 64).toNat)

/-- The VA of an element in a staging plane (R280). -/
def stageVa (r : Layout) (plane i : Nat) : Addr := lyStage r + BitVec.ofNat 72 (8 * (plane * lyElems r true + i))

/-- A transfer lands (R271, R280): its elements in the destination shard, or widened in its replica's staging plane. -/
def State.scarfLand (s : State) (q : PartId) (t : Transfer) (data : List Byte) : State :=
  let c := s.scarfOf q
  let r := c.record
  let b := c.party
  let raw := rawElems r t.src t.count data
  let pieces : List (Addr × List Byte) :=
    if lyMerge r then pagePieces (stageVa r t.replica t.dst) (stageBytes (raw.map (fun v => sext (v : Nat) (lyWidth r))))
    else
      let x := s.runBytes q b r (lyDstVa r) t.dst raw
      pagePieces x.1 x.2
  match s.landChk q b pieces with
  | some f => s.strayFault b f.1 f.2
  | none =>
    match s.scarfPieces q b pieces with
    | .error e => s.scarfStop q e
    | .ok s1 =>
      (s1.scarfLanded q b t.index).onScarf q (fun y => { y with
        flights := y.flights.filter (fun f => decide (f.tr.index ≠ t.index)) })

/-- The checks on n bytes that a transfer reads at its source (R203, R225, R229): a code where one fails. allows is the table's answer, for
the commanding bay or for one of another chip. -/
def sourceChk (p : Part) (x : Bay) (allows : Addr → Bool) (va : Addr) (n : Nat) : Option Nat :=
  match (pageEnds va n).findSome? (fun a =>
    match translate p a ⟨true, false, false⟩ false with
    | .error e => some (scarfCode e.1)
    | .ok _ => if allows a then none else some 10) with
  | some c => some c
  | none => if linesOk p x .ldg va n then none else some 10

/-- The data of a flight that is here: an answer, or this chip's own memory, read as an LDG of the commanding bay. -/
def State.flightData (s : State) (q : PartId) (c : Scarf) (f : Flight) : Option (Except Nat (List Byte)) :=
  if f.tr.chip = (s.part q).lchip then
    let va := f.tr.srcVa c.record
    let n := elemSpan c.record f.tr.src f.tr.count
    match sourceChk (s.part q) (s.bay c.party) (fun a => regionOk (s.part q) c.party .ldg a) va n with
    | some e => some (.error e)
    | none => (s.scarfRead q c.party va n).map .ok
  else f.data.map .ok

/-- A flight whose landing cycle has come lands when its data is here. -/
def State.flightLand (s : State) (q : PartId) (f : Flight) : State :=
  let c := s.scarfOf q
  if c.mode ≠ .running ∨ (s.part q).time < f.due then s
  else
    match s.flightData q c f with
    | none => s
    | some (.error e) => s.scarfStop q e
    | some (.ok d) =>
      (if f.tr.chip = (s.part q).lchip then
        s.scarfNote q c.party (f.tr.srcVa c.record) (elemSpan c.record f.tr.src f.tr.count)
      else s).scarfLand q f.tr d

/-- SCARF_LANDING (R271): the transfers whose scheduled cycle has come and whose data is here land; the last completes the pass. -/
def execScarfLanding (q : PartId) (s : State) : Step :=
  if (s.part q).held then .next s
  else .next ((((s.scarfOf q).flights).foldl (fun acc f => acc.flightLand q f) s).scarfGathered q)

/-- TIMEOUT (R273): a transfer unanswered 2 frames after its landing cycle stops the engine. -/
def execTimeout (q : PartId) (s : State) : Step :=
  let c := s.scarfOf q
  let p := s.part q
  if c.mode = .running ∧ c.flights.any (fun f => f.data.isNone && decide (f.tr.chip ≠ p.lchip)
      && decide (f.due + 2 * 2 ^ p.hdr.fexp < p.time)) then .next (s.scarfStop q 9)
  else .next s

/-- SCARF_ERROR_FLIT (R273): REGION, RANGE or ABSENT from a source chip stops the transfer pass that runs. -/
def execScarfErrorFlit (q : PartId) (code : Nat) (s : State) : Step :=
  let c := s.scarfOf q
  if c.mode = .running ∧ c.pass = 0 then .next (s.scarfStop q code) else .next s

/-- What a read of another chip's engine is answered with (R225, R271, R273): its bytes, or an error. -/
def State.sourceAnswer (s : State) (r : ScarfRead) : Msg :=
  let p := s.part r.part
  match sourceChk p .reset (remoteAllows p r.bay r.chip r.mode .ldg) r.va r.n with
  | some e => .scarfError r.part r.run e
  | none =>
    .scarfData r.part r.run r.index ((List.range r.n).map (fun k =>
      match translate p (r.va + BitVec.ofNat 72 k) ⟨true, false, false⟩ false with
      | .ok x => s.readPlace x.place 0
      | .error _ => 0))

/-- A read of another chip's engine has had its 0xF1 slots: the answer waits for bulk flit times (R271, R276, R310). -/
def State.serveScarf (s : State) (r : ScarfRead) : State :=
  match (s.part r.part).fab with
  | none => s
  | some f => s.sendBy .bulk r.part 0 (flitsFor r.n) f r.chip (s.sourceAnswer r)

/-- SOURCE_READ (R271, R273): a read of another chip's scarf engine is here, and waits for the 0xF1 slots of the partition. -/
def execSourceRead (r : ScarfRead) (s : State) : Step :=
  let p := s.part r.part
  match translate p r.va ⟨true, false, false⟩ false with
  | .error _ => .next (s.serveScarf r)
  | .ok x => .next (s.queueBurst r.part 0xF1 (some x.place) r.n (.scarf r))

/-- A byte of n from an address lies in a region. -/
def meetsRegion (p : Part) (r : Nat) (va : Addr) (n : Nat) : Bool :=
  decide (n ≠ 0) && (List.range (n / 65536 + 2)).any (fun k => inRegion p r (va + BitVec.ofNat 72 (min (65536 * k) (n - 1))))

/-- A context that runs has an access to a region to make (R228): the landing of a transfer in flight or still to be issued, or its source
where that is this chip; and of a merge the staging area and the destination shard that its passes go over (R280). -/
def Scarf.pends (c : Scarf) (p : Part) (r : Nat) : Bool :=
  decide (c.mode = .running) && ((c.flights.map (fun f => f.tr) ++ c.toIssue).any (fun t =>
      meetsRegion p r (lyDstVa c.record + BitVec.ofNat 72 (elemByte c.record t.dst)) (elemSpan c.record t.dst t.count)
        && !lyMerge c.record
      || (decide (t.chip = p.lchip) && meetsRegion p r (t.srcVa c.record) (elemSpan c.record t.src t.count)))
    || (lyMerge c.record && (meetsRegion p r (lyStage c.record) (lyStageBytes c.record)
        || meetsRegion p r (lyDstVa c.record) (lyBytes c.record true))))

/-- The contribution of a context to the overflow round of a slot: party, pole time at which it was taken, what the party was ordered
after (R235). -/
def Scarf.contributor (c : Scarf) (slot round : Nat) : List (Nat × Nat × List (Nat × Nat)) :=
  if c.orRound = some round ∧ lySlot c.record = slot then [(c.bay, c.orTaken.1, c.orTaken.2)] else []

/-! ## Merge passes (R280) -/

/-- The node context of a merge (R156, R280). -/
def mergeCtx (r : Layout) (seed : Word) : NodeCtx := ⟨(modeOf (lyMode r)).getD .sat, lyWidth r, lyStream r, seed⟩

/-- The value of node (lev, j) from delivered values (lev, j, x): reduce above the delivered nodes (R166, R280). -/
def combine (c : NodeCtx) (base : Nat) : Nat → Nat → List (Nat × Nat × TVal) → Option TVal × Bool
  | 0, j, vs => ((vs.find? (fun v => decide (v.1 = 0 ∧ v.2.1 = j))).map (fun v => v.2.2), false)
  | k + 1, j, vs =>
    match vs with
    | [] => (none, false)
    | _ :: _ =>
      match vs.find? (fun v => decide (v.1 = k + 1 ∧ v.2.1 = j)) with
      | some v => (some v.2.2, false)
      | none =>
        let half (h : Nat) := vs.filter (fun v => decide (v.1 ≤ k) && decide (v.2.1 / 2 ^ (k - v.1) = h))
        let l := combine c base k (2 * j) (half (2 * j))
        let r := combine c base k (2 * j + 1) (half (2 * j + 1))
        let n := node c (base + k + 1) j l.1 r.1
        (n.1, l.2 || r.2 || n.2)

/-- A staged value of a node as the commanding bay reads it, with a shift that its node awaits, and whether the shift clamped it (R156,
R280): e is the element's place in the shard and its logical index. -/
def State.staged (s : State) (q : PartId) (b : BayId) (r : Layout) (ctx : NodeCtx) (n : SNode) (e : Nat × Nat) : Int × Bool :=
  let x : Int := sext (leNat ((s.scarfRead q b (stageVa r n.plane e.1) 8).getD []) : Nat) 64
  match n.shift with
  | none => (x, false)
  | some (lev, j, exp) =>
    if exp = 127 then (sat x ctx.w, clamps x ctx.w)
    else
      let m := prodOf ((lyDims r true).map Dim.n)
      sshr x 1 ctx.w (BitVec.ofNat 64 ((nodeKerf ctx (lyBase r + lev) j m e.2).toNat / 2 ^ 63))

/-- The values of a segment that a pass reads in the staging planes are noted as the commanding bay's reads (R212). -/
def State.noteStaged (s : State) (q : PartId) (c : Scarf) (es : List (Nat × Nat)) : State :=
  match es.head?, es.getLast? with
  | some a, some z => c.nodes.foldl (fun acc n => acc.scarfNote q c.party (stageVa c.record n.plane a.1) (8 * (z.1 + 1 - a.1))) s
  | _, _ => s

/-- The local slots of segment k of this chip's destination shard that are no padding, with their logical indices (R143). -/
def segElems (r : Layout) (pos k : Nat) : List (Nat × Nat) :=
  let n := lySegElems r
  ((List.range (min n (lyElems r true - k * n))).map (fun i => k * n + i)).filterMap (fun li =>
    (lyGlobal r pos li).map (fun g => (li, lyIndex r g)))

/-- Runs of consecutive slots with their values. -/
def joinRuns : List (Nat × Nat) → List (Nat × List Nat)
  | [] => []
  | (i, v) :: rest =>
    match joinRuns rest with
    | (k, vs) :: more => if k = i + 1 then (i, v :: vs) :: more else (i, [v]) :: (k, vs) :: more
    | [] => [(i, [v])]

/-- The root of every element of a segment from the staging planes, and whether anything clamped (R280). -/
def State.segRoots (s : State) (q : PartId) (c : Scarf) (pos k : Nat) : List (Nat × Nat) × Bool :=
  let r := c.record
  let b := c.party
  let ctx := mergeCtx r (s.bay b).kseed
  let top := bitlen ((lyMn r : Int) - 1)
  let xs := (segElems r pos k).map (fun e =>
    let ss := c.nodes.map (fun n => (n, s.staged q b r ctx n e))
    let shifted := ss.any (fun x => x.2.2)
    let v := combine ctx (lyBase r) top 0 (ss.map (fun x => (x.1.lev, x.1.j, (⟨[x.2.1], x.1.exp⟩ : TVal))))
    match v.1 with
    | none => ((e.1, 0), v.2 || shifted)
    | some t =>
      let z := rootClamp ctx t
      ((e.1, ((z.1.elems.getD 0 0) % 2 ^ lyWidth r).toNat), if lyMode r = 2 then shifted else v.2 || z.2))
  (xs.map (fun x => x.1), xs.any (fun x => x.2))

/-- This chip's position among the destination chips. -/
def Scarf.pos (c : Scarf) (lchip : Nat) : Nat := (c.dstList.findIdx? (fun x => decide (x = lchip))).getD 0

/-- Roots written to the destination shard: a landing of the commanding bay (R280). -/
def State.writeRoots (s : State) (q : PartId) (c : Scarf) (k : Nat) (vals : List (Nat × Nat)) (sat : Bool) : State :=
  let b := c.party
  let pieces := (joinRuns vals).flatMap (fun x =>
    let y := s.runBytes q b c.record (lyDstVa c.record) x.1 x.2
    pagePieces y.1 y.2)
  match s.landChk q b pieces with
  | some f => s.strayFault b f.1 f.2
  | none =>
    match s.scarfPieces q b pieces with
    | .error e => s.scarfStop q e
    | .ok s1 => ((s1.noteStaged q c (segElems c.record (c.pos (s.part q).lchip) k)).scarfLanded q b k).onScarf q (fun y =>
        { y with sat := y.sat || sat })

/-- The level that a SHIFT merge's pass forms: pass 1 forms the level above the lowest delivered node (R280). -/
def Scarf.level (c : Scarf) : Nat := c.table.foldl (fun acc e => min acc (tabLog e)) 64 + c.pass

/-- A segment of a level pass of a SHIFT merge: sums in the staging planes, overflow and clamp flags (R156, R280). -/
def State.levelSegment (s : State) (q : PartId) (c : Scarf) (k : Nat) : State :=
  let r := c.record
  let b := c.party
  let ctx := mergeCtx r (s.bay b).kseed
  let m := prodOf ((lyDims r true).map Dim.n)
  let es := segElems r (c.pos (s.part q).lchip) k
  let sums := (levelPairs c.nodes c.level).map (fun x =>
    let ys := es.map (fun e =>
      let kv := nodeKerf ctx (lyBase r + c.level) (x.1.j / 2) m e.2
      let u := s.staged q b r ctx x.1 e
      let v := s.staged q b r ctx x.2 e
      let z := nodeElem ctx kv x.1.exp x.2.exp u.1 v.1
      (e.1, z.1, z.2 || u.2 || v.2))
    (x.1, ys))
  let pieces := sums.flatMap (fun x => x.2.flatMap (fun y => pagePieces (stageVa r x.1.plane y.1) (stageBytes [y.2.1])))
  let flags := (sums.filter (fun x => x.2.any (fun y => clamps y.2.1 ctx.w))).map (fun x => x.1.j / 2)
  match s.landChk q b pieces with
  | some f => s.strayFault b f.1 f.2
  | none =>
    match s.scarfPieces q b pieces with
    | .error e => s.scarfStop q e
    | .ok s1 =>
      ((s1.noteStaged q c es).scarfLanded q b k).onScarf q (fun y => { y with
        flags := (y.flags ++ flags).eraseDups
        sat := y.sat || sums.any (fun x => x.2.any (fun z => z.2.2)) })

/-- A SHIFT merge is at its writing pass: the root has been formed (R280). -/
def Scarf.writing (c : Scarf) : Bool := decide (bitlen ((lyMn c.record : Int) - 1) < c.level)

/-- The end of a pass: completion, or for a level the wait for its overflow round (R280). -/
def State.passEnd (s : State) (q : PartId) : State :=
  let c := s.scarfOf q
  if lyMode c.record ≠ 2 ∨ c.writing = true then s.scarfDone q
  else s.onScarf q (fun y => { y with nodes := levelNodes y.nodes y.level, orWait := true })

/-- Positions of the nodes of the level in course, ascending. -/
def Scarf.levelPlaces (c : Scarf) : List Nat := sortOn id ((c.nodes.filter (fun x => decide (x.lev = c.level))).map SNode.j)

/-- The flags of a level as elements of its overflow round, by ascending j (R280): those beyond the n elements of the slot go into the next
round of it (log 95). -/
def Scarf.orElems (c : Scarf) (n : Nat) : List Int :=
  (List.range n).map (fun k =>
    match (c.levelPlaces.drop c.orBase)[k]? with
    | some j => if c.flags.contains j then 1 else 0
    | none => 0)

/-- The contribution of a context to the overflow round of a level, at COFF of a contribution frame of slot MSLOT (R280). -/
def State.scarfContribute (s : State) (q : PartId) : State :=
  let c := s.scarfOf q
  let p := s.part q
  match p.rds.find? (fun d => decide (d.slot.val = lySlot c.record)) with
  | none => s.scarfStop q 9
  | some d =>
    if p.polec = d.coff ∧ p.framec % 2 ^ d.pexp = d.phase then
      let round := (p.framec - d.phase) / 2 ^ d.pexp
      let leaf := (d.chips.findIdx? (fun x => decide (x = p.lchip))).getD 0
      let desc : BitVec 48 := BitVec.ofNat 48 (d.b0 * 2 ^ 42 + leaf * 2 ^ d.b0)
      let v : NodeVal := ⟨d.slot, round, 0, leaf, c.orElems d.nel, 0, false, (s.bay c.party).kseed, [⟨leaf, desc, 0⟩], d.w⟩
      let taken := (p.time, s.seenBy c.party.val)
      { (s.onScarf q (fun y => { y with orWait := false, orRound := some round, orTaken := taken })) with
        arrivals := s.arrivals ++ [(s.clock + 20 * p.k, v)] }
    else s

/-- A node of a SHIFT merge is shifted once after its overflow round (R156, R280): the shift is made as its values are next read. Of the
result word's acc.SAT a node at exponent 127 counts on every destination chip, a clamped element on the chip that holds it (log 97). -/
def State.shiftNode (s : State) (q : PartId) (n : SNode) : State :=
  s.onScarf q (fun y => { y with
    sat := y.sat || decide (n.exp = 127)
    nodes := y.nodes.map (fun k =>
      if k = n then { k with shift := some (n.lev, n.j, n.exp), exp := if n.exp = 127 then 127 else n.exp + 1 } else k) })

/-- The delivery of an overflow round to a context that awaits it (R280): with the last of the level flagged nodes are shifted and the next
pass begins; a round that is not delivered stops the engine. -/
def State.scarfVerdict (s : State) (q : PartId) (v : Verdict) : State :=
  let c := s.scarfOf q
  if c.mode = .running ∧ c.orRound = some v.round ∧ lySlot c.record = v.slot.val then
    if v.status ≠ 0 then s.scarfStop q 9
    else
      let js := c.levelPlaces
      let base := c.orBase + v.elems.length
      let hits := c.orHits ++
        (((js.drop c.orBase).zipIdx).filter (fun x => decide (v.elems.getD x.2 0 ≠ 0))).map (fun x => x.1)
      if base < js.length then
        s.onScarf q (fun y => { y with orWait := true, orRound := none, orBase := base, orHits := hits })
      else
        let s1 := (c.nodes.filter (fun n => decide (n.lev = c.level) && hits.contains n.j)).foldl (fun acc n => acc.shiftNode q n) s
        s1.onScarf q (fun y => { y.startPass (s.part q).time with orRound := none, orBase := 0, orHits := [] })
  else s

/-- MERGE_PASS (R280): a segment of the pass in course ends every 2 pole cycles, later where the window of the commanding bay has no room
for it; between the levels of a SHIFT merge the context takes part in an overflow round. -/
def execMergePass (q : PartId) (s : State) : Step :=
  let c := s.scarfOf q
  let p := s.part q
  if c.mode ≠ .running ∨ c.pass = 0 ∨ p.held = true ∨ c.orRound.isSome = true then .next s
  else if c.orWait then .next (s.scarfContribute q)
  else if p.time < c.segDue then .next s
  else
    let k := c.seg
    let s1 :=
      if lyMode c.record = 2 ∧ c.writing = false then s.levelSegment q c k
      else
        let r := s.segRoots q c (c.pos p.lchip) k
        s.writeRoots q c k r.1 r.2
    if (s1.scarfOf q).mode ≠ .running ∨ (s1.scarfOf q).landed.any (fun x => decide (x.1 = k)) = false then .next s1
    else
      let s2 := s1.onScarf q (fun y => { y with seg := y.seg + 1, segDue := p.time + 2 })
      .next (if lySegs c.record ≤ k + 1 then s2.passEnd q else s2)

end Sys2Proof.Machine
end

