-- ==== Sys2Proof/Machine/Load.lean ====
section
/-!
DEFINITION. The loading of a plan: the yard's mailbox answers (R330, R332), the forming and dissolving of partitions (R26, R28, R58),
and LOAD itself, from the image to a partition that waits for plan frame 0 (R333, R334, R467).
-/

namespace Sys2Proof.Machine

/-! ## The mailbox (R330) -/

/-- Requests claimed. -/
def State.reqIndex (s : State) : Nat := Mem.nat s.yard.mailbox 0 8

/-- Responses written. -/
def State.respIndex (s : State) : Nat := Mem.nat s.yard.mailbox 8 8

/-- The packet of request n. -/
def State.request (s : State) (n : Nat) : BitVec 512 :=
  BitVec.ofNat 512 (Mem.nat s.yard.mailbox (0x1000 + 64 * (n % 64)) 64)

/-- CMD of a request. -/
def reqCmd (r : BitVec 512) : Nat := bits r 16 8

/-- ARG k of a request. -/
def reqArg (r : BitVec 512) (k : Nat) : Nat := bits r (64 + 64 * k) 64

/-- The connection that wrote request n (R331): none before its packet is whole in its slot. -/
def State.requesterOf (s : State) (n : Nat) : Option Nat :=
  (s.yard.requester.find? (fun x => decide (x.1 = n % 64))).map (fun x => x.2)

/-- Request n is the next to be answered, and it is here. -/
def State.requestDue (s : State) (n : Nat) : Bool :=
  decide (s.yard.boot = .running) && decide (n = s.respIndex) && decide (n < s.reqIndex) && (s.requesterOf n).isSome

/-- The response to request n with a status and ARG0 (R330). -/
def State.respond (s : State) (n status arg0 : Nat) : State :=
  let r := s.request n
  let a : BitVec 512 := setBits (setBits (r &&& 0xFFFFFFFFFFFFFFFF) 24 8 status) 64 64 arg0
  let m := Mem.writeN (Mem.writeN s.yard.mailbox (0x2000 + 64 * (n % 64)) (leBytes 64 a.toNat)) 8 (leBytes 8 (n + 1))
  { s with yard := { s.yard with
      mailbox := m
      requester := s.yard.requester.filter (fun x => decide (x.1 ≠ n % 64)) } }

/-- A request refused: the status, and the rule in the error log. -/
def State.refuse (s : State) (n status rule : Nat) : State := (s.log (.note rule n)).respond n status 0

/-! ## Forming a partition (R26, R28, R58, R304) -/

/-- The partitions that hold bents of a set. -/
def State.holders (s : State) (bents : BitVec 8) : List PartId :=
  (List.finRange 8).filter (fun q => (s.part q).formed && decide ((s.part q).hdr.bents &&& bents ≠ 0))

/-- Every bent of a set is healthy (R28, R52, R338). -/
def State.bentsHealthy (s : State) (bents : BitVec 8) : Bool :=
  (List.finRange 8).all (fun t => !bents.getLsbD t.val ||
    (!(s.bents.get t).retired && (s.bents.get t).badChannels.isEmpty && decide (12 ≤ (s.healthyOf t).length)))

/-- Frames of LPDDR-6 that an image's entries name meet frames that a pre-empted plan keeps (R304). -/
def State.framesTaken (s : State) (img : List Byte) : Bool :=
  match tableOf img (memHeader img) with
  | none => false
  | some tt =>
    s.parts.toList.any (fun p => decide (p.mode = .preempted) && (List.finRange 8).any (fun t =>
      (p.heldFrames t).any (fun a => ({ Part.reset with tt := tt } : Part).heldFrames t |>.any (fun b =>
        decide (a.1 < b.1 + b.2) && decide (b.1 < a.1 + a.2)))))

/-- What the yard does with a plan (R28, R304): it loads now; it waits, lower-priority holders of its bents being pre-empted; or it is
refused. -/
inductive Forming where
  | now
  | waits (preempt : List PartId)
  | refused (rule : Nat)
deriving DecidableEq, Repr

/-- The decision of R28 on an image. -/
def State.forming (s : State) (img : List Byte) : Forming :=
  let h := storyHeader img
  if Config.memoryOk = false then .refused 2
  else if imageOk img = false then .refused 333
  else if storyOk h = false then .refused 34
  else
    let q : PartId := Fin.ofNat 8 (storyPart h)
    let own := s.holders (storyBents h)
    let lower := own.filter (fun o => decide ((s.part o).mode ≠ .stopped) && decide ((s.part o).hdr.prio < storyPrio h))
    if (s.part q).mode = .stopped ∨ own.any (fun o => decide ((s.part o).mode = .stopped)) = true then .waits lower
    else if s.bentsHealthy (storyBents h) = false then .refused 28
    else if (s.part q).mode ≠ .unformed then .refused 28
    else if own = [] then (if s.framesTaken img then .waits [] else .now)
    else .waits lower

/-- Pre-emption requested of partitions (R58). -/
def State.askPreempt (s : State) (l : List PartId) : State :=
  l.foldl (fun acc q => acc.onPart q (fun p => { p with preempt := true })) s

/-- The partitions that the plan of an image asks to be pre-empted now (R28, R58). -/
def State.asks (s : State) (img : List Byte) : List PartId :=
  match s.forming img with
  | .waits l => l
  | .now | .refused _ => []

/-- The pre-emptions that the waiting plans ask for as things now stand (R58): a plan asks as long as it waits for bents that a partition
of lower PRIO holds. -/
def State.askWaiting (s : State) : State :=
  let l := s.yard.planq.flatMap (fun w => s.asks w.image)
  { s with parts := .ofFn (fun q => { s.part q with preempt := l.contains q }) }

/-! ## Dissolving a partition (R28, R332) -/

/-- The bays of a set of bents, their state discarded (R332): a plan that is loaded next, or restarts from plan load (R296), finds them as
they are after reset. -/
def State.quietBays (s : State) (bents : BitVec 8) : State :=
  { s with bays := .ofFn (fun b => if bents.getLsbD (b.val / 24) then .reset else s.bays.get b) }

/-- The entries of a partition leave the merged link slot tables (R310), and its messages the ports; what waits for the reserved flit times
belongs to no partition. -/
def State.dropLinks (s : State) (q : PartId) : State :=
  { s with
    linkTab := s.linkTab.filter (fun e => decide (bits e.2 8 3 ≠ q.val))
    links := s.links.map (fun l => { l with waiting := l.waiting.filter (fun w => decide (w.part ≠ q) || decide (w.use = .yard)) }) }

/-- STOP (R332): the partition is reset and dissolved, its state discarded. -/
def State.dissolve (s : State) (q : PartId) : State :=
  let s1 := ((s.dropTouches q).dropLinks q).quietBays (if (s.part q).formed then (s.part q).hdr.bents else 0)
  { (s1.setPart q .reset) with scarf := s1.scarf.set q.val .reset q.isLt }

/-! ## What LOAD reads and copies (R333, R334) -/

/-- A piece of a data record that lies in one page: into device memory, into the backing location of a page that is not present, or
to the chip that holds it (R334); none where no entry takes it, or one of STIER 6. -/
def State.loadChunk (s : State) (q : PartId) (a : Nat) (data : List Byte) : Option State :=
  match findEntry (s.part q).tt a with
  | none => none
  | some (x, e) =>
    let off := a - teBase e
    if teStier e = 6 then none
    else if !tePresent e then some (s.onPart q (fun p => { p with backing := Mem.writeN p.backing (x * 2 ^ 36 + off) data }))
    else
      match tePlace e off, (s.part q).fab with
      | .chip c t pa, some f =>
        some (s.remoteSend q 0 f c (.tier5 ⟨f.lchip, 255, none, 0, 0, BitVec.ofNat 72 a, Fin.ofNat 8 t, pa, .write data⟩))
      | pl, _ => some (s.writePlace pl data)

/-- The pieces of a data record. -/
def State.loadChunks (s : State) (q : PartId) : List (Nat × List Byte) → Option State
  | [] => some s
  | (a, d) :: rest =>
    match s.loadChunk q a d with
    | none => none
    | some t => t.loadChunks q rest

/-- The data records of an image (R334). -/
def State.loadData (s : State) (q : PartId) (img : List Byte) : List DataRec → Option State
  | [] => some s
  | r :: rest =>
    if bits r.va 64 8 ≠ (s.part q).mem.asid.toNat then none
    else
      match s.loadChunks q (pageChunks (r.len / 65536 + 2) (vaNat r.va) ((img.drop r.off).take r.len)) with
      | none => none
      | some t => t.loadData q img rest

/-- Bytes that records of a bay take in the store of a record: a bay's records stand one after another in each store (R117, log 103). -/
def codeBytes (l : List CodeRec) (r : CodeRec) : Nat :=
  ((l.filter (fun x => decide (x.bay = r.bay) && decide (x.jig = r.jig))).map (fun x => x.len)).sum

/-- The code records are for bays of the partition and fit their stores (R333, R53). -/
def codeRecsOk (p : Part) (l : List CodeRec) : Bool :=
  l.all (fun r => p.hasBay r.bay && decide (codeBytes l r ≤ (if r.jig then 65536 else 262128)))

/-- The code records of an image, those before them given (R333). -/
def State.loadCode (s : State) (img : List Byte) (before : List CodeRec) : List CodeRec → State
  | [] => s
  | r :: rest =>
    let d := (img.drop r.off).take r.len
    let o := codeBytes before r
    (s.onBay (Fin.ofNat 192 r.bay) (fun b =>
      if r.jig then { b with jigmem := Mem.writeN b.jigmem o d } else { b with imem := Mem.writeN b.imem o d })).loadCode img
        (r :: before) rest

/-- The story-pole entry array in device memory (R33, R334). -/
def State.loadEntries (s : State) (q : PartId) (h : BitVec 512) : List (BitVec 256) :=
  (List.range (bits h 200 24)).map (fun k =>
    BitVec.ofNat 256 (leNat (s.loadRead q (h.extractLsb' 128 72 + BitVec.ofNat 72 (32 * k)) 32)))

/-- Tables of n bytes each at consecutive VAs, kept at multiples of a stride by number. -/
def State.loadTables (s : State) (q : PartId) (va : Addr) (n stride : Nat) (l : List Nat) : Mem :=
  l.zipIdx.foldl (fun acc x =>
    (List.range n).foldl (fun m i =>
      Mem.write m (x.1 * stride + i) ((s.loadRead q (va + BitVec.ofNat 72 (x.2 * n + i)) 1).getD 0 0)) acc) []

/-- SHOP of a STIER 5 entry by the chip remap table of this load (R306, R307). -/
def State.hopped (s : State) (f : Option FabHeader) (e : TTEntry) : TTEntry :=
  match f with
  | some h =>
    if teValid e.raw && decide (teStier e.raw = 5) then
      { e with raw := setBits e.raw 15 5 (h.hops (s.physOf h h.lchip) (s.physOf h (nbits (tePhys e.raw) 36 12))) }
    else e
  | none => e

/-- RDVA and LTVA of a fabric header (R309). -/
def fabRdva (h : BitVec 512) : Addr := h.extractLsb' 152 72
/-- LTVA. -/
def fabLtva (h : BitVec 512) : Addr := h.extractLsb' 80 72
/-- NRD. -/
def fabNrd (h : BitVec 512) : Nat := bits h 72 7

/-- The descriptors of an image, with their bits (R316). -/
def State.loadRds (s : State) (q : PartId) (h : BitVec 512) : List (BitVec 512 × RDesc) :=
  (List.range (fabNrd h)).map (fun k =>
    let x : BitVec 512 := BitVec.ofNat 512 (leNat (s.loadRead q (fabRdva h + BitVec.ofNat 72 (64 * k)) 64))
    let n := bits x 28 12 + 1
    (x, parseRd x ((List.range n).map (fun c => leNat (s.loadRead q (x.extractLsb' 128 72 + BitVec.ofNat 72 (2 * c)) 2)))))

/-- Entries of a link slot table in a frame (R310). -/
def Part.linkLen (p : Part) : Nat := p.frameLen / 64

/-- The link slot tables of an image: (key, entry) of the merged tables, six ports in order (R309, R310). -/
def State.loadLinks (s : State) (q : PartId) (h : BitVec 512) : List (Nat × BitVec 16) :=
  let n := (s.part q).linkLen
  (List.range (6 * n)).map (fun i =>
    ((i / n) * 2 ^ 20 + i % n, BitVec.ofNat 16 (leNat (s.loadRead q (fabLtva h + BitVec.ofNat 72 (2 * i)) 2))))

/-- The link entries that a plan claims. -/
def claimed (l : List (Nat × BitVec 16)) : List (Nat × BitVec 16) := l.filter (fun e => decide (bits e.2 0 8 ≠ 0xFF))

/-- A plan's link entries are of R310: no reserved code, its own partition in PART, no entry that another partition owns. -/
def State.linksOk (s : State) (q : PartId) (l : List (Nat × BitVec 16)) : Bool :=
  l.all (fun e => linkEntryOk e.2)
    && (claimed l).all (fun e => decide (bits e.2 8 3 = q.val) && decide (bits (assocGet (0x00FF : BitVec 16) s.linkTab e.1) 0 8 = 0xFF))

/-- What a chip's yard sends to the others of a pod plan (R317). -/
def podTablesOf (p : Part) (links : List (Nat × BitVec 16)) : PodTables :=
  ⟨p.rds.map RDesc.pod, (List.range 6).map (fun k =>
    (links.filter (fun e => decide (e.1 / 2 ^ 20 = k))).map (fun e => bits e.2 0 8))⟩

/-- The chips that the descriptors of a plan list, but for its own (R317). -/
def Part.listed (p : Part) : List Nat := ((p.rds.flatMap (fun d => d.chips)).eraseDups).filter (fun c => decide (c ≠ p.lchip))

/-- The chips that the rounds of a plan join (R317): those that its tables list, and those that the tables of these list. -/
def podGroup (tables : List (Nat × PodTables)) : Nat → List Nat → List Nat
  | 0, l => l
  | n + 1, l =>
    podGroup tables n ((l ++ (tables.filter (fun t => l.contains t.1)).flatMap (fun t => t.2.descs.flatMap (fun d => d.chips))).eraseDups)

/-- The tables of a pod plan's chips that have come, those that the yard kept among them, and the chips whose tables are awaited (R317). -/
def State.regroup (s : State) (q : PartId) : State :=
  let p := s.part q
  let all := p.tables ++ s.yard.podTables.filter (fun t => !p.tables.any (fun x => decide (x.1 = t.1)))
  let group := podGroup all all.length p.listed
  let mine (t : Nat × PodTables) : Bool := decide (t.1 = p.lchip) || group.contains t.1
  let s1 := s.onPart q (fun x => { x with
    tables := all.filter mine
    awaiting := group.filter (fun c => decide (c ≠ p.lchip) && !all.any (fun t => decide (t.1 = c))) })
  { s1 with yard := { s1.yard with podTables := s1.yard.podTables.filter (fun t => !mine t) } }

/-! ## LOAD (R333) -/

/-- A sub-check of a load. -/
def orRefuse (ok : Bool) (rule : Nat) : Except Nat Unit := if ok then .ok () else .error rule

/-- The partition as its headers make it, before anything is read from device memory (R32, R199, R222, R258, R309). -/
def partOfImage (s : State) (img : List Byte) : Except Nat Part :=
  let h := storyHeader img
  let m := memHeader img
  if memOk m (storyPart h) = false then .error 202
  else
    match tableOf img m, imgFabric img with
    | none, _ => .error 334
    | some tt, fb =>
      if (fb.map fabricOk).getD true = false then .error 309
      else
        let f := fb.map fabricFields
        let p : Part := { Part.reset with
          mode := .waiting
          hdr := storyFields h
          mem := memFields m
          tt := tt.map (s.hopped f)
          regions := imgRegions img
          queues := ((imgQueues img).filter (fun x => queueValid x.2)).map (fun x => (x.1, x.2.extractLsb' 0 72))
          fab := f
          image := img }
        if tableOk p = false ∨ tableOk { p with tt := tt } = false then .error 202
        else if codeRecsOk p ((imgCode img).map codeRec) = false then .error 333
        else .ok p

/-- The sections of device memory that the headers locate lie in valid entries. -/
def sectionsOk (p : Part) (img : List Byte) : Bool :=
  let h := storyHeader img
  let m := memHeader img
  covers p (h.extractLsb' 128 72) (32 * bits h 200 24)
    && covers p (memCslot m) (p.frameLen / 2 * p.channels.length) && covers p (memRslot m) (8192 * p.bentList.length)
    && (match imgFabric img with
      | none => true
      | some f => covers p (fabRdva f) (64 * fabNrd f) && covers p (fabLtva f) (12 * p.linkLen))

/-- Bundles of the instruction memory of a bay under the plan that a partition is to run, by the remap table that its first frame start
leaves (R34, R52, R53). -/
def State.bundlesAt (s : State) (q : PartId) (n : Nat) : Nat :=
  let t := remapOf (s.healthyOf (bentOf (Fin.ofNat 192 n)))
  if (t.toList.getD (n % 24) 0).getLsbD 7 || s.chipSliced (s.part q).fab then 5461 else 10922

/-- The plan in device memory and its tables read: the state with the partition as loaded, and its link entries. -/
def State.readPlan (s : State) (q : PartId) (img : List Byte) (p : Part) : Except Nat (State × List (Nat × BitVec 16)) :=
  let h := storyHeader img
  let m := memHeader img
  match (s.setPart q p).loadData q img ((imgData img).map dataRec) with
  | none => .error 334
  | some s0 =>
    if sectionsOk p img = false then .error 34
    else
      let s1 : State := { s0 with dirty := s.dirty }
      let raw := s1.loadEntries q h
      let p1 : Part := { s1.part q with
        entries := indexEntries raw []
        chTab := s1.loadTables q (memCslot m) (p.frameLen / 2) (2 ^ 19) p.channels
        ringTab := s1.loadTables q (memRslot m) 8192 8192 p.bentList }
      if entriesOk p1 (fun n => s1.bundlesAt q n) raw = false then .error 34
      else if slotsOk p1 = false then .error 202
      else if regionsOk p1 = false then .error 223
      else if queuesOk (s1.setPart q p1) q (imgQueues img) = false then .error 258
      else
        match imgFabric img with
        | none => .ok (s1.setPart q p1, [])
        | some f =>
          let rds := s1.loadRds q f
          let links := s1.loadLinks q f
          let p2 : Part := { p1 with rds := rds.map (fun x => x.2) }
          if rds.all (fun x => rdReserved x.1) = false then .error 309
          else if s1.linksOk q links = false then .error 310
          else if s1.rdsOk q p2 = false then .error 317
          else .ok (s1.setPart q p2, links)

/-- Pod cycle 0 as the chip's clock counts it: the first clock cycle at or after EPOCH (R314). -/
def State.podBase (s : State) (epoch : Nat) : Int :=
  (s.clock : Int) - (((s.ptp : Int) - epoch) * 6 + s.ptpSixths) / 5

/-- The bents of a partition have remap tables that R52 would not derive now: the first frame start changes them. -/
def State.remapStale (s : State) (bents : BitVec 8) : Bool :=
  (List.finRange 8).any (fun t => bents.getLsbD t.val && decide (remapOf (s.healthyOf t) ≠ (s.bents.get t).remap))

/-- The NVMe-oF queue pairs that a plan's TIER 7 entries name, which the yard connects at its load (R249). -/
def Part.flashPairs (p : Part) : List Nat :=
  ((p.tt.filter (fun e => teValid e.raw && decide (teTier e.raw = 7))).map (fun e => tePair e.raw)).eraseDups

/-- The chip takes a loaded plan: quiet bays with their code, an idle scarf context, its link entries, the status registers of its
reduction slots at reset (R321), port widths (R338), queue pairs (R249), its pod time, and the tables of other chips that have come
(R317). -/
def State.takePlan (s : State) (q : PartId) (img : List Byte) (links : List (Nat × BitVec 16)) : State :=
  let p := s.part q
  let s1 := ((s.dropTouches q).quietBays p.hdr.bents).loadCode img [] ((imgCode img).map codeRec)
  let s2 : State := { s1 with
    scarf := s1.scarf.set q.val .reset q.isLt
    linkTab := (claimed links).foldl (fun acc e => assocSet (0x00FF : BitVec 16) acc e.1 e.2) s1.linkTab
    router := p.rds.foldl (fun acc d => acc.set d.slot.val ⟨0, 0, [], []⟩ d.slot.isLt) s1.router
    links := if p.fab.isSome then s1.links.map (fun l => { l with width := l.lanes }) else s1.links
    queuePairs := (s1.queuePairs ++ p.flashPairs).eraseDups }
  let own := if p.fab.isSome then [(p.lchip, podTablesOf p links)] else []
  let s3 := (s2.onPart q (fun x => { x with tables := own, passed := [] })).regroup q
  s3.onPart q (fun x => { x with
    k := s.rateOf p
    remapDue := s.remapStale p.hdr.bents
    slipw := 0
    pod := ⟨s.podBase p.hdr.epoch, 0, [], (match p.fab with
      | some f => f.others.map (fun c => (c, (max (s.clock : Int) (s.podBase p.hdr.epoch)).toNat))
      | none => []), 0, 0⟩ })

/-- A plan that must run time-sliced says that it may (R53, R308). -/
def State.rateOk (s : State) (p : Part) : Bool := p.hdr.halffit || decide (s.rateOf p = 1)

/-- The tables of a pod plan sent to every other yard (R317). -/
def State.sendTables (s : State) (q : PartId) : State :=
  match (s.part q).fab, (s.part q).tables with
  | some f, (c, t) :: _ => s.sendAll q f (.tables c t)
  | _, _ => s

/-- The pod-wide checks hold over all tables that are here (R317). -/
def State.podPasses (s : State) (q : PartId) : Bool :=
  let p := s.part q
  match p.fab with
  | none => true
  | some f => podOk s f p.hdr.slack p.hdr.fexp p.k p.tables

/-- The pod-wide checks are made here: the other yards of the pod plan learn the outcome (R317, R467). -/
def State.sendCheck (s : State) (q : PartId) (ok : Bool) : State :=
  match (s.part q).fab with
  | some f =>
    (s.sendAll q f (.checked f.lchip ok)).onPart q (fun x => { x with passed := if ok then f.lchip :: x.passed else x.passed })
  | none => s

/-- LOAD of an image that may be formed now (R333): every refusal, then the partition, waiting for plan frame 0. -/
def State.loadPlan (s : State) (img : List Byte) : Except Nat (PartId × State) :=
  let q : PartId := Fin.ofNat 8 (storyPart (storyHeader img))
  match partOfImage s img with
  | .error e => .error e
  | .ok p =>
    if s.rateOk p = false then .error 53
    else
      match s.readPlan q img p with
      | .error e => .error e
      | .ok (t, links) =>
        let u := (t.takePlan q img links).sendTables q
        if (u.part q).awaiting ≠ [] then .ok (q, u) else if u.podPasses q = false then .error 317 else .ok (q, u.sendCheck q true)

/-- A pod plan that this chip refuses: the other yards learn it by tables without descriptors, and refuse theirs (R317). -/
def State.refusePod (s : State) (img : List Byte) : State :=
  match (imgFabric img).map fabricFields with
  | none => s
  | some f =>
    if imageOk img then
      let s1 : State := { s with yard := { s.yard with podTables := [] } }
      s1.sendAll 0 f (.tables f.lchip ⟨[], []⟩)
    else s

end Sys2Proof.Machine
end

