-- ==== Sys2Proof/Machine/Parity.lean ====
section
/-!
DEFINITION. The safe tier of a pod plan: the protected memory of a logical chip and its units (R323), the stripes of a parity group and
their XOR (R324), the parity of a checkpoint (R325), and the rebuilding of a lost chip's units (R327).
-/

namespace Sys2Proof.Machine

/-! ## Units and stripes (R323, R324) -/

/-- The pod plan of this chip, by its fabric header: none where no pod plan is loaded. -/
def State.podHeader (s : State) : Option FabHeader := s.parts.toList.findSome? (fun p => p.fab)

/-- The lowest partition of the pod plan, which sends for the yard. -/
def State.podPart (s : State) : Option PartId := (List.finRange 8).find? (fun q => (s.part q).fab.isSome)

/-- The bents of the pod plan's partitions, ascending. -/
def State.podBents (s : State) : List (Fin 8) :=
  (List.finRange 8).filter (fun t => s.parts.toList.any (fun p => p.fab.isSome && p.hdr.bents.getLsbD t.val))

/-- Protected frames of a bent: those outside the reservation, of a sliced chip the context's half (R323, log 84). -/
def State.protectedFrames (s : State) (f : FabHeader) : Nat :=
  if s.chipSliced (some f) then (bentFrames - reservedFrames) / 2 else bentFrames - reservedFrames

/-- The unit that a frame of a bent is: none outside the protected memory (R323). -/
def State.unitOf (s : State) (f : FabHeader) (t : Fin 8) (frame : Nat) : Option Nat :=
  if frame < s.protectedFrames f then (s.podBents.findIdx? (fun b => decide (b = t))).map (fun i => i * s.protectedFrames f + frame)
  else none

/-- The bent and frame of a unit of the protected memory (R323). -/
def State.unitPlace (s : State) (f : FabHeader) (u : Nat) : Option (Fin 8 × Nat) :=
  (s.podBents[u / s.protectedFrames f]?).map (fun t => (t, u % s.protectedFrames f))

/-- The bent and frame of a reservation unit: the reserved frames in ascending bent and then frame (log 99). -/
def State.reservePlace (s : State) (n : Nat) : Option (Fin 8 × Nat) :=
  (s.podBents[n / reservedFrames]?).map (fun t => (t, bentFrames - reservedFrames + n % reservedFrames))

/-- The member on which the parity of unit u of member g lies (R324). -/
def parityMember (g u : Nat) : Nat := (g + u % 7 + 1) % 8

/-- The reservation unit at which the parity of unit u lies (R324). -/
def stripeOf (u : Nat) : Nat := u / 7

/-- The unit of member g in the stripe whose parity is reservation unit n of member h (R324). -/
def memberUnit (h g n : Nat) : Nat := 7 * n + (h + 15 - g) % 8

/-- The member of its parity group that a chip is (R323). -/
def memberOf (chip : Nat) : Nat := chip % 8

/-- A member of the parity group of a chip. -/
def groupChip (chip member : Nat) : Nat := chip / 8 * 8 + member

/-! ## Frames and their XOR -/

/-- The bytes of a frame of a bent that are not zero, by address within the frame. -/
def State.frameCells (s : State) (t : Fin 8) (frame : Nat) : List (Nat × Byte) :=
  Mem.copyRange (s.lpddr.get t) (frame * 65536) 65536 [] 0

/-- The XOR of bytes into a store from an address on (R324). -/
def Mem.xorAll (m : Mem) (a : Nat) (cells : List (Nat × Byte)) : Mem :=
  cells.foldl (fun acc c => Mem.write acc (a + c.1) (Mem.read acc (a + c.1) ^^^ c.2)) m

/-- Frames of a bent that hold a byte that is not zero. -/
def State.usedFramesOf (s : State) (t : Fin 8) : List Nat := ((s.lpddr.get t).map (fun c => c.1 / 65536)).eraseDups

/-- The units of this chip that are not all zero, or whose frame is dirty: number, bytes, dirty bit. Units of zeros change no XOR. -/
def State.ownUnits (s : State) (f : FabHeader) : List (Nat × List (Nat × Byte) × Bool) :=
  s.podBents.flatMap (fun t =>
    ((s.usedFramesOf t ++ (s.dirty.filter (fun d => decide (d.1 = t.val))).map (fun d => d.2)).eraseDups).filterMap (fun k =>
      (s.unitOf f t k).map (fun u => (u, s.frameCells t k, s.dirty.contains (t.val, k)))))

/-- The units of this chip's reservation that are not all zero. -/
def State.ownParity (s : State) : List (Nat × List (Nat × Byte)) :=
  s.podBents.zipIdx.flatMap (fun x =>
    ((s.usedFramesOf x.1).filter (fun k => decide (bentFrames - reservedFrames ≤ k))).map (fun k =>
      (x.2 * reservedFrames + (k - (bentFrames - reservedFrames)), s.frameCells x.1 k)))

/-- A message of a unit of 64 KiB in the 0x40 slots (R324). -/
def State.sendUnit (s : State) (q : PartId) (f : FabHeader) (chip : Nat) (m : Msg) : State :=
  s.sendBy .bulk q 0 (flitsFor (msgPayload m)) f chip m

/-! ## The parity of a checkpoint (R324, R325) -/

/-- The reservation of the pod plan's bents cleared: the chip has stopped for a checkpoint, and the units of its group will come. -/
def State.clearReserve (s : State) : State :=
  { s with lpddr := .ofFn (fun t =>
      if s.podBents.contains t then
        (s.lpddr.get t).filter (fun c => decide (c.1 < (bentFrames - reservedFrames) * 65536) || decide (bentFrames * 65536 ≤ c.1))
      else s.lpddr.get t) }

/-- Every chip of the pod has stopped: each sends its units to the members that hold their parity (R324, R325). -/
def State.sendParity (s : State) : State :=
  match s.podHeader, s.podPart with
  | some f, some q =>
    (s.ownUnits f).foldl (fun acc x =>
      acc.sendUnit q f (groupChip f.lchip (parityMember (memberOf f.lchip) x.1)) (.unit true (stripeOf x.1) x.2.1 false)) s
  | _, _ => s

/-! ## The rebuilding of a lost chip (R327) -/

/-- What a survivor of the lost chip's group sends for it, once it is remapped: its own units of the lost chip's stripes with their dirty
bits, and the parity that lies on it, as they are before the remapping. -/
def State.sendRebuild (s before : State) (lost : Nat) : State :=
  match s.podHeader, s.podPart with
  | some f, some q =>
    let g := memberOf f.lchip
    let l := memberOf lost
    if f.lchip / 8 ≠ lost / 8 ∨ f.lchip = lost then s
    else
      let s1 := (before.ownUnits f).foldl (fun acc x =>
        let h := parityMember g x.1
        if h = l then acc
        else acc.sendUnit q f lost (.unit false (memberUnit h l (stripeOf x.1)) x.2.1 x.2.2)) s
      before.ownParity.foldl (fun acc x => acc.sendUnit q f lost (.unit false (memberUnit g l x.1) x.2 false)) s1
  | _, _ => s

/-- A unit arrives: it is taken into the parity at its reservation unit, or into the unit that is rebuilt (R324, R327). -/
def State.takeUnit (s : State) (parity : Bool) (u : Nat) (cells : List (Nat × Byte)) (dirty : Bool) : State :=
  let l := cells.filter (fun c => decide (c.1 < 65536))
  if parity then
    match s.reservePlace u with
    | some (t, k) => { s with lpddr := s.lpddr.set t.val (Mem.xorAll (s.lpddr.get t) (k * 65536) l) t.isLt }
    | none => s
  else
    let former : Mem × Bool := assocGet ([], false) s.rebuild u
    { s with rebuild := (u, Mem.xorAll former.1 0 l, former.2 || dirty) :: s.rebuild.filter (fun x => decide (x.1 ≠ u)) }

/-- The units of this logical chip's memory that were rebuilt, in place: nothing else of it is left (R327). -/
def State.putUnits (s : State) (f : FabHeader) : State :=
  { s with lpddr := (s.rebuild.filter (fun x => !x.2.2)).foldl (fun acc x =>
      match s.unitPlace f x.1 with
      | some (t, k) => acc.set t.val (Mem.copyRange x.2.1 0 65536 (acc.get t) (k * 65536)) t.isLt
      | none => acc) (.replicate 8 []) }

/-- An entry after its chip was rebuilt: a page of which some unit was not has no backing (R327). -/
def State.rebuiltEntry (s : State) (f : FabHeader) (e : TTEntry) : TTEntry :=
  let ph := tePhys e.raw
  let broken := s.rebuild.any (fun x => x.2.2 && (match s.unitPlace f x.1 with
    | some (t, k) => decide (physBent ph = t.val) && decide (nbits ph 0 21 ≤ k) && decide (k < nbits ph 0 21 + teSize e.raw / 65536)
    | none => false))
  if teValid e.raw && decide (teTier e.raw = 4) && broken then { e with raw := e.raw &&& ~~~(2 : BitVec 128), backed := false } else e

/-- The memory of this logical chip as it was rebuilt (R327). -/
def State.rebuildOwn (s : State) (f : FabHeader) : State :=
  { (s.putUnits f) with
    parts := s.parts.map (fun p => if p.fab.isSome then { p with tt := p.tt.map (s.rebuiltEntry f) } else p) }

end Sys2Proof.Machine
end

