-- ==== Sys2Proof/Machine/Recover.lean ====
section
/-!
DEFINITION. Rollback and what follows from it (R184, R185, R203, R291 to R296, R301), pre-emption (R57 to R60, R303, R304), and the
checkpoints and recovery of a pod plan (R307, R325, R327).
-/

namespace Sys2Proof.Machine

/-! ## The stall of a rollback (R291) -/

/-- Cycles of a bay from its witness to now (R291): pole cycles, and those in which it issued during holds (R468). -/
def State.sinceWitness (s : State) (b : BayId) : Nat :=
  let w := (s.bay b).window
  ((s.now b : Int) - (w.openT + w.openLead)).toNat

/-- Clock cycles of the stall of a bay's rollback in the present pole cycle (R291). -/
def State.stallLen (s : State) (b : BayId) : Nat := 2 * (64 + s.sinceWitness b) + 16

/-- The stall of a bay's rollback begins with the end of this pole cycle, to be told by one slip record (R45, R291, R294). -/
def State.beginStall (s : State) (q : PartId) (b : BayId) (n : Nat) : State :=
  let x := s.bayStop b 1
  s.onPart q (fun p => { p with
    stall := max p.stall n
    stallStops := if p.stallStops.any (fun y => decide (y.slip.bay = b.val)) then p.stallStops
      else p.stallStops ++ [{ x with clock := s.clock + p.k }] })

/-- A page was brought in the stall of a bay (R45). -/
def Part.notePage (p : Part) (b : BayId) : Part :=
  { p with stallStops := p.stallStops.map (fun y => if y.slip.bay = b.val then { y with slip := { y.slip with kind := 2 } } else y) }

/-! ## Outcomes (R293, R301) -/

/-- A fault of a bay that runs no task, which has none to trap or to retire: it is recorded alone (log 104). -/
def State.noTask (s : State) (b : BayId) : Bool := decide ((s.bay b).mode ≠ .running)

/-- The trap entry of a fault handled by rollback, at the end of the cycle (R293, R297, R301): TBUNDLE is the bundle's code address,
and a free value for a fault of no bundle. -/
def State.trapAfter (s : State) (b : BayId) (p : Pending) (repeated : Bool) (cls : Nat) : State :=
  let w : Word × State :=
    match p.code with
    | some c => (BitVec.ofNat 64 c, s)
    | none => s.freeWord
  if w.2.noTask b then w.2.logFault b 2 cls (causeCode p.fault.cause) p.fault.info
  else
    let active := (s.bay b).handlerActive
    let pad := (s.bay b).padE
    let s1 := w.2.takeTrap b p.fault repeated cls w.1
    let s2 := s1.onBay b (fun x => { x with closing := .none })
    if active = false ∧ pad = true ∧ cls = 2 then s2.logFault b 4 cls (causeCode p.fault.cause) p.fault.info else s2

/-- The pending fault of a bay is over. -/
def State.settled (s : State) (b : BayId) : State := s.onBay b (fun x => { x with pending := none })

/-- Restarts of the rollback of a bay in the present pole cycle: none before its page has been brought once (R293). -/
def Part.restartsOf (p : Part) (b : BayId) : Option Nat := (p.resuming.find? (fun r => decide (r.1 = b))).map (fun r => r.2)

/-- The yard cannot bring a page: trap entry with CLASS 3 (R301). The pole cycle ends with the stall. -/
def State.escalate (s : State) (q : PartId) (b : BayId) (p : Pending) : State :=
  (((s.beginStall q b (s.stallLen b)).trapAfter b p false 3).settled b).onPart q (fun y => { y with
    resuming := y.resuming.filter (fun r => decide (r.1 ≠ b)) ++ [(b, 0)] })

/-- A translation fault (R203, R293): its page is asked of the yard, which for a STIER 6 page is a request of the device's side (R211); a page
without a backing location, or the need of a 17th restart, escalates. The page of the fault itself is brought before the reruns and is no
restart; one that the reruns of a hardware fault ask for is. -/
def State.askPage (s : State) (q : PartId) (b : BayId) (p : Pending) : State :=
  let part := s.part q
  match findEntry part.tt (vaNat p.fault.info) with
  | none => s.escalate q b p
  | some (x, e) =>
    let n : Nat := match part.restartsOf b with
      | some k => k + 1
      | none => if p.hw.isSome then 1 else 0
    let backed := match part.tt[x]? with
      | some y => y.backed
      | none => false
    if 16 < n ∨ backed = false then s.escalate q b p
    else (s.beginStall q b 0).onPart q (fun y => { y with
      bringing := y.bringing ++ [(x, b, n)]
      walkerWants := if teStier e = 6 then y.walkerWants ++ [(x, y.framec)] else y.walkerWants })

/-- A bay reruns: what it met in this cycle is made again at the end of its stall (R291, R293). -/
def State.rerun (s : State) (q : PartId) (b : BayId) (n : Nat) : State :=
  (s.beginStall q b (s.stallLen b)).onPart q (fun p => { p with
    resuming := p.resuming.filter (fun r => decide (r.1 ≠ b)) ++ [(b, n)] })

/-- What the stall of a bay still lasts: nothing more where its reruns have been made after a page came. -/
def State.stallLeft (s : State) (q : PartId) (b : BayId) : Nat := if ((s.part q).restartsOf b).isSome then 0 else s.stallLen b

/-- A fault of the program handled by rollback: the reruns agree on it, a schedule error (R293). -/
def State.softRollback (s : State) (q : PartId) (b : BayId) (p : Pending) : State :=
  if p.fault.cause = .translation then s.askPage q b p
  else if p.retry.isSome then s.rerun q b 0
  else (((s.beginStall q b (s.stallLeft q b)).trapAfter b p true 2).settled b)

/-! ## Hardware faults (R184, R185, R197, R293, R296) -/

/-- The physical bay that a logical bay runs on (R51). -/
def State.physAt (s : State) (b : BayId) : Fin 208 :=
  Fin.ofNat 208 (26 * (bentOf b).val + bits (s.remapEntry b) 0 5)

/-- A function applied to a physical bay. -/
def State.onPhys (s : State) (i : Fin 208) (f : Phys → Phys) : State := { s with phys := s.phys.set i.val (f (s.phys.get i)) i.isLt }

/-- The physical columns on which the logical columns of a bay lie, logical column n on the n-th that is not retired (R185). -/
def Phys.columns (x : Phys) : List Nat := ((List.range 132).filter (fun c => !x.shim.contains c)).take 128

/-- A column retired into the shim map, and logged (R185). -/
def State.retireColumn (s : State) (i : Fin 208) (c : Nat) : State :=
  (s.onPhys i (fun x => { x with shim := x.shim ++ [c] })).log (.note 185 (i.val * 256 + c))

/-- The partition reloads its plan from its image (R296); the time it stood stands in a slip record of kind 5 (R326). -/
def State.restart (s : State) (q : PartId) : State :=
  let img := (s.part q).image
  let old := (s.standStill q).part q
  match (s.dissolve q).loadPlan img with
  | .ok (r, t) => t.onPart r (fun p => { p with slips := old.slips, stop := old.stop })
  | .error e => (s.log (.note e q.val)).onPart q (fun p => { p with mode := .stopped })

/-- A bay stands at its witness, and so does the scarf context that it commands (R272, R288, R289): a command that has begun since then has
lost the landings of the window. -/
def State.rollBack (s : State) (q : PartId) (b : BayId) : State :=
  let n := (s.bay b).window.num
  let kept := (s.bay b).window.witness.bind (fun w => w.scarf)
  (s.onBay b Bay.rolledBack).onScarf q (fun c =>
    if c.bay = b.val then
      match kept with
      | some k => if k.run = c.run then k else { c with landed := c.landed.filter (fun x => decide (x.2 ≠ n)) }
      | none => { c with landed := c.landed.filter (fun x => decide (x.2 ≠ n)) }
    else c)

/-- A physical bay is retired (R293, R296): the partition stops with a record; a single-chip plan restarts from plan load, a pod plan
awaits the restart of every chip. -/
def State.retirePhys (s : State) (q : PartId) (b : BayId) (code : Nat) (info : Info) : State :=
  let s0 := s.rollBack q b
  let s1 := (s0.onPhys (s0.physAt b) (fun x => { x with healthy := false })).logFault b 9 (s.bay b).cls code info
  let s2 := (s1.halt q).onPart q (fun p => { p with remapDue := true })
  if (s.part q).fab.isNone then s2.restart q else s2

/-- A transient (R293): the second rerun's state stands, which is that of a run without the fault (R295). -/
def State.transient (s : State) (b : BayId) (code : Nat) (info : Info) : State := s.logFault b 5 (s.bay b).cls code info

/-- A partition stopped for data lost or an escape (R293): the chip of a pod plan is lost with its data (R327). -/
def State.lostData (s : State) (q : PartId) (b : BayId) (action code : Nat) (info : Info) : State :=
  let s1 := ((s.rollBack q b).logFault b action (s.bay b).cls code info).halt q
  if action = 7 then s1.selfLost q else s1

/-- A channel whose data is lost is marked for retirement, and logged (R197). -/
def State.markChannel (s : State) (ch : Nat) : State :=
  let t : Fin 8 := Fin.ofNat 8 (ch / 12)
  let x := s.bents.get t
  ({ s with bents := s.bents.set t.val { x with marked := if x.marked.contains ch then x.marked else x.marked ++ [ch] } t.isLt } : State).log
    (.note 197 ch)

/-! ## What the reruns of a hardware fault come to (R292, R293) -/

/-- A byte taken into the CRC-64 of R292, its highest bit first. -/
def crcByte (c : Word) (b : Byte) : Word :=
  (List.range 8).foldl (fun (x : Word) _ => if x.msb then (x <<< 1) ^^^ 0x42F0E1EBA9EA3693 else x <<< 1) (c ^^^ (b.setWidth 64 <<< 56))

/-- The bytes that a signature takes of an effect: cycle offset, address, length, data (R292). -/
def effectBytes (e : PassEffect) : List Byte :=
  leBytes 4 e.cycle.toNat ++ leBytes 9 e.addr.toNat ++ leBytes 1 e.data.length ++ e.data

/-- The signature of effects in their order (R292). -/
def signature (l : List PassEffect) : Word := (l.flatMap effectBytes).foldl crcByte 0

/-- The reruns agree: as many bundles, equal write signatures, and identical faults or none (R293). -/
def rerunsAgree (r : RerunEnd × RerunEnd) : Bool :=
  decide (r.1.bundles = r.2.bundles) && decide (signature r.1.writes = signature r.2.writes) && decide (r.1.fault = r.2.fault)

/-- The translation fault that either rerun takes. -/
def rerunPage (r : RerunEnd × RerunEnd) : Option Info :=
  ([r.1.fault, r.2.fault].filterMap (fun f =>
    match f with
    | some (.translation, _, i) => some i
    | _ => none)).head?

/-- What becomes of a bay after a pair of reruns (R293). -/
inductive RerunVerdict where
  | transient
  /-- A schedule error, with its cause and INFO. -/
  | schedule (c : Cause) (info : Info)
  | lost
  | page (info : Info)
  /-- A residue mismatch has recurred, on a further physical column. -/
  | column (c : Nat)
  | disagree
  | escape
deriving DecidableEq, Repr

/-- The rows of R293's table, for a window of n cycles up to tf. Its last row, on the escape signature, goes before those that let the
partition go on, and a fault of the reruns at tf that the bay takes precisely is one that it has taken (log 12). -/
def rerunVerdict (n : Nat) (escapes : List PassEffect) (r : RerunEnd × RerunEnd) : RerunVerdict :=
  match rerunPage r with
  | some i => .page i
  | none =>
    if rerunsAgree r = false then .disagree
    else
      match r.2.fault with
      | some (.residue, _, i) => .column (bits i 0 8)
      | f =>
        if signature r.1.escapes ≠ signature escapes ∨ signature r.2.escapes ≠ signature escapes then .escape
        else
          match f with
          | none => .transient
          | some (c, t, i) =>
            if t < n then .escape
            else if c = .baySram ∨ c = .lpddr then .lost
            else if handling c = .rollback then .schedule c i
            else .transient

/-- A column of the bay's matrix array is retired, and whether it is the fifth, which retires the bay (R185). A mismatch is of a logical column:
no other physical column is named (R285). -/
def State.takeColumn (s : State) (b : BayId) (c : Nat) : State × Bool :=
  let s1 := if (s.phys.get (s.physAt b)).columns.contains c then s.retireColumn (s.physAt b) c else s
  (s1, decide (5 ≤ (s1.phys.get (s1.physAt b)).shim.length))

/-- The reruns of a hardware fault in their order (R293), the stall so far being n: a pair that is not given agrees and meets no
fault, and a fault of the program that the bay met in the same cycle is handled as such. A rerun that meets the residue mismatch again
starts anew on the columns that remain, and takes the time of another double rerun (log 12). -/
def State.endReruns (s : State) (q : PartId) (b : BayId) (h : HwFault) (n : Nat) : List (RerunEnd × RerunEnd) → State
  | [] => (((s.beginStall q b n).transient b (causeCode h.cause) (h.info.setWidth 72)).settled b)
  | r :: l =>
    let code := causeCode h.cause
    let info : Info := h.info.setWidth 72
    match rerunVerdict (s.sinceWitness b) h.escapes r with
    | .transient => (((s.beginStall q b n).transient b code info).settled b)
    | .schedule c i =>
      if (s.bay b).pending.any (fun p => p.hw.isNone) then s.beginStall q b n
      else ((s.beginStall q b n).trapAfter b ⟨⟨c, i, 0, false⟩, r.2.bundle, none, none⟩ true 2).settled b
    | .lost => (if h.cause = .lpddr then s.markChannel (bits h.info 0 7) else s).lostData q b 7 code info
    | .page i =>
      if (s.bay b).pending.any (fun p => p.hw.isNone) then s.beginStall q b n
      else
        let p : Pending := ⟨⟨.translation, i, 0, false⟩, none, none, some { h with reruns := l }⟩
        (s.onBay b (fun x => { x with pending := some p })).askPage q b p
    | .column c =>
      let t := s.takeColumn b c
      if t.2 then t.1.retirePhys q b code info else t.1.endReruns q b h (n + s.stallLen b) l
    | .disagree => s.retirePhys q b code info
    | .escape => s.lostData q b 8 code info

/-- A hardware fault (R291, R293): a residue mismatch first retires its column. -/
def State.hardRollback (s : State) (q : PartId) (b : BayId) (h : HwFault) : State :=
  let t := if h.cause = .residue then s.takeColumn b (bits h.info 0 8) else (s, false)
  if t.2 then t.1.retirePhys q b (causeCode h.cause) (h.info.setWidth 72) else t.1.endReruns q b h (s.stallLeft q b) h.reruns

/-- Causes of the hardware itself (R285). -/
def hwCause (c : Cause) : Bool := decide (c = .baySram) || decide (c = .lpddr) || decide (c = .residue)

/-- ROLLBACK (R291 to R296): at the end of a pole cycle a bay's fault handled by rollback, its own or one of the hardware. -/
def execRollback (b : BayId) (hw : Option HwFault) (s : State) : Step :=
  match s.partOf b with
  | none => .next s
  | some q =>
    match hw with
    | some h => .next (if hwCause h.cause && decide ((s.part q).mode = .running) then s.hardRollback q b h else s)
    | none =>
      match (s.bay b).pending with
      | none => .next s
      | some p =>
        .next (if (s.part q).bringing.any (fun x => decide (x.2.1 = b)) || decide ((s.part q).mode ≠ .running) then s
          else match p.hw with
            | some h => s.endReruns q b h 0 h.reruns
            | none => s.softRollback q b p)

/-! ## PAGE_BRING (R203) -/

/-- A page put where its entry says that it lies (R201): in memory of this chip, by requests to the chip that has it, in the host's region,
or in flash. -/
def State.placePage (s : State) (q : PartId) (e : BitVec 128) (page : Mem) : State :=
  let n := teSize e
  match teTier e, tePlace e 0 with
  | 6, _ =>
    match s.hostAddr (tePair e) (teRemote e) n with
    | some a =>
      { (s.emit (.hostPage (tePair e) (teRemote e) n page)) with hostMem := Mem.copyRange page 0 n s.hostMem a }
    | none => s
  | 7, _ =>
    { (s.emit (.flashWrite (tePair e) (teRemote e) (Mem.readN page 0 n))) with
      flash := assocSet [] s.flash (tePair e) (Mem.copyRange page 0 n (s.flashOf (tePair e)) (teRemote e)) }
  | _, .ring t o => { s with ring := s.ring.set t.val (Mem.copyRange page 0 n (s.ring.get t) o) t.isLt }
  | _, .lpddr t a => { s with lpddr := s.lpddr.set t.val (Mem.copyRange page 0 n (s.lpddr.get t) a) t.isLt }
  | _, .chip c t pa =>
    match (s.part q).fab with
    | some f => (List.range (n / 65536)).foldl (fun acc k => acc.remoteSend q 0 f c (.tier5
        ⟨f.lchip, 255, none, 0, 0, 0, Fin.ofNat 8 t, pa + 65536 * k, .write (Mem.readN page (65536 * k) 65536)⟩)) s
    | none => s

/-- The bytes of a page from its backing location, with those that stand elsewhere now, put at its place; its entry becomes
PRESENT. -/
def State.bringPage (s : State) (q : PartId) (x : Nat) (e : BitVec 128) (cells : List (Nat × Byte)) : State :=
  let n := teSize e
  let page := Mem.writeAll (Mem.copyRange (s.part q).backing (x * 2 ^ 36) n [] 0) (cells.filter (fun c => decide (c.1 < n)))
  let s1 := s.placePage q e page
  s1.onPart q (fun p => { p with tt := p.tt.zipIdx.map (fun y => if y.2 = x then { y.1 with raw := y.1.raw ||| 2 } else y.1) })

/-- The pending fault of a bay, or a translation fault of no bundle. -/
def State.pendingOf (s : State) (b : BayId) : Pending := ((s.bay b).pending).getD ⟨⟨.translation, 0, 0, false⟩, none, none, none⟩

/-- PAGE_BRING (R203, R293, R301): the page of an entry that bays wait for is there, and they rerun; or its backing location answers
with an error, and they enter their trap entry. -/
def execPageBring (q : PartId) (x : Nat) (page : Option (List (Nat × Byte))) (s : State) : Step :=
  let p := s.part q
  let mine := p.bringing.filter (fun y => decide (y.1 = x))
  match mine, p.tt[x]? with
  | [], _ => .next s
  | _ :: _, none => .next s
  | _ :: _, some e =>
    let s1 := s.onPart q (fun y => { y with bringing := y.bringing.filter (fun z => decide (z.1 ≠ x)) })
    match page with
    | none => .next (mine.foldl (fun acc y => acc.escalate q y.2.1 (s.pendingOf y.2.1)) s1)
    | some cells =>
      .next (mine.foldl (fun acc y => (acc.rerun q y.2.1 y.2.2).onPart q (fun z => z.notePage y.2.1)) (s1.bringPage q x e.raw cells))

/-! ## Pre-emption (R57 to R60, R303, R304) -/

/-- The control state of a partition that a checkpoint keeps. -/
def State.snap (s : State) (q : PartId) : Snapshot :=
  let p := s.part q
  ⟨p.framec, p.polec, p.wheel, p.entries, p.regions, p.full, p.slipw, p.nextWalk,
    p.rds.map (fun d => (d.slot.val, (s.router.get d.slot).round))⟩

/-- The state of a partition that is pre-empted is saved (R59, R304); a checkpoint that it has stays (R325). -/
def State.keepPart (s : State) (q : PartId) : State :=
  let p := s.part q
  s.onPart q (fun y => { y with
    mode := .preempted
    saved := s.saveBays q
    savedRing := s.saveRing q
    stop := some (s.stopNow p.framec p.polec 5) })

/-- Frames of 64 KiB that hold what is saved of a bent: ring SRAM, and for each of 24 bays scratchpad, operand SRAM, handles and the
rest (R304, log 85). -/
def saveFrames : Nat := 512 + 24 * (32 + 16 + 48 + 1)

/-- The frame ranges of a bent that the plans which wait for a partition's bents name in their translation entries. -/
def State.wantedFrames (s : State) (q : PartId) (t : Fin 8) : List (Nat × Nat) :=
  (s.yard.planq.filter (fun w => (s.asks w.image).contains q)).flatMap (fun w =>
    match tableOf w.image (memHeader w.image) with
    | some tt => ({ Part.reset with tt := tt } : Part).heldFrames t
    | none => [])

/-- The save area of a partition that is pre-empted or checkpointed: the lowest free frames of each of its bents that no plan names (R304,
R325). -/
def State.saveArea (s : State) (q : PartId) : List (Fin 8 × Nat × Nat) :=
  let p := s.part q
  ((List.finRange 8).filter (fun t => p.hdr.bents.getLsbD t.val)).filterMap (fun t =>
    (freeRun p saveFrames (s.usedFrames t ++ s.wantedFrames q t)).map (fun a => (t, a, saveFrames)))

/-- The state of a partition at a checkpoint is saved (R325), into protected frames that its first checkpoint takes (log 85); its parity is
still to be written. -/
def State.keepCheckpoint (s : State) (q : PartId) : State :=
  let p := s.part q
  s.onPart q (fun y => { y with
    mode := .checkpointed
    checkpoint := some ⟨s.snap q, s.saveBays q, s.saveRing q⟩
    ckArea := if p.ckArea = [] then s.saveArea q else p.ckArea
    ckParity := true
    stop := some (s.stopNow p.framec p.polec 5) })

/-- PREEMPTION (R58): a partition of which pre-emption is requested stops at a pre-emption point. -/
def execPreemption (q : PartId) (s : State) : Step :=
  if (s.part q).preempt ∧ (s.part q).mode = .running ∧ s.preemptPoint q = true then
    let s1 := (s.keepPart q).onPart q (fun p => { p with preempt := false, saveArea := s.saveArea q })
    .next ((s1.dropTouches q).quietBays (s.part q).hdr.bents)
  else .next s

/-- A clock cycle is a nominal frame start of a partition: frames of its length counted from the instant of EPOCH (R60, R314, log 86). -/
def State.frameStartAt (s : State) (p : Part) (clock : Nat) : Bool :=
  decide (p.podCycle clock % (p.frameLen * s.rateOf p : Nat) = 0)

/-- What keeps a pre-empted partition from its bents is gone (R58, R60): they are free and healthy. -/
def State.resumable (s : State) (p : Part) : Bool :=
  decide (p.mode = .preempted) && decide (s.holders p.hdr.bents = []) && s.bentsHealthy p.hdr.bents

/-- A waiting plan of higher priority takes bents of a pre-empted partition before it (R58). -/
def State.outranked (s : State) (p : Part) : Bool :=
  s.yard.planq.any (fun w => decide (p.hdr.prio < w.prio) && decide (storyBents (storyHeader w.image) &&& p.hdr.bents ≠ 0)
    && decide (s.forming w.image = .now))

/-- A partition runs on with k clock cycles to a pole cycle: a slip record of kind 4 will tell of a change (R45, R52). -/
def Part.atRate (p : Part) (k ptp : Nat) : Part :=
  { p with k := k, slips := if k = p.k then p.slips else p.slips ++ [⟨p.framec, p.polec, 0xFF, 0, 4, false, k, ptp⟩] }

/-- PREEMPTION_RESUME (R60): the partition goes on in the next clock cycle, a nominal frame start, with its pole clock as saved. Its code
comes from its image (R304); what it did before its pre-emption is ordered before what it does from now on, its marks having been
dropped then (R219). Where its bents are sliced now it runs so from here, with a record of kind 4, if it may (R45, R52, R53). -/
def execPreemptionResume (q : PartId) (s : State) : Step :=
  let p := s.part q
  if s.resumable p = true ∧ s.outranked p = false ∧ s.frameStartAt p (s.clock + 1) = true then
    if s.rateOk p = false then .next (s.stopFor q 53)
    else
      let s1 := (((s.dropClocks q).quietBays p.hdr.bents).restoreBays p.saved).loadCode p.image [] ((imgCode p.image).map codeRec)
      .next ((s1.restoreRing p.savedRing).onPart q (fun x =>
        let y := (x.endStop (s.clock + 1)).atRate (s.rateOf p) s.ptp
        { y with mode := .running, saved := [], savedRing := [], saveArea := [], remapDue := s.remapStale p.hdr.bents }))
  else .next s

/-! ## Checkpoints (R325) -/

/-- A partition stops for a checkpoint at its first pre-emption point (R325). -/
def State.checkpointPart (s : State) (q : PartId) : State :=
  if (s.part q).ckDue ∧ (s.part q).mode = .running ∧ s.preemptPoint q = true then s.keepCheckpoint q else s

/-- Every partition of a pod plan that has a checkpoint due has stopped for it. -/
def State.allStopped (s : State) : Bool :=
  s.parts.toList.any (fun p => decide (p.mode = .checkpointed)) && s.parts.toList.all (fun p => !p.ckDue || decide (p.mode = .checkpointed))

/-- CHECKPOINT (R325): partitions stop at their pre-emption points; with the last the chip's reservation awaits its parity. -/
def execCheckpoint (s : State) : Step :=
  let s1 := (List.finRange 8).foldl (fun acc q => acc.checkpointPart q) s
  .next (if s1.allStopped && !s.allStopped then s1.clearReserve else s1)

/-- The pod offset after a stop of every chip (R325, R327): it takes in the time that the pole clocks stood, so that no decision
instant lies in it (log 47). -/
def PodTime.caughtUp (t : PodTime) (p : Part) (clock : Nat) : PodTime :=
  { t with offset := max t.offset (p.podCycle clock - (p.time * p.k : Nat)).toNat, reports := [] }

/-- A partition that may go on after a checkpoint or a recovery does so in the next clock cycle, a common frame start (R325, log 86): its
time stopped will stand in a slip record of kind 5. -/
def State.resumePart (s : State) (q : PartId) : State :=
  let p := s.part q
  if p.mode = .checkpointed ∧ p.ckGo = true ∧ s.frameStartAt p (s.clock + 1) = true then
    s.onPart q (fun x => { x.endStop (s.clock + 1) with
      mode := .running, ckDue := false, ckGo := false, pod := x.pod.caughtUp x (s.clock + 1) })
  else s

/-- CHECKPOINT_RESUME (R325): parity is written, and all chips are to resume; the dirty map is cleared by a checkpoint, not by a recovery,
which writes no parity. -/
def execCheckpointResume (s : State) : Step :=
  if s.allStopped then
    .next { s with
      dirty := if s.parts.toList.any (fun p => p.ckParity) then [] else s.dirty
      parts := s.parts.map (fun p => if p.mode = .checkpointed then { p with ckGo := true, ckParity := false } else p) }
  else .next s

/-! ## Recovery of a pod plan (R296, R307, R327) -/

/-- The chip that takes a lost one (R307): the lowest logical id of its parity group that is healthy and unsliced. -/
def State.takerOf (s : State) (f : FabHeader) (lost : Nat) : Option Nat :=
  ((List.range 8).map (groupChip lost)).find? (fun c =>
    decide (c ≠ lost) && decide (c < f.nlchip) && !s.yard.lost.contains c && !(s.chipEntry f c).getLsbD 15)

/-- The chip remap table after a loss (R307). -/
def State.remapChip (s : State) (f : FabHeader) (lost taker : Nat) : State :=
  let ph := s.physOf f taker
  let first := assocSet (BitVec.ofNat 16 (f.home taker)) s.chipmap taker (BitVec.ofNat 16 (2 ^ 15 + ph))
  { s with chipmap := assocSet (BitVec.ofNat 16 (f.home lost)) first lost (BitVec.ofNat 16 (2 ^ 15 + 2 ^ 14 + ph)) }

/-- The control state of a partition as a checkpoint has it (R327); walks that began later are gone. -/
def Part.asAt (p : Part) (n : Snapshot) : Part :=
  { p with
    framec := n.framec, polec := n.polec, wheel := n.wheel, entries := n.entries, regions := n.regions, full := n.full
    asyncs := p.asyncs.filter (fun w => decide (w.id < n.nextWalk))
    traffic := p.traffic.filter (fun x => decide (x.code = 0xF0))
    starting := false, half := 0, holding := [], holdStops := [], stall := 0, stallStops := [], bringing := [], resuming := []
    claims := [], gatesDue := [], ckDue := false, ckGo := false, ckParity := false }

/-- A partition of a pod plan from its checkpoint (R327): bays, ring SRAM and control state as saved, SHOP and rate as the chip remap
table now gives, with a record of a new rate, and every slot's router at the round that it had come to (R320); it awaits the common frame
start, and reports of the other chips from now on (R315). -/
def State.fromCheckpoint (s : State) (q : PartId) (c : Checkpoint) : State :=
  let p := s.part q
  let s1 := (((s.standStill q).quietBays p.hdr.bents).restoreBays c.bays).restoreRing c.ring
  let s2 : State := { s1 with
    scarf := s1.scarf.set q.val .reset q.isLt
    router := p.rds.foldl (fun acc d => acc.set d.slot.val ⟨0, assocGet 0 c.snap.rounds d.slot.val, [], []⟩ d.slot.isLt) s1.router }
  (s2.dropTouches q).onPart q (fun x => { ((x.asAt c.snap).atRate (s.rateOf x) s.ptp).hearAll s.clock with
    mode := .checkpointed, tt := x.tt.map (s.hopped x.fab) })

/-- A pre-empted partition of a pod plan restarts when it resumes (R327): what it has saved is what its checkpoint saved. -/
def State.savedFromCheckpoint (s : State) (q : PartId) (c : Checkpoint) : State :=
  s.onPart q (fun x => { x.asAt c.snap with saved := c.bays, savedRing := c.ring, tt := x.tt.map (s.hopped x.fab) })

/-- A partition of a pod plan restarts (R296, R327). -/
def State.recoverPart (s : State) (q : PartId) (r : Recovery) : State :=
  let p := s.part q
  match p.fab with
  | none => s
  | some f =>
    match p.mode, p.checkpoint with
    | .unformed, _ => s
    | .preempted, some c => s.savedFromCheckpoint q c
    | .preempted, none => s
    | _, ck =>
      if r.lost < f.nlchip ∧ p.ckParity = true then s.stopFor q 327
      else if s.rateOk p = false then s.stopFor q 308
      else
        match ck with
        | some c => s.fromCheckpoint q c
        | none => s.restart q

/-- POD_RECOVERY (R296, R327): the yards remap a lost chip, its units are rebuilt, and every chip restarts from the latest
checkpoint, or from plan load without one. Values on their way between chips are gone. -/
def execPodRecovery (r : Recovery) (s : State) : Step :=
  match s.podHeader with
  | none => .next s
  | some f =>
    let s0 : State := { s with arrivals := [], links := s.links.map (fun l => { l with waiting := [] }) }
    let every (t : State) : State := (List.finRange 8).foldl (fun acc q => acc.recoverPart q r) t
    if r.lost < f.nlchip then
      match s.takerOf f r.lost with
      | none => .next ((List.finRange 8).foldl (fun acc q => if (acc.part q).fab.isSome then acc.stopFor q 307 else acc) s0)
      | some c =>
        let s2 := every (if r.lost = f.lchip then (s0.rebuildOwn f).remapChip f r.lost c
          else (s0.remapChip f r.lost c).sendRebuild s0 r.lost)
        .next { s2 with rebuild := [], yard := { s2.yard with lost := s2.yard.lost.filter (fun x => decide (x ≠ r.lost)) } }
    else .next (every s0)

end Sys2Proof.Machine
end

