-- ==== Sys2Proof/Machine/Fabric.lean ====
section
/-!
DEFINITION. The fabric: router slots and their nodes, decisions and deliveries (R318 to R321, R358), tier 5 requests at their home
(R312), flits and their numbers (R311), PTP event messages (R313), and the pod-wide checks of a load (R317).
-/

namespace Sys2Proof.Machine

/-! ## Reduction slots and ports (R310, R316, R318) -/

/-- The partition and descriptor of a reduction slot on this chip. -/
def State.slotOf (s : State) (slot : Fin 64) : Option (PartId × RDesc) :=
  (List.finRange 8).findSome? (fun q =>
    if (s.part q).formed then ((s.part q).rds.find? (fun d => decide (d.slot = slot))).map (fun d => (q, d)) else none)

/-- A router slot replaced. -/
def State.onRouter (s : State) (slot : Fin 64) (f : RSlot → RSlot) : State :=
  { s with router := s.router.set slot.val (f (s.router.get slot)) slot.isLt }

/-- The level of the root above the base level (R156, R170); the sole value of a broadcast is its root. -/
def RDesc.top (d : RDesc) : Nat := if d.bc then 0 else bitlen ((d.n : Int) - 1)

/-- A value that leaves for another chip waits at its port for the flit times of its slot (R310, R318); its partition is the one that owns
such an entry of the port. -/
def State.enqueueValue (s : State) (port : Port) (dest : Nat) (v : NodeVal) : State :=
  match (List.finRange 8).find? (fun q => (List.range (s.part q).linkLen).any (fun i =>
      decide (s.linkPart port i = q.val) && decide (s.linkUse port i = v.slot.val))) with
  | some q => s.enqueue port (.slot v.slot) q 0 (.flits dest (.node v) 0 (flitsOf v.elems.length v.w))
  | none => s.log (.note 318 v.slot.val)

/-- The context of the nodes of a slot (R156, R361). -/
def RDesc.ctx (d : RDesc) (seed : Word) : NodeCtx := ⟨d.nodeMode, d.width, d.stream, seed⟩

/-- The parent of two children of a node, or of one whose sibling does not exist (R154, R156, R318). -/
def formNode (d : RDesc) (v : NodeVal) (other : Option NodeVal) : NodeVal :=
  match other with
  | none => { v with lev := v.lev + 1, j := v.j / 2 }
  | some w =>
    let l := if v.j % 2 = 0 then v else w
    let r := if v.j % 2 = 0 then w else v
    let z := node2 (d.ctx l.seed) (d.b0 + v.lev + 1) (v.j / 2) ⟨l.elems, l.exp⟩ ⟨r.elems, r.exp⟩
    { l with
      lev := v.lev + 1, j := v.j / 2, elems := z.1.elems, exp := z.1.exp
      sat := l.sat || r.sat || z.2, heads := l.heads ++ r.heads }

/-- A value is held by a router slot. -/
def RSlot.has (r : RSlot) (round lev j : Nat) : Option NodeVal :=
  r.held.find? (fun v => decide (v.round = round) && decide (v.lev = lev) && decide (v.j = j))

/-- A counter of 16 bits at a place of the status register, one up and saturating (R321). -/
def bumpAt (x : BitVec 64) (lo : Nat) : BitVec 64 := setBits x lo 16 (min 65535 (bits x lo 16 + 1))

/-- The chip whose router a value of a round goes to: that of its parent node, or of the root (R318). -/
def RDesc.goesTo (d : RDesc) (v : NodeVal) : Nat :=
  if d.top ≤ v.lev then d.chips.getD 0 0 else parentChip d.chips v.lev v.j

/-- A value at this chip's router (R318, R320): it moves on towards the chip of its parent; at that chip, or where that is the other logical
chip of a sliced one, a late or repeated one is counted and discarded, another is taken, and forms its parent if its sibling is there or
absent. -/
def State.routeValue (s : State) (q : PartId) (d : RDesc) : Nat → NodeVal → State
  | 0, _ => s
  | fuel + 1, v =>
    match (s.part q).fab with
    | none => s
    | some f =>
      let dest := d.goesTo v
      match f.firstPort (s.physOf f f.lchip) (s.physOf f dest) with
      | some port => s.enqueueValue port dest v
      | none =>
        let r := s.router.get d.slot
        if v.round < r.round then s.onRouter d.slot (fun x => { x with status := bumpAt x.status 32 })
        else if (r.has v.round v.lev v.j).isSome then s.onRouter d.slot (fun x => { x with status := bumpAt x.status 48 })
        else
          let s1 := s.onRouter d.slot (fun x => { x with held := v :: x.held })
          if d.top ≤ v.lev then s1
          else
            let sib := if v.j % 2 = 0 then v.j + 1 else v.j - 1
            let other := r.has v.round v.lev sib
            if nodeExists d.n v.lev sib ∧ other.isNone = true then s1
            else s1.routeValue q d fuel (formNode d v other)

/-- A value reaches this chip's router from a port or from a command of the chip (R318); one of a slot that the plan of this logical chip
does not use is the other's of a sliced chip (log 84). -/
def State.takeValue (s : State) (dest : Nat) (m : NodeVal) : State :=
  match s.slotOf m.slot with
  | none => s.emit (.twin dest (.node m))
  | some (q, d) => s.routeValue q d 16 m

/-- ROUTER_ARRIVAL (R318): a value of this chip reaches its own router 20 pole cycles after it was taken. -/
def execRouterArrival (m : NodeVal) (s : State) : Step :=
  match s.arrivals.find? (fun a => decide (a.2 = m) && decide (a.1 ≤ s.clock)) with
  | none => .next s
  | some a =>
    let s1 : State := { s with arrivals := s.arrivals.erase a }
    .next (s1.takeValue 0 m)

/-! ## Decisions (R319) -/

/-- The descriptor that leaf c must carry: node (b0, c) (R166, R319). -/
def RDesc.leafDesc (d : RDesc) (c : Nat) : BitVec 48 := BitVec.ofNat 48 (d.b0 * 2 ^ 42 + c * 2 ^ d.b0)

/-- Leaves whose contribution is refused (R319): a wrong descriptor, or outside SHIFT an exponent other than leaf 0's. -/
def RDesc.refusedLeaves (d : RDesc) (heads : List LeafHead) : List Nat :=
  let first := heads.find? (fun h => decide (h.leaf = 0))
  (heads.filter (fun h => decide (h.desc ≠ d.leafDesc h.leaf)
    || (decide (d.mode ≠ 2) && (match first with
      | some x => decide (h.exp ≠ x.exp)
      | none => false)))).map (fun h => h.leaf)

/-- The largest node below the root that is missing in the root's router (R319): its level above b0 and its first leaf (log 52). -/
def RDesc.missing (d : RDesc) (r : RSlot) (round : Nat) : Nat × Nat :=
  match d.top with
  | 0 => (0, 0)
  | l + 1 => (l, if (r.has round l 0).isNone then 0 else 2 ^ l)

/-- The decision of the root on a round (R319). -/
def RDesc.decide' (d : RDesc) (r : RSlot) (round : Nat) : Verdict :=
  let heads := (r.held.filter (fun v => decide (v.round = round))).flatMap (fun v => v.heads)
  match sortOn id (d.refusedLeaves heads), r.has round d.top 0 with
  | c :: _, _ => ⟨d.slot, round, 2, 0, c, 0, false, []⟩
  | [], some v => ⟨d.slot, round, 0, 0, 0, v.exp, v.sat, v.elems⟩
  | [], none => ⟨d.slot, round, 1, (d.missing r round).1, (d.missing r round).2, 0, false, []⟩

/-- The decision instant of a round as a pod cycle (R314, R319). -/
def State.decisionAt (s : State) (q : PartId) (f : FabHeader) (d : RDesc) (round : Nat) : Int :=
  let p := s.part q
  let del := round * 2 ^ d.pexp + d.phase + d.frames
  p.podInstant del (p.offsetAt del) + (d.doff * p.k : Nat) - ((20 + 180 * rootHops s f d.chips) * p.k : Nat)

/-- The partition takes part in rounds: it has begun frame 0 and is neither stopped nor saved away. -/
def Part.inRounds (p : Part) : Bool :=
  match p.mode with
  | .running | .idleFrame _ | .podWait => true
  | .unformed | .waiting | .preempted | .checkpointed | .stopped | .raced => false

/-- The status register after a decision (R321). -/
def decidedStatus (x : BitVec 64) (round status : Nat) : BitVec 64 := setBits (setBits x 8 24 round) 0 8 status

/-- ROUND_DECISION (R319, R320): at the decision instant the root decides and sends its verdict to every listed chip; every node of
the slot advances to the next round. -/
def execRoundDecision (q : PartId) (slot : Fin 64) (s : State) : Step :=
  let p := s.part q
  match p.fab, p.rds.find? (fun d => decide (d.slot = slot)) with
  | some f, some d =>
    let r := s.router.get slot
    if p.inRounds = true ∧ s.decisionAt q f d r.round ≤ p.podCycle s.clock then
      let next (x : RSlot) : RSlot := { x with
        round := x.round + 1, held := x.held.filter (fun v => decide (r.round < v.round)) }
      if s.physOf f (d.chips.getD 0 0) = s.physOf f f.lchip then
        let v := d.decide' r r.round
        let s1 := s.onRouter slot (fun x => next { x with
          status := decidedStatus x.status r.round v.status, verdicts := if d.chips.contains f.lchip then x.verdicts ++ [v] else x.verdicts })
        .next ((d.chips.filter (fun c => decide (c ≠ f.lchip))).foldl (fun acc c =>
          acc.sendChip f c (flitsFor (64 + v.elems.length * d.width / 8)) (.verdict v)) s1)
      else .next (s.onRouter slot (fun x => next { x with status := decidedStatus x.status r.round (bits x.status 0 8) }))
    else .next s
  | _, _ => .next s

/-! ## Delivery (R319, R358, R361) -/

/-- The status line of a round (R319). -/
def verdictLine (v : Verdict) : Nat :=
  v.round % 2 ^ 32 * 2 ^ 64 + v.missLog % 64 * 2 ^ 58 + v.missStart % 4096 * 2 ^ 46 + (v.exp % 256).toNat * 2 ^ 38
    + (if v.sat then 2 ^ 37 else 0) + v.status

/-- The bytes of a delivered result: a packed vector of the descriptor's width (R319). -/
def RDesc.resultBytes (d : RDesc) (v : Verdict) : List Byte :=
  v.elems.flatMap (fun x => leBytes (d.width / 8) (x % 2 ^ d.width).toNat)

/-- The scale registers that a COMMIT's list writes (R145, R358). -/
def commitScales (lim : Nat) (b : Bay) (l : List (BitVec 32)) : Bay :=
  l.foldl (fun acc e =>
    let i := bits e 0 8
    if bits e 8 8 = 0 ∧ i < lim then acc.setSc i (setE (acc.scAt i) (max (-127) (min 127 (asr (sbits e 16 16) 8)))) else acc) b

/-- A listed register named by a scaled write in flight (R142, R358). -/
def Bay.commitClash (b : Bay) (now : Nat) (l : List (BitVec 32)) : Option Nat :=
  (l.find? (fun e => decide (bits e 8 8 = 0) && b.scaleBusy (bits e 0 8) now)).map (fun e => bits e 0 8)

/-- A COMMIT is delivered with the result 0 (R358): the selector word toggles, the listed E are written and stepc advances. -/
def State.commitRun (s : State) (q : PartId) (b : BayId) (r : CollRun) : State :=
  let t := s.poleTime b
  let s1 := match (s.part q).vaPlace r.cmd.a0 with
    | none => s
    | some (x, pl) =>
      let w := leNat (s.readPlaceN pl 8)
      let s2 := ((s.writePlace pl (leBytes 8 (if w % 2 = 0 then w + 1 else w - 1))).markPending q x).note b pl 8 true 0 (t + 1)
        (s.seenBy b.val)
      s2.useRegion q r.cmd.a0 b.val (t + 1) (s.seenBy b.val)
  let clash := (s.bay b).commitClash (s.now b) r.list
  let lim := s.half b 256
  let s2 := s1.onBay b (fun y => { (commitScales lim y r.list) with stepc := y.stepc + 1 })
  match clash with
  | some i => s2.strayFault b .scaleBusy (BitVec.ofNat 72 i)
  | none => s2

/-- The command of a bay that contributed to a round is over (R319, R361): its peg is produced; a delivered COMMIT acts. -/
def State.collOver (s : State) (q : PartId) (v : Verdict) (b : BayId) (r : CollRun) : State :=
  let s1 := s.onBay b (fun x =>
    ({ x with colls := x.colls.filter (fun y => decide (y ≠ r)) }.produce r.cmd).keepReplay (s.poleTime b) v.status)
  if r.cmd.op = 292 ∧ v.status = 0 ∧ v.elems.getD 0 0 = 0 then s1.commitRun q b r else s1

/-- What the contributors of a round on this chip had done when their contributions were taken (R218). -/
def takenClock (runs : List (Nat × Nat × List (Nat × Nat))) : List (Nat × Nat) :=
  runs.foldl (fun acc r => joinClock acc (eventClock r.1 r.2.1 r.2.2)) []

/-- The pole cycle in which the contributions of a round are taken (R316). -/
def RDesc.takenAt (d : RDesc) (p : Part) (round : Nat) : Nat := (round * 2 ^ d.pexp + d.phase) * p.frameLen + d.coff

/-- The chips that contribute to a round: leaf 0 alone in a broadcast (R316). -/
def RDesc.givers (d : RDesc) : List Nat := if d.bc then d.chips.take 1 else d.chips

/-- What a delivered round orders (R218, R235): what its contributors on this chip and others had done when their contributions were taken,
and what landed, under its number. -/
def State.roundClock (s : State) (q : PartId) (d : RDesc) (runs : List (Nat × Nat × List (Nat × Nat))) (round tag : Nat) :
    List (Nat × Nat) :=
  let p := s.part q
  (d.givers.filter (fun c => decide (c ≠ p.lchip))).foldl (fun acc c => joinClock acc [(remoteAll c, d.takenAt p round + 1)])
    (joinClock (takenClock runs) (tagClock tag))

/-- A clock orders every party of the listed chips, as far as this chip sees them, from the next pole cycle on (R235): the bays of the
partition, the yard, the host, and the bays of the other chips. -/
def State.orderRound (s : State) (q : PartId) (d : RDesc) (v : List (Nat × Nat)) : State :=
  ((s.part q).bays.map (fun y => y.val) ++ [yardParty, hostParty 0]
    ++ (d.chips.filter (fun c => decide (c ≠ (s.part q).lchip))).map remoteAll).foldl (fun acc y => acc.joinLater y v) s

/-- The round that is delivered in a frame (R316). -/
def RDesc.deliveredIn (d : RDesc) (f : Nat) : Option Nat :=
  if d.frames + d.phase ≤ f ∧ (f - d.frames - d.phase) % 2 ^ d.pexp = 0 then some ((f - d.frames - d.phase) / 2 ^ d.pexp) else none

/-- ROUND_DELIVERY (R319): at DOFF of the delivery frame the status line and a delivered result land, the contributing command's peg
is produced, and the gate is added to. A round that was never decided delivers nothing. -/
def execRoundDelivery (q : PartId) (slot : Fin 64) (s : State) : Step :=
  let p := s.part q
  match p.rds.find? (fun d => decide (d.slot = slot)) with
  | none => .next s
  | some d =>
    match (if p.poleRuns && decide (p.polec = d.doff) then d.deliveredIn p.framec else none) with
    | none => .next s
    | some round =>
      match (s.router.get slot).verdicts.find? (fun v => decide (v.round = round)) with
      | none => .next s
      | some v =>
        let runs : List (BayId × CollRun) := p.bays.flatMap (fun b =>
          ((s.bay b).colls.filter (fun r => decide (r.slot = slot) && decide (r.round = round))).map (fun r => (b, r)))
        let s1 := s.onRouter slot (fun x => { x with verdicts := x.verdicts.filter (fun w => decide (round < w.round)) })
        let takers := runs.map (fun r => (r.1.val, r.2.taken, r.2.seen)) ++ (s1.scarfOf q).contributor d.slot.val round
        let g := (s1.join yardParty (takenClock takers)).freshTag
        let s2 := g.2.putBy q yardParty g.1 d.resva (leBytes 64 (verdictLine v))
        let s3 := if v.status = 0 then s2.putBy q yardParty g.1 (d.resva + 64) (d.resultBytes v) else s2
        let s4 := runs.foldl (fun acc r => acc.collOver q v r.1 r.2) s3
        let clock := if v.status = 0 then s1.roundClock q d takers round g.1 else tagClock g.1
        let s5 := if v.status = 0 then s4.orderRound q d clock else runs.foldl (fun acc r => acc.joinLater r.1.val clock) s4
        .next ((s5.arriveAt q yardParty d.gateva 64 clock).scarfVerdict q v)

/-! ## Tier 5 at the home chip (R312) -/

/-- PENDING of the entries whose page holds a frame of a bent (R205). -/
def State.markFrame (s : State) (q : PartId) (t : Fin 8) (frame : Nat) : State :=
  s.onPart q (fun p => { p with tt := p.tt.map (fun e =>
    let ph := tePhys e.raw
    if teValid e.raw ∧ teTier e.raw = 4 ∧ physBent ph = t.val ∧ nbits ph 0 21 ≤ frame
        ∧ frame < nbits ph 0 21 + teSize e.raw / 65536 then { e with pending := true } else e) })

/-- An answer reaches in pole cycle t the access, unit or claim of a bay that awaits it; a claim is recorded (R289, R409). -/
def Bay.takeAnswer (x : Bay) (t id : Nat) (data : List Byte) : Bay :=
  let walks := x.walks.map (fun l => l.map (fun w => { w with units := w.units.map (fun u =>
    if u.id = id then { u with answered := true, data := data } else u) }))
  let y : Bay := { x with
    acc := x.acc.map (fun a => if a.id = id then { a with answered := true, data := BitVec.ofNat 2048 (leNat data) } else a)
    walks := walks }
  if y.qputs.any (fun g => decide (g.id = id) && g.claim.isNone) then
    let w := leNat (data.take 8)
    (y.setClaim id (if w = 2 ^ 64 - 1 then none else some w) (BitVec.ofNat 512 (leNat (data.drop 8)))).keepResult t w
  else y

/-- An access of a pre-empted plan's bay awaits an answer (R59). -/
def SavedBay.awaits (v : SavedBay) (bay id : Nat) : Bool :=
  decide (v.bay = bay) && v.kept.acc.any (fun a => decide (a.id = id) && !a.answered)

/-- An answer reaches the bay that asked: the one that a pre-empted plan left, where an access of it waits, else the bay itself. -/
def State.takeAnswer (s : State) (bay id : Nat) (data : List Byte) : State :=
  if s.parts.toList.any (fun p => decide (p.mode = .preempted) && p.saved.any (fun v => v.awaits bay id)) then
    { s with parts := s.parts.map (fun p => if p.mode = .preempted then
        { p with saved := p.saved.map (fun v => if v.awaits bay id then { v with kept := v.kept.takeAnswer p.time id data } else v) }
      else p) }
  else s.onBay (Fin.ofNat 192 bay) (fun x => x.takeAnswer (s.poleTime (Fin.ofNat 192 bay)) id data)

/-- What a request does at its home, and its answer; writes and atomics have none (R262, R312). -/
def State.serveTier5 (s : State) (q : PartId) (r : Tier5Req) : State × Option (List Byte) :=
  let pl : Place := .lpddr r.bent r.pa
  let mark (t : State) : State := t.markFrame q r.bent (r.pa / 65536)
  match r.kind with
  | .read n => (s, some (s.readPlaceN pl n))
  | .write data => (mark (s.writePlace pl data), none)
  | .atomic op v => (mark (s.applyBytes (.atomic op pl v)), none)
  | .fetchAdd v =>
    let old := leNat (s.readPlaceN pl 8)
    (mark (s.writePlace pl (leBytes 8 (old + v.toNat))), some (leBytes 8 old))
  | .claim =>
    let h := s.headerAt pl
    let c := s.claimSlot pl
    let w : Nat := match c.1 with
      | some n => n
      | none => 2 ^ 64 - 1
    (mark c.2, some (leBytes 8 w ++ leBytes 64 h.toNat))

/-- A request of another chip noted at its home (R212, R221): a write or an atomic, a claim or a read, from the pole cycle that counts for
it there. -/
def State.noteHome (s : State) (q : PartId) (r : Tier5Req) : State :=
  let pl : Place := .lpddr r.bent r.pa
  let who := remoteParty r.chip r.bay
  let seen := joinClock (joinClock (s.seenBy (remoteAll r.chip)) (s.seenBy who))
    (match regionAt (s.part q) (vaNat r.va) with
      | some (k, _) => assocGet [] (s.part q).regionSeen k
      | none => [])
  let put (x : Place) (n : Nat) (write : Bool) (kind : Nat) : State :=
    (s.noteBy q who 0 x n write kind r.stamp seen).useRegion q r.va who r.stamp seen
  match r.kind with
  | .read n => put pl n false 0
  | .write d => put pl d.length true (if d.length = 64 then 4 else 0)
  | .atomic _ _ => put pl 16 true 1
  | .fetchAdd _ => put pl 8 true 2
  | .claim => put (pl.add 8) 8 true 2

/-- Bytes that a tier 5 request reads or writes at its home. -/
def tier5Bytes : Tier5Kind → Nat
  | .read n => n
  | .write d => d.length
  | .atomic _ _ => 16
  | .fetchAdd _ => 8
  | .claim => 64

/-- TIER5_REQUEST (R312): a request is here, and waits for the 0xF1 slots of its home partition. One that this chip's region table forbids is
dropped and logged (R225, log 92). -/
def execTier5Request (r : Tier5Req) (s : State) : Step :=
  match s.partOfBent r.bent with
  | none => .next s
  | some q =>
    if !homeAllows (s.part q) r then .next (s.log (.note 225 r.chip))
    else .next (s.queueBurst q 0xF1 (some (.lpddr r.bent r.pa)) (tier5Bytes r.kind) (.tier5 r))

/-! ## Pod-wide checks (R317) -/

/-- The answer to the LOAD of a partition whose pod-wide checks are complete on every chip, or have failed on one: the image is then refused
(R317). -/
def State.answerPod (s : State) (q : PartId) (ok : Bool) : State :=
  let p := s.part q
  let s1 := if ok then s else (s.log (.note 317 q.val)).dissolve q
  match p.request with
  | none => s1
  | some n => (s1.respond n (if ok then 0 else 4) (if ok then q.val else 0)).onPart q (fun x => { x with request := none })

/-- The pod-wide checks of a partition are made (R317): the other yards of the pod plan learn the outcome. -/
def State.checksDone (s : State) (q : PartId) : State :=
  if (s.part q).awaiting = [] ∧ s.podPasses q = true then
    let s1 := s.sendCheck q true
    if (s1.part q).podDone then s1.answerPod q true else s1
  else (s.sendCheck q false).answerPod q false

/-- Tables of another chip reach a partition that awaits them (R317); those of chips that these list are awaited from now on. -/
def State.hearTables (s : State) (q : PartId) (chip : Nat) (t : PodTables) : State :=
  if (s.part q).awaiting.contains chip then
    let s1 := (s.onPart q (fun p => { p with tables := p.tables ++ [(chip, t)] })).regroup q
    if (s1.part q).awaiting = [] ∨ t.descs = [] then s1.checksDone q else s1
  else s

/-- What another chip's yard tells of the pod-wide checks reaches a partition that waits for plan frame 0 (R317, R467). -/
def State.hearCheck (s : State) (q : PartId) (chip : Nat) (ok : Bool) : State :=
  let p := s.part q
  if p.mode = .waiting ∧ p.fab.isSome = true ∧ p.podDone = false then
    if ok then
      let s1 := s.onPart q (fun x => { x with passed := chip :: x.passed })
      if (s1.part q).podDone then s1.answerPod q true else s1
    else if p.awaiting.contains chip || p.tables.any (fun t => decide (t.1 = chip)) then s.answerPod q false
    else s
  else s

/-- POD_WIDE_CHECKS (R317): the tables of another listed chip arrive; with the last, or with a refusal, the checks are complete. Tables that
no partition awaits are kept for the plan that this chip loads later. -/
def execPodWideChecks (chip : Nat) (tables : PodTables) (s : State) : Step :=
  if s.parts.toList.any (fun p => p.awaiting.contains chip) then
    .next ((List.finRange 8).foldl (fun acc q => acc.hearTables q chip tables) s)
  else
    .next { s with yard := { s.yard with
      podTables := s.yard.podTables.filter (fun t => decide (t.1 ≠ chip)) ++ [(chip, tables)] } }

/-! ## Flits (R311) -/

/-- The landing data of a scarf transfer reaches its context (R271); of a command that has stopped it is discarded (R273). -/
def State.scarfAnswer (s : State) (q : PartId) (run index : Nat) (data : List Byte) : State :=
  s.onScarf q (fun c => { c with flights := c.flights.map (fun f =>
    if c.run = run ∧ f.tr.index = index then { f with data := some data } else f) })

/-- A delay request that the chip answers (R313): the delay request of the Ethernet side, the peer delay request of a Rirax link. -/
def ptpAsks (m : PtpMsg) : Bool := m.received && decide (m.kind = if m.port.isNone then .delayReq else .pdelayReq)

/-- A PTP message of the chip's own: by a Rirax port in a reserved flit time (R310), by the Ethernet side at once. -/
def State.sendPtp (s : State) (port : Option Port) (x : Parcel) (o : Out) : State :=
  match port with
  | some p => s.enqueue p .yard 0 0 x
  | none => s.emit o

/-- PTP_EVENT_MESSAGE (R313): a message that comes is timestamped, a delay request is answered, and what it tells corrects PTP time and
nothing else; a message of the chip's own, as a boundary clock, is sent and is timestamped as it leaves (log 87). -/
def execPtpEventMessage (m : PtpMsg) (s : State) : Step :=
  if m.received then
    let s1 := s.emit (.timestamp s.ptp)
    let s2 := if ptpAsks m then s1.sendPtp m.port (.ptpAnswer s.ptp) (.ptpAnswer none s.ptp) else s1
    .next { s2 with ptp := ((s.ptp : Int) + m.correction).toNat }
  else
    let s1 := s.sendPtp m.port (.ptp m.kind) (.ptpSent none m.kind)
    .next (if m.port.isNone then s1.emit (.timestamp s.ptp) else s1)

/-- A verdict reaches a router that is not its root's: it awaits delivery, and its status is that of the round (R319, R321). -/
def State.takeVerdict (s : State) (v : Verdict) : State :=
  s.onRouter v.slot (fun x => { x with
    status := if bits x.status 8 24 = v.round % 2 ^ 24 then setBits x.status 0 8 v.status else x.status
    verdicts := x.verdicts ++ [v] })

/-- A message for this chip, by what it carries (R310), that a port received; an error of a command that no longer runs is discarded
(R273). -/
def State.receive (s : State) (port : Port) (m : Msg) : Step :=
  match m with
  | .node v => .next (s.takeValue 0 v)
  | .verdict v => .next (s.takeVerdict v)
  | .tier5 r => execTier5Request r s
  | .tier5Answer bay id data => .next (s.takeAnswer bay id data)
  | .scarfRead r => execSourceRead r s
  | .scarfData q run index data => .next (s.scarfAnswer q run index data)
  | .scarfError q run code => if (s.scarfOf q).run = run then execScarfErrorFlit q code s else .next s
  | .offset chip frame offset => execOffsetReport chip frame offset s
  | .tables chip t => execPodWideChecks chip t s
  | .checked chip ok => .next ((List.finRange 8).foldl (fun acc q => acc.hearCheck q chip ok) s)
  | .ptp p => execPtpEventMessage { p with port := some port, received := true } s
  | .lost chip => .next (s.chipLost chip)
  | .unit parity u cells dirty => .next (s.takeUnit parity u cells dirty)

/-- A chip is this logical chip, or the other one of its sliced physical chip. -/
def State.samePhys (s : State) (dest : Nat) : Bool :=
  match s.podHeader with
  | some f => decide (s.physOf f dest = s.physOf f f.lchip)
  | none => true

/-- A message for a logical chip of this physical chip (R318): a value goes to the router that both have, the rest to the chip that it is
for. -/
def State.accept (s : State) (port : Port) (dest : Nat) (m : Msg) : Step :=
  match s.podHeader, m with
  | none, _ => s.receive port m
  | some _, .node v => .next (s.takeValue dest v)
  | some f, _ => if f.lchip = dest then s.receive port m else .next (s.emit (.twin dest m))

/-- A flit accepted for another chip goes on by its route (R306): a value in the flit times of its slot once it is whole, the rest at
once. -/
def State.forward (s : State) (x : Flit) : State :=
  match s.podHeader with
  | some f =>
    match x.load.msg, f.firstPort (s.physOf f f.lchip) (s.physOf f x.dest) with
    | .node v, some port => if x.load.ix + 1 = x.load.count then s.enqueueValue port x.dest v else s
    | _, some port => s.sendFlit port x
    | _, none => s
  | none => s

/-- LINK_FLIT (R311): the next number is accepted, and a message is here with the last of its flits; a number already accepted is
discarded; one out of sequence, or an uncorrectable flit, is answered with a retry request in a reserved flit time (R310). -/
def execLinkFlit (port : Port) (seq : BitVec 16) (intact : Bool) (dest : Nat) (m : Cargo) (s : State) : Step :=
  let i := portIdx port
  let l := s.links.get i
  if intact ∧ seq = l.expect then
    let s1 : State := { s with links := s.links.set i.val { l with expect := l.expect + 1 } i.isLt }
    if s1.samePhys dest then (if m.ix + 1 = m.count then s1.accept port dest m.msg else .next s1) else .next (s1.forward ⟨dest, m⟩)
  else if intact ∧ (l.expect - seq).toNat < 2 ^ 15 then .next s
  else .next (s.enqueue port .yard 0 0 (.retry l.expect))

/-- A parcel is a flit that is to be sent again. -/
def Parcel.isAgain (x : Parcel) : Bool :=
  match x with
  | .again _ => true
  | .flits _ _ _ _ | .retry _ | .ptp _ | .ptpAnswer _ => false

/-- REPLAY (R311): the flits from the number asked for on are sent again, oldest first, in the reserved flit times (R310); what an earlier
request still had to send again gives way. -/
def execReplay (port : Port) (next : BitVec 16) (s : State) : Step :=
  let i := portIdx port
  let l := s.links.get i
  let s1 : State := { s with links := s.links.set i.val { l with waiting := l.waiting.filter (fun w => !w.load.isAgain) } i.isLt }
  let again := (l.replay.filter (fun r => decide ((r.1 - next).toNat < 2 ^ 15))).reverse
  .next (again.foldl (fun acc r => acc.enqueue port .yard 0 0 (.again r.1)) s1)

/-! ## Flit times (R310) -/

/-- The reserved flit times of a port that begin in this clock cycle (R310): the last five of each entry by the pod plan's time; where this
chip runs no pod plan, entries are counted from cycle 0 of its clock (log 43). -/
def State.yardFlits (s : State) : Nat :=
  match s.podPart with
  | some q => ((s.flitsNow (s.part q)).filter (fun x => decide (120 ≤ x.2))).length
  | none => ((flitStarts (s.clock % 64)).filter (fun i => decide (120 ≤ i))).length

/-- The use of a flit time for its owner (R310): of the first 120 of an entry. -/
def State.flitUse (s : State) (q : PartId) (port : Port) (e i : Nat) : Option FlitUse :=
  if 120 ≤ i ∨ s.linkPart port e ≠ q.val then none
  else
    let u := s.linkUse port e
    if u < 64 then some (.slot (Fin.ofNat 64 u)) else if u = 0x40 then some .bulk else if u = 0x41 then some .remote else none

/-- The order of what waits for one use (R318): by arrival at the port, then by node index. -/
def Waiting.key (w : Waiting) : Nat :=
  w.came * 4096 + (match w.load with
    | .flits _ (.node v) _ _ => v.j
    | _ => 0)

/-- What leaves by a port as its last flit time begins (R311, R313, R318), and what is left to send. -/
def State.depart (s : State) (port : Port) (x : Parcel) : State × Option Parcel :=
  match x with
  | .flits dest m gone n => (s.sendFlit port ⟨dest, m, gone, n⟩, if gone + 1 < n then some (.flits dest m (gone + 1) n) else none)
  | .again seq =>
    ((match (s.links.get (portIdx port)).replay.find? (fun r => decide (r.1 = seq)) with
      | some r => s.emit (.flit port seq r.2)
      | none => s), none)
  | .retry next => (s.emit (.retry port next), none)
  | .ptp k => ((s.emit (.ptpSent (some port) k)).emit (.timestamp s.ptp), none)
  | .ptpAnswer stamp => ((s.emit (.ptpAnswer (some port) stamp)).emit (.timestamp s.ptp), none)

/-- One flit time of a port, taken by the first that waits for it and may go (R318). -/
def State.takeFlit (s : State) (port : Port) (may : Waiting → Bool) : State :=
  let i := portIdx port
  let l := s.links.get i
  match (sortOn Waiting.key l.waiting).find? may with
  | none => s
  | some w =>
    let keep (t : State) (rest : List Waiting) : State :=
      { t with links := t.links.set i.val { t.links.get i with waiting := rest } i.isLt }
    if w.left ≤ 1 then
      let r := s.depart port w.load
      keep r.1 (match r.2 with
        | some x => { w with left := l.perFlit, load := x } :: l.waiting.erase w
        | none => l.waiting.erase w)
    else keep s ({ w with left := w.left - 1 } :: l.waiting.erase w)

/-- The flit times of a port that begin now, taken for a partition that owns them. -/
def State.portFlits (s : State) (q : PartId) (port : Port) : State :=
  (s.flitsNow (s.part q)).foldl (fun acc x =>
    match acc.flitUse q port x.1 x.2 with
    | some u => acc.takeFlit port (fun w => decide (w.use = u) && decide (w.part = q) && decide (w.ready ≤ (s.part q).time))
    | none => acc) s

/-- The flit times of every port that begin now: those of the partitions, and the reserved ones, which belong to none (R310). -/
def State.departures (s : State) : State :=
  ([.xp, .xm, .yp, .ym, .zp, .zm] : List Port).foldl (fun a port =>
    if (a.links.get (portIdx port)).waiting = [] then a
    else
      let own := (List.finRange 8).foldl (fun acc q => acc.portFlits q port) a
      (List.range s.yardFlits).foldl (fun acc _ => acc.takeFlit port (fun w => decide (w.use = .yard))) own) s

end Sys2Proof.Machine
end

