-- ==== Sys2Proof/Machine/Matrix.lean ====
section
/-!
DEFINITION. The matrix array: shapes and nests (R174 to R178), the timeline of R179, additions (R176, R180, R183), drains (R181,
R182), and the commands MXGO (R398), MXDRAIN (R396, R397) and MXCLR (R395).
-/

namespace Sys2Proof.Machine

/-! ## The nest of a command (R175, R176) -/

/-- Least and greatest value of base plus the strides over all iterations. -/
def extent (base : Int) (l : List (Nat × Int)) : Int × Int :=
  l.foldl (fun acc x =>
    let d := ((x.1 : Int) - 1) * x.2
    (acc.1 + min 0 d, acc.2 + max 0 d)) (base, base)

/-- Byte strides of the levels for A, or for B. -/
def Cmd.strides (c : Cmd) (isB : Bool) : List (Nat × Int) :=
  c.levels.map (fun v => (v.cnt, if isB then v.bstr else v.astr))

/-- Block strides of the levels for A, or for B. -/
def Cmd.blkStrides (c : Cmd) (isB : Bool) : List (Nat × Int) :=
  c.levels.map (fun v => (v.cnt, if isB then v.bbs else v.abs))

/-- Bytes of a chunk from its base that its layout reads (R174, R183). -/
def chunkSpan (f n : Nat) (isB tr : Bool) (kd bank : Nat) : Nat :=
  if isB && decide (n ≠ 0) then (64 + n) * 128
  else if !isB && decide (n = 64) && decide (f ≠ 1) then bank + (if f = 0 then 64 * 128 else 32 * 128)
  else if f = 0 then (if tr then 127 * 128 + kd else 128 * kd)
  else if f = 1 then bank + (if tr then 127 * 128 + kd else 128 * kd)
  else (kd + 1) / 2 * 128

/-- Formats that the array reads: INT8, INT16, INT4, Q4 (R177). -/
def fmtReads (f : Nat) : Bool := decide (f = 0) || decide (f = 1) || decide (f = 3) || decide (f = 4)

/-- The range fault of a chunk or its scale lines: the offset that lies outside (R178). -/
def chunkRange (c : Cmd) (isB : Bool) (size bank : Nat) : Option Int :=
  if fmtReads (c.fmt isB) then
    let e := extent (c.base isB) (c.strides isB)
    let last := e.2 + chunkSpan (c.fmt isB) c.sparse isB (c.tr isB) c.kd bank - 1
    if e.1 < 0 then some e.1
    else if (size : Int) ≤ last then some last
    else if c.fmt isB = 4 then
      let q := extent (c.blk isB) (c.blkStrides isB)
      let lo := (c.slb isB : Int) + 64 * (q.1 / 62)
      let hi := (c.slb isB : Int) + 64 * ((q.2 + 3) / 62) + 63
      if lo < 0 then some lo else if (size : Int) ≤ hi then some hi else none
    else none
  else none

/-- Handles of a bay: 16, or 8 on a time-sliced context (R178). -/
def State.handleCount (s : State) (b : BayId) : Nat := s.half b 16

/-- Alignment of a chunk base (R174). -/
def chunkAlign (f n : Nat) (isB : Bool) : Nat :=
  if (isB && decide (n ≠ 0)) || decide (n = 64) then 16384 else if f = 3 ∨ f = 4 then 8192 else 16384

/-- Format INFO of R471. -/
def fmtInfo (kind x : Nat) : Info := BitVec.ofNat 72 (kind * 2 ^ 30 + x)

/-- The exact chain bound of R159, log2, by the pair of formats in either order. -/
def chainLog (f g : Nat) : Nat :=
  match min f g, max f g with
  | 1, 1 => 17
  | 0, 1 => 25
  | 1, 4 => 26
  | 1, 3 => 29
  | 0, 0 => 33
  | 0, 4 => 34
  | 4, 4 => 34
  | 0, 3 => 37
  | 3, 4 => 38
  | 3, 3 => 41
  | _, _ => 0

/-- An alignment or format fault of a base or stride of A, or of B (R178). -/
def alignFault (c : Cmd) (isB : Bool) : Option Nat :=
  let al : Nat := chunkAlign (c.fmt isB) c.sparse isB
  if c.base isB % al ≠ 0 then some (if isB then 49 else 48)
  else ((c.strides isB).zipIdx.find? (fun x => decide (x.1.1 > 1) && decide (x.1.2 % (al : Int) ≠ 0))).map
    (fun x => 7 * x.2 + (if isB then 2 else 1))

/-- INFO of a pair or EAB that differs from a handle's (R178, R180, R471): the format entry whose format differs, A's before B's, or with
equal formats A's scale register. -/
def pairFault (c : Cmd) (h : Handle) (ia ib : Nat) : Option Info :=
  match h.range, h.pair with
  | some _, some p =>
    if p.1 ≠ c.fmt false then some (fmtInfo 1 ia)
    else if p.2 ≠ c.fmt true then some (fmtInfo 1 ib)
    else if h.eab ≠ c.eab then some (fmtInfo 2 (fmtScale c.fa))
    else none
  | _, _ => none

/-- The format checks of R178, in its order; ia and ib are the entry indices. A bit-line read of a sparse B, which R174 makes word-line only,
is one of them for N = 32 too (log 80). -/
def mxFormat (c : Cmd) (b : Bay) (ia ib : Nat) : Check :=
  let fa := c.fmt false
  let fb := c.fmt true
  let n := c.sparse
  if !fmtReads fa then some (.format, fmtInfo 1 ia)
  else if !fmtReads fb then some (.format, fmtInfo 1 ib)
  else if fmtSparse c.fa ≠ 0 then some (.format, fmtInfo 1 ia)
  else if fmtSparse c.fb = 3 ∨ (n ≠ 0 ∧ fb = 1) then some (.format, fmtInfo 1 ib)
  else if c.tr false = true ∧ (fa = 3 ∨ fa = 4 ∨ n = 64) then some (.format, fmtInfo 0 50)
  else if c.tr true = true ∧ (fb = 3 ∨ fb = 4 ∨ n ≠ 0) then some (.format, fmtInfo 0 51)
  else if (fa = 4 ∨ fb = 4 ∨ n ≠ 0) ∧ c.kd ≠ 128 then some (.format, fmtInfo 0 55)
  else
    match alignFault c false with
    | some i => some (.format, fmtInfo 0 i)
    | none =>
      match alignFault c true with
      | some i => some (.format, fmtInfo 0 i)
      | none =>
        (c.handlesOf.findSome? (fun h => pairFault c (b.viewOf h) ia ib)).map (fun i => (.format, i))

/-- The case of R163 for one handle. -/
def rangeBroken (c : Cmd) (h : Handle) : Bool :=
  let len := 2 ^ c.logLen
  let lo := match h.range with
    | some r => r.1
    | none => c.start
  let cont := match h.range with
    | some r => decide (c.start = r.2)
    | none => true
  !(decide (c.start % len = 0) && cont && decide (c.kd * c.kcount ≤ len)
    && decide (c.start + len - lo ≤ 2 ^ chainLog (c.fmt false) (c.fmt true)))

/-- The alignment checks of R178. -/
def mxAlign (c : Cmd) (b : Bay) : Check :=
  let hs := c.handlesOf
  match hs.find? (fun h => rangeBroken c (b.viewOf h)) with
  | some h => some (.alignment, BitVec.ofNat 72 h)
  | none =>
    let outer := ((c.levels.filter (fun v => !v.klv)).map Lvl.cnt).foldl (· * ·) 1
    if c.levels.any (fun v => v.klv && decide (v.hstr ≠ 0)) ∨ outer ≠ hs.length then
      some (.alignment, BitVec.ofNat 72 c.hbase)
    else none

/-- A format selector resolved at issue (R70). -/
def Bay.selIx (b : Bay) (sel : Nat) : Nat := resolveSel b.seen.l sel

/-- The checks of R178 on a captured MXGO. -/
def mxgoChk (c : Cmd) (s : State) : Check :=
  let b := s.me
  let ia := b.selIx (bits c.sh2 40 7)
  let ib := b.selIx (bits c.sh2 47 7)
  let size := s.storeSize s.cur .opA
  let bank := s.bankSize s.cur
  let he := extent c.hbase (c.levels.map (fun v => (v.cnt, v.hstr)))
  if s.half s.cur 16 ≤ ia ∨ s.half s.cur 16 ≤ ib then some (.range, anyInfo 256)
  else
    match chunkRange c false size bank with
    | some o => some (.range, BitVec.ofInt 72 o)
    | none =>
      match chunkRange c true size bank with
      | some o => some (.range, BitVec.ofInt 72 o)
      | none =>
        if he.1 < 0 ∨ (s.handleCount s.cur : Int) ≤ he.2 then some (.range, anyInfo 256)
        else Check.andThen (mxFormat c b ia ib) (mxAlign c b)

/-- An MXGO with its format entries and EAB, read at issue (R70, R180). -/
def mxgoCmd (s : State) (c : Cmd) : Cmd :=
  let b := s.me
  let fa := b.fmtAt (b.selIx (bits c.sh2 40 7))
  let fb := b.fmtAt (b.selIx (bits c.sh2 47 7))
  { c with fa := fa, fb := fb, eab := scE (b.scAt (fmtScale fa)) + scE (b.scAt (fmtScale fb)) }

/-- MXGO (R398). -/
def execMxgo (c : Ctl) (s : State) : Step :=
  .next (s.command c .mx 256 (fieldMask 25 47) inBay mxgoCmd mxgoChk (fun x b =>
    { b with view := x.handlesOf.foldl (fun v h => v.setIfInBounds h (claimHandle x (v.toList.getD h .empty))) b.view }))

/-! ## MXCLR -/

/-- A view emptied. -/
def Bay.emptyView (b : Bay) (h : Nat) : Bay := { b with view := b.view.setIfInBounds h .empty }

/-- MXCLR (R395). -/
def execMxclr (c : Ctl) (s : State) : Step :=
  .next (s.command c .mx 258 (fieldMask 29 43) inBay keepCmd
    (fun x t => if t.handleCount t.cur ≤ x.handle then some (.range, anyInfo 258) else none)
    (fun x b => b.emptyView x.handle))

/-! ## MXDRAIN -/

/-- FMT of the output entry. -/
def Cmd.ofmt (c : Cmd) : Nat := fmtCode c.fo
/-- Rows written. -/
def Cmd.rows (c : Cmd) : Nat := bits c.sh3 51 7 + 1
/-- Columns written. -/
def Cmd.cols (c : Cmd) : Nat := bits c.sh3 58 7 + 1
/-- Offset of output row r. -/
def Cmd.rowAt (c : Cmd) (r : Nat) : Nat := bits c.sh3 0 21 + r * bits c.sh3 21 21
/-- Logical index of an output element (R181). -/
def Cmd.elemIx (c : Cmd) (r q : Nat) : Nat := (bits c.sh3 65 32 + r) * bits c.sh3 129 32 + bits c.sh3 97 32 + q
/-- The store that DDST names. -/
def ddstStore (d : Nat) : BayStore := if d = 0 then .opA else if d = 1 then .opB else .scratch
/-- DDST. -/
def Cmd.ddst (c : Cmd) : Nat := bits c.sh3 42 2
/-- Whether Q4 output blocks are those of a B operand. -/
def Cmd.qb (c : Cmd) : Bool := bitAt c.sh3 230
/-- Scale line of output block n (R182). -/
def Cmd.outLine (c : Cmd) (n : Nat) : Nat := bits c.sh3 177 21 + 64 * (n / 62)

/-- Bytes of a row beyond its offset (R181). -/
def rowSpan (f : Nat) (scratch : Bool) (bank : Nat) : Nat :=
  match f with
  | 0 => 128
  | 1 => if scratch then 256 else bank + 128
  | 2 => 512
  | _ => 64

/-- The format checks of R181, and of R70: an output entry with the reserved SPARSE 3 faults at its use; another SPARSE of it is not looked
at (log 80). -/
def drainFormat (c : Cmd) (io : Nat) : Check :=
  let f := c.ofmt
  let al := if f = 4 then 64 else 128
  if ¬ (f = 0 ∨ f = 1 ∨ f = 2 ∨ f = 4) ∨ fmtSparse c.fo = 3 then some (.format, fmtInfo 1 io)
  else if c.ddst = 3 then some (.format, fmtInfo 0 66)
  else if f = 2 ∧ c.ddst ≠ 2 then some (.format, fmtInfo 0 66)
  else if f = 2 ∧ 64 < c.rows then some (.format, fmtInfo 0 68)
  else if f = 4 ∧ c.rows ≠ 128 then some (.format, fmtInfo 0 68)
  else if f = 4 ∧ c.cols ≠ 128 then some (.format, fmtInfo 0 69)
  else if bits c.sh3 0 21 % al ≠ 0 then some (.format, fmtInfo 0 64)
  else if bits c.sh3 21 21 % al ≠ 0 then some (.format, fmtInfo 0 65)
  else none

/-- The range checks of R181. -/
def drainRange (c : Cmd) (s : State) : Check :=
  let f := c.ofmt
  let size := s.storeSize s.cur (ddstStore c.ddst)
  let last := c.rowAt (c.rows - 1)
  let n := bits c.sh3 198 32 + 3
  if s.handleCount s.cur ≤ c.handle then some (.range, anyInfo 257)
  else if size < last + rowSpan f (decide (c.ddst = 2)) (s.bankSize s.cur) then some (.range, BitVec.ofNat 72 last)
  else if f = 4 ∧ size < c.outLine n + 64 then some (.range, BitVec.ofNat 72 (c.outLine n))
  else if bits c.sh3 129 32 ≤ bits c.sh3 97 32 + c.cols - 1 then some (.range, anyInfo 257)
  else if 2 ^ 42 ≤ c.elemIx (c.rows - 1) (c.cols - 1) then some (.range, anyInfo 257)
  else none

/-- A range is a single node (R163). -/
def singleNode (r : Nat × Nat) : Bool :=
  let len := r.2 - r.1
  decide (r.1 < r.2) && decide (len = 2 ^ Nat.log2 len) && decide (r.1 % len = 0)

/-- The checks of R396, after the reserved bits. -/
def drainChk (c : Cmd) (s : State) : Check :=
  let b := s.me
  let io := b.selIx (bits c.sh3 44 7)
  let sc := fmtScale c.fo
  if s.half s.cur 16 ≤ io ∨ s.half s.cur 256 ≤ sc then some (.range, anyInfo 257)
  else
    Check.andThen (drainFormat c io)
      (Check.andThen (drainRange c s)
        (Check.andThen
          (match (b.viewOf c.handle).range with
           | some r => if singleNode r then none else some (.alignment, BitVec.ofNat 72 c.handle)
           | none => some (.alignment, BitVec.ofNat 72 c.handle))
          (if scFmt (b.scAt sc) ≠ c.ofmt then some (.format, fmtInfo 1 io) else none)))

/-- MXDRAIN (R396): the output selector is resolved at issue. -/
def execMxdrain (c : Ctl) (s : State) : Step :=
  .next (s.command c .mx 257 (fieldMask 30 42) inBay
    (fun t x => { x with fo := t.me.fmtAt (t.me.selIx (bits x.sh3 44 7)) }) drainChk
    (fun x b => if x.rel then b.emptyView x.handle else b))

/-! ## Reads of a nest (R176, R177, R179) -/

/-- The lines that an item of an operand lies in, as (offset, bytes), or the 128 bytes of a byte column (R172, R174). -/
def itemRuns (c : Cmd) (isB : Bool) (base bank j : Nat) : List (List Nat) :=
  let line (o : Nat) : List Nat := (List.range 128).map (fun i => o + i)
  let column (o : Nat) : List Nat := (List.range 128).map (fun i => o + 128 * i + j)
  let f := c.fmt isB
  if isB = false ∧ c.sparse = 64 ∧ f ≠ 1 then [line (base + (j % 2) * bank + j / 2 * 128)]
  else
    let one (o : Nat) : List Nat := if c.tr isB then column o else line (o + 128 * j)
    if f = 1 then [one base, one (base + bank)] else [one base]

/-- Banks of an item. -/
def itemBanks (runs : List (List Nat)) (bank : Nat) : List Nat := (runs.map (fun l => l.headD 0 / bank)).eraseDups

/-- The operand items of a cycle, read: the state with the banks used, and what was captured. -/
def State.readItems (s : State) (b : BayId) (c : Cmd) (isB : Bool) (base sc : Nat) : State × Items :=
  let bank := s.bankSize b
  (c.due isB sc).foldl (fun (acc : State × Items) j =>
    let runs := itemRuns c isB base bank j
    let st : BayStore := if isB then .opB else .opA
    let m := (acc.1.bay b).store st
    let used := runs.foldl (fun t l => t.useStore b st (l.headD 0) (l.getLastD 0 + 1 - l.headD 0) false) acc.1
    (used.bankRead b isB (itemBanks runs bank), acc.2 ++ [(j, (runs.flatten).map (Mem.read m))])) (s, [])

/-- The scale lines of the four blocks of A and B that a step reads with its first items (R136, R176). -/
def State.useScales (s : State) (b : BayId) (c : Cmd) (r : NestRun) : State :=
  let on (t : State) (isB : Bool) (l : List Int) : State :=
    l.foldl (fun u k => u.useStore b (if isB then .opB else .opA) ((c.slb isB : Int) + 64 * k).toNat 64 false) t
  on (on s false r.la) true r.lb

/-- Metadata lines read with the data items of a cycle (R183). -/
def metaItems (c : Cmd) (m : Mem) (base sc : Nat) : Items :=
  if c.sparse = 0 then []
  else
    let four := c.fmt true = 3 ∨ c.fmt true = 4
    ((c.due true sc).flatMap (fun j => if four then [2 * j, 2 * j + 1] else [j])).map
      (fun t => (t, Mem.readN m (base + 128 * (64 + t)) 128))

/-- Lines of the four blocks from block q0 (R136). -/
def scaleLines (q0 : Int) : List Int := (List.range 4).map (fun (j : Nat) => (q0 + j) / 62)

/-- The scale bytes of the four blocks from block q0 (R136, R176). -/
def scaleBytes (m : Mem) (slb : Nat) (q0 : Int) : List Byte :=
  (List.range 4).map (fun (j : Nat) => Mem.read m ((slb : Int) + 64 * ((q0 + j) / 62) + 2 + (q0 + j) % 62).toNat)

/-- Expected tag over found tag of a scale line, where they differ (R136). -/
def tagBad (m : Mem) (slb : Nat) (line : Int) : Option Info :=
  let want := (62 * line % 65536).toNat
  let got := Mem.nat m ((slb : Int) + 64 * line).toNat 2
  if got = want then none else some (BitVec.ofNat 72 (want + 65536 * got))

/-- Element e of 64 bytes of packed 4-bit codes under a format: INT4, or Q4 under the scale byte of its group (R129, R133). -/
def nibble (f : Nat) (scales : List Byte) (bs : List Byte) (e : Nat) : Int :=
  let v := (bs.getD (e / 2) 0).toNat
  let code := if e % 2 = 0 then v % 16 else v / 16
  if f = 4 then q4dec code ((scales.getD (e / 32) 0).toNat / 64) else sext code 4

/-- The item that holds element k of the K order of an operand (R174, R177). -/
def itemIx (f k : Nat) : Nat := if f = 3 ∨ f = 4 then k / 2 else k

/-- An item captured. -/
def itemOf (l : Items) (j : Nat) : List Byte :=
  match l.find? (fun x => decide (x.1 = j)) with
  | some x => x.2
  | none => []

/-- The 128 element values of an operand at index k of its K order (R174): zeros where its item was not read (R173). -/
def decodeItem (f : Nat) (scales : List Byte) (l : Items) (k : Nat) : List Int :=
  let bs := itemOf l (itemIx f k)
  if f = 0 then (List.range 128).map (fun i => (bs.getD i 0).toInt)
  else if f = 1 then (List.range 128).map (fun i => (bs.getD (128 + i) 0 ++ bs.getD i 0).toInt)
  else (List.range 128).map (nibble f scales ((bs.drop (64 * (k % 2))).take 64))

/-- The cycle of a step in which element k of an operand's K order is read (R177). -/
def Cmd.readCycle (c : Cmd) (isB : Bool) (k : Nat) : Nat := itemIx (c.fmt isB) k * c.tc / c.items isB

/-- K index of column q's element in a metadata line (R183). -/
def metaIndex (line : List Byte) (q : Nat) : Nat := leNat (line.take 112) / 2 ^ (7 * q) % 128

/-- K indices of the columns of a metadata line. -/
def metaRow (line : List Byte) : List Nat :=
  let w := leNat (line.take 112)
  (List.range 128).map (fun q => w / 2 ^ (7 * q) % 128)

/-- The first of the ranks read in a cycle whose metadata line breaks R183. -/
def metaBroken (r : NestRun) (sc : Nat) : Option Nat :=
  ((List.range r.cmd.sparse).filter (fun t => decide (r.cmd.readCycle true t = sc))).find? (fun t =>
    ((itemOf r.meta' t).drop 112).any (fun v => decide (v ≠ 0)) ||
      (decide (0 < t) && ((metaRow (itemOf r.meta' (t - 1))).zip (metaRow (itemOf r.meta' t))).any (fun p => decide (p.2 ≤ p.1))))

/-- The rows of a dense B that meet their columns of A in a cycle of the step (R176, R177). -/
def denseRows (r : NestRun) (sc : Nat) : List (List Int × List Int) :=
  let c := r.cmd
  ((List.range c.kd).filter (fun k => decide (max (c.readCycle false k) (c.readCycle true k) = sc))).map (fun k =>
    (decodeItem (c.fmt false) r.sa r.a k, decodeItem (c.fmt true) r.sb r.b k))

/-- The rows of a sparse B that meet their columns of A in a cycle of the step (R177, R183): at K index k each column takes the element
of the rank that keeps k, once both are read. -/
def sparseRows (r : NestRun) (sc : Nat) : List (List Int × List Int) :=
  let c := r.cmd
  let ranks := ((List.range c.sparse).filter (fun t => decide (c.readCycle true t ≤ sc))).map (fun t =>
    (c.readCycle true t, metaRow (itemOf r.meta' t), decodeItem (c.fmt true) r.sb r.b t))
  ((List.range c.kd).filter (fun k => decide (c.readCycle false k ≤ sc))).filterMap (fun k =>
    let l := if c.readCycle false k = sc then ranks else ranks.filter (fun x => decide (x.1 = sc))
    if l = [] then none
    else
      some (decodeItem (c.fmt false) r.sa r.a k,
        l.foldl (fun row x => List.zipWith (fun v p => if p.1 = k then p.2 else v) row (x.2.1.zip x.2.2)) (List.replicate 128 0)))

/-- What the reads of a cycle of the step bring together. -/
def rowsAt (r : NestRun) (sc : Nat) : List (List Int × List Int) := if r.cmd.sparse = 0 then denseRows r sc else sparseRows r sc

/-- The step in course takes its scale bytes and compares the tag of each scale line that it moves to (R136): A's mismatch comes first
(log 79). -/
def NestRun.takeScales (r : NestRun) (x : Bay) (ds : List (Lvl × Nat)) : NestRun × Option Info :=
  let c := r.cmd
  let qa := nestAt (c.blk false) ds Lvl.abs
  let qb := nestAt (c.blk true) ds Lvl.bbs
  let la := if c.fmt false = 4 then scaleLines qa else []
  let lb := if c.fmt true = 4 then scaleLines qb else []
  let bad := (la.findSome? (tagBad x.opA (c.slb false))).or (lb.findSome? (tagBad x.opB (c.slb true)))
  let moved := ((la.filter (fun l => !r.la.contains l)).findSome? (tagBad x.opA (c.slb false))).or
    ((lb.filter (fun l => !r.lb.contains l)).findSome? (tagBad x.opB (c.slb true)))
  ({ r with
    sa := if c.fmt false = 4 then scaleBytes x.opA (c.slb false) qa else []
    sb := if c.fmt true = 4 then scaleBytes x.opB (c.slb true) qb else []
    la := la, lb := lb, void := bad.isSome }, moved)

/-- The items of an operand that a cycle of reads captures: those in banks whose accesses of the cycle do not perform are not (R173). The
walkers have made their reads before. -/
def Bay.keptItems (x : Bay) (c : Cmd) (isB : Bool) (base bank : Nat) (l : Items) : Items :=
  l.filter (fun p => !(itemBanks (itemRuns c isB base bank p.1) bank).any (fun k => x.lost.contains (isB, k, false)))

/-- One cycle of reads of the running nest: the products that it completes are bound for their addition 140 cycles on, and after the
last step the nest gives way (R179). A metadata fault is noted at the line's read. -/
def State.nestCycle (s : State) (b : BayId) (r : NestRun) : State :=
  let c := r.cmd
  let now := s.now b
  let el := now - r.begun
  let ix := el / c.tc
  let sc := el % c.tc
  let ds := digits c.levels ix
  let x := s.bay b
  let abase := (nestAt (c.base false) ds Lvl.astr).toNat
  let bbase := (nestAt (c.base true) ds Lvl.bstr).toNat
  let bank := s.bankSize b
  let r0 := if sc = 0 then r.takeScales x ds else (r, none)
  let s0 := if sc = 0 then s.useScales b c r0.1 else s
  let s1 := (metaItems c x.opB bbase sc).foldl (fun t m => t.useStore b .opB (bbase + 128 * (64 + m.1)) 128 false) s0
  let ra := s1.readItems b c false abase sc
  let rb := ra.1.readItems b c true bbase sc
  let r1 : NestRun := { r0.1 with
    a := r0.1.a ++ (rb.1.bay b).keptItems c false abase bank ra.2
    b := r0.1.b ++ (rb.1.bay b).keptItems c true bbase bank rb.2
    meta' := r0.1.meta' ++ metaItems c x.opB bbase sc }
  let broken := if r1.void then none else (metaBroken r1 sc).map (fun t => fmtInfo 3 t)
  let r2 : NestRun := { r1 with void := r1.void || broken.isSome }
  let st : MxStep := ⟨now + 140, c.id, (nestAt c.hbase ds Lvl.hstr).toNat, c.start + kcAt ds * c.kd, c.start, 2 ^ c.logLen, c.eab,
    c.fmt false, c.fmt true, r2.sa, r2.sb, decide (sc = 0), r0.2.or broken, r2.void, if r2.void then [] else rowsAt r2 sc⟩
  rb.1.onBay b (fun y =>
    let y1 := if sc = 0 ∨ st.fault.isSome = true ∨ st.rows ≠ [] then { y with adds := y.adds ++ [st] } else y
    if sc + 1 < c.tc then { y1 with nests := [r2] }
    else if ix + 1 = c.steps then { y1 with nests := [], tails := y1.tails ++ [⟨c, now + 140⟩] }
    else { y1 with nests := [{ r2 with a := [], b := [], meta' := [], sa := [], sb := [], void := false }] })

/-- A drain has made its last read before cycle now (R179). -/
def DrainRun.read (d : DrainRun) (now : Nat) : Bool := decide (d.begun + 127 < now)

/-- MXGO at the head of the queue may begin (R179). -/
def Bay.mxgoReady (b : Bay) (now : Nat) : Option Cmd :=
  match b.headReady .mx now (fun op => decide (op = 256)) with
  | some c =>
    if b.nests.isEmpty && b.drains.all (fun d => d.read now || !c.handlesOf.contains d.handle) then some c else none
  | none => none

/-- MXGO_BEGIN (R179): a running nest makes the reads of this cycle; else an MXGO whose conditions hold begins, and reads. -/
def execMxgoBegin (b : BayId) (s : State) : Step :=
  match (s.bay b).nests with
  | r :: _ => .next (s.nestCycle b r)
  | [] =>
    match (s.bay b).mxgoReady (s.now b) with
    | none => .next s
    | some c =>
      let r : NestRun := ⟨c, s.now b, [], [], [], [], [], [], [], false⟩
      .next ((s.onBay b (fun x => (x.dequeue .mx).consume c)).nestCycle b r)

/-! ## Additions (R176, R180) -/

/-- A row or matrix padded with zeros. -/
def rowOf (l : List (List Int)) (m : Nat) : List Int :=
  (List.range 128).map (fun q => (l.getD m []).getD q 0)

/-- Products added to the sums of a handle (R176). -/
def addRows (rows : List (List Int × List Int)) (elems : List (List Int)) : List (List Int) :=
  rows.foldl (fun acc p => List.zipWith (fun row a => List.zipWith (fun x y => x + a * y) row p.2) acc p.1)
    ((List.range 128).map (rowOf elems))

/-- Block exponents of a step's four groups: 0 for integer formats (R134, R180). -/
def stepExps (f : Nat) (scales : List Byte) : List Int :=
  (List.range 4).map (fun j => if f = 4 then sext (scales.getD j 0).toNat 6 else 0)

/-- Whether recorded block exponents differ from a step's (R137, R180). -/
def expsDiffer (rec : Vector (Option Int) 4) (l : List Int) : Bool :=
  (rec.toList.zip l).any (fun p =>
    match p.1 with
    | some e => decide (e ≠ p.2)
    | none => false)

/-- A handle after a step: products added, RANGE, PAIR, EAB and block exponents in force (R180). -/
def Handle.add (h : Handle) (st : MxStep) : Handle :=
  { h with
    elems := addRows st.rows h.elems
    range := some (match h.range with
      | some r => (r.1, st.start + st.len)
      | none => (st.start, st.start + st.len))
    pair := some (st.fa, st.fb)
    eab := st.eab
    ba := .ofFn (fun j => some ((stepExps st.fa st.sa).getD j.val 0))
    bb := .ofFn (fun j => some ((stepExps st.fb st.sb).getD j.val 0)) }

/-- The products of one cycle's reads added to their handle, after the step's tag, metadata and block checks (R136, R137, R183): a
step that faults adds nothing, and faults with its first products (log 79). -/
def State.addMx (s : State) (b : BayId) (st : MxStep) : State :=
  let h := (s.bay b).handle st.handle
  match st.fault with
  | some i => s.strayFault b .format i
  | none =>
    if st.void then s
    else if expsDiffer h.ba (stepExps st.fa st.sa) || expsDiffer h.bb (stepExps st.fb st.sb) then
      if st.first then s.strayFault b .format (fmtInfo 3 (st.k0 % 2 ^ 30)) else s
    else s.writeHandle b st.handle (fun g => g.add st)

/-- MX_ADDITION (R176): the steps due in this cycle are added. -/
def execMxAddition (b : BayId) (s : State) : Step :=
  let now := s.now b
  let due := (s.bay b).adds.filter (fun st => decide (st.due ≤ now))
  let s1 := s.onBay b (fun x => { x with adds := x.adds.filter (fun st => decide (now < st.due)) })
  .next (due.foldl (fun acc st => acc.addMx b st) s1)

/-- MXGO_COMPLETE (R179): its peg is produced in the cycle of its last addition. -/
def execMxgoComplete (b : BayId) (s : State) : Step :=
  let now := s.now b
  .next (s.onBay b (fun x =>
    let done := x.tails.filter (fun t => decide (t.completes ≤ now))
    done.foldl (fun acc t => acc.produce t.cmd) { x with tails := x.tails.filter (fun t => decide (now < t.completes)) }))

/-! ## Drains (R181, R182) -/

/-- s_in of R181. -/
def Handle.sIn (h : Handle) (r q : Nat) : Int :=
  h.eab + ((h.ba.toList.getD (r / 32) none).getD 0) + ((h.bb.toList.getD (q / 32) none).getD 0)

/-- An element's sum. -/
def Handle.at' (h : Handle) (r q : Nat) : Int := (h.elems.getD r []).getD q 0

/-- The smallest block exponent of R182 for the elements (v, s_in), from b upwards by fuel: 31 when none fits. -/
def q4Exp (e : Int) (l : List (Int × Int)) : Nat → Nat → Nat
  | 0, b => b
  | k + 1, b =>
    if l.all (fun p =>
      let s := e + b - p.2
      if s ≥ 0 then decide ((p.1.natAbs : Int) ≤ 7 * 2 ^ s.natAbs) else decide ((p.1.natAbs : Int) * 2 ^ s.natAbs ≤ 7)) then b
    else q4Exp e l k (b + 1)

/-- Rows of output values with clamp flags, and the block exponents of a Q4 output (R181, R182). -/
def drainValues (c : Cmd) (h : Handle) (seed : Word) (e : Int) : List (List (Int × Bool)) × List Nat :=
  let stream := bits c.sh3 161 16
  let v (r q : Nat) : Int := sat (h.at' r q) 48
  let clip (r q : Nat) : Bool := clamps (h.at' r q) 48
  let block (r q : Nat) : Nat := if c.qb then q / 32 else r / 32
  let bs : List Nat :=
    if c.ofmt = 4 then
      (List.range 4).map (fun j =>
        q4Exp e ((List.range 128).flatMap (fun r =>
          ((List.range 128).filter (fun q => decide (block r q = j))).map (fun q => (v r q, h.sIn r q)))) 31 0)
    else []
  let w := match c.ofmt with
    | 0 => 8
    | 1 => 16
    | 2 => 32
    | _ => 4
  let rows := (List.range c.rows).map (fun r => (List.range c.cols).map (fun q =>
    let b : Int := if c.ofmt = 4 then (bs.getD (block r q) 0 : Nat) else 0
    let y := sshr (v r q) (e + b - h.sIn r q) w (kerf seed stream 0 (c.elemIx r q))
    (y.1, y.2 || clip r q)))
  (rows, bs)

/-- The byte runs of an output row (R181). -/
def rowRuns (c : Cmd) (bank r : Nat) (ys : List Int) : List (Nat × List Byte) :=
  let o := c.rowAt r
  let byte (x : Int) (k : Nat) : Byte := BitVec.ofInt 8 (x / 256 ^ k)
  match c.ofmt with
  | 0 => [(o, ys.map (fun x => byte x 0))]
  | 1 =>
    if c.ddst = 2 then [(o, ys.flatMap (fun x => [byte x 0, byte x 1]))]
    else [(o, ys.map (fun x => byte x 0)), (o + bank, ys.map (fun x => byte x 1))]
  | 2 => [(o, ys.flatMap (fun x => [byte x 0, byte x 1, byte x 2, byte x 3]))]
  | _ => [(o, (List.range 64).map (fun i =>
      BitVec.ofInt 8 (ys.getD (2 * i) 0 % 16 + 16 * (ys.getD (2 * i + 1) 0 % 16))))]

/-- The scale bytes and tags of a Q4 drain (R182). -/
def drainTail (c : Cmd) (bs : List Nat) : List (Nat × List Byte) :=
  bs.zipIdx.flatMap (fun x =>
    let n := bits c.sh3 198 32 + x.2
    [(c.outLine n, leBytes 2 (62 * (n / 62) % 65536)), (c.outLine n + 2 + n % 62, [BitVec.ofNat 8 x.1])])

/-- A drain as it begins: rows, register and tail (R181, R397). Its kerf values take KSEED as it stands in the begin cycle (log 80). -/
def drainStart (s : State) (b : BayId) (c : Cmd) : DrainRun :=
  let x := s.bay b
  let h := x.handle c.handle
  let reg := fmtScale c.fo
  let r := x.scAt reg
  let cont := bitAt c.sh3 231
  let e := writeE r cont
  let y := drainValues c h x.kseed e.1
  let vals := y.1.flatMap (fun row => row.map (fun p => p.1))
  let w := if c.ofmt = 1 then 16 else if c.ofmt = 2 then 32 else 8
  let clamp := y.1.any (fun row => row.any (fun p => p.2))
  ⟨c, s.now b, c.handle, c.rel, reg, scaledReg r cont e.1 (census vals w) (e.2 || clamp), ddstStore c.ddst,
    y.1.zipIdx.map (fun p => (p.2, rowRuns c (s.bankSize b) p.2 (p.1.map (fun z => z.1)))), drainTail c y.2⟩

/-- MXDRAIN at the head of the queue may begin (R179). -/
def Bay.drainReady (b : Bay) (now : Nat) : Option Cmd :=
  match b.headReady .mx now (fun op => decide (op = 257)) with
  | some c =>
    if b.drains.all (fun d => d.read now && decide (d.reg ≠ fmtScale c.fo)) && !b.owes c.handle now then some c else none
  | none => none

/-- MXDRAIN_BEGIN (R179, R181, R397): the drain reads its register; a NARROW naming it in flight is a fault of no bundle. -/
def execMxdrainBegin (b : BayId) (s : State) : Step :=
  match (s.bay b).drainReady (s.now b) with
  | none => .next s
  | some c =>
    let reg := fmtScale c.fo
    if (s.bay b).scaleBusy reg (s.now b) then
      .next ((s.onBay b (fun x => (x.dequeue .mx).consume c)).strayFault b .scaleBusy (BitVec.ofNat 72 reg))
    else
      let d := drainStart s b c
      .next (s.onBay b (fun x =>
        { (x.dequeue .mx).consume c with
          drains := x.drains ++ [d]
          scaling := x.scaling ++ [⟨reg, d.begun + 130, none⟩] }))

/-- DRAIN_ROW_LANDING (R179, R181): row r lands at the end of begin + r + 2; a release empties the handle at the end of
begin + 127. -/
def execDrainRowLanding (b : BayId) (s : State) : Step :=
  let now := s.now b
  .next ((s.bay b).drains.foldl (fun acc d =>
    let a1 := match d.rows.find? (fun p => decide (d.begun + p.1 + 2 = now)) with
      | some p => acc.land b d.store p.2 false
      | none => acc
    if d.release && decide (now = d.begun + 127) then a1.writeHandle b d.handle (fun _ => .empty) else a1) s)

/-- MXDRAIN_COMPLETE (R181, R182, R397): the scale register, the scale lines of a Q4 output and the peg. -/
def execMxdrainComplete (b : BayId) (s : State) : Step :=
  let now := s.now b
  let done := (s.bay b).drains.filter (fun d => decide (d.begun + 130 ≤ now))
  let s1 := s.onBay b (fun x => { x with drains := x.drains.filter (fun d => decide (now < d.begun + 130)) })
  .next (done.foldl (fun acc d =>
    let a1 := if d.tail = [] then acc else acc.land b d.store d.tail true
    a1.onBay b (fun x => (x.setSc d.reg d.regAfter).produce d.cmd)) s1)

/-- MXCLR at the head of the queue may begin (R179). -/
def Bay.clearReady (b : Bay) (now : Nat) : Option Cmd :=
  match b.headReady .mx now (fun op => decide (op = 258)) with
  | some c => if b.drains.all (fun d => d.read now) && !b.owes c.handle now then some c else none
  | none => none

/-- MXCLR_BEGIN (R395): the handle is emptied and the command completes in its begin cycle. -/
def execMxclrBegin (b : BayId) (s : State) : Step :=
  match (s.bay b).clearReady (s.now b) with
  | none => .next s
  | some c =>
    let s1 := s.onBay b (fun x => ((x.dequeue .mx).consume c).produce c)
    .next (s1.writeHandle b c.handle (fun _ => .empty))

end Sys2Proof.Machine
end

