-- ==== Sys2Proof/Machine/Moves.lean ====
section
/-!
DEFINITION. Plain moves (R61 to R67), long immediates (R68, R87, R384), pads (R92, R405) and shape writes (R71).
-/

namespace Sys2Proof.Machine

/-- MOVE (R61): one source to one register, operand port or bridge. -/
def execMove (c : Ctl) (d : Dst) (s : State) : Step :=
  .next (s.move c noCheck (fun v t => t.onMe (fun b => b.writeDst t.myNow d v)))

/-- lim after a long-immediate bundle (R68). -/
def limNext (r : Regs) (v : BitVec 20) : BitVec 72 :=
  if r.limRun then (r.lim <<< 20) ||| v.setWidth 72 else v.setWidth 72

/-- LIMM (R68, R384): loads or accumulates lim; it is the first act of its bundle, so slots 0 to 6 read the new value. -/
def execLimm (v : BitVec 20) (s : State) : Step :=
  .next (s.onMe (fun b => { b with regs := { b.regs with lim := limNext b.regs v, limRun := true } }))

/-- PAD C has no effect (R405). -/
def execPadC (s : State) : Step := .next s

/-- PAD J has no effect (R405). -/
def execPadJ (s : State) : Step := .next s

/-- PAD E has no effect (R405). -/
def execPadE (s : State) : Step := .next s

/-- The shx port of a shape-write unit (R71). -/
def shxPort (unit : Nat) : OpPort := if unit = 0 then .mxShx else if unit = 1 then .wk0Shx else .wk1Shx

/-- The field that shx names: an index of 256 or more names none (R71). -/
def Bay.shapeTarget (b : Bay) (unit : Nat) : Option ShapeField := shapeField unit (b.op (shxPort unit)).toNat

/-- An index that names no field faults (R71), reported as R94 reports the trigger port. -/
def shwCheck (unit : Nat) (s : State) : Check :=
  match s.me.shapeTarget unit with
  | some _ => none
  | none => some (.unimplementedPort, BitVec.ofNat 72 (1024 + 448 + unit))

/-- A shadow field written, truncated to its width (R71). -/
def Bay.writeShadow (b : Bay) (unit : Fin 3) (v : Val) : Bay :=
  match b.shapeTarget unit.val with
  | none => b
  | some f =>
    let regs := b.shadow.get unit
    let old := regs.toList.getD f.reg 0
    { b with shadow := b.shadow.set unit.val (regs.setIfInBounds f.reg (setBits old f.lo f.len v.addr.toNat)) unit.isLt }

/-- A shape write: its field lands at the end of the issue cycle (R71, R98). -/
def shapeWrite (c : Ctl) (unit : Fin 3) (s : State) : State :=
  s.move c (fun _ t => shwCheck unit.val t) (fun v t => t.onMe (fun b => b.writeShadow unit v))

/-- MX_SHW (R71). -/
def execMxShw (c : Ctl) (s : State) : Step := .next (shapeWrite c 0 s)

/-- WK0_SHW (R71). -/
def execWk0Shw (c : Ctl) (s : State) : Step := .next (shapeWrite c 1 s)

/-- WK1_SHW (R71). -/
def execWk1Shw (c : Ctl) (s : State) : Step := .next (shapeWrite c 2 s)

end Sys2Proof.Machine
end

