-- ==== Sys2Proof/Machine/Yard.lean ====
section
/-!
DEFINITION. The yard and the host: boot (R335), connections and host RDMA (R259, R261, R329 to R331), the mailbox commands (R332 to
R339), the plan queue (R58) and servicing (R338).
-/

namespace Sys2Proof.Machine

/-! ## Boot (R335) -/

/-- Clock cycles of 10 s (R21, R335). -/
def retryCycles : Nat := 12000000000

/-- A firmware image passes the check of R335. -/
def firmwarePasses (img : List Byte) : Bool := Config.firmwareOk img && decide (Config.antiRollback.toNat ≤ Config.firmwareVersion img)

/-- The ROM checks the image that TFTP has returned: the firmware runs, or the ROM waits 10 s (R335). -/
def State.tryBoot (s : State) : State :=
  if s.yard.fetched = [] then s
  else if firmwarePasses s.yard.fetched then
    { s with yard := { s.yard with boot := .running, fwA := s.yard.fetched, activeB := false, fetched := [] } }
  else { s with yard := { s.yard with boot := .rom (s.clock + retryCycles), fetched := [] } }

/-- BOOT (R335): the first attempt after reset. -/
def execBoot (s : State) : Step := if s.yard.boot = .rom 0 then .next s.tryBoot else .next s

/-- BOOT_RETRY (R335): a later attempt. -/
def execBootRetry (s : State) : Step :=
  match s.yard.boot with
  | .rom t => .next (if t ≠ 0 ∧ t ≤ s.clock then s.tryBoot else s)
  | .running => .next s

/-! ## Connections (R331) -/

/-- The lowest number that no connection has. -/
def State.freeConn (s : State) : Option Nat :=
  (List.range 1024).find? (fun k => s.yard.conns.all (fun c => decide (c.num ≠ k)))

/-- ROCE_CONNECT (R329, R331): a connection is accepted under the lowest free number, at most 1,024 of them; the answer tells where the
mailbox is. -/
def execRoceConnect (s : State) : Step :=
  match s.yard.boot, s.freeConn with
  | .running, some k =>
    let s1 : State := { s with yard := { s.yard with conns := s.yard.conns ++ [⟨k, none⟩] } }
    .next (s1.emit (.connected Config.mailboxBase Config.mailboxKey k))
  | _, _ => .next s

/-- CONNECTION_CLOSE (R331): the connection and its region are gone. -/
def execConnectionClose (conn : Nat) (s : State) : Step :=
  .next { s with yard := { s.yard with conns := s.yard.conns.filter (fun c => decide (c.num ≠ conn)) } }

/-! ## Host RDMA (R259, R261, R329, R330) -/

/-- An access that is answered with a remote access error, and logged (R329). -/
def State.rdmaRefused (s : State) : State := (s.log (.note 329 0)).emit .rdmaError

/-- An address lies in a QUEUE region, on a page of this chip's ring SRAM or LPDDR-6 (R329). -/
def hostReaches (p : Part) (a : Nat) : Bool :=
  match regionAt p a, findEntry p.tt a with
  | some (_, r), some (_, e) => decide (mwMode r.mode = 4) && tePresent e && (decide (teTier e = 3) || decide (teTier e = 4))
  | _, _ => false

/-- The pieces of n bytes from an address within one 64 KiB page each: start and length. -/
def hostPieces : Nat → Nat → Nat → List (Nat × Nat)
  | 0, _, _ => []
  | fuel + 1, a, n =>
    if n = 0 then []
    else
      let k := min n (65536 - a % 65536)
      (a, k) :: hostPieces fuel (a + k) (n - k)

/-- Host RDMA reaches n bytes of a partition's memory at a VA. -/
def State.hostMay (s : State) (q : PartId) (va : Addr) (n : Nat) : Bool :=
  let p := s.part q
  p.formed && decide (bits va 64 8 = p.mem.asid.toNat) && decide (n ≠ 0)
    && (hostPieces (n / 65536 + 2) (vaNat va) n).all (fun x => hostReaches p x.1)

/-- The VA of an address of a partition. -/
def Part.vaAt (p : Part) (a : Nat) : Addr := p.mem.asid ++ BitVec.ofNat 64 a

/-- Bytes that host RDMA reads at a VA. -/
def State.hostReadVa (s : State) (q : PartId) (va : Addr) (n : Nat) : List Byte :=
  (hostPieces (n / 65536 + 2) (vaNat va) n).flatMap (fun x => s.getVa q ((s.part q).vaAt x.1) x.2)

/-- Bytes that a party of the asynchronous domain writes at a VA; PENDING is set (R205). -/
def State.writeVaBy (s : State) (q : PartId) (party tag : Nat) (va : Addr) (data : List Byte) : State :=
  (pageChunks (data.length / 65536 + 2) (vaNat va) data).foldl (fun acc x => acc.putBy q party tag ((s.part q).vaAt x.1) x.2) s

/-- The gates of the queues in one slot of which a write of n bytes lands whole, a packet of 64 bytes at the slot's beginning (R259;
log 50). -/
def State.slotGates (s : State) (q : PartId) (va : Addr) (n : Nat) : List Addr :=
  ((s.part q).queues.map (fun x => (BitVec.ofNat 512 (leNat (s.getVa q x.2 64)) : BitVec 512))).filterMap (fun h =>
    let base := vaNat (hdrSlotVa h)
    let a := vaNat va
    if n = 64 ∧ base ≤ a ∧ (a - base) % 64 = 0 ∧ (a - base) / 64 < 2 ^ hdrLog2n h then some (hdrGateVa h) else none)

/-- A write of the host to the request ring (R330): the slot's packet is here once a write covers it. -/
def State.mailboxWrite (s : State) (conn off : Nat) (data : List Byte) : State :=
  let s1 : State := { s with yard := { s.yard with mailbox := Mem.writeN s.yard.mailbox off data } }
  if off % 64 = 0 ∧ data.length = 64 then
    let k := (off - 0x1000) / 64
    { s1 with yard := { s1.yard with requester := s1.yard.requester.filter (fun x => decide (x.1 ≠ k)) ++ [(k, conn)] } }
  else s1

/-- The place of the first byte of a VA, where it is memory of this chip. -/
def Part.placeAt (p : Part) (va : Addr) : Option Place := (p.vaPlace va).map (fun x => x.2)

/-- A transfer of the host to or from n bytes of a partition goes to the 0xF0 slots, page by page (R24). -/
def State.queueHost (s : State) (q : PartId) (va : Addr) (n : Nat) (act : Traffic) : State :=
  let l := hostPieces (n / 65536 + 2) (vaNat va) n
  l.zipIdx.foldl (fun acc x => acc.queueBurst q 0xF0 ((s.part q).placeAt ((s.part q).vaAt x.1.1)) x.1.2
    (if x.2 + 1 = l.length then act else .bulk)) s

/-- RDMA_WRITE (R24, R259, R329, R330): it waits for its slots and is then applied whole in one cycle; a write that lands whole in one slot
of a queue adds 64 to the queue's gate. -/
def execRdmaWrite (t : RdmaTarget) (data : List Byte) (s : State) : Step :=
  if s.yard.boot ≠ .running then .next s
  else
    match t with
    | .memory peer q va =>
      if s.hostMay q va data.length then
        let n := s.freshTag
        .next ((s.slotGates q va data.length).foldl (fun acc g => acc.queueBurst q 0xF0 none 0 (.arrive (hostParty peer) n.1 g 64))
          (n.2.queueHost q va data.length (.bytes (hostParty peer) n.1 va data)))
      else .next s.rdmaRefused
    | .mailbox conn off =>
      if s.yard.conns.any (fun c => decide (c.num = conn)) ∧ 0x1000 ≤ off ∧ off + data.length ≤ 0x2000 then
        .next (s.mailboxWrite conn off data)
      else .next s.rdmaRefused

/-- The parts of the mailbox that the host may read (R330). -/
def mailboxMay (off n : Nat) : Bool :=
  decide (off + n ≤ 16) || (decide (0x1000 ≤ off) && decide (off + n ≤ 0x3400))

/-- RDMA_READ (R329, R330). -/
def execRdmaRead (t : RdmaTarget) (n : Nat) (s : State) : Step :=
  if s.yard.boot ≠ .running then .next s
  else
    match t with
    | .memory _ q va => if s.hostMay q va n then .next (s.queueHost q va n (.hostRead va n)) else .next s.rdmaRefused
    | .mailbox _ off =>
      if mailboxMay off n then .next (s.emit (.rdmaAnswer (Mem.readN s.yard.mailbox off n))) else .next s.rdmaRefused

/-- ATOMIC_FETCH_AND_ADD (R261, R329, R330): on an 8-byte word of a QUEUE region, or on the request index. -/
def execAtomicFetchAndAdd (t : RdmaTarget) (v : Word) (s : State) : Step :=
  if s.yard.boot ≠ .running then .next s
  else
    match t with
    | .memory peer q va =>
      if s.hostMay q va 8 ∧ vaNat va % 8 = 0 then
        .next (s.queueHost q va 8 (.hostAdd (hostParty peer) va v))
      else .next s.rdmaRefused
    | .mailbox _ off =>
      if off = 0 then
        let old : Word := BitVec.ofNat 64 s.reqIndex
        let s1 : State := { s with yard := { s.yard with mailbox := Mem.writeN s.yard.mailbox 0 (leBytes 8 (old + v).toNat) } }
        .next (s1.emit (.atomicAnswer old))
      else .next s.rdmaRefused

/-! ## Requests (R123, R330, R332) -/

/-- The status of a request under R123; its SIZE is 1 whatever its VERSION (log 94). -/
def reqStatus (r : BitVec 512) : Nat :=
  if bits r 0 8 = 0 ∨ bits r 8 8 ≠ 1 then 1
  else if bits r 24 8 ≠ 0 ∨ bits r 256 256 ≠ 0 then 3
  else 0

/-- A firmware switch or a servicing operation is in progress (R332, R339). -/
def Yard.busy (y : Yard) : Bool := y.switching.isSome || y.recalibrate

/-- Request n is served by f where its CMD passes a test, it is due and its LOAD is not already in course: R123 first, then BUSY. -/
def State.serve (s : State) (n : Nat) (cmd : Nat → Bool) (f : BitVec 512 → State → State) : Step :=
  let r := s.request n
  if s.requestDue n && cmd (reqCmd r) && s.parts.toList.all (fun p => decide (p.request ≠ some n)) then
    if reqStatus r ≠ 0 then .next (s.respond n (reqStatus r) 0)
    else if s.yard.busy then .next (s.respond n 5 0)
    else .next (f r s)
  else .next s

/-- A request of CMD k. -/
def isCmd (k : Nat) : Nat → Bool := fun c => decide (c = k)

/-- The number of the connection that wrote request n. -/
def State.requester' (s : State) (n : Nat) : Nat := (s.requesterOf n).getD 0

/-- The answer to a load of request n: at once, or when the pod-wide checks are complete (R317, R333). -/
def State.answerLoad (s : State) (n : Nat) (img : List Byte) (r : Except Nat (PartId × State)) : State :=
  match r with
  | .error e => (s.refusePod img).refuse n 4 e
  | .ok (q, t) => if (t.part q).podDone then t.respond n 0 q.val else t.onPart q (fun p => { p with request := some n })

/-- LOAD of an image: now, later from the yard's queue, or not (R28, R58, R333). -/
def State.load (s : State) (n : Nat) (img : List Byte) : State :=
  match s.forming img with
  | .refused rule => (s.refusePod img).refuse n 4 rule
  | .now => s.answerLoad n img (s.loadPlan img)
  | .waits l =>
    let s1 := s.askPreempt l
    let s2 : State := { s1 with yard := { s1.yard with planq := s1.yard.planq ++ [⟨storyPrio (storyHeader img), img⟩] } }
    s2.respond n 0 (storyPart (storyHeader img))

/-- LOAD (R332, R333). -/
def execLoad (n : Nat) (s : State) : Step :=
  s.serve n (isCmd 1) (fun r t =>
    match t.hostGet (reqArg r 2) (reqArg r 0) (reqArg r 1) with
    | none => t.refuse n 9 331
    | some img => if bits (imgHeader img) 32 32 ≠ reqArg r 1 then t.refuse n 4 332 else t.load n img)

/-- A pre-empted partition takes bents of a waiting plan before it: it was submitted earlier, and its PRIO is no lower (R58). -/
def State.heldBack (s : State) (w : WaitingPlan) : Bool :=
  s.parts.toList.any (fun p => s.resumable p && decide (w.prio ≤ p.hdr.prio)
    && decide (storyBents (storyHeader w.image) &&& p.hdr.bents ≠ 0))

/-- The plan of the queue that goes next (R58): the highest priority, then the earliest, of those that need not wait. -/
def State.nextPlan (s : State) : Option WaitingPlan :=
  let l := s.yard.planq.filter (fun w =>
    match s.forming w.image with
    | .now => !s.heldBack w
    | .refused _ => true
    | .waits _ => false)
  l.foldl (fun acc w =>
    match acc with
    | none => some w
    | some a => if a.prio < w.prio then some w else some a) none

/-- PLAN_DISPATCH (R58): a queued plan is loaded when its bents are free; a refusal is logged. -/
def execPlanDispatch (s : State) : Step :=
  match s.nextPlan with
  | none => .next s
  | some w =>
    let s1 : State := { s with yard := { s.yard with planq := s.yard.planq.erase w } }
    match s1.forming w.image with
    | .now =>
      match s1.loadPlan w.image with
      | .ok (_, t) => .next t
      | .error e => .next ((s1.refusePod w.image).log (.note e 0))
    | .refused e => .next (s1.log (.note e 0))
    | .waits _ => .next s

/-- STOP (R332). -/
def execStop (n : Nat) (s : State) : Step :=
  s.serve n (isCmd 2) (fun r t =>
    let q : PartId := Fin.ofNat 8 (reqArg r 0)
    if reqArg r 0 < 8 ∧ (t.part q).mode ≠ .unformed then (t.dissolve q).respond n 0 0 else t.refuse n 4 332)

/-- The fault records of the error log (R302). -/
def Yard.records (y : Yard) : List (BitVec 256) :=
  y.errlog.filterMap (fun e =>
    match e with
    | .fault r => some r
    | .note _ _ | .reading _ _ _ => none)

/-- LOGREAD (R302, R332): records from ARG1 on, to the requester's region at ARG0. -/
def execLogread (n : Nat) (s : State) : Step :=
  s.serve n (isCmd 3) (fun r t =>
    let l := t.yard.records.drop (reqArg r 1)
    match t.hostPut (t.requester' n) (reqArg r 0) (l.flatMap (fun x => leBytes 32 x.toNat)) with
    | none => t.refuse n 9 331
    | some u => u.respond n 0 l.length)

/-- SLOTREAD (R321, R332). -/
def execSlotread (n : Nat) (s : State) : Step :=
  s.serve n (isCmd 4) (fun r t =>
    if reqArg r 0 < 64 then t.respond n 0 (t.router.get (Fin.ofNat 64 (reqArg r 0))).status.toNat else t.refuse n 4 332)

/-- The partitions whose tables map a VA, with the entry (R211). -/
def State.mappers (s : State) (a : Nat) : List (PartId × Nat × BitVec 128) :=
  (List.finRange 8).filterMap (fun q =>
    if (s.part q).formed then (findEntry (s.part q).tt a).map (fun e => (q, e)) else none)

/-- A partition's plan runs (R332): between frames and at a checkpoint too, but not before frame 0, nor once it has stopped. -/
def Part.running (p : Part) : Bool := p.inRounds || decide (p.mode = .checkpointed)

/-- PAGEREQ (R211, R332): HELD for a page at STIER 3, 4 or 5 of a running plan; a STIER 6 page is asked for. -/
def execPagereq (n : Nat) (s : State) : Step :=
  s.serve n (isCmd 5) (fun r t =>
    let l := t.mappers (reqArg r 0)
    if l.any (fun x => decide (teStier x.2.2 ≠ 6) && (t.part x.1).running) then t.respond n 6 0
    else
      match l.filter (fun x => decide (teStier x.2.2 = 6)) with
      | [] => t.refuse n 4 211
      | (q, x, _) :: _ => ({ t with yard := { t.yard with hostWants := t.yard.hostWants ++ [(q.val, x)] } } : State).respond n 0 0)

/-- FWSTAGE (R339): the inactive slot takes the image; a failed check is answered BADSIG (log 101). -/
def execFwstage (n : Nat) (s : State) : Step :=
  s.serve n (isCmd 7) (fun r t =>
    match t.hostGet (t.requester' n) (reqArg r 0) (reqArg r 1) with
    | none => t.refuse n 9 331
    | some img =>
      let y := if t.yard.activeB then { t.yard with fwA := img, staged := firmwarePasses img }
        else { t.yard with fwB := img, staged := firmwarePasses img }
      ({ t with yard := y } : State).respond n (if firmwarePasses img then 0 else 7) 0)

/-- The partitions that run. -/
def State.runningIds (s : State) : List Nat :=
  ((List.finRange 8).filter (fun q => (s.part q).inRounds)).map (fun q => q.val)

/-- FWSWITCH (R339): the staged slot awaits the next frame start of every running partition; BADSIG where none passed its check. -/
def execFwswitch (n : Nat) (s : State) : Step :=
  s.serve n (isCmd 8) (fun _ t =>
    if t.yard.staged then ({ t with yard := { t.yard with switching := some t.runningIds } } : State).respond n 0 0
    else t.respond n 7 0)

/-- FIRMWARE_ACTIVATION (R339): every partition that ran has started a frame, or runs no more. -/
def execFirmwareActivation (s : State) : Step :=
  match s.yard.switching with
  | none => .next s
  | some l =>
    if l.all (fun q => !s.runningIds.contains q) then
      .next { s with yard := { s.yard with activeB := !s.yard.activeB, staged := false, switching := none } }
    else .next s

/-- A byte list cut or filled with zeros to n bytes. -/
def fitBytes (n : Nat) (l : List Byte) : List Byte := (l ++ List.replicate n 0).take n

/-- A hash in the byte order of SHA-384 (R336). -/
def hashBytes (l : List Byte) : List Byte := (leBytes 48 (Config.sha384 l).toNat).reverse

/-- The remap tables as a quote hashes them (R336). -/
def State.remapBytes (s : State) : List Byte :=
  (s.bents.toList.flatMap (fun t => t.remap.toList)) ++
    (match s.podHeader with
      | some f => (List.range f.nlchip).flatMap (fun c => leBytes 2 (s.chipEntry f c).toNat)
      | none => [])

/-- Bytes 0 to 815 of a quote (R336). -/
def State.quoteBody (s : State) (nonce0 nonce1 : Nat) : List Byte :=
  let mask := ((List.range 8).map (fun p => if ((s.parts.toList.getD p .reset).mode ≠ .unformed) then 2 ^ p else 0)).sum
  let active := if s.yard.activeB then s.yard.fwB else s.yard.fwA
  [1, 15, BitVec.ofNat 8 mask, 0] ++ leBytes 4 Config.antiRollback.toNat ++ leBytes 8 nonce0 ++ leBytes 8 nonce1 ++ leBytes 8 s.ptp
    ++ hashBytes active
    ++ (s.parts.toList.flatMap (fun p => if p.mode = .unformed then List.replicate 48 0 else hashBytes p.image))
    ++ hashBytes s.remapBytes
    ++ s.phys.toList.map (fun x => if x.healthy then BitVec.ofNat 8 (min 4 x.shim.length) else 5)
    ++ fitBytes 96 Config.identityKey

/-- QUOTE (R336): 960 bytes in the quote area. -/
def execQuote (n : Nat) (s : State) : Step :=
  s.serve n (isCmd 9) (fun r t =>
    let body := t.quoteBody (reqArg r 0) (reqArg r 1)
    let all := body ++ fitBytes 96 (Config.sign body) ++ List.replicate 48 0
    ({ t with yard := { t.yard with mailbox := Mem.writeN t.yard.mailbox 0x3000 all } } : State).respond n 0 0)

/-- The monitor that ARG0 of MONREAD names (R332): a physical bay id its temperature monitor, another id as the part numbers its monitors
(log 61). -/
def monitorId (id : Nat) : Nat := if id < 208 then id else Config.monitorOf id

/-- A monitor reading (R337): none for an id that names no monitor. -/
def State.reading (s : State) (id : Nat) : Option Int :=
  if id < 208 then some (s.phys.get (Fin.ofNat 208 id)).temp
  else if id < 216 then some (s.bents.get (Fin.ofNat 8 (id - 208))).droop
  else if id < 224 then some (s.bents.get (Fin.ofNat 8 (id - 216))).process
  else none

/-- MONREAD (R332, R337). -/
def execMonread (n : Nat) (s : State) : Step :=
  s.serve n (isCmd 10) (fun r t =>
    match t.reading (monitorId (reqArg r 0)) with
    | some v => t.respond n 0 (v % 2 ^ 64).toNat
    | none => t.refuse n 4 337)

/-- HOSTREG (R331, R332): the requester's region, replacing an earlier one. -/
def execHostreg (n : Nat) (s : State) : Step :=
  s.serve n (isCmd 11) (fun r t =>
    if reqArg r 2 ≠ 0 then t.respond n 3 0
    else
      let region := (BitVec.ofNat 64 (reqArg r 0), BitVec.ofNat 32 (reqArg r 1), reqArg r 1 / 2 ^ 32)
      let conns := t.yard.conns.map (fun c => if c.num = t.requester' n then { c with region := some region } else c)
      ({ t with yard := { t.yard with conns := conns } } : State).respond n 0 0)

/-- CERT (R332, R336). -/
def execCert (n : Nat) (s : State) : Step :=
  s.serve n (isCmd 12) (fun r t =>
    match t.hostPut (t.requester' n) (reqArg r 0) (Config.certificate.take 2048) with
    | none => t.refuse n 9 331
    | some u => u.respond n 0 (Config.certificate.take 2048).length)

/-- BADCMD (R332): a request of no command, or of a servicing operation that there is not. -/
def execBadcmd (n : Nat) (s : State) : Step :=
  s.serve n (fun c => decide (c = 0) || decide (12 < c)
      || (decide (c = 6) && decide (6 ≤ Config.serviceCode (reqArg (s.request n) 0))))
    (fun r t => if reqCmd r = 6 then t.refuse n 4 338 else t.respond n 8 0)

/-! ## Servicing (R338) -/

/-- A servicing request of operation k, served with its unit (R338). -/
def State.service (s : State) (n k : Nat) (f : Nat → State → State) : Step :=
  s.serve n (fun c => decide (c = 6) && decide (Config.serviceCode (reqArg (s.request n) 0) = k)) (fun r t => f (reqArg r 1) t)

/-- A bent changed. -/
def State.onBent (s : State) (t : Fin 8) (f : Bent → Bent) : State := { s with bents := s.bents.set t.val (f (s.bents.get t)) t.isLt }

/-- RETIRE_BENT (R338): of a bent in no running partition; the bent enters self-refresh. -/
def execRetireBent (n : Nat) (s : State) : Step :=
  s.service n 0 (fun u t =>
    let b : Fin 8 := Fin.ofNat 8 u
    let free := match t.partOfBent b with
      | none => true
      | some q => decide ((t.part q).mode = .stopped)
    if u < 8 ∧ free = true then (t.onBent b (fun x => { x with retired := true })).respond n 0 0 else t.refuse n 4 338)

/-- The bays of a bent with their shim maps cleared (R185). -/
def State.clearShims (s : State) (t : Fin 8) : State :=
  { s with phys := .ofFn (fun i => let x := s.phys.get i; if i.val / 26 = t.val then { x with shim := [] } else x) }

/-- READMIT_BENT (R338): whether recalibration passes is not the chip's to say, and is free. -/
def execReadmitBent (n : Nat) (s : State) : Step :=
  s.service n 1 (fun u t =>
    let b : Fin 8 := Fin.ofNat 8 u
    let w := t.freeWord
    if u < 8 ∧ (t.bents.get b).retired = true ∧ w.1.getLsbD 0 = true then
      ((w.2.clearShims b).onBent b (fun x => { x with retired := false, badChannels := [], marked := [] })).respond n 0 0
    else w.2.refuse n 4 338)

/-- RELOAD_PARTITION (R338): STOP, then LOAD of the plan that the partition held. -/
def execReloadPartition (n : Nat) (s : State) : Step :=
  s.service n 2 (fun u t =>
    let q : PartId := Fin.ofNat 8 u
    if u < 8 ∧ (t.part q).mode ≠ .unformed then
      let img := (t.part q).image
      let t1 := t.dissolve q
      match t1.forming img with
      | .now => t1.answerLoad n img (t1.loadPlan img)
      | .refused rule => t1.refuse n 4 rule
      | .waits _ => t1.load n img
    else t.refuse n 4 338)

/-- RETIRE_CHANNEL (R338): of a retired bent. -/
def execRetireChannel (n : Nat) (s : State) : Step :=
  s.service n 3 (fun u t =>
    let b : Fin 8 := Fin.ofNat 8 (u / 12)
    if u < 96 ∧ (t.bents.get b).retired = true then
      (t.onBent b (fun x => { x with badChannels := (u :: x.badChannels).eraseDups })).respond n 0 0
    else t.refuse n 4 338)

/-- DEGRADE_LANES (R338): 12 lanes on a port from the next load of a pod plan. -/
def execDegradeLanes (n : Nat) (s : State) : Step :=
  s.service n 4 (fun u t =>
    if h : u < 6 then
      ({ t with links := t.links.set u { t.links.get ⟨u, h⟩ with lanes := 12 } h } : State).respond n 0 0
    else t.refuse n 4 338)

/-- RECALIBRATE_MONITORS (R338): in progress until the next frame start, where a partition runs. -/
def execRecalibrateMonitors (n : Nat) (s : State) : Step :=
  s.service n 5 (fun _ t =>
    ({ t with yard := { t.yard with recalibrate := decide (t.runningIds ≠ []) } } : State).respond n 0 0)

/-- The request that is next to be answered, served by the command that it names (R330). -/
def State.serveMailbox (s : State) : Step :=
  let n := s.respIndex
  match reqCmd (s.request n) with
  | 1 => execLoad n s
  | 2 => execStop n s
  | 3 => execLogread n s
  | 4 => execSlotread n s
  | 5 => execPagereq n s
  | 6 =>
    match Config.serviceCode (reqArg (s.request n) 0) with
    | 0 => execRetireBent n s
    | 1 => execReadmitBent n s
    | 2 => execReloadPartition n s
    | 3 => execRetireChannel n s
    | 4 => execDegradeLanes n s
    | 5 => execRecalibrateMonitors n s
    | _ => execBadcmd n s
  | 7 => execFwstage n s
  | 8 => execFwswitch n s
  | 9 => execQuote n s
  | 10 => execMonread n s
  | 11 => execHostreg n s
  | 12 => execCert n s
  | _ => execBadcmd n s

end Sys2Proof.Machine
end

