-- ==== Sys2Proof/Machine/Dispatch.lean ====
section
/-!
DEFINITION. Dispatch: each step of Instr to its own meaning.
-/

namespace Sys2Proof.Machine

/-- The meaning of every step of the part. -/
def exec (i : Instr) (s : State) : Host.Outcome State Fault Refusal :=
  match i with
  | .move c d => Sys2Proof.Machine.execMove c d s
  | .limm v => Sys2Proof.Machine.execLimm v s
  | .add c u => Sys2Proof.Machine.execAdd c u s
  | .sub c u => Sys2Proof.Machine.execSub c u s
  | .adds c u => Sys2Proof.Machine.execAdds c u s
  | .subs c u => Sys2Proof.Machine.execSubs c u s
  | .and c u => Sys2Proof.Machine.execAnd c u s
  | .or c u => Sys2Proof.Machine.execOr c u s
  | .xor c u => Sys2Proof.Machine.execXor c u s
  | .andn c u => Sys2Proof.Machine.execAndn c u s
  | .shl c u => Sys2Proof.Machine.execShl c u s
  | .shr c u => Sys2Proof.Machine.execShr c u s
  | .sar c u => Sys2Proof.Machine.execSar c u s
  | .rotl c u => Sys2Proof.Machine.execRotl c u s
  | .min c u => Sys2Proof.Machine.execMin c u s
  | .max c u => Sys2Proof.Machine.execMax c u s
  | .minu c u => Sys2Proof.Machine.execMinu c u s
  | .maxu c u => Sys2Proof.Machine.execMaxu c u s
  | .abs c u => Sys2Proof.Machine.execAbs c u s
  | .clz c u => Sys2Proof.Machine.execClz c u s
  | .cls c u => Sys2Proof.Machine.execCls c u s
  | .popc c u => Sys2Proof.Machine.execPopc c u s
  | .ext c u => Sys2Proof.Machine.execExt c u s
  | .ins c u => Sys2Proof.Machine.execIns c u s
  | .sel c u => Sys2Proof.Machine.execSel c u s
  | .cmpeq c u => Sys2Proof.Machine.execCmpeq c u s
  | .cmpne c u => Sys2Proof.Machine.execCmpne c u s
  | .cmplt c u => Sys2Proof.Machine.execCmplt c u s
  | .cmple c u => Sys2Proof.Machine.execCmple c u s
  | .cmpltu c u => Sys2Proof.Machine.execCmpltu c u s
  | .cmpleu c u => Sys2Proof.Machine.execCmpleu c u s
  | .pand c u => Sys2Proof.Machine.execPand c u s
  | .por c u => Sys2Proof.Machine.execPor c u s
  | .pxor c u => Sys2Proof.Machine.execPxor c u s
  | .pnot c u => Sys2Proof.Machine.execPnot c u s
  | .mul c => Sys2Proof.Machine.execMul c s
  | .mulh c => Sys2Proof.Machine.execMulh c s
  | .mulhu c => Sys2Proof.Machine.execMulhu c s
  | .mulq c => Sys2Proof.Machine.execMulq c s
  | .div c => Sys2Proof.Machine.execDiv c s
  | .divu c => Sys2Proof.Machine.execDivu c s
  | .rem c => Sys2Proof.Machine.execRem c s
  | .divq c => Sys2Proof.Machine.execDivq c s
  | .sqrtq c => Sys2Proof.Machine.execSqrtq c s
  | .adda c u => Sys2Proof.Machine.execAdda c u s
  | .suba c u => Sys2Proof.Machine.execSuba c u s
  | .ld c u => Sys2Proof.Machine.execLd c u s
  | .st c u => Sys2Proof.Machine.execSt c u s
  | .ldg c u => Sys2Proof.Machine.execLdg c u s
  | .stg c u => Sys2Proof.Machine.execStg c u s
  | .ldc c u => Sys2Proof.Machine.execLdc c u s
  | .stp c u => Sys2Proof.Machine.execStp c u s
  | .atadd c => Sys2Proof.Machine.execAtadd c s
  | .atmax c => Sys2Proof.Machine.execAtmax c s
  | .atmin c => Sys2Proof.Machine.execAtmin c s
  | .ator c => Sys2Proof.Machine.execAtor c s
  | .fetchadd c => Sys2Proof.Machine.execFetchadd c s
  | .hand c => Sys2Proof.Machine.execHand c s
  | .tlook c => Sys2Proof.Machine.execTlook c s
  | .tfill c => Sys2Proof.Machine.execTfill c s
  | .tevict c => Sys2Proof.Machine.execTevict c s
  | .mxShw c => Sys2Proof.Machine.execMxShw c s
  | .wk0Shw c => Sys2Proof.Machine.execWk0Shw c s
  | .wk1Shw c => Sys2Proof.Machine.execWk1Shw c s
  | .vec0Add c w => Sys2Proof.Machine.execVec0Add c w s
  | .vec1Add c w => Sys2Proof.Machine.execVec1Add c w s
  | .vec0Sub c w => Sys2Proof.Machine.execVec0Sub c w s
  | .vec1Sub c w => Sys2Proof.Machine.execVec1Sub c w s
  | .vec0Adds c w => Sys2Proof.Machine.execVec0Adds c w s
  | .vec1Adds c w => Sys2Proof.Machine.execVec1Adds c w s
  | .vec0Subs c w => Sys2Proof.Machine.execVec0Subs c w s
  | .vec1Subs c w => Sys2Proof.Machine.execVec1Subs c w s
  | .vec0And c w => Sys2Proof.Machine.execVec0And c w s
  | .vec1And c w => Sys2Proof.Machine.execVec1And c w s
  | .vec0Or c w => Sys2Proof.Machine.execVec0Or c w s
  | .vec1Or c w => Sys2Proof.Machine.execVec1Or c w s
  | .vec0Xor c w => Sys2Proof.Machine.execVec0Xor c w s
  | .vec1Xor c w => Sys2Proof.Machine.execVec1Xor c w s
  | .vec0Andn c w => Sys2Proof.Machine.execVec0Andn c w s
  | .vec1Andn c w => Sys2Proof.Machine.execVec1Andn c w s
  | .vec0Shl c w => Sys2Proof.Machine.execVec0Shl c w s
  | .vec1Shl c w => Sys2Proof.Machine.execVec1Shl c w s
  | .vec0Shr c w => Sys2Proof.Machine.execVec0Shr c w s
  | .vec1Shr c w => Sys2Proof.Machine.execVec1Shr c w s
  | .vec0Sar c w => Sys2Proof.Machine.execVec0Sar c w s
  | .vec1Sar c w => Sys2Proof.Machine.execVec1Sar c w s
  | .vec0Min c w => Sys2Proof.Machine.execVec0Min c w s
  | .vec1Min c w => Sys2Proof.Machine.execVec1Min c w s
  | .vec0Max c w => Sys2Proof.Machine.execVec0Max c w s
  | .vec1Max c w => Sys2Proof.Machine.execVec1Max c w s
  | .vec0Abs c w => Sys2Proof.Machine.execVec0Abs c w s
  | .vec1Abs c w => Sys2Proof.Machine.execVec1Abs c w s
  | .vec0Sel c w => Sys2Proof.Machine.execVec0Sel c w s
  | .vec1Sel c w => Sys2Proof.Machine.execVec1Sel c w s
  | .vec0Cmpeq c w => Sys2Proof.Machine.execVec0Cmpeq c w s
  | .vec1Cmpeq c w => Sys2Proof.Machine.execVec1Cmpeq c w s
  | .vec0Cmpne c w => Sys2Proof.Machine.execVec0Cmpne c w s
  | .vec1Cmpne c w => Sys2Proof.Machine.execVec1Cmpne c w s
  | .vec0Cmplt c w => Sys2Proof.Machine.execVec0Cmplt c w s
  | .vec1Cmplt c w => Sys2Proof.Machine.execVec1Cmplt c w s
  | .vec0Cmple c w => Sys2Proof.Machine.execVec0Cmple c w s
  | .vec1Cmple c w => Sys2Proof.Machine.execVec1Cmple c w s
  | .vec0Cmpltu c w => Sys2Proof.Machine.execVec0Cmpltu c w s
  | .vec1Cmpltu c w => Sys2Proof.Machine.execVec1Cmpltu c w s
  | .vec0Cmpleu c w => Sys2Proof.Machine.execVec0Cmpleu c w s
  | .vec1Cmpleu c w => Sys2Proof.Machine.execVec1Cmpleu c w s
  | .vec0Pand c w => Sys2Proof.Machine.execVec0Pand c w s
  | .vec1Pand c w => Sys2Proof.Machine.execVec1Pand c w s
  | .vec0Por c w => Sys2Proof.Machine.execVec0Por c w s
  | .vec1Por c w => Sys2Proof.Machine.execVec1Por c w s
  | .vec0Pxor c w => Sys2Proof.Machine.execVec0Pxor c w s
  | .vec1Pxor c w => Sys2Proof.Machine.execVec1Pxor c w s
  | .vec0Pnot c w => Sys2Proof.Machine.execVec0Pnot c w s
  | .vec1Pnot c w => Sys2Proof.Machine.execVec1Pnot c w s
  | .vec0Mulw c w => Sys2Proof.Machine.execVec0Mulw c w s
  | .vec1Mulw c w => Sys2Proof.Machine.execVec1Mulw c w s
  | .vec0Mulq c w => Sys2Proof.Machine.execVec0Mulq c w s
  | .vec1Mulq c w => Sys2Proof.Machine.execVec1Mulq c w s
  | .vec0Macw c w => Sys2Proof.Machine.execVec0Macw c w s
  | .vec1Macw c w => Sys2Proof.Machine.execVec1Macw c w s
  | .vec0Shrs c w => Sys2Proof.Machine.execVec0Shrs c w s
  | .vec1Shrs c w => Sys2Proof.Machine.execVec1Shrs c w s
  | .vec0Narrow c w => Sys2Proof.Machine.execVec0Narrow c w s
  | .vec1Narrow c w => Sys2Proof.Machine.execVec1Narrow c w s
  | .vec0Widen c w => Sys2Proof.Machine.execVec0Widen c w s
  | .vec1Widen c w => Sys2Proof.Machine.execVec1Widen c w s
  | .vec0Bcast c w => Sys2Proof.Machine.execVec0Bcast c w s
  | .vec1Bcast c w => Sys2Proof.Machine.execVec1Bcast c w s
  | .vec0Swapp c w => Sys2Proof.Machine.execVec0Swapp c w s
  | .vec1Swapp c w => Sys2Proof.Machine.execVec1Swapp c w s
  | .vec0Ldv c w => Sys2Proof.Machine.execVec0Ldv c w s
  | .vec1Ldv c w => Sys2Proof.Machine.execVec1Ldv c w s
  | .vec0Stv c w => Sys2Proof.Machine.execVec0Stv c w s
  | .vec1Stv c w => Sys2Proof.Machine.execVec1Stv c w s
  | .vec0Mcount c w => Sys2Proof.Machine.execVec0Mcount c w s
  | .vec1Mcount c w => Sys2Proof.Machine.execVec1Mcount c w s
  | .vec0Laneget c w => Sys2Proof.Machine.execVec0Laneget c w s
  | .vec1Laneget c w => Sys2Proof.Machine.execVec1Laneget c w s
  | .vec0Laneset c w => Sys2Proof.Machine.execVec0Laneset c w s
  | .vec1Laneset c w => Sys2Proof.Machine.execVec1Laneset c w s
  | .redadd c w => Sys2Proof.Machine.execRedadd c w s
  | .redmax c w => Sys2Proof.Machine.execRedmax c w s
  | .redmin c w => Sys2Proof.Machine.execRedmin c w s
  | .census c w => Sys2Proof.Machine.execCensus c w s
  | .perm c w => Sys2Proof.Machine.execPerm c w s
  | .lanerot c w => Sys2Proof.Machine.execLanerot c w s
  | .hlook c w => Sys2Proof.Machine.execHlook c w s
  | .lut c w => Sys2Proof.Machine.execLut c w s
  | .dec4 c w => Sys2Proof.Machine.execDec4 c w s
  | .enc4 c w => Sys2Proof.Machine.execEnc4 c w s
  | .exp2q c => Sys2Proof.Machine.execExp2q c s
  | .log2q c => Sys2Proof.Machine.execLog2q c s
  | .rcpq c => Sys2Proof.Machine.execRcpq c s
  | .rsqq c => Sys2Proof.Machine.execRsqq c s
  | .sinq c => Sys2Proof.Machine.execSinq c s
  | .cosq c => Sys2Proof.Machine.execCosq c s
  | .optm c => Sys2Proof.Machine.execOptm c s
  | .optv c => Sys2Proof.Machine.execOptv c s
  | .optw c => Sys2Proof.Machine.execOptw c s
  | .mxgo c => Sys2Proof.Machine.execMxgo c s
  | .mxdrain c => Sys2Proof.Machine.execMxdrain c s
  | .mxclr c => Sys2Proof.Machine.execMxclr c s
  | .wk0Walk c => Sys2Proof.Machine.execWk0Walk c s
  | .wk0Walkm c => Sys2Proof.Machine.execWk0Walkm c s
  | .wk1Walk c => Sys2Proof.Machine.execWk1Walk c s
  | .wk1Walkm c => Sys2Proof.Machine.execWk1Walkm c s
  | .gate c => Sys2Proof.Machine.execGate c s
  | .qput c => Sys2Proof.Machine.execQput c s
  | .send c => Sys2Proof.Machine.execSend c s
  | .recv c => Sys2Proof.Machine.execRecv c s
  | .cred c => Sys2Proof.Machine.execCred c s
  | .cbcast c => Sys2Proof.Machine.execCbcast c s
  | .commit c => Sys2Proof.Machine.execCommit c s
  | .reshard c => Sys2Proof.Machine.execReshard c s
  | .rsstat c => Sys2Proof.Machine.execRsstat c s
  | .jig c => Sys2Proof.Machine.execJig c s
  | .pegclr c => Sys2Proof.Machine.execPegclr c s
  | .br c => Sys2Proof.Machine.execBr c s
  | .brm c => Sys2Proof.Machine.execBrm c s
  | .call c => Sys2Proof.Machine.execCall c s
  | .calli c => Sys2Proof.Machine.execCalli c s
  | .ret c => Sys2Proof.Machine.execRet c s
  | .jmpi c => Sys2Proof.Machine.execJmpi c s
  | .padC => Sys2Proof.Machine.execPadC s
  | .padJ => Sys2Proof.Machine.execPadJ s
  | .padE => Sys2Proof.Machine.execPadE s
  | .loop c => Sys2Proof.Machine.execLoop c s
  | .endTask c => Sys2Proof.Machine.execEndTask c s
  | .spawn c => Sys2Proof.Machine.execSpawn c s
  | .gsync c => Sys2Proof.Machine.execGsync c s
  | .witness c => Sys2Proof.Machine.execWitness c s
  | .trap c => Sys2Proof.Machine.execTrap c s
  | .resume c => Sys2Proof.Machine.execResume c s
  | .retire c => Sys2Proof.Machine.execRetire c s
  | .sysr c => Sys2Proof.Machine.execSysr c s
  | .sysw c => Sys2Proof.Machine.execSysw c s
  | .ttld c => Sys2Proof.Machine.execTtld c s
  | .ttclr c => Sys2Proof.Machine.execTtclr c s
  | .wheel c => Sys2Proof.Machine.execWheel c s
  | .jigStart b => Sys2Proof.Machine.execJigStart b s
  | .jigEnd b j => Sys2Proof.Machine.execJigEnd b j s
  | .resultReady b p => Sys2Proof.Machine.execResultReady b p s
  | .accessPerform b id => Sys2Proof.Machine.execAccessPerform b id s
  | .frameStart p => Sys2Proof.Machine.execFrameStart p s
  | .offsetReport chip frame offset => Sys2Proof.Machine.execOffsetReport chip frame offset s
  | .unresponsive chip => Sys2Proof.Machine.execUnresponsive chip s
  | .storyRelease b k idx => Sys2Proof.Machine.execStoryRelease b k idx s
  | .taskStart b => Sys2Proof.Machine.execTaskStart b s
  | .gateCompletion p gate => Sys2Proof.Machine.execGateCompletion p gate s
  | .holdRefresh ch => Sys2Proof.Machine.execHoldRefresh ch s
  | .refreshCommand ch => Sys2Proof.Machine.execRefreshCommand ch s
  | .rollback b hw => Sys2Proof.Machine.execRollback b hw s
  | .pageBring p x page => Sys2Proof.Machine.execPageBring p x page s
  | .retiredBayIdle b => Sys2Proof.Machine.execRetiredBayIdle b s
  | .preemption p => Sys2Proof.Machine.execPreemption p s
  | .preemptionResume p => Sys2Proof.Machine.execPreemptionResume p s
  | .planDispatch => Sys2Proof.Machine.execPlanDispatch s
  | .mxgoBegin b => Sys2Proof.Machine.execMxgoBegin b s
  | .mxAddition b => Sys2Proof.Machine.execMxAddition b s
  | .mxgoComplete b => Sys2Proof.Machine.execMxgoComplete b s
  | .mxdrainBegin b => Sys2Proof.Machine.execMxdrainBegin b s
  | .drainRowLanding b => Sys2Proof.Machine.execDrainRowLanding b s
  | .mxdrainComplete b => Sys2Proof.Machine.execMxdrainComplete b s
  | .mxclrBegin b => Sys2Proof.Machine.execMxclrBegin b s
  | .walkBegin b k => Sys2Proof.Machine.execWalkBegin b k s
  | .walkUnitRead b k => Sys2Proof.Machine.execWalkUnitRead b k s
  | .walkUnitLanding b k => Sys2Proof.Machine.execWalkUnitLanding b k s
  | .asyncUnitLanding p walk n data => Sys2Proof.Machine.execAsyncUnitLanding p walk n data s
  | .sendBegin b => Sys2Proof.Machine.execSendBegin b s
  | .recvBegin b => Sys2Proof.Machine.execRecvBegin b s
  | .recvLineLanding b => Sys2Proof.Machine.execRecvLineLanding b s
  | .gateBegin b => Sys2Proof.Machine.execGateBegin b s
  | .gatePerform b id => Sys2Proof.Machine.execGatePerform b id s
  | .qputClaim b id => Sys2Proof.Machine.execQputClaim b id s
  | .qputLanding b id => Sys2Proof.Machine.execQputLanding b id s
  | .pegclrBegin b => Sys2Proof.Machine.execPegclrBegin b s
  | .collBegin b => Sys2Proof.Machine.execCollBegin b s
  | .routerArrival m => Sys2Proof.Machine.execRouterArrival m s
  | .roundDecision p slot => Sys2Proof.Machine.execRoundDecision p slot s
  | .roundDelivery p slot => Sys2Proof.Machine.execRoundDelivery p slot s
  | .reshardBegin p => Sys2Proof.Machine.execReshardBegin p s
  | .reshardCheckEnd p => Sys2Proof.Machine.execReshardCheckEnd p s
  | .scarfRequest p => Sys2Proof.Machine.execScarfRequest p s
  | .sourceRead r => Sys2Proof.Machine.execSourceRead r s
  | .scarfLanding p => Sys2Proof.Machine.execScarfLanding p s
  | .scarfErrorFlit p code => Sys2Proof.Machine.execScarfErrorFlit p code s
  | .timeout p => Sys2Proof.Machine.execTimeout p s
  | .mergePass p => Sys2Proof.Machine.execMergePass p s
  | .tier5Request r => Sys2Proof.Machine.execTier5Request r s
  | .linkFlit port seq intact dest m => Sys2Proof.Machine.execLinkFlit port seq intact dest m s
  | .replay port next => Sys2Proof.Machine.execReplay port next s
  | .ptpEventMessage m => Sys2Proof.Machine.execPtpEventMessage m s
  | .checkpoint => Sys2Proof.Machine.execCheckpoint s
  | .checkpointResume => Sys2Proof.Machine.execCheckpointResume s
  | .podRecovery r => Sys2Proof.Machine.execPodRecovery r s
  | .migrationCopy p x => Sys2Proof.Machine.execMigrationCopy p x s
  | .roceConnect => Sys2Proof.Machine.execRoceConnect s
  | .connectionClose conn => Sys2Proof.Machine.execConnectionClose conn s
  | .rdmaWrite t data => Sys2Proof.Machine.execRdmaWrite t data s
  | .rdmaRead t n => Sys2Proof.Machine.execRdmaRead t n s
  | .atomicFetchAndAdd t v => Sys2Proof.Machine.execAtomicFetchAndAdd t v s
  | .load n => Sys2Proof.Machine.execLoad n s
  | .stop n => Sys2Proof.Machine.execStop n s
  | .logread n => Sys2Proof.Machine.execLogread n s
  | .slotread n => Sys2Proof.Machine.execSlotread n s
  | .pagereq n => Sys2Proof.Machine.execPagereq n s
  | .fwstage n => Sys2Proof.Machine.execFwstage n s
  | .fwswitch n => Sys2Proof.Machine.execFwswitch n s
  | .firmwareActivation => Sys2Proof.Machine.execFirmwareActivation s
  | .quote n => Sys2Proof.Machine.execQuote n s
  | .monread n => Sys2Proof.Machine.execMonread n s
  | .hostreg n => Sys2Proof.Machine.execHostreg n s
  | .cert n => Sys2Proof.Machine.execCert n s
  | .badcmd n => Sys2Proof.Machine.execBadcmd n s
  | .retireBent n => Sys2Proof.Machine.execRetireBent n s
  | .readmitBent n => Sys2Proof.Machine.execReadmitBent n s
  | .reloadPartition n => Sys2Proof.Machine.execReloadPartition n s
  | .retireChannel n => Sys2Proof.Machine.execRetireChannel n s
  | .degradeLanes n => Sys2Proof.Machine.execDegradeLanes n s
  | .recalibrateMonitors n => Sys2Proof.Machine.execRecalibrateMonitors n s
  | .boot => Sys2Proof.Machine.execBoot s
  | .bootRetry => Sys2Proof.Machine.execBootRetry s
  | .nominalFrameStart => Sys2Proof.Machine.execNominalFrameStart s
  | .podWideChecks chip tables => Sys2Proof.Machine.execPodWideChecks chip tables s

end Sys2Proof.Machine
end

