-- ==== Sys2Proof/Machine/Issue.lean ====
section
/-!
DEFINITION. The issue of a bundle: fetch and merge with the running jigs (R80, R81, R83), the checks of the bundle (R105, R106),
its moves (R61, R62), and what its end does to the program counter, the loops, the jigs and the window (R78, R90, R91, R286).
-/

namespace Sys2Proof.Machine

/-! ## Fetch and merge -/

/-- A bundle of 24 bytes at an index of an instruction memory or jig store (R83, R89). -/
def bundleAt (m : Mem) (i : Nat) : BitVec 192 := BitVec.ofNat 192 (Mem.nat m (24 * i) 24)

/-- The jigs whose next bundle merges now: none while the handler is active (R80, R297). -/
def Bay.mergingJigs (b : Bay) (now : Nat) : List JigRun :=
  if b.handlerActive then []
  else (b.jigs.toList.filterMap id).filter (fun j => !j.suspended && !j.done && decide (j.start ≤ now))

/-- The slots that jigs own in the bundle of this cycle (R81). -/
def ownedSlots (l : List JigRun) : BitVec 8 := l.foldl (fun acc j => acc ||| j.mask) 0

/-- Slot i of the merged bundle (R81). -/
def mergedSlot (prim : BitVec 192) (jigmem : Mem) (l : List JigRun) (i : Fin 8) : SlotWord :=
  match l.find? (fun j => bitAt j.mask i.val) with
  | some j => slotBits (bundleAt jigmem j.next) i
  | none => slotBits prim i

/-- The words of the slots that are not empty (R88). -/
def slotWords (prim : BitVec 192) (jigmem : Mem) (l : List JigRun) : List (Fin 8 × SlotWord) :=
  ((List.finRange 8).map (fun i => (i, mergedSlot prim jigmem l i))).filter (fun x => decide (x.2 ≠ 0))

/-! ## Checks whatever the guard (R105) -/

/-- A fault of one slot. -/
def slotFaultOf (owned : BitVec 8) (i : Fin 8) (c : Cause) (info : Info) : BFault :=
  ⟨c, info, 1 <<< i.val, bitAt owned i.val⟩

/-- The fault of a word that is no instruction (R85, R92, R94); pc is the bundle's index. -/
def decodeFault (owned : BitVec 8) (pc : Nat) (i : Fin 8) (e : DecodeErr) : BFault :=
  match e with
  | .illegalGuard => slotFaultOf owned i .illegalGuard 0
  | .port isDst id => slotFaultOf owned i .unimplementedPort (BitVec.ofNat 72 (id + (if isDst then 1024 else 0)))
  | .badPad => slotFaultOf owned i .controlFlow (BitVec.ofNat 72 (24 * pc))

/-- The slots that a jig owns and the primary stream does not leave empty (R81). -/
def jigFaults (prim : BitVec 192) (owned : BitVec 8) : List BFault :=
  ((List.finRange 8).filter (fun i => bitAt owned i.val && decide (slotBits prim i ≠ 0))).map
    (fun i => slotFaultOf owned i .jigCollision 0)

/-- What two moves of a bundle may not share: a unit or a destination (R64). -/
inductive Target where
  | unit (k : Nat)
  | dst (d : Dst)
deriving DecidableEq, Repr

/-- The unit that an instruction triggers, or the destination that its move writes; g0 is none (R64). Slots 6 and 7 stand alone
in their classes. -/
def targetOf (i : Instr) : Option Target :=
  match i.form with
  | .event => none
  | .limm _ => none
  | .pad _ => none
  | .move _ d => if d = .g 0 then none else some (.dst d)
  | .alu _ u _ => some (.unit u.val)
  | .mul _ _ => some (.unit 2)
  | .div _ _ => some (.unit 3)
  | .lsu _ u _ => some (.unit (4 + u.val))
  | .mem _ _ => some (.unit 6)
  | .shw _ k => some (.unit (8 + k))
  | .vec _ u _ _ _ => some (.unit (12 + u.val))
  | .vfn _ _ => some (.unit 14)
  | .vred _ _ _ _ => some (.unit 15)
  | .engine _ _ => none
  | .control _ _ => none

/-- What the control slot writes beside its own move, when its guard is true: lk by a call, a predicate by SPAWN and WHEEL
(R351, R426). -/
def controlWrites (b : Bay) (i : Instr) : Option Target :=
  let pred (c : Ctl) : Option Target :=
    let n := spawnPred (b.value c.src)
    if guardOn b.seen c.guard ∧ n ≠ 0 then some (.dst (.p (Fin.ofNat 7 (n - 1)))) else none
  match i with
  | .call c => if guardOn b.seen c.guard then some (.dst .lk) else none
  | .calli c => if guardOn b.seen c.guard then some (.dst .lk) else none
  | .spawn c => pred c
  | .wheel c => pred c
  | _ => none

/-- All that the instructions of a bundle take, with their slots. -/
def allTargets (b : Bay) (l : List (Fin 8 × Instr)) : List (Fin 8 × Target) :=
  l.flatMap (fun x =>
    ((targetOf x.2).toList.map (fun t => (x.1, t))) ++ ((controlWrites b x.2).toList.map (fun t => (x.1, t))))

/-- The port collisions of a bundle (R64): every slot that shares a unit or destination. -/
def portFaults (owned : BitVec 8) (ts : List (Fin 8 × Target)) : List BFault :=
  (ts.filter (fun x => ts.any (fun y => decide (y.1 ≠ x.1) && decide (y.2 = x.2)))).map
    (fun x => slotFaultOf owned x.1 .portCollision 0)

/-! ## The moves -/

/-- The state of a step's answer; a meaning answers no other. -/
def nextOr (s : State) (r : Step) : State :=
  match r with
  | .next t => t
  | .fault _ => s
  | .refused _ => s

/-- Runs one instruction of the bundle. -/
def runSlot (s : State) (i : Instr) : State := nextOr s (exec i s)

/-- The stages in which the moves of a bundle are made (R61, R62, R68, R71): long immediate, plain moves, shape writes, triggers. -/
def stageOf (i : Instr) : Nat :=
  match i.form with
  | .limm _ => 0
  | .move _ _ => 1
  | .shw _ _ => 2
  | .event | .pad _ | .alu _ _ _ | .mul _ _ | .div _ _ | .lsu _ _ _ | .mem _ _ | .vec _ _ _ _ _ | .vfn _ _ | .vred _ _ _ _
  | .engine _ _ | .control _ _ => 3

/-- The moves of one stage, in slot order. -/
def runStage (s : State) (k : Nat) (l : List Instr) : State := (l.filter (fun i => decide (stageOf i = k))).foldl runSlot s

/-- The registers as the moves of the bundle read them: after its long immediate (R61, R68). -/
def Bay.beginMoves (b : Bay) : Bay := { b with pre := some b.regs }

/-- All the moves of a bundle. -/
def runBundle (s : State) (l : List Instr) : State :=
  let s1 := (runStage s 0 l).onMe Bay.beginMoves
  runStage (runStage (runStage s1 1 l) 2 l) 3 l

/-! ## The end of the bundle -/

/-- The bundle that follows (R78, R90, R91), with the registers and loop levels after it; the flag tells that it follows without
a transfer. -/
def Bay.follow (b : Bay) : Regs × List LoopLevel × Nat × Bool :=
  if b.closing = .resumed then (b.regs, b.loops, b.xfer.getD (b.pc + 1), false)
  else
    let r := b.loopStep
    match b.xfer, r.2.2 with
    | some t, _ => (r.1, r.2.1, t, false)
    | none, some t => (r.1, r.2.1, t, false)
    | none, none => (r.1, r.2.1, b.pc + 1, true)

/-- The bundle executes END, which commits or faults (R366); l are the faults of its moves. -/
def Bay.executesEnd (b : Bay) (l : List BFault) : Bool :=
  decide (b.closing = .ended) || l.any (fun f => decide (f.cause = .endState))

/-- The fault of a bundle that transfers no control and does not execute END, and whose follower is no valid bundle (R90); l are the
faults of its moves. A transfer that itself faults transfers nothing: at the last valid index the fault of what would follow ranks
before its own (R106; DEDUCED, log 77). -/
def State.followFault (s : State) (l : List BFault) : List BFault :=
  let b := s.me
  let f := b.follow
  if !b.executesEnd l && f.2.2.2 && decide (s.bundleLimit s.cur ≤ f.2.2.1) then
    [⟨.controlFlow, BitVec.ofNat 72 (24 * f.2.2.1), 0, false⟩]
  else []

/-- The fields that serve the issue of a bundle, cleared. -/
def Bay.endIssue (b : Bay) : Bay := { b with pre := none, xfer := none, closing := .none, jigSlots := 0, dry := none }

/-- The jigs after a merged bundle (R80, R82, R376). -/
def Bay.advanceJigs (b : Bay) (now : Nat) : Bay :=
  { b with jigs := b.jigs.map (fun j =>
      match j with
      | some r => if !r.suspended && !r.done && decide (r.start ≤ now) && !b.handlerActive then some r.advance else some r
      | none => none) }

/-- END (R366): the bay is idle from the next cycle; its window closes. -/
def Bay.endTask (b : Bay) (now : Nat) : Bay := { (b.abandon now).closeWindow with mode := .idle, task := none }

/-- What the end of a committed bundle does (R78, R90, R286, R287); jigs are the ones it merged, limm tells that it was a long
immediate. -/
def Bay.finish (b : Bay) (now : Nat) (jigs limm : Bool) : Bay :=
  match b.closing with
  | .retired | .trapped => b.endIssue
  | .none | .witness | .resumed | .ended =>
    let f := b.follow
    let b1 : Bay := { b with
      regs := { f.1 with limRun := limm && f.1.limRun }
      loops := f.2.1
      pc := f.2.2.1
      window := { b.window with bundles := b.window.bundles + 1 } }
    let b2 := if jigs then b1.advanceJigs now else b1
    let b3 := match b.closing with
      | .witness => b2.closeWindow
      | .ended => b2.endTask now
      | .none | .resumed | .retired | .trapped => b2
    b3.endIssue

/-! ## Issue -/

/-- The lesser in the order of R106: rank, then lowest slot. Timing faults of several slots go by the lowest slot too, a fault of the
whole bundle after them (log 77). -/
def BFault.key (f : BFault) : Nat :=
  causeRank f.cause * 16 + ((List.range 8).find? (fun i => bitAt f.slots i)).getD 8

/-- The one fault that a bundle reports (R106): TSLOT marks every slot with its cause. -/
def reportFault (l : List BFault) : Option BFault :=
  match sortOn BFault.key l with
  | [] => none
  | f :: _ =>
    let same := l.filter (fun g => decide (g.cause = f.cause))
    some { f with slots := same.foldl (fun acc g => acc ||| g.slots) 0, jig := same.any (fun g => g.jig) }

/-- The bundle limit of the window (R287). -/
def Bay.bundleFaults (b : Bay) : List BFault :=
  if 2048 ≤ b.window.bundles then [⟨.windowOverflow, 1, 0, false⟩] else []

/-- The instructions and the decoding faults of the words of a bundle. -/
def decodeAll (owned : BitVec 8) (pc : Nat) (ws : List (Fin 8 × SlotWord)) : List (Fin 8 × Instr) × List BFault :=
  ws.foldr (fun x acc =>
    match decodeSlot x.1 x.2 with
    | .ok i => ((x.1, i) :: acc.1, acc.2)
    | .error e => (acc.1, decodeFault owned pc x.1 e :: acc.2)) ([], [])

/-- A long immediate stands in the bundle (R87). -/
def hasLimm (l : List (Fin 8 × Instr)) : Bool := l.any (fun x => decide (stageOf x.2 = 0))

/-- The bundle of bay b issues (R61, R80, R81, R90, R91, R105 to R107): it commits whole, or takes the one fault it reports. -/
def State.issue (s : State) (b : BayId) : State :=
  let s0 : State := { s with cur := b }
  let x := s0.bay b
  let now := s0.now b
  let jigs := x.mergingJigs now
  let owned := ownedSlots jigs
  let prim := bundleAt x.imem x.pc
  let d := decodeAll owned x.pc (slotWords prim x.jigmem jigs)
  let fixed := d.2 ++ jigFaults prim owned ++ portFaults owned (allTargets x d.1) ++ x.bundleFaults
  let s1 := s0.onBay b (fun y => { y with dry := some [], jigSlots := owned })
  let s2 := runBundle s1 (d.1.map (fun p => p.2))
  let met := s2.me.dry.getD []
  let faults := fixed ++ met ++ s2.followFault met
  match reportFault faults with
  | some f => (s0.takeFault b f).onBay b Bay.endIssue
  | none => s2.onBay b (fun y => ({ y with dry := none }).finish now (decide (jigs ≠ [])) (hasLimm d.1))

/-- The value of the GSYNC that the bundle of a bay issues in this cycle (R233). -/
def State.peekGsync (s : State) (b : BayId) : Option (BitVec 8) :=
  let x := s.bay b
  match x.slot7At x.pc with
  | some (.gsync c) =>
    let v := (x.value c.src).addr
    if guardOn x.regs c.guard then some (v.setWidth 8) else none
  | _ => none

end Sys2Proof.Machine
end

