-- ==== Sys2Proof/Machine/Traffic.lean ====
section
/-!
DEFINITION. The transfers of the asynchronous domain, of the yard, of the scarf engine and of other chips into this chip's memory: they wait
in order of arrival for the 0xF0 and 0xF1 slots that a plan reserves (R24, R193, R208, R210, R312, R470).
-/

namespace Sys2Proof.Machine

/-! ## Slots of a pole cycle -/

/-- The slots of this pole cycle that transfers have used: channels, and ports of a bent by number. -/
structure SlotsUsed where
  channels : List Nat
  ports : List (Nat × Nat)
deriving DecidableEq, Repr

/-- The pole cycle that this clock cycle has made, where the slot tables count (R193, R470): none in the further clock cycles of a
time-sliced one. While the pole clock stands, the asynchronous domain and the yard wait for it (R24, R196); other chips and the scarf engine,
and all that a pre-empted or checkpointed partition still has under way (R303), go on without slots (log 90). -/
inductive SlotTime where
  | stopped | made | within
deriving DecidableEq, Repr

/-- How slots count in this clock cycle. -/
def Part.slotTime (p : Part) : SlotTime := if p.half = 0 then .stopped else if p.half = p.k then .made else .within

/-- A transfer of a code goes on while the pole clock stands. -/
def Part.goesOn (p : Part) (code : Nat) : Bool :=
  decide (code ≠ 0xF0) || decide (p.mode = .preempted) || decide (p.mode = .checkpointed)

/-- The port of a segment that a transfer of a code takes (R470): the lowest that has the code and is not used. -/
def Part.freePort (p : Part) (u : SlotsUsed) (code bent : Nat) : Option Nat :=
  (List.range 32).find? (fun k => decide (ringCode p bent (32 * (p.polec % 256) + k) = code) && !u.ports.contains (bent, k))

/-- A slot for an access of a code at a place, in the pole cycle just made: the slots used with it, none where there is no slot. A burst
slot of LPDDR-6 takes two pole cycles, from the even one on (R193). -/
def Part.takeSlot (p : Part) (u : SlotsUsed) (code : Nat) (pl : Place) : Option SlotsUsed :=
  match pl with
  | .chip _ _ _ => some u
  | .lpddr t a =>
    let ch := channelOf t.val a
    if p.polec % 2 = 0 ∧ channelCode p ch (p.polec / 2) = code ∧ u.channels.contains ch = false then
      some { u with channels := ch :: u.channels } else none
  | .ring t _ =>
    match p.freePort u code t.val with
    | some k => some { u with ports := (t.val, k) :: u.ports }
    | none => none

/-- Bytes that one access moves at a place: to the end of the 64-byte block of LPDDR-6, or of the 128-byte line of ring SRAM. -/
def Place.room : Place → Nat
  | .lpddr _ a => 64 - a % 64
  | .ring _ o => 128 - o % 128
  | .chip _ _ _ => 2 ^ 64

/-! ## What a transfer does -/

/-- The fields of a queue header that the queue reader writes: LASTST and RJCT, and RIDX (R259). -/
def State.writeHeader (s : State) (q : PartId) (va : Addr) (h : BitVec 512) : State :=
  let l := leBytes 64 h.toNat
  let g := s.freshTag
  (g.2.putBy q yardParty g.1 (va + 3) ((l.drop 3).take 5)).putBy q yardParty g.1 (va + 16) ((l.drop 16).take 8)

/-- The VA of the slot of the next hotness record (R208). -/
def Part.hotSlotVa (p : Part) : Addr := p.mem.hotva + BitVec.ofNat 72 (16 * (1 + p.hotWritten % 2 ^ p.mem.hotexp))

/-- The bits of a hotness record (R208). -/
def HotRec.bits (r : HotRec) : Nat :=
  r.time % 2 ^ 20 * 2 ^ 108 + r.kind % 16 * 2 ^ 104 + r.bay % 256 * 2 ^ 96 + r.hot % 4096 * 2 ^ 84 + r.frame % 4096 * 2 ^ 72
    + r.va.toNat

/-- The head of the record queue written to its slot; the header's counts follow through the slots (R208). -/
def State.writeHot (s : State) (q : PartId) : State :=
  let p := s.part q
  match p.hotQueue with
  | [] => s
  | r :: rest =>
    let s1 := (s.freshTag.2.putBy q yardParty s.freshTag.1 p.hotSlotVa (leBytes 16 r.bits)).onPart q (fun x =>
      { x with hotQueue := rest, hotWritten := x.hotWritten + 1 })
    s1.queueBytes q p.mem.hotva (leBytes 8 (p.hotWritten + 1) ++ leBytes 8 p.hotDropped)

/-- A tier 5 request has had its slots at its home: it is served, and answered to the chip that asked (R312). -/
def State.homeServe (s : State) (q : PartId) (r : Tier5Req) : State :=
  let x := (s.noteHome q r).serveTier5 q r
  match x.2, (s.part q).fab with
  | some d, some f =>
    if r.chip = f.lchip then x.1.takeAnswer r.bay r.id d
    else x.1.remoteSend q (s.part q).time f r.chip (.tier5Answer r.bay r.id d)
  | _, _ => x.1

/-- What a transfer does once it has had all its slots. What happens to a pre-empted partition happens to what was saved of it (R303). -/
def State.performBurst (s : State) (q : PartId) (x : Burst) : State :=
  match x.act with
  | .bytes party tag va d => s.within q (fun t => t.writeVaBy q party tag va d)
  | .arrive party tag gate n => s.within q (fun t => t.arriveAt q party gate n (tagClock tag))
  | .header va h => s.within q (fun t => t.writeHeader q va h)
  | .hostRead va n => s.within q (fun t => t.emit (.rdmaAnswer (t.hostReadVa q va n)))
  | .hostAdd party va v =>
    s.within q (fun t =>
      let old : Word := BitVec.ofNat 64 (leNat (t.getVa q va 8))
      let t1 := match (t.part q).vaPlace va with
        | some (_, pl) => t.noteBy q party 0 pl 8 true 2 0 (t.seenBy party)
        | none => t
      (t1.putVa q va (leBytes 8 (old + v).toNat)).emit (.atomicAnswer old))
  | .unit walk i d =>
    s.within q (fun t =>
      match (t.part q).asyncs.find? (fun w => decide (w.id = walk)) with
      | some w => if w.settled i then t else t.asyncLand q w i d
      | none => t)
  | .hot => s.within q (fun t => t.writeHot q)
  | .copy e => s.endCopy q e
  | .pageOut e => s.onPart q (fun p => { p with pagesOut := p.pagesOut ++ [e] })
  | .tier5 r => s.homeServe q r
  | .scarf r => s.within q (fun t => t.serveScarf r)
  | .bulk => s

/-! ## The queue of a code -/

/-- The first transfer of a code. -/
def Part.headBurst (p : Part) (code : Nat) : Option Burst := p.traffic.find? (fun x => decide (x.code = code))

/-- The first transfer of a code replaced, or dropped. -/
def dropBurst (code : Nat) : List Burst → List Burst
  | [] => []
  | x :: rest => if x.code = code then rest else x :: dropBurst code rest

/-- The first transfer of a code with n bytes more gone. -/
def moveBurst (code n : Nat) : List Burst → List Burst
  | [] => []
  | x :: rest => if x.code = code then { x with gone := x.gone + n } :: rest else x :: moveBurst code n rest

/-- The first transfer of a code is over, and acts. -/
def State.endBurst (s : State) (q : PartId) (x : Burst) : State :=
  (s.onPart q (fun p => { p with traffic := dropBurst x.code p.traffic })).performBurst q x

/-- The transfers of a code in order of arrival, as long as the pole cycle has slots for them. -/
def State.serveCode (s : State) (q : PartId) (code : Nat) : Nat → SlotsUsed → State
  | 0, _ => s
  | fuel + 1, u =>
    let p := s.part q
    match p.headBurst code with
    | none => s
    | some x =>
      match p.slotTime, x.place with
      | .within, _ => s
      | .stopped, _ => if p.goesOn code then (s.endBurst q x).serveCode q code fuel u else s
      | .made, none => (s.endBurst q x).serveCode q code fuel u
      | .made, some pl =>
        if x.bytes ≤ x.gone then (s.endBurst q x).serveCode q code fuel u
        else
          match p.takeSlot u code (pl.add x.gone) with
          | none => s
          | some v =>
            let n := (pl.add x.gone).room
            if x.bytes ≤ x.gone + n then (s.endBurst q x).serveCode q code fuel v
            else (s.onPart q (fun y => { y with traffic := moveBurst code n y.traffic })).serveCode q code fuel v

/-- The head of the hotness records joins the transfers (R208): one at a time, so that the queue holds at most 256. -/
def State.askHot (s : State) (q : PartId) : State :=
  let p := s.part q
  if p.hotQueue = [] ∨ p.traffic.any (fun x => decide (x.act = .hot)) = true then s
  else
    match p.vaPlace p.hotSlotVa with
    | some (_, pl) => s.queueBurst q 0xF0 (some pl) 16 .hot
    | none => s

/-- The transfers of a partition in this clock cycle: those of the asynchronous domain and the yard in the 0xF0 slots, those of the scarf
engine and of other chips in the 0xF1 slots. -/
def State.serveTraffic (s : State) (q : PartId) : State :=
  let s1 := s.askHot q
  let n := (s1.part q).traffic.length + 512
  (s1.serveCode q 0xF0 n ⟨[], []⟩).serveCode q 0xF1 n ⟨[], []⟩

/-- Those of every partition. -/
def State.allTraffic (s : State) : State := (List.finRange 8).foldl (fun acc q => acc.serveTraffic q) s

end Sys2Proof.Machine
end

