-- ==== Sys2Proof/Machine/Schedule.lean ====
section
/-!
DEFINITION. The order of a clock cycle: which events are due in it and when each is made, what the end of a pole cycle does
(R208, R214, R216, R228, R229, R232, R253), and the clocks (R21, R29, R40, R43, R53, R291). A cycle is a sequence of phases; each phase
names the steps that are due in it when it is reached. The order of the phases is the model's (log 9).
-/

namespace Sys2Proof.Machine

/-! ## Bays and partitions in this clock cycle -/

/-- The partition ids in ascending order. -/
def allParts : List PartId := List.finRange 8

/-- A pole cycle of a partition is not over: a bay of it waits for a page, or reruns (R43, R291). -/
def Part.suspended (p : Part) : Bool := !p.bringing.isEmpty || !p.resuming.isEmpty

/-- A pole cycle of a partition begins in this clock cycle (R29, R53). -/
def Part.live (p : Part) : Bool := p.poleRuns && decide (p.half = 0) && !p.suspended

/-- The overrunning bays of a partition issue in this clock cycle of a hold (R40). -/
def Part.heldLive (p : Part) : Bool :=
  p.held && decide (p.mode = .running) && decide (p.half = 0) && decide (p.stall = 0) && !p.suspended

/-- The reruns of a suspended partition end in this clock cycle, the last of its stall (R291). -/
def Part.resumes (p : Part) : Bool :=
  decide (p.mode = .running) && p.bringing.isEmpty && !p.resuming.isEmpty && decide (p.stall ≤ 1)

/-- The bays of a partition whose events are made from now on in this cycle. -/
def State.ticking (s : State) (p : Part) : List BayId :=
  if p.live then p.bays
  else if p.heldLive then p.bays.filter (fun b => p.holding.contains b && decide ((s.bay b).mode = .running))
  else if p.resumes then (if p.held then p.bays.filter (fun b => p.resuming.any (fun r => decide (r.1 = b))) else p.bays)
  else []

/-- Bays marked for the events of this cycle. -/
def State.startTicks (s : State) : State :=
  (allParts.flatMap (fun q => s.ticking (s.part q))).foldl (fun acc b => acc.onBay b (fun x => { x with ticks := true })) s

/-- The bays of a partition whose events are made in this cycle. -/
def State.ticked (s : State) (q : PartId) : List BayId := (s.part q).bays.filter (fun b => (s.bay b).ticks)

/-- The bays whose events are made anew in this cycle; a suspended partition makes again only what faulted. -/
def State.activeBays (s : State) : List BayId :=
  allParts.flatMap (fun q => if (s.part q).suspended then [] else s.ticked q)

/-- The steps of events. -/
def evs (l : List Instr) : List Todo := l.map .event

/-- An event where a condition holds. -/
def evIf (c : Bool) (i : Instr) : List Todo := if c then [.event i] else []

/-- The events of each active bay. -/
def State.perBay (s : State) (f : BayId → Bay → List Todo) : List Todo := s.activeBays.flatMap (fun b => f b (s.bay b))

/-- The events of each partition. -/
def State.perPart (s : State) (f : PartId → Part → List Todo) : List Todo := allParts.flatMap (fun q => f q (s.part q))

/-! ## The beginning of a cycle -/

/-- FRAME_START of the partitions that may start a frame (R30, R467). -/
def State.frameAgenda (s : State) : List Todo :=
  s.perPart (fun q p =>
    match p.mode with
    | .waiting | .podWait | .idleFrame _ => [.event (.frameStart q)]
    | .running => evIf (p.starting && !p.suspended) (.frameStart q)
    | .unformed | .preempted | .checkpointed | .stopped | .raced => [])

/-- GATE_COMPLETION: gates keep counting while the pole clock is stopped (R44, R256). -/
def State.gateAgenda (s : State) : List Todo :=
  s.perPart (fun q p => if p.half = 0 then evs (p.gatesDue.map (fun g => .gateCompletion q g)) else [])

/-- The entry that a task overran, where the task was retired within the hold: it waits for the commands that the task began, and its late
start will be recorded (R40, R45). -/
def Bay.lateAfter (b : Bay) (p : Part) (h : Stop) : Bay :=
  if b.mode = .retiring then
    { b with runq := b.runq.map (fun r =>
        if r.kind ≠ .spawned ∧ r.late = none ∧ r.frame = p.framec ∧ r.offset = p.polec then
          { r with late := some ⟨⟨r.frame, r.offset, h.slip.bay, ((p.entryOf h.slip.bay r.index).map (fun e => e.task)).getD 0, 0, false, 0,
              h.slip.ptp⟩, h.clock⟩ }
        else r) }
  else b

/-- A hold ends, and leaves one record, that of the lowest bay that overran (R45, log 37), in the clock cycle after the last END of an
overrunning task (R40), or after its retirement (log 81). -/
def State.endHold (s : State) (q : PartId) : State :=
  let p := s.part q
  if p.held && decide (p.stall = 0) && !p.suspended && p.holding.all (fun b => decide ((s.bay b).mode ≠ .running)) then
    (p.holdStops.foldl (fun acc h => acc.onBay (Fin.ofNat 192 h.slip.bay) (fun b => b.lateAfter p h)) s).onPart q (fun x => { x with
      holding := [], holdStops := []
      slips := x.slips ++ (x.holdStops.take 1).map (fun h => h.ended s.clock) })
  else s

/-- Every hold that ends now. -/
def State.endHolds (s : State) : State := allParts.foldl (fun acc q => acc.endHold q) s

/-- STORY_RELEASE of the entries and spawned tasks whose tick is this pole cycle (R35, R37, R49). -/
def State.releaseAgenda (s : State) : List Todo :=
  s.perPart (fun q p =>
    if p.live then
      p.entries.flatMap (fun e =>
        let b : BayId := Fin.ofNat 192 e.bay
        let k : ReleaseKind := if e.gate = 0 then .story else .gated
        evIf ((s.releaseNow p b k e.index).isSome && p.hasBay e.bay) (.storyRelease b k e.index))
      ++ p.bays.flatMap (fun b => (List.range (s.bay b).spawnq.length).flatMap (fun i =>
        evIf (s.releaseNow (s.part q) b .spawned i).isSome (.storyRelease b .spawned i)))
    else [])

/-- PREEMPTION and CHECKPOINT (R58, R325). -/
def State.stopAgenda (s : State) : List Todo :=
  s.perPart (fun q p => evIf (p.preempt && p.live) (.preemption q))
    ++ evIf (allParts.any (fun q => (s.part q).ckDue && (s.part q).live)) .checkpoint

/-- TASK_START of idle bays (R38). -/
def State.startAgenda (s : State) : List Todo :=
  s.perPart (fun _ p =>
    if p.live then
      p.bays.flatMap (fun b => evIf (decide ((s.bay b).mode = .idle) && !(s.bay b).runq.isEmpty) (.taskStart b))
    else [])

/-! ## Reads, results, begins and issue -/

/-- The access reads in its perform cycle; the others write (R213). -/
def AccKind.reads (k : AccKind) : Bool :=
  match k with
  | .ld | .ldv | .hlook | .ldg | .ldc | .opt _ _ _ _ => true
  | .st | .stv | .stg | .stp | .atomic _ | .fetchAdd | .hand => false

/-- The accesses of a bay that perform now and pass a test. -/
def State.dueAccs (s : State) (b : BayId) (f : AccKind → Bool) : List Todo :=
  (((s.bay b).acc.filter (fun a => f a.kind && s.accDue b a))).map (fun a => .event (.accessPerform b a.id))

/-- Reads that perform in this cycle: accesses and walker units (R213, R244). -/
def State.readAgenda (s : State) : List Todo :=
  s.perBay (fun b x => s.dueAccs b AccKind.reads
    ++ evIf (!(x.walksOf 0).isEmpty) (.walkUnitRead b 0) ++ evIf (!(x.walksOf 1).isEmpty) (.walkUnitRead b 1))

/-- FETCHADDs and QPUT claims that perform in this cycle, bays in ascending order (R231, R262). -/
def State.fetchAgenda (s : State) : List Todo :=
  s.perBay (fun b x => s.dueAccs b (fun k => decide (k = .fetchAdd))
    ++ (x.qputs.filter (fun g => g.claim.isNone && decide (g.claimDue ≤ s.poleTime b))).map (fun g => .event (.qputClaim b g.id)))

/-- Scale registers written by NARROWs that complete in a cycle (R142). -/
def Bay.scaleUpdates (b : Bay) (now : Nat) : Bay :=
  let sc := b.scaling.foldl (fun (acc : Vector (BitVec 32) 256) x =>
    match x.update with
    | some (c, v) => if c ≤ now then acc.setIfInBounds x.reg v else acc
    | none => acc) b.sc
  let left := b.scaling.map (fun x =>
    match x.update with
    | some (c, _) => if c ≤ now then { x with update := none } else x
    | none => x)
  { b with sc := sc, scaling := left.filter (fun x => x.update.isSome || decide (now ≤ x.last)) }

/-- The scale registers of every active bay. -/
def State.updateScales (s : State) : State :=
  s.activeBays.foldl (fun acc b => acc.onBay b (fun x => x.scaleUpdates (s.now b))) s

/-- RESULT_READY (R63). -/
def State.resultAgenda (s : State) : List Todo :=
  s.perBay (fun b x =>
    (x.inflight.filter (fun r => r.isDue (s.now b) (s.poleTime b))).map (fun r => .event (.resultReady b r.port)))

/-- The destination id of the head command of an engine. -/
def Bay.headOp (b : Bay) (e : Engine) : Option Nat := ((b.queue e).head?).map (fun c => c.op)

/-- Engine begins of a bay, in the order mx, wk0, wk1, gate, coll (R76, R179, R244, R252, R257, R361). -/
def Bay.beginAgenda (x : Bay) (b : BayId) : List Todo :=
  let mx := x.headOp .mx
  let coll := x.headOp .coll
  evIf (!x.nests.isEmpty || decide (mx = some 256)) (.mxgoBegin b)
    ++ evIf (decide (mx = some 257)) (.mxdrainBegin b)
    ++ evIf (decide (mx = some 258)) (.mxclrBegin b)
    ++ evIf (x.headOp .wk0).isSome (.walkBegin b 0)
    ++ evIf (x.headOp .wk1).isSome (.walkBegin b 1)
    ++ evIf (x.headOp .gate).isSome (.gateBegin b)
    ++ evIf (!x.sends.isEmpty || decide (coll = some 288)) (.sendBegin b)
    ++ evIf (decide (coll = some 289)) (.recvBegin b)
    ++ evIf (match coll with
      | some k => decide (290 ≤ k)
      | none => false) (.collBegin b)

/-- Engine begins: those of each bay, then the scarf contexts, then peg commands. -/
def State.beginAgenda (s : State) : List Todo :=
  s.perBay (fun b x => x.beginAgenda b)
    ++ s.perPart (fun q p =>
      if p.suspended || (s.ticked q).isEmpty then []
      else evs [.reshardBegin q, .reshardCheckEnd q] ++ evIf (decide ((s.scarfOf q).toIssue ≠ [])) (.scarfRequest q))
    ++ s.perBay (fun b x => evIf (x.headOp .peg).isSome (.pegclrBegin b))

/-- Before any bundle issues: the GSYNC of each bay that issues (R233), and what a suspended bay makes again (R291). -/
def State.prepareIssue (s : State) : State :=
  s.activeBays.foldl (fun acc b =>
    acc.onBay b (fun x => { x with gsync := if x.mode = .running then s.peekGsync b else none })) s

/-- What a rerunning bay makes again in the pole cycle of its fault: the event that met it, then its bundle (R291, R293). -/
def Pending.again (p : Pending) (b : BayId) : List Todo :=
  (match p.retry with
    | some i => [.event i]
    | none => []) ++ (if p.code.isSome then [.issue b] else [])

/-- The bays that rerun now. -/
def State.rerunning (s : State) : List BayId :=
  allParts.flatMap (fun q =>
    if (s.part q).suspended then ((s.part q).resuming.map (fun r => r.1)).filter (fun b => (s.bay b).ticks) else [])

/-- Bundles in ascending order of bay, and reruns (R29, R40, R291). -/
def State.issueAgenda (s : State) : List Todo :=
  s.perBay (fun b x => if x.mode = .running then [.issue b] else [])
    ++ s.rerunning.flatMap (fun b =>
      match (s.bay b).pending with
      | some p => p.again b
      | none => [])

/-- What the units of the walkers that start in this cycle claim and count, after the bundles (R207, R470). -/
def State.makeAllStarts (s : State) : State := (s.activeBays ++ s.rerunning).foldl (fun acc b => acc.makeStarts b) s

/-- A rerun begins without the fault that led to it, but for one of the hardware, whose reruns go on (R293). -/
def State.clearReruns (s : State) : State :=
  s.rerunning.foldl (fun acc b => if (acc.bay b).pending.any (fun p => p.hw.isSome) then acc else acc.settled b) s

/-! ## Writes, landings and completions -/

/-- What lands, is added or completes in a bay in this cycle. -/
def State.landAgenda (s : State) (b : BayId) (x : Bay) : List Todo :=
  let t := s.poleTime b
  s.dueAccs b (fun k => !k.reads && decide (k ≠ .fetchAdd))
    ++ evIf (!x.adds.isEmpty) (.mxAddition b)
    ++ evIf (!x.tails.isEmpty) (.mxgoComplete b)
    ++ evIf (!x.drains.isEmpty) (.drainRowLanding b)
    ++ evIf (!x.drains.isEmpty) (.mxdrainComplete b)
    ++ evIf (!(x.walksOf 0).isEmpty) (.walkUnitLanding b 0)
    ++ evIf (!(x.walksOf 1).isEmpty) (.walkUnitLanding b 1)
    ++ (x.gates.filter (fun g => decide (g.due ≤ t))).map (fun g => .event (.gatePerform b g.id))
    ++ (x.qputs.filter (fun g => decide (g.landDue ≤ t))).map (fun g => .event (.qputLanding b g.id))
    ++ evIf (!x.recvs.isEmpty || x.arriving.any (fun l => decide (l.due ≤ t))) (.recvLineLanding b)
    ++ evIf (x.headOp .jig).isSome (.jigStart b)
    ++ evs ([.jigEnd b 0, .jigEnd b 1])

/-- Landings of bays, deliveries of rounds, and the scarf engine (R271, R273, R280, R319); refresh (R195). -/
def State.writeAgenda (s : State) : List Todo :=
  s.perBay (fun b x => s.landAgenda b x)
    ++ s.perPart (fun q p =>
      if p.suspended || (s.ticked q).isEmpty then []
      else evs ((p.rds.filter (fun d => decide (d.doff = p.polec))).map (fun d => .roundDelivery q d.slot))
        ++ (if (s.scarfOf q).mode = .running then evs [.scarfLanding q, .mergePass q, .timeout q] else []))
    ++ (List.finRange 96).flatMap (fun ch =>
      match s.partOfChannel ch with
      | some q => evIf ((s.part q).poleRuns && decide ((s.part q).polec % 2 = 0)
          && refreshStart (s.part q) ch.val ((s.part q).polec / 2)) (.refreshCommand ch)
      | none => [])

/-! ## The end of a cycle: checks that may fault -/

/-- Unit i of a walk accesses a region at an end. -/
def Cmd.unitIn (c : Cmd) (p : Part) (r : Nat) (dst : Bool) (i : Nat) : Bool :=
  decide ((c.wend dst).sp = 3) && decide (c.spanAt dst (c.wu i) ≠ 0) && inRegion p r (c.wva dst (c.wu i))

/-- A unit of a walk still has an access to a region to make, be it one that has not been triggered (R228). -/
def WalkRun.pends (w : WalkRun) (p : Part) (r : Nat) : Bool :=
  w.units.any (fun u => (u.landDue.isNone && w.cmd.unitIn p r false u.i) || w.cmd.unitIn p r true u.i)
    || (List.range (w.total - w.next)).any (fun k => w.cmd.unitIn p r false (w.next + k) || w.cmd.unitIn p r true (w.next + k))

/-- A unit of an asynchronous walk still has an access to a region to make. -/
def AsyncWalk.pends (w : AsyncWalk) (p : Part) (r : Nat) : Bool :=
  (List.range w.total).any (fun i => ((!w.landed.contains i && !w.failed.contains i) || w.waiting.any (fun x => decide (x.1 = i)))
    && (w.cmd.unitIn p r false i || w.cmd.unitIn p r true i))

/-- A request of another chip that was let in and waits for its slots accesses a region (R225, R228). -/
def Burst.pends (x : Burst) (p : Part) (r : Nat) : Bool :=
  match x.act with
  | .tier5 y => inRegion p r y.va
  | .scarf y => inRegion p r y.va || inRegion p r (y.va + BitVec.ofNat 72 (y.n - 1))
  | .bytes _ _ _ _ | .arrive _ _ _ _ | .header _ _ | .hostRead _ _ | .hostAdd _ _ _ | .unit _ _ _ | .hot | .copy _
  | .pageOut _ | .bulk => false

/-- An access of a bay to region r was checked under the mode in force and has not performed or become visible (R228). HANDs are no
such accesses, nor is the change of state of an LDC that has read. -/
def Bay.pendsIn (b : Bay) (p : Part) (r : Nat) : Bool :=
  b.acc.any (fun a => a.booked && decide (a.kind ≠ .hand) && inRegion p r a.addr)
    || b.gbuf.any (fun w =>
      match w.eff with
      | .hand _ _ => false
      | .lineEmpty _ => false
      | .bytes _ _ | .atomic _ _ _ | .lineFull _ _ _ => inRegion p r w.va)
    || b.walks.toList.any (fun l => l.any (fun w => w.pends p r))
    || b.colls.any (fun c => decide (c.cmd.op = 292) && inRegion p r c.cmd.a0)

/-- A gated write becomes visible at the end of pole cycle t: it has performed, and its window is closed (R214, R290); the change of
state that an LDC makes is not gated. -/
def GWrite.shows (w : GWrite) (num t : Nat) : Bool :=
  match w.performed with
  | none => false
  | some p => decide (p ≤ t) && (match w.eff with
    | .lineEmpty _ => true
    | .bytes _ _ | .atomic _ _ _ | .lineFull _ _ _ | .hand _ _ => decide (w.win < num))

/-- The region that a gated write hands over. -/
def GWrite.hands (w : GWrite) : Option (Nat × Word) :=
  match w.eff with
  | .hand r m => some (r, m)
  | .bytes _ _ | .atomic _ _ _ | .lineEmpty _ | .lineFull _ _ _ => none

/-- A HAND of a bay that would take effect now while an access to its region is under way: region busy, and it takes none
(R228). -/
def State.handBusy (s : State) (q : PartId) (b : BayId) (w : GWrite) : State :=
  let p := s.part q
  match w.hands with
  | none => s
  | some (r, _) =>
    if w.shows (s.bay b).released p.time && (p.bays.any (fun x => (s.bay x).pendsIn p r) || p.asyncs.any (fun a => a.pends p r)
        || (s.scarfOf q).pends p r || p.traffic.any (fun x => x.pends p r)) then
      (s.onBay b (fun x => x.dropG w.id)).strayFault b .regionBusy (vaInfo w.va)
    else s

/-- The pegs of a bay at the end of the cycle: one produced twice is an overrun (R232). -/
def State.endPegs (s : State) (b : BayId) : State :=
  let r := (s.bay b).endPegs
  let s1 := s.setBay b r.1
  match r.2 with
  | some n => s1.strayFault b .pegOverrun (BitVec.ofNat 72 n)
  | none => s1

/-- The checks of the end of a pole cycle for a partition. HANDs do not take effect during a hold. -/
def State.endChecks (s : State) (q : PartId) : State :=
  let l := s.ticked q
  let s1 := l.foldl (fun acc b => acc.endPegs b) s
  if (s.part q).held then s1 else l.foldl (fun acc b => (acc.bay b).gbuf.foldl (fun a w => a.handBusy q b w) acc) s1

/-- Every partition's. -/
def State.allChecks (s : State) : State := allParts.foldl (fun acc q => acc.endChecks q) s

/-- An input is a hardware fault, which is handled at the end of a pole cycle. -/
def Input.isFault (i : Input) : Bool :=
  match i with
  | .event (.rollback _ _) => true
  | .event _ | .hostBytes _ _ | .flashBytes _ _ _ | .temperature _ _ | .monitors _ _ _ | .corrected _ _ | .firmware _ | .copied _ _ _
  | .podStopped | .twin _ | .twinStop _ _ _ => false

/-- The step of an input that is an event. -/
def Input.step (i : Input) : List Todo :=
  match i with
  | .event e => [.event e]
  | .hostBytes _ _ | .flashBytes _ _ _ | .temperature _ _ | .monitors _ _ _ | .corrected _ _ | .firmware _ | .copied _ _ _
  | .podStopped | .twin _ | .twinStop _ _ _ => []

/-- The hardware faults that are due. -/
def State.faultInputs (s : State) : List Todo :=
  (s.inputs.filter (fun x => decide (x.1 ≤ s.clock) && x.2.isFault)).flatMap (fun x => x.2.step)

/-- ROLLBACK of every bay that met a fault in this cycle, and of the hardware's (R291). -/
def State.rollbackAgenda (s : State) : List Todo :=
  s.faultInputs ++ allParts.flatMap (fun q =>
    ((s.ticked q).filter (fun b => (s.bay b).pending.isSome)).map (fun b => .event (.rollback b none)))

/-- The hardware faults leave the inputs. -/
def State.dropFaults (s : State) : State :=
  { s with inputs := s.inputs.filter (fun x => !(decide (x.1 ≤ s.clock) && x.2.isFault)) }

/-- RETIRED_BAY_IDLE (R299). -/
def State.idleAgenda (s : State) : List Todo :=
  allParts.flatMap (fun q =>
    ((s.ticked q).filter (fun b => decide ((s.bay b).mode = .retiring))).map (fun b => .event (.retiredBayIdle b)))

/-! ## The end of a cycle: what becomes visible -/

/-- A gated write of a bay becomes visible at the end of pole cycle t (R214, R229, R230, R312): its bytes are in memory, PENDING is
set (R205), and it is noted for the race check, under its number where a gate counts it (R236). A HAND orders what was done under the old
mode before what is done under the new one (R218, R228). -/
def State.showWrite (s : State) (q : PartId) (b : BayId) (t : Nat) (w : GWrite) : State :=
  let noted (x : State) (pl : Place) (n kind : Nat) : State :=
    (x.noteBy q b.val w.tag pl n true kind (t + 1) w.seen).useRegion q w.va b.val (t + 1) w.seen
  let line (x : State) (l tx : Nat) : State :=
    x.onPart q (fun p => { p with lineSeen := assocSet [] p.lineSeen l (eventClock b.val tx (joinClock w.seen (x.seenBy b.val))) })
  let sent (x : State) : State :=
    let far := (x.part q).bays.any (fun y => (x.bay y).awaitsFar)
    x.onPart q (fun p => { p with sent := if far then p.sent ++ [(t, b.val, w)] else [] })
  let full (x : State) (f : List Nat → List Nat) : State := x.onPart q (fun p => { p with full := f p.full })
  match w.eff with
  | .bytes pl d =>
    match pl with
    | .chip _ _ _ => sent ((s.tier5Send b w.id w.va pl (.write d)).markPending q w.entry)
    | .ring _ _ | .lpddr _ _ => noted ((s.applyBytes w.eff).markPending q w.entry) pl d.length (if w.packet then 4 else 0)
  | .atomic op pl v =>
    match pl with
    | .chip _ _ _ => sent ((s.tier5Send b w.id w.va pl (.atomic op v)).markPending q w.entry)
    | .ring _ _ | .lpddr _ _ => noted ((s.applyBytes w.eff).markPending q w.entry) pl 16 1
  | .lineEmpty l => line (full s (fun x => x.filter (fun k => decide (k ≠ l)))) l t
  | .lineFull l pl d =>
    line (full (noted ((s.applyBytes w.eff).markPending q w.entry) pl d.length 0) (fun x => if x.contains l then x else l :: x)) l (t + 1)
  | .hand r m =>
    let p := s.part q
    let s1 := s.onPart q (fun y => { y with
      full := y.full.filter (fun k => !inRegion p r (p.mem.asid ++ BitVec.ofNat 64 (128 * k)))
      regions := y.regions.zipIdx.map (fun e => if e.2 = r then { e.1 with mode := m } else e.1) })
    s1.onPart q (fun y => { y with
      regionSeen := assocSet [] y.regionSeen r (joinClock (assocGet [] y.regionSeen r) (assocGet [] y.regionUse r))
      regionUse := assocSet [] y.regionUse r [] })

/-- The writes of a partition that become visible now: bays in ascending order, those of a bay as they performed, HANDs last
(R214, R228). -/
def State.showing (s : State) (q : PartId) : List (BayId × GWrite) :=
  let p := s.part q
  let l := (s.ticked q).flatMap (fun b =>
    (sortOn GWrite.at ((s.bay b).gbuf.filter (fun w => w.shows (s.bay b).released p.time))).map (fun w => (b, w)))
  l.filter (fun x => x.2.hands.isNone) ++ l.filter (fun x => x.2.hands.isSome)

/-- All of them leave their buffers and take effect. -/
def State.showWrites (s : State) (q : PartId) : State :=
  let t := (s.part q).time
  (s.showing q).foldl (fun acc x => (acc.onBay x.1 (fun y => y.dropG x.2.id)).showWrite q x.1 t x.2) s

/-- The tag operation of the cycle is made, and its result known (R189). -/
def State.endTag (s : State) (b : BayId) : State :=
  let x := s.bay b
  match x.tagOp with
  | none => s
  | some op =>
    let r := tagResult x.tags (s.tagSlots b) op
    s.onBay b (fun y => { (y.fill .mem0R false (s.now b + 4) (r.2.setWidth 2048)) with tags := r.1, tagOp := none })

/-- The banks of operand SRAM of a bay at the end of a cycle: reads and writes that met in a bank have not performed (R173). -/
def State.endBanks (s : State) (b : BayId) : State :=
  (s.dropLostUnits b).onBay b (fun x => x.makeBankWrites (s.bankSize b))

/-- What a bay keeps of a cycle only. -/
def Bay.endCycle (b : Bay) : Bay := { b with freed := 0, banks := [], lost := [], wrote := [], fetched := [], gsync := none, ticks := false }

/-- A claim of a slot that lies ahead of pole time t (R194, R470). -/
def Claim.ahead (c : Claim) (t : Nat) : Bool :=
  match c with
  | .burst _ slot _ => decide (t < 2 * slot + 2)
  | .port _ x _ => decide (t ≤ x)

/-- The pole clock moves on: at the end of the frame a frame start is due (R30). -/
def Part.advance (p : Part) : Part :=
  if p.polec + 1 < p.frameLen then { p with polec := p.polec + 1 } else { p with polec := p.frameLen, starting := true }

/-- A window of a bay that has been closed gives way to the next (R286), whose witness takes in the scarf context that the bay commands
(R288); the context is to tell of the release (R272), and the window's samples are committed (R207). -/
def State.turnBay (s : State) (q : PartId) (b : BayId) : State :=
  if (s.bay b).window.closed then
    let c := s.scarfOf q
    let mine := decide (c.bay = b.val)
    let s0 := s.onPart q (fun p => (s.bay b).window.samples.foldl Part.commitSample p)
    let s1 := s0.onBay b (fun x =>
      let y := x.turnWindow (s.poleTime b)
      { y with window := { y.window with witness := y.window.witness.map (fun w => { w with scarf := if mine then some c else none }) } })
    if mine then s1.onScarf q (fun y => { y with told := some (s.poleTime b) }) else s1
  else s

/-- The end of a pole cycle of a partition: tag tables, visibility, the scarf context's progress, windows, claims; the pole
cycle lasts k clock cycles (R29, R53), of which none is left where a stall came between (R291). -/
def State.endPole (s : State) (q : PartId) : State :=
  let l := s.ticked q
  let t := (s.part q).time
  let s1 := (l.foldl (fun acc b => (acc.endTag b).endBanks b) s).showWrites q
  let s2 := s1.scarfRelease q t
  let s3 := l.foldl (fun acc b => (acc.turnBay q b).onBay b Bay.endCycle) s2
  s3.onPart q (fun p => { p with
    claims := p.claims.filter (fun c => c.ahead (t + 1))
    resuming := []
    half := if p.stallStops.any (fun x => decide (x.clock ≤ s.clock)) then 1 else p.k })

/-- The end of a clock cycle of a hold for the bays that issued in it and wait for nothing: their own clocks move on (R468). -/
def State.endHeld (s : State) (q : PartId) : State :=
  let p := s.part q
  let made := (s.ticked q).filter (fun b => (s.bay b).pending.isNone)
  let s1 := made.foldl (fun acc b => (((acc.endTag b).endBanks b).turnBay q b).onBay b (fun x => { x.endCycle with lead := x.lead + 1 })) s
  let s2 := (s.ticked q).foldl (fun acc b => acc.onBay b (fun x => { x with ticks := false })) s1
  if p.bringing.isEmpty && p.resuming.all (fun r => (s.bay r.1).pending.isNone) then s2.onPart q (fun x => { x with resuming := [] })
  else s2

/-- The cycle of a partition ends, or is suspended until a page is there or an answer has come (R43, R291, R312). -/
def State.endPart (s : State) (q : PartId) : State :=
  let p := s.part q
  if (s.ticked q).isEmpty then s
  else if p.held then s.endHeld q
  else if p.bringing.isEmpty && p.resuming.all (fun r => (s.bay r.1).pending.isNone) then s.endPole q
  else (s.ticked q).foldl (fun acc b => acc.onBay b (fun x => { x with ticks := false })) s

/-- Every partition's cycle. -/
def State.endCycles (s : State) : State := allParts.foldl (fun acc q => acc.endPart q) s

/-! ## The chip -/

/-- Clock cycles of a pole cycle of the pod plan. -/
def State.podRate (s : State) : Nat := (s.podPart.map (fun q => (s.part q).k)).getD 1

/-- An input that is no event reaches the chip. -/
def State.takeInput (s : State) (i : Input) : State :=
  match i with
  | .event _ => s
  | .hostBytes a d => { s with hostMem := Mem.writeN s.hostMem a d }
  | .flashBytes pair a d => s.flashPut pair a d
  | .corrected store n => s.log (.note (if store then 285 else 197) n)
  | .temperature p t => { s with phys := s.phys.set p.val { s.phys.get p with temp := t } p.isLt }
  | .monitors b d p => { s with bents := s.bents.set b.val { s.bents.get b with droop := d, process := p } b.isLt }
  | .firmware img => { s with yard := { s.yard with fetched := img } }
  | .copied q x d =>
    match (s.part q).copies.find? (fun c => decide (c.entry = x)) with
    | some c =>
      let m := Mem.writeAll (s.lpddr.get c.bent) (d.map (fun v => (c.frame * 65536 + v.1, v.2)))
      { s with lpddr := s.lpddr.set c.bent.val m c.bent.isLt }
    | none => s
  | .podStopped => if s.allStopped then s.sendParity else s
  | .twinStop q e n =>
    s.onPart q (fun p => if p.mode = .running then
      { p with stall := max p.stall n, stallStops := p.stallStops ++ [⟨e, s.clock + p.half⟩] } else p)
  | .twin v => { s with arrivals := s.arrivals ++ [(s.clock + 20 * s.podRate, v)] }

/-- The inputs that are due. -/
def State.dueInputs (s : State) : List Input := (s.inputs.filter (fun x => decide (x.1 ≤ s.clock))).map (fun x => x.2)

/-- Inputs that are no events are taken, in order. -/
def State.takeInputs (s : State) : State := s.dueInputs.foldl (fun acc i => acc.takeInput i) s

/-- The inputs that are due leave the list. -/
def State.dropInputs (s : State) : State := { s with inputs := s.inputs.filter (fun x => decide (s.clock < x.1)) }

/-- Values that reach this chip's own router, by slot and then by leaf (R318). -/
def State.arrivalAgenda (s : State) : List Todo :=
  (sortOn (fun (m : NodeVal) => m.slot.val * 4096 + m.j)
    ((s.arrivals.filter (fun a => decide (a.1 ≤ s.clock))).map (fun a => a.2))).map (fun m => .event (.routerArrival m))

/-- Decisions of rounds (R319). -/
def State.decisionAgenda (s : State) : List Todo :=
  s.perPart (fun q p => evs (p.rds.map (fun d => .roundDecision q d.slot)))

/-- A page copy is to be begun, or made for the last time (R210). -/
def Part.copyWork (p : Part) : List Nat :=
  (p.decisions.filter (fun d => decide (d.2 ≠ .remote) && !p.copies.any (fun c => decide (c.entry = d.1)))).map (fun d => d.1)
    ++ (p.copies.filter (fun c => !c.done && !c.moving && decide (c.quiet < p.framec))).map (fun c => c.entry)

/-- Chips that a partition awaits in vain. -/
def State.silentChips (s : State) : List Nat :=
  (s.parts.toList.flatMap (fun p => (p.pod.heard.filter (fun h => p.silent h.1 s.clock)).map (fun h => h.1))).eraseDups

/-- The yard's work of a clock cycle: refresh in holds (R196), reports (R315), boot (R335), plans (R58), firmware (R339), page copies
(R210). -/
def State.yardAgenda (s : State) : List Todo :=
  (List.finRange 96).flatMap (fun ch =>
      evIf (decide (s.refresh.get ch + 2340 ≤ s.clock) && s.refreshes ch) (.holdRefresh ch))
    ++ evs (s.silentChips.map (fun c => .unresponsive c))
    ++ evIf (s.parts.toList.any (fun p => (p.nominalDue s.clock).isSome)) .nominalFrameStart
    ++ (match s.yard.boot with
      | .rom t => if s.yard.fetched = [] then [] else [.event (if t = 0 then .boot else .bootRetry)]
      | .running => [])
    ++ evIf s.nextPlan.isSome .planDispatch
    ++ evIf s.yard.switching.isSome .firmwareActivation
    ++ s.perPart (fun q p => evs (p.copyWork.map (fun x => .migrationCopy q x)))

/-- A pre-empted partition goes on when its bents are free, the highest priority first (R58, R60). -/
def State.resumeSaved (s : State) : State :=
  (sortOn (fun (q : PartId) => 8 * (3 - (s.part q).hdr.prio) + q.val)
    (allParts.filter (fun q => decide ((s.part q).mode = .preempted)))).foldl (fun acc q => nextOr acc (execPreemptionResume q acc)) s

/-- The partitions that may go on after a checkpoint or a recovery (R325). -/
def State.resumeChecked (s : State) : State := allParts.foldl (fun acc q => acc.resumePart q) s

/-- The request in the mailbox that is next is served (R330). -/
def State.serveNext (s : State) : State :=
  if s.requestDue s.respIndex then nextOr s s.serveMailbox else s

/-! ## The clocks -/

/-- The stall of a partition in a clock cycle that ends (R43, R291, R294, R45): it has begun, every bay's rollback takes its own time, and the
stall ends when the last is over and no page is awaited. -/
def Part.stallTick (p : Part) (clock : Nat) : Part :=
  if p.stallStops.any (fun x => decide (x.clock ≤ clock)) then
    let n := p.stall - 1
    if n = 0 ∧ p.resuming.isEmpty = true ∧ p.bringing.isEmpty = true then
      { p with stall := 0, stallStops := [], slips := p.slips ++ (stallRecord p.stallStops).toList.map (fun x => x.ended (clock + 1)) }
    else { p with stall := n }
  else p

/-- A partition at the end of a clock cycle: an idle frame is shorter by one (R337), a pole cycle whose clock cycles are over gives way
to the next (R29, R53). -/
def Part.tick (p : Part) (clock : Nat) : Part :=
  let p1 := match p.mode with
    | .idleFrame n => { p with mode := .idleFrame (n - 1) }
    | .unformed | .waiting | .running | .podWait | .preempted | .checkpointed | .stopped | .raced => p
  let p2 := if p1.half = 1 then { p1.advance with half := 0 } else { p1 with half := p1.half - 1 }
  p2.stallTick clock

/-- The clock, PTP time (5/6 ns a cycle, R21, R22) and the partitions move on. -/
def State.tick (s : State) : State :=
  let six := s.ptpSixths + 5
  { s with
    clock := s.clock + 1
    ptp := s.ptp + six / 6
    ptpSixths := six % 6
    parts := s.parts.map (fun p => p.tick s.clock) }

/-- The SENDs that link their receivers from this pole cycle on (R234). -/
def State.linkRecvs (s : State) : State := s.activeBays.foldl (fun acc b => acc.linkRecv b) s

/-! ## The phases -/

/-- Phases of a clock cycle. -/
def phases : Nat := 18

/-- What a phase does as it begins. -/
def State.enter (s : State) : State :=
  match s.phase with
  | 2 => s.endHolds
  | 5 => s.startTicks.linkRecvs
  | 7 => s.updateScales
  | 9 => s.prepareIssue
  | 10 => s.makeAllStarts
  | 11 => s.allChecks
  | 13 => State.endCycles { s.makeLater with parts := s.makeLater.parts.map Part.markWritten }
  | 14 => s.takeInputs
  | 15 => s.departures
  | 16 => s.askWaiting.allTraffic
  | 17 => s.serveNext.resumeSaved.resumeChecked.stickRaced.tick
  | _ => s

/-- The steps of a phase. -/
def State.agenda (s : State) : List Todo :=
  match s.phase with
  | 0 => s.frameAgenda
  | 1 => s.gateAgenda
  | 2 => s.releaseAgenda
  | 3 => s.stopAgenda
  | 4 => s.startAgenda
  | 5 => s.readAgenda
  | 6 => s.fetchAgenda
  | 7 => s.resultAgenda
  | 8 => s.beginAgenda
  | 9 => s.issueAgenda
  | 10 => s.writeAgenda
  | 11 => s.rollbackAgenda
  | 12 => s.idleAgenda
  | 14 => s.dueInputs.flatMap (fun i => i.step) ++ s.arrivalAgenda
  | 15 => s.decisionAgenda
  | 16 => s.yardAgenda
  | _ => []

/-- What a phase leaves behind once its steps are named. -/
def State.leave (s : State) : State :=
  match s.phase with
  | 9 => s.clearReruns
  | 11 => s.dropFaults
  | 14 => s.dropInputs
  | _ => s

/-- The next phase: its steps are due. -/
def State.turn (s : State) : State :=
  let s1 := s.enter
  { s1.leave with todo := s1.agenda, phase := (s.phase + 1) % phases }

end Sys2Proof.Machine
end

