-- ==== Sys2Proof/Machine/Step.lean ====
section
/-!
DEFINITION. One step of the machine: the next step that is due, or the next phase of the clock cycle (Machine/Schedule.lean).
-/

namespace Sys2Proof.Machine

/-- One step: a bundle, an event, or a phase of the clock cycle. -/
def step (s : State) : Host.Outcome State Fault Refusal :=
  match s.todo with
  | .issue b :: rest => .next (State.issue { s with todo := rest } b)
  | .event i :: rest => exec i { s with todo := rest }
  | [] => .next s.turn

/-- The state with a bundle of one word, in the lowest slot whose class accepts it, at the program counter of logical bay 0, which
issues next: the load of a program from outside (log 10). -/
def State.withFetchWord (s : State) (nbits w : Nat) : State :=
  let slot : Fin 8 := (tableSlot (BitVec.ofNat 24 (w % 2 ^ nbits))).getD 0
  let bytes := bundleBytes (bundleOf slot (BitVec.ofNat 24 (w % 2 ^ nbits)))
  let s1 := s.onBay 0 (fun b => { b with imem := Mem.writeN b.imem (24 * b.pc) bytes })
  { s1 with todo := [.issue 0] }

end Sys2Proof.Machine
end

