-- ==== Sys2Proof/Safety.lean ====
section
/-!
DEFINITION. What a safe run is, and the invariants in whose terms claims are stated: the canonical form of every memory, the bounds of
the clocks' own fields, and what a step leaves to the end of a clock cycle.
-/

namespace Sys2Proof

open Sys2Proof.Machine

/-! ## Safe runs -/

/-- The machine goes on from a state. -/
def Safe (s : State) : Prop := ∃ t, step s = .next t

/-- No partition stands, or is about to stand, because accesses of it raced (R5, R221). -/
def RaceFree (s : State) : Prop := ∀ q : PartId, (s.part q).racing = false ∧ (s.part q).mode ≠ .raced

/-- Every one of n steps from a state is made, and no partition has come to a data race in the end. -/
def SafeFor (n : Nat) (s : State) : Prop := ∃ t, core.run n s = .next t ∧ RaceFree t

/-- The states that n steps lead to. -/
def Reaches (n : Nat) (s t : State) : Prop := core.run n s = .next t

/-! ## Memories -/

/-- The memories and stores of one bay. -/
def bayMems (b : Bay) : List Mem := [b.scratch, b.opA, b.opB, b.imem, b.jigmem]

/-- Device memory: ring SRAM and LPDDR-6 of every bent (R17, R19). -/
def deviceMems (s : State) : List Mem := s.ring.toList ++ s.lpddr.toList

/-- The memories that a partition keeps: the backing locations of its pages (R203), and when it is stopped the stores of its bays and its
ring segments, and those of its latest checkpoint (R59, R304, R325). -/
def keptMems (p : Part) : List Mem :=
  let saved (l : List SavedBay) (r : List (Nat × Mem)) : List Mem := l.flatMap (fun v => bayMems v.kept) ++ r.map (fun x => x.2)
  p.backing :: saved p.saved p.savedRing ++ (p.checkpoint.toList.flatMap (fun c => saved c.bays c.ring))

/-- Every memory that holds data of programs is in its one canonical form: addresses strictly rising, and no byte that reads as an
unlisted one does. -/
def MemsWf (s : State) : Prop :=
  (∀ m ∈ deviceMems s, m.wf = true) ∧ (∀ b : BayId, ∀ m ∈ bayMems (s.bay b), m.wf = true) ∧
    (∀ q : PartId, ∀ m ∈ keptMems (s.part q), m.wf = true) ∧ s.hostMem.wf = true ∧ s.yard.mailbox.wf = true ∧
    (∀ f ∈ s.flash, f.2.wf = true) ∧ ∀ u ∈ s.rebuild, u.2.1.wf = true

/-! ## Time -/

/-- The clocks are in their bounds: a phase of the cycle, and less than six sixths of a nanosecond (R22). -/
def TimeOk (s : State) : Prop := s.phase < phases ∧ s.ptpSixths < 6

/-- Two states agree on the chip's time. -/
def SameTime (s t : State) : Prop := t.clock = s.clock ∧ t.phase = s.phase

/-! ## A move of the bay in issue -/

/-- The move with control part c is made in a state: its guard lets it (R85), and it reads no result port early (R63). -/
def Made (c : Ctl) (s : State) : Prop := guardOn s.me.seen c.guard = true ∧ s.me.sourceFault s.myNow c = none

/-- No result in flight of the bay in issue becomes ready on port p in the cycle of one of latency lat triggered now (R64). -/
def PortFree (s : State) (p : ResPort) (lat : Nat) : Prop :=
  s.me.collides s.myNow (s.poleTime s.cur) (s.partAt s.cur).held p false lat = false

/-- The value that a move with control part c moves. -/
def movedVal (c : Ctl) (s : State) : Val := s.me.value c.src

/-- The state with one result more in flight in the bay in issue, on port p, ready lat cycles on (R63); nothing else changes. -/
def putResult (s : State) (p : ResPort) (lat : Nat) (v : VReg) : State :=
  s.onMe (fun b => { b with inflight := b.inflight ++ [⟨p, s.myNow, s.myNow + lat, false, some v⟩] })

/-- A number as a scalar result: its low 64 bits. -/
def scalarOf (x : Int) : VReg := (BitVec.ofInt 64 x).setWidth 2048

/-- An instruction puts a result in flight on port p of the bay in issue, ready lat cycles on, and does nothing else. -/
def Gives (i : Instr) (s : State) (p : ResPort) (lat : Nat) (v : VReg) : Prop := exec i s = .next (putResult s p lat v)

/-- The result that an instruction puts in flight has, in each of its lanes of wd bits, the function's value modulo the lane's width. -/
def GivesLanes (i : Instr) (s : State) (p : ResPort) (lat wd : Nat) (f : Nat → Int) : Prop :=
  ∃ v : VReg, Gives i s p lat v ∧ ∀ k < laneCount wd, lane v wd k = BitVec.ofInt wd (f k)

/-- The result is a mask: every one of the wd / 8 bits of lane k holds the condition of the lane (R67), and no bit beyond is set. -/
def GivesMask (i : Instr) (s : State) (p : ResPort) (lat wd : Nat) (f : Nat → Bool) : Prop :=
  ∃ m : MaskReg, Gives i s p lat (m.setWidth 2048) ∧ ∀ k < laneCount wd, ∀ j < wd / 8, m.getLsbD (wd / 8 * k + j) = f k

/-- The same of the result's bits, one by one. -/
def GivesBits (i : Instr) (s : State) (p : ResPort) (lat n : Nat) (f : Nat → Bool) : Prop :=
  ∃ v : VReg, Gives i s p lat v ∧ ∀ k < 2048, v.getLsbD k = (decide (k < n) && f k)

/-- The instruction of unit u of a pair. -/
def ofUnit (u : Fin 2) (x y : Instr) : Instr := if u.val = 0 then x else y

/-- 1 where a condition holds, 0 where it does not. -/
def oneIf (p : Prop) [Decidable p] : Int := if p then 1 else 0

/-- The control part of a move of a slot: none for an event, a long immediate and a pad. -/
def Instr.ctl? (i : Instr) : Option Ctl :=
  match i.form with
  | .event | .limm _ | .pad _ => none
  | .move c _ | .alu c _ _ | .mul c _ | .div c _ | .lsu c _ _ | .mem c _ | .shw c _ | .vec c _ _ _ _ | .vfn c _ | .vred c _ _ _
  | .engine c _ | .control c _ => some c

/-- A state that differs from another in one logical bay alone. -/
def OnlyBay (b : BayId) (s t : State) : Prop := t = s.setBay b (t.bay b)

/-- A state that differs from another in one partition alone. -/
def OnlyPart (q : PartId) (s t : State) : Prop := t = s.setPart q (t.part q)

/-- Every byte of ring SRAM, LPDDR-6 and the host, and of every store of every bay, reads as before. -/
def SameMemory (s t : State) : Prop :=
  t.ring = s.ring ∧ t.lpddr = s.lpddr ∧ t.hostMem = s.hostMem ∧ ∀ b : BayId, bayMems (t.bay b) = bayMems (s.bay b)

/-- A number held to the symmetric range of w bits (R131). -/
def heldTo (w : Nat) (x : Int) : Int := max (-(2 ^ (w - 1) - 1)) (min (2 ^ (w - 1) - 1) x)

/-- A number of w bits has n sign bits beyond its first. -/
def hasSignBits (w n : Nat) (x : Int) : Prop := -(2 ^ (w - 1 - n)) ≤ x ∧ x < 2 ^ (w - 1 - n)

/-- A product rounded to nearest at bit n, ties towards plus infinity (R149). -/
def nearest (x : Int) (n : Nat) : Int := if n = 0 then x else (x + 2 ^ (n - 1)) / 2 ^ n

/-! ## Accesses and commands -/

/-- An instruction puts one access in flight in the bay in issue, with results that await it, and does nothing else. -/
def Starts (i : Instr) (s : State) (a : Access) (l : List Result) : Prop :=
  exec i s = .next (s.onMe (fun b => { b with acc := b.acc ++ [a], nextId := b.nextId + 1, inflight := b.inflight ++ l }))

/-- A local access of the bay in issue as it is triggered: it performs 4 cycles on (R213). -/
def localAccess (s : State) (kind : AccKind) (off : Addr) (n : Nat) (signed : Bool) (data : VReg) (mask : MaskReg)
    (port : Option ResPort) : Access :=
  ⟨s.me.nextId, kind, off, n, signed, data, mask, false, false, 0, none, port, s.myNow + 4, s.me.window.num, s.poleTime s.cur⟩

/-- A result of the bay in issue whose value comes with an access. -/
def awaited (s : State) (p : ResPort) (lat : Nat) : Result := ⟨p, s.myNow, s.myNow + lat, false, none⟩

/-- A VA operation whose address, of n bytes, passes its checks, in their order: its page is found and lets the access (R203), is of
tier 3 to 5, is aligned, lets its kind in its region's mode (R225), has a slot in this cycle (R194) and, where it asks another chip at its
trigger, a link slot (R312), and no limit is met (R64, R253, R287). -/
structure VaPasses (s : State) (o : VaOp) (n : Nat) (va : Addr) (x : Xlat) (cl : List Claim) : Prop where
  page : translate (s.partAt s.cur) va o.need false = .ok x
  tier : 3 ≤ teStier x.raw ∧ teStier x.raw ≤ 5
  aligned : va.toNat % 2 ^ 64 % n = 0
  region : regionOk (s.partAt s.cur) s.cur o.region va = true
  slot : slotCheck (s.partAt s.cur) s.cur x va (s.poleTime s.cur) = .ok cl
  link : o.gated = true ∨ s.remoteOk s.cur x.place = true
  port : ∀ p : ResPort, o.port = some p →
    s.me.collides s.myNow (s.poleTime s.cur) (s.partAt s.cur).held p true (tierLatency s.cur x.raw) = false
  writes : o.gated = true → s.me.window.gstores < 1024
  room : s.booked s.cur < s.half s.cur 8192

/-- A VA operation starts: one access in flight that performs at the tier latency on pole time, its result on its port, and where it is
a gated write one entry in the gated-store buffer; no register, operand port, byte of memory or other bay changes. -/
def StartsShared (i : Instr) (s : State) (o : VaOp) (n : Nat) (signed : Bool) (va : Addr) (data : VReg) (value : Option VReg)
    (g : Option (Place → GEffect)) : Prop :=
  ∀ (x : Xlat) (cl : List Claim), VaPasses s o n va x cl →
    let now := s.poleTime s.cur
    let due := now + tierLatency s.cur x.raw
    ∃ t : State, exec i s = .next t ∧ SameMemory s t ∧ t.cur = s.cur ∧
      t.me.acc = s.me.acc ++ [⟨s.me.nextId, o.kind, va, n, signed, data, 0, false, false, x.entry, some x.place, o.port, due,
        s.me.window.num, now⟩] ∧
      t.me.inflight = s.me.inflight ++ (o.port.toList.map (fun p => ⟨p, now, due, true, value⟩)) ∧
      t.me.gbuf = s.me.gbuf ++ (g.toList.map (fun e =>
        ⟨s.me.nextId, va, n, x.entry, none, s.me.window.num, e x.place, [], 0, false⟩)) ∧
      t.me.regs = s.me.regs ∧ t.me.ops = s.me.ops ∧ ∀ b : BayId, b ≠ s.cur → t.bay b = s.bay b

/-- The command that a trigger of an engine captures as it issues (R103). -/
def issuedCmd (c : Ctl) (s : State) (e : Engine) (op : Nat) (mk : State → Cmd → Cmd) : Cmd :=
  mk s (s.newCmd op (movedVal c s).addr (shapeUnit e))

/-- The instruction takes a fault with a cause and INFO in its slot. -/
def Takes (i : Instr) (c : Ctl) (s : State) (f : Cause × Info) : Prop := exec i s = .next (s.raise (s.slotFault c f.1 f.2))

/-- A command that acts outside its bay is triggered in a hold (R41). -/
def Barred (c : Ctl) (s : State) (e : Engine) (op : Nat) (leaves : Cmd → Bool) (mk : State → Cmd → Cmd) : Prop :=
  leaves (issuedCmd c s e op mk) = true ∧ (s.partAt s.cur).held = true

/-- The queue has room for a command, no hold bars it, and where it is a QPUT (R409) the window has room for its write. -/
def Enters (c : Ctl) (s : State) (e : Engine) (op : Nat) (leaves : Cmd → Bool) (mk : State → Cmd → Cmd) : Prop :=
  (s.me.queue e).length < 16 ∧ ¬ Barred c s e op leaves mk ∧ (op = 281 → s.me.window.gstores < 1024)

/-- The must-be-zero bits of a command word are zero, SWAP among them for an engine without shapes (R103). -/
def CleanWord (c : Ctl) (s : State) (e : Engine) (mask : BitVec 72) : Prop :=
  (movedVal c s).addr &&& mask = 0 ∧ (shapeUnit e = none → (movedVal c s).addr.getLsbD 24 = false)

/-- A command trigger (R41, R71, R76, R103, R106, R287). With 16 commands in the queue it takes a queue-full fault; in a hold, one that acts
outside its bay takes a slot fault; a QPUT beyond the gated writes of its window a window overflow; a word with a must-be-zero bit set a
reserved-field fault; and a command that fails a check of its rule the fault of the first that it fails. Otherwise the command as captured
enters its engine's queue, and the swap bit exchanges the engine's active and shadow shapes; no register, no operand port, no other queue, no
store and no other bay changes. -/
def Queues (i : Instr) (c : Ctl) (s : State) (e : Engine) (op : Nat) (mask : BitVec 72) (leaves : Cmd → Bool)
    (mk : State → Cmd → Cmd) (chk : Cmd → State → Check) : Prop :=
  let barred : Prop := Barred c s e op leaves mk
  (16 ≤ (s.me.queue e).length → Takes i c s (.queueFull, BitVec.ofNat 72 op)) ∧
  ((s.me.queue e).length < 16 → barred → Takes i c s (.slot, 0)) ∧
  ((s.me.queue e).length < 16 → ¬ barred → op = 281 → 1024 ≤ s.me.window.gstores → Takes i c s (.windowOverflow, 2)) ∧
  (Enters c s e op leaves mk → ¬ CleanWord c s e mask → Takes i c s (.reservedField, BitVec.ofNat 72 op)) ∧
  (∀ f : Cause × Info, Enters c s e op leaves mk → CleanWord c s e mask → chk (issuedCmd c s e op mk) s = some f → Takes i c s f) ∧
  (Enters c s e op leaves mk → CleanWord c s e mask → chk (issuedCmd c s e op mk) s = none →
      ∃ t : State, exec i s = .next t ∧ OnlyBay s.cur s t ∧ t.me.queue e = s.me.queue e ++ [issuedCmd c s e op mk] ∧
        (∀ e' : Engine, e' ≠ e → t.me.queue e' = s.me.queue e') ∧ t.me.regs = s.me.regs ∧ t.me.ops = s.me.ops ∧
        t.me.inflight = s.me.inflight ∧ t.me.pegs = s.me.pegs ∧ bayMems t.me = bayMems s.me ∧
        ∀ k : Fin 3,
          if shapeUnit e = some k ∧ (movedVal c s).addr.getLsbD 24 = true then
            t.me.active.get k = s.me.shadow.get k ∧ t.me.shadow.get k = s.me.active.get k ∧
              (issuedCmd c s e op mk).sh = s.me.shadow.get k
          else t.me.active.get k = s.me.active.get k ∧ t.me.shadow.get k = s.me.shadow.get k ∧
            (shapeUnit e = some k → (issuedCmd c s e op mk).sh = s.me.active.get k))

/-- No result in flight of the bay in issue becomes ready with that of a VA operation triggered now (R64). -/
def VaPortFree (s : State) (o : VaOp) (va : Addr) : Prop :=
  ∀ (x : Xlat) (p : ResPort), translate (s.partAt s.cur) va o.need false = .ok x → o.port = some p →
    s.me.collides s.myNow (s.poleTime s.cur) (s.partAt s.cur).held p true (tierLatency s.cur x.raw) = false

/-- Where a VA operation stops at its trigger, in the order of its checks (R106, R203, R225, R229, R194, R470, R312, R64, R287, R253): its
result would collide; it is one gated write too many for the window; the bay's bookkeeping table is full; its page is not found, not
permitted or not present; the page is of no tier that it may use, or the address is not aligned; the region forbids it; no slot is left for
it in this cycle; the link has none for a request that leaves at once. -/
def VaStops (i : Instr) (c : Ctl) (s : State) (o : VaOp) (n : Nat) (va : Addr) : Prop :=
  let page := translate (s.partAt s.cur) va o.need false
  let meets : Prop := ¬ VaPortFree s o va
  let many : Prop := o.gated = true ∧ 1024 ≤ s.me.window.gstores
  let full : Prop := s.half s.cur 8192 ≤ s.booked s.cur
  (meets → Takes i c s (.resultCollision, BitVec.ofNat 72 o.id)) ∧
  (¬ meets → many → Takes i c s (.windowOverflow, 2)) ∧
  (¬ meets → ¬ many → full → Takes i c s (.inFlightLimit, 0)) ∧
  (¬ meets → ¬ many → ¬ full →
    (∀ e : Cause × Info, page = .error e → Takes i c s e) ∧
    ∀ x : Xlat, page = .ok x →
      let tier : Prop := 3 ≤ teStier x.raw ∧ teStier x.raw ≤ 5
      let aligned : Prop := va.toNat % 2 ^ 64 % n = 0
      let allowed : Prop := regionOk (s.partAt s.cur) s.cur o.region va = true
      let slots := slotCheck (s.partAt s.cur) s.cur x va (s.poleTime s.cur)
      (¬ tier ∨ ¬ aligned → Takes i c s (.range, va)) ∧
      (tier → aligned → ¬ allowed → Takes i c s (.region, va)) ∧
      (∀ e : Cause × Info, tier → aligned → allowed → slots = .error e → Takes i c s e) ∧
      ∀ cl : List Claim, tier → aligned → allowed → slots = .ok cl → o.gated = false → s.remoteOk s.cur x.place = false →
        Takes i c s (.slot, va))

/-! ## Stochastic rounding -/

/-- The kerf value of R147, in numbers below 2 ^ 64. -/
def kerfValue (seed stream level pos : Nat) : Nat :=
  let key := seed ^^^ (stream % 2 ^ 16 * 2 ^ 48) ^^^ (level % 64 * 2 ^ 42) ^^^ (pos % 2 ^ 42)
  let z0 := (key + 0x9E3779B97F4A7C15) % 2 ^ 64
  let z1 := (z0 ^^^ (z0 / 2 ^ 30)) * 0xBF58476D1CE4E5B9 % 2 ^ 64
  let z2 := (z1 ^^^ (z1 / 2 ^ 27)) * 0x94D049BB133111EB % 2 ^ 64
  z2 ^^^ (z2 / 2 ^ 31)

/-- A number shifted right by s, to the left where s is negative, with the low s bits of a kerf value added before bits are dropped (R149). -/
def shiftedBy (x s : Int) (r : Nat) : Int := if s ≤ 0 then x * 2 ^ s.natAbs else (x + (r % 2 ^ s.natAbs : Nat)) / 2 ^ s.natAbs

/-! ## Accesses that perform -/

/-- The access that an ACCESS_PERFORM names: the first of the bay with its id. -/
def Performs (s : State) (b : BayId) (id : Nat) (a : Access) : Prop :=
  (s.bay b).acc.find? (fun x => decide (x.id = id)) = some a ∧ s.accDue b a = true

/-- A bay after a result of it, due in a cycle, took its value, and the access that brought it left (R63, R213). -/
def delivered (x : Bay) (a : Access) (p : ResPort) (remote : Bool) (due : Nat) (v : VReg) : Bay :=
  { x with
    inflight := x.inflight.map (fun r =>
      if r.port = p ∧ r.remote = remote ∧ r.due = due ∧ r.value.isNone = true then { r with value := some v } else r)
    acc := x.acc.filter (fun y => decide (y.id ≠ a.id)) }

/-- The number that a load of n bytes holding x delivers: sign-extended where its control value says so (R380). -/
def loaded (signed : Bool) (n x : Nat) : Int := if signed = true ∧ 2 ^ (8 * n - 1) ≤ x then (x : Int) - 2 ^ (8 * n) else x

/-- A state, or that state with the partition of a bay marked as having a data race, as an access of the bay to its own stores marks it that
meets an asynchronous walk which it is not ordered with (R23, R221, R248); without such a walk it is the state itself. -/
def RaceNoted (b : BayId) (s u : State) : Prop :=
  (u = s ∨ ∃ q : PartId, s.partOf b = some q ∧ u = s.race q) ∧
    ((∀ a ∈ s.touches, a.key.1 < 32) → (∀ q : PartId, s.partOf b = some q → (s.part q).asyncs = []) → u = s)

/-- A state that differs from another in one logical bay alone, but for the mark of a race. -/
def OnlyOwn (b : BayId) (s t : State) : Prop := ∃ u : State, RaceNoted b s u ∧ OnlyBay b u t

/-- Two states differ in one bay and there in no register, operand port, peg or store but the scratchpad, but for the mark of a race. -/
def OnlyScratch (b : BayId) (s t : State) : Prop :=
  OnlyOwn b s t ∧ (t.bay b).regs = (s.bay b).regs ∧ (t.bay b).ops = (s.bay b).ops ∧ (t.bay b).pegs = (s.bay b).pegs ∧
    (t.bay b).opA = (s.bay b).opA ∧ (t.bay b).opB = (s.bay b).opB ∧ (t.bay b).imem = (s.bay b).imem ∧
    (t.bay b).jigmem = (s.bay b).jigmem ∧ (t.bay b).inflight = (s.bay b).inflight

/-- Every byte of a list stands at its address in a store, and every other address reads as in another store. -/
def Stored (old new : Mem) (off : Nat) (data : List Byte) : Prop :=
  (∀ k < data.length, Mem.read new (off + k) = data.getD k 0) ∧
    ∀ a : Nat, a < off ∨ off + data.length ≤ a → Mem.read new a = Mem.read old a

/-- Runs of bytes written one after another: an address that some run covers reads as the last of these gives it, and every other as in
another store. -/
def StoredRuns (old new : Mem) (runs : List (Nat × List Byte)) : Prop :=
  ∀ a : Nat, Mem.read new a = match runs.reverse.find? (fun r => decide (r.1 ≤ a) && decide (a < r.1 + r.2.length)) with
    | some r => r.2.getD (a - r.1) 0
    | none => Mem.read old a

/-- Runs of bytes may land in a store of a bay in this cycle: no byte of the scratchpad is written a second time (R215), no bank of operand
SRAM is (R173), and the window has room for their lines (R287). -/
def MayLand (s : State) (b : BayId) (k : BayStore) (runs : List (Nat × List Byte)) (scale : Bool) : Prop :=
  ((s.bay b).store k).wf = true ∧ (s.bay b).linesNow + (runLines runs).length ≤ 256 ∧
    (k = .scratch → ∀ r ∈ runs, ∀ i < r.2.length, (0, r.1 + i) ∉ (s.bay b).wrote) ∧
    (k ≠ .scratch → scale = false → ∀ r ∈ runs, ∀ n ∈ banksOf (s.bankSize b) r.1 r.2.length,
      (decide (k = .opB), n, true) ∉ (s.bay b).banks)

/-- Runs of bytes have landed in a store of a bay: those of the scratchpad and of scale lines stand there, and those of operand SRAM wait for
the end of the cycle (R173); every other store, and every register, operand port and handle, is as before. -/
def LandedIn (x y : Bay) (k : BayStore) (runs : List (Nat × List Byte)) (scale : Bool) : Prop :=
  y.regs = x.regs ∧ y.ops = x.ops ∧ y.handles = x.handles ∧ y.imem = x.imem ∧ y.jigmem = x.jigmem ∧
    (∀ k' : BayStore, k' ≠ k → y.store k' = x.store k') ∧
    (k = .scratch ∨ scale = true → StoredRuns (x.store k) (y.store k) runs ∧ y.bankWrites = x.bankWrites) ∧
    (k ≠ .scratch → scale = false → y.store k = x.store k ∧ y.bankWrites = x.bankWrites ++ [(k, runs)])

/-- The same, with nothing beyond the bay changed but the mark of a race. -/
def Landed (s t : State) (b : BayId) (k : BayStore) (runs : List (Nat × List Byte)) (scale : Bool) : Prop :=
  OnlyOwn b s t ∧ LandedIn (s.bay b) (t.bay b) k runs scale

/-- The head command of an engine's queue may begin in this cycle (R76, R232): it was issued in an earlier one, and every peg that it
consumes is produced, and not consumed by another that began in this cycle. -/
structure Begins (s : State) (b : BayId) (e : Engine) (c : Cmd) (rest : List Cmd) : Prop where
  head : (s.bay b).queue e = c :: rest
  later : c.issued < s.now b
  pegs : ∀ n ∈ c.consumes, (s.bay b).pegs.getLsbD n = true ∧ n ∉ (s.bay b).pegUse

/-- What every begin does to its queue and pegs: the command has left the queue, and the pegs it consumes are consumed. -/
def Begun (s t : State) (b : BayId) (e : Engine) (c : Cmd) (rest : List Cmd) : Prop :=
  (t.bay b).queue e = rest ∧ (∀ e' : Engine, e' ≠ e → (t.bay b).queue e' = (s.bay b).queue e') ∧
    (t.bay b).pegUse = c.consumes ++ (s.bay b).pegUse ∧ (t.bay b).pegs = (s.bay b).pegs ∧ (t.bay b).regs = (s.bay b).regs

/-- The device memory of a state is that of another with bytes written at a place. -/
def WritesPlace (s t : State) (pl : Place) (data : List Byte) : Prop :=
  t.ring = (s.writePlace pl data).ring ∧ t.lpddr = (s.writePlace pl data).lpddr ∧ t.hostMem = s.hostMem

/-- Arrivals of n bytes at the gate of a VA, if it names one, are the one change of device memory that follows a first write of it (R246, R255):
ARRIVED rises by n, up to 2 ^ 48 - 1, and EXPECT and PHASE stay. -/
def CountsAt (s t : State) (q : PartId) (gate : Addr) (n : Nat) : Prop :=
  (gate = 0 → t.ring = s.ring ∧ t.lpddr = s.lpddr ∧ t.hostMem = s.hostMem) ∧
  ∀ pl : Place, gate ≠ 0 → gatePlace (s.part q) gate = some pl →
    ∃ new : BitVec 128, WritesPlace s t pl (leBytes 16 new.toNat) ∧ gateExpect new = gateExpect (s.gateAt pl) ∧
      gateArrived new = min (2 ^ 48 - 1) (gateArrived (s.gateAt pl) + n) ∧ new.toNat / 2 ^ 96 = (s.gateAt pl).toNat / 2 ^ 96 ∧
      gate ∈ (t.part q).gatesDue

/-- Walker k of a bay holds a walk w among others, and the walk a unit r among others, each under a number of its own. -/
structure SoleUnit (x : Bay) (k : Fin 2) (l l' : List WalkRun) (w : WalkRun) (us us' : List WalkUnit) (r : WalkUnit) : Prop where
  walks : x.walksOf k = l ++ w :: l'
  units : w.units = us ++ r :: us'
  named : ∀ v ∈ us ++ us', v.id ≠ r.id
  others : ∀ a ∈ l ++ l', a.cmd.id ≠ w.cmd.id

/-- A unit of a walk is over (R244): it has left the walk, which with its last unit leaves the walker and produces its peg. -/
def UnitOver (x y : Bay) (k : Fin 2) (l l' : List WalkRun) (w : WalkRun) (rest : List WalkUnit) : Prop :=
  (w.landed + 1 = w.total → y.walksOf k = l ++ l' ∧
    y.pegSet = if w.cmd.ppeg = 63 then x.pegSet else x.pegSet ++ [w.cmd.ppeg]) ∧
  (w.landed + 1 ≠ w.total → y.walksOf k = l ++ { w with landed := w.landed + 1, units := rest } :: l' ∧ y.pegSet = x.pegSet)

/-- Unit i of a walk may trigger its read (R244, R253, R287): the bookkeeping table and the window have room, and a local source is in its
store. -/
structure MayTrigger (s : State) (b : BayId) (c : Cmd) (i : Nat) : Prop where
  room : s.inFlightFull b = false
  writes : (c.wend true).sp = 3 → 0 < c.writes (c.wu i) → (s.bay b).window.gstores < 1024
  inside : (c.wend false).sp ≠ 3 → 0 < c.live (c.wu i) → 0 ≤ c.woff false (c.wu i) ∧
    c.woff false (c.wu i) + c.live (c.wu i) ≤ s.storeSize b (spStore (c.wend false).sp)
  latency : (c.wend false).sp = 3 → 0 < c.unitLat (s.partAt b) b false (c.wva false (c.wu i))

/-- Unit i of a walk has triggered its read (R244). One of a local source is read at once, its clipped bytes filled with zeros, and lands a
cycle on, 24 cycles on in other bays (R247), or at the latency of its page; one of a VA source is read at the latency of its page. Accesses to
VA ends wait to claim their slots, and a gated write counts in the window. -/
def Triggered (s t : State) (b : BayId) (k : Fin 2) (c : Cmd) (i : Nat) (walks : WalkUnit → List WalkRun) : Prop :=
  let clock := s.walkClock b c
  let u := c.wu i
  let id := (s.bay b).nextId
  let win := (s.bay b).window.num
  let far (d : Bool) : Nat := c.unitLat (s.partAt b) b d (c.wva d u)
  let off := (c.woff false u).toNat
  OnlyOwn b s t ∧ bayMems (t.bay b) = bayMems (s.bay b) ∧ (t.bay b).regs = (s.bay b).regs ∧
  (t.bay b).window.gstores = (s.bay b).window.gstores + (if (c.wend true).sp = 3 ∧ 0 < c.writes u then 1 else 0) ∧
  ((c.wend false).sp ≠ 3 →
    (t.bay b).walksOf k = walks ⟨i, id, false, false, clock,
      some (clock + (if (c.wend true).sp = 3 then far true else if c.isM = true then 24 else 1)),
      Mem.readN ((s.bay b).store (spStore (c.wend false).sp)) off (c.live u) ++ List.replicate (c.writes u - c.live u) 0, win⟩ ∧
    (t.bay b).starts = (s.bay b).starts ++ (if (c.wend true).sp = 3 ∧ c.writes u ≠ 0 then [⟨k, c.id, id, true⟩] else [])) ∧
  ((c.wend false).sp = 3 →
    (t.bay b).walksOf k = walks ⟨i, id, false, false, clock + far false, none, [], win⟩ ∧
    (t.bay b).starts = (s.bay b).starts ++ (if 0 < c.live u then [⟨k, c.id, id, false⟩] else []))

/-- The peg of a completed command is produced at the end of the cycle (R232); 63 names none. -/
def Produced (s t : State) (b : BayId) (c : Cmd) : Prop :=
  (t.bay b).pegSet = if c.ppeg = 63 then (s.bay b).pegSet else (s.bay b).pegSet ++ [c.ppeg]

/-- Request n of the mailbox is the next to be answered, its packet of command k is here and in order, its LOAD is not in course, and
nothing keeps the yard busy (R123, R330, R332). -/
structure Serves (s : State) (n k : Nat) : Prop where
  boot : s.yard.boot = .running
  next : n = s.respIndex
  asked : n < s.reqIndex
  here : (s.requesterOf n).isSome = true
  cmd : reqCmd (s.request n) = k
  fresh : ∀ q : PartId, (s.part q).request ≠ some n
  inOrder : reqStatus (s.request n) = 0
  idle : s.yard.busy = false

/-! ## Transfers of control -/

/-- The bundle at an index may be the target of a transfer taken by the bundle at pc (R79, R92): it is valid, no loop level in force ends
at pc, and a ranged transfer stays in the top level's range. -/
def LegalTarget (s : State) (idx : Int) (ranged : Bool) : Prop :=
  0 ≤ idx ∧ idx < s.bundleLimit s.cur ∧ (∀ l ∈ s.me.loopsInForce, s.me.pc ≠ l.stop) ∧
    ∀ l : LoopLevel, s.me.topLoop = some l → ranged = true → (l.start : Int) ≤ idx ∧ idx ≤ l.stop

/-- The state with a transfer to the bundle at an index taken, and nothing else changed (R91). -/
def jumps (s : State) (idx : Int) : State := s.onMe (fun b => { b with xfer := some idx.toNat })

/-- The same with lk at the code address of the bundle that follows (R351). -/
def calls (s : State) (idx : Int) : State :=
  s.onMe (fun b => { b with xfer := some idx.toNat, regs := { b.regs with lk := BitVec.ofNat 64 (24 * (b.pc + 1)) } })

/-- An instruction leads to a state where a condition holds, and elsewhere takes a fault with a cause and INFO. -/
def Either (i : Instr) (c : Ctl) (s : State) (ok : Prop) (t : State) (cause : Cause) (info : Info) : Prop :=
  (ok → exec i s = .next t) ∧ (¬ ok → exec i s = .next (s.raise (s.slotFault c cause info)))

end Sys2Proof
end

