-- ==== Sys2Proof/Certificates/Slice0/Obligations.lean ====
section
/-!
DEFINITION. The statements for the provers: what each instruction and event does, what it leaves alone, where it completes and where it
faults, and the rules that hold of every step.
-/

open Sys2Proof Sys2Proof.Machine

/-! ## Scalar units -/

/-- R342, R344: ADD and SUB are modular; ADDS and SUBS clamp to the symmetric range of 64 bits. The result is ready on alu.r one cycle
on, and nothing else changes. -/
def Obligations.AluSums : Prop :=
  ∀ (c : Ctl) (u : Fin 2) (s : State), Made c s → PortFree s (aluPort u) 1 →
    let a := (s.me.aluA u).toInt
    let t := (movedVal c s).word.toInt
    Gives (.add c u) s (aluPort u) 1 (scalarOf (a + t)) ∧
    Gives (.sub c u) s (aluPort u) 1 (scalarOf (a - t)) ∧
    Gives (.adds c u) s (aluPort u) 1 (scalarOf (max (-(2 ^ 63 - 1)) (min (2 ^ 63 - 1) (a + t)))) ∧
    Gives (.subs c u) s (aluPort u) 1 (scalarOf (max (-(2 ^ 63 - 1)) (min (2 ^ 63 - 1) (a - t))))

/-- R345: every result bit of a logic operation is formed from the two operand bits of its position. -/
def Obligations.AluLogic : Prop :=
  ∀ (c : Ctl) (u : Fin 2) (s : State), Made c s → PortFree s (aluPort u) 1 →
    let a := s.me.aluA u
    let t := (movedVal c s).word
    GivesBits (.and c u) s (aluPort u) 1 64 (fun k => a.getLsbD k && t.getLsbD k) ∧
    GivesBits (.or c u) s (aluPort u) 1 64 (fun k => a.getLsbD k || t.getLsbD k) ∧
    GivesBits (.xor c u) s (aluPort u) 1 64 (fun k => a.getLsbD k != t.getLsbD k) ∧
    GivesBits (.andn c u) s (aluPort u) 1 64 (fun k => a.getLsbD k && !t.getLsbD k)

/-- R420, R417: shifts multiply or divide by a power of two whose exponent is the whole of t, and ROTL turns a by t modulo 64. -/
def Obligations.AluShifts : Prop :=
  ∀ (c : Ctl) (u : Fin 2) (s : State), Made c s → PortFree s (aluPort u) 1 →
    let a := s.me.aluA u
    let t := (movedVal c s).word.toNat
    Gives (.shl c u) s (aluPort u) 1 (scalarOf (a.toNat * 2 ^ t)) ∧
    Gives (.shr c u) s (aluPort u) 1 (scalarOf (a.toNat / 2 ^ t)) ∧
    Gives (.sar c u) s (aluPort u) 1 (scalarOf (a.toInt / 2 ^ t)) ∧
    GivesBits (.rotl c u) s (aluPort u) 1 64 (fun k => a.getLsbD ((k + 64 - t % 64) % 64))

/-- R390, R341, R421: the minimum and maximum of two operands, signed and unsigned, the clamped magnitude, and SEL. -/
def Obligations.AluChoices : Prop :=
  ∀ (c : Ctl) (u : Fin 2) (s : State), Made c s → PortFree s (aluPort u) 1 →
    let a := s.me.aluA u
    let b := s.me.aluB u
    let t := (movedVal c s).word
    Gives (.min c u) s (aluPort u) 1 (scalarOf (min a.toInt t.toInt)) ∧
    Gives (.max c u) s (aluPort u) 1 (scalarOf (max a.toInt t.toInt)) ∧
    Gives (.minu c u) s (aluPort u) 1 (scalarOf (min a.toNat t.toNat : Nat)) ∧
    Gives (.maxu c u) s (aluPort u) 1 (scalarOf (max a.toNat t.toNat : Nat)) ∧
    Gives (.abs c u) s (aluPort u) 1 (scalarOf (min (2 ^ 63 - 1) |t.toInt|)) ∧
    Gives (.sel c u) s (aluPort u) 1 (scalarOf (if t.toNat = 0 then b.toInt else a.toInt))

/-- R356, R406: a compare and an operation on truth values deliver 1 or 0. -/
def Obligations.AluConditions : Prop :=
  ∀ (c : Ctl) (u : Fin 2) (s : State), Made c s → PortFree s (aluPort u) 1 →
    let a := s.me.aluA u
    let t := (movedVal c s).word
    Gives (.cmpeq c u) s (aluPort u) 1 (scalarOf (oneIf (a = t))) ∧
    Gives (.cmpne c u) s (aluPort u) 1 (scalarOf (oneIf (a ≠ t))) ∧
    Gives (.cmplt c u) s (aluPort u) 1 (scalarOf (oneIf (a.toInt < t.toInt))) ∧
    Gives (.cmple c u) s (aluPort u) 1 (scalarOf (oneIf (a.toInt ≤ t.toInt))) ∧
    Gives (.cmpltu c u) s (aluPort u) 1 (scalarOf (oneIf (a.toNat < t.toNat))) ∧
    Gives (.cmpleu c u) s (aluPort u) 1 (scalarOf (oneIf (a.toNat ≤ t.toNat))) ∧
    Gives (.pand c u) s (aluPort u) 1 (scalarOf (oneIf (a.toNat ≠ 0 ∧ t.toNat ≠ 0))) ∧
    Gives (.por c u) s (aluPort u) 1 (scalarOf (oneIf (a.toNat ≠ 0 ∨ t.toNat ≠ 0))) ∧
    Gives (.pxor c u) s (aluPort u) 1 (scalarOf (oneIf ((a.toNat ≠ 0) ≠ (t.toNat ≠ 0)))) ∧
    Gives (.pnot c u) s (aluPort u) 1 (scalarOf (oneIf (t.toNat = 0)))

/-- R355, R368: the counts of bits, and the bit fields of EXT and INS, pos being t[5:0], len t[11:6] + 1 and SX t[12]. -/
def Obligations.AluBitCounts : Prop :=
  ∀ (c : Ctl) (u : Fin 2) (s : State), Made c s → PortFree s (aluPort u) 1 →
    let a := s.me.aluA u
    let b := s.me.aluB u
    let t := (movedVal c s).word
    let pos := t.toNat % 64
    let len := t.toNat / 64 % 64 + 1
    let f := a.toNat / 2 ^ pos % 2 ^ len
    (∃ n : Nat, n ≤ 64 ∧ Gives (.clz c u) s (aluPort u) 1 (scalarOf n) ∧ t.toNat < 2 ^ (64 - n) ∧
      ∀ m : Nat, m ≤ 64 → t.toNat < 2 ^ (64 - m) → m ≤ n) ∧
    (∃ n : Nat, n ≤ 63 ∧ Gives (.cls c u) s (aluPort u) 1 (scalarOf n) ∧ (-(2 ^ (63 - n)) ≤ t.toInt ∧ t.toInt < 2 ^ (63 - n)) ∧
      ∀ m : Nat, m ≤ 63 → -(2 ^ (63 - m)) ≤ t.toInt → t.toInt < 2 ^ (63 - m) → m ≤ n) ∧
    Gives (.popc c u) s (aluPort u) 1 (scalarOf ((List.range 64).countP (fun k => t.getLsbD k) : Nat)) ∧
    Gives (.ext c u) s (aluPort u) 1 (scalarOf (if t.getLsbD 12 = true ∧ 2 ^ (len - 1) ≤ f then (f : Int) - 2 ^ len else f)) ∧
    GivesBits (.ins c u) s (aluPort u) 1 64 (fun k => if pos ≤ k ∧ k < pos + len then b.getLsbD (k - pos) else a.getLsbD k)

/-- R392, R393: the products of mul0, exact before selection; MULQ rounds to nearest at bit 29 and clamps to 31 bits. -/
def Obligations.Products : Prop :=
  ∀ (c : Ctl) (s : State), Made c s → PortFree s .mul0R 3 →
    let a := s.me.opW .mul0A
    let t := (movedVal c s).word
    Gives (.mul c) s .mul0R 3 (scalarOf (a.toInt * t.toInt)) ∧
    Gives (.mulh c) s .mul0R 3 (scalarOf (a.toInt * t.toInt / 2 ^ 64)) ∧
    Gives (.mulhu c) s .mul0R 3 (scalarOf (a.toNat * t.toNat / 2 ^ 64 : Nat)) ∧
    Gives (.mulq c) s .mul0R 3
      (scalarOf (max (-(2 ^ 30 - 1)) (min (2 ^ 30 - 1) ((a.toInt * t.toInt + 2 ^ 28) / 2 ^ 29))))

/-- R364, R365, R427: quotients truncate towards zero, a zero divisor gives 0, or the dividend for REM; DIVQ and SQRTQ round to nearest
from twice the magnitude, d being the largest whose square is at most x * 2 ^ 31. -/
def Obligations.Quotients : Prop :=
  ∀ (c : Ctl) (s : State), Made c s →
    let a := s.me.opW .div0A
    let t := (movedVal c s).word
    let x := a.toInt
    let y := t.toInt
    (PortFree s .div0R 20 →
      Gives (.div c) s .div0R 20 (scalarOf (if y = 0 then 0 else min (2 ^ 63 - 1) (max (-(2 ^ 63 - 1)) (x.tdiv y)))) ∧
      Gives (.divu c) s .div0R 20 (scalarOf (if y = 0 then 0 else (a.toNat / t.toNat : Nat))) ∧
      Gives (.rem c) s .div0R 20 (scalarOf (if y = 0 then x else x.tmod y))) ∧
    (PortFree s .div0R 14 →
      Gives (.divq c) s .div0R 14 (scalarOf
        (if y = 0 then (if x = 0 then 0 else if 0 < x then 2 ^ 30 - 1 else -(2 ^ 30 - 1))
          else
            let q : Int := (x.natAbs * 2 ^ 30 / y.natAbs + 1) / 2
            max (-(2 ^ 30 - 1)) (min (2 ^ 30 - 1) (if (x < 0 ∧ 0 ≤ y) ∨ (0 ≤ x ∧ y < 0) then -q else q)))) ∧
      ∃ d : Nat, (d : Int) * d ≤ max 0 y * 2 ^ 31 ∧ max 0 y * 2 ^ 31 < (d + 1) * (d + 1) ∧
        Gives (.sqrtq c) s .div0R 14 (scalarOf (min (2 ^ 30 - 1) (((d : Int) + 1) / 2))))

/-- R343: ADDA and SUBA step bits [63:0] of an address and keep its address-space id. -/
def Obligations.AddressSteps : Prop :=
  ∀ (c : Ctl) (u : Fin 2) (s : State), Made c s → PortFree s (lsuAr u) 1 →
    let a := (s.me.opA72 (lsuA u)).toNat
    let t := (movedVal c s).word.toInt
    ∃ x y : Addr, Gives (.adda c u) s (lsuAr u) 1 (x.setWidth 2048) ∧ Gives (.suba c u) s (lsuAr u) 1 (y.setWidth 2048) ∧
      x.toNat / 2 ^ 64 = a / 2 ^ 64 ∧ y.toNat / 2 ^ 64 = a / 2 ^ 64 ∧
      ((x.toNat : Int) - (a + t)) % 2 ^ 64 = 0 ∧ ((y.toNat : Int) - (a - t)) % 2 ^ 64 = 0

/-! ## Plain moves -/

/-- R61, R64 to R67, R96: a plain move writes its one destination. g0 discards the value; an a-register keeps bits [71:64] under a 64-bit
value; a predicate is 1 for every value but 0; a bridge passes the value on one cycle later. That it carries 72 bits and the width of the value
moved to it is the model's choice (log 13). -/
def Obligations.MoveDestinations : Prop :=
  ∀ (c : Ctl) (s : State), Made c s →
    let v := movedVal c s
    let regs (f : Regs → Regs) : State := s.onMe (fun b => { b with regs := f b.regs })
    exec (.move c (.g 0)) s = .next s ∧
    (∀ n : Fin 64, n ≠ 0 → exec (.move c (.g n)) s = .next (regs (fun r => { r with g := r.g.set n.val v.word n.isLt }))) ∧
    (∀ n : Fin 16, ∃ x : Addr, exec (.move c (.a n)) s = .next (regs (fun r => { r with a := r.a.set n.val x n.isLt })) ∧
      x.toNat % 2 ^ 64 = v.word.toNat ∧
      x.toNat / 2 ^ 64 = (if v.wide then v.addr.toNat / 2 ^ 64 else (s.me.regs.a.get n).toNat / 2 ^ 64)) ∧
    (∀ n : Fin 7, exec (.move c (.p n)) s = .next (regs (fun r => { r with p := r.p.set n.val (decide (v.bits.toNat ≠ 0)) n.isLt }))) ∧
    exec (.move c .lk) s = .next (regs (fun r => { r with lk := v.word })) ∧
    (∀ n : Fin 32, exec (.move c (.v n)) s = .next (regs (fun r => { r with v := r.v.set n.val v.bits n.isLt }))) ∧
    (∀ n : Fin 8, exec (.move c (.m n)) s = .next (regs (fun r => { r with m := r.m.set n.val v.mask n.isLt }))) ∧
    (∀ o : OpPort, exec (.move c (.op o)) s =
      .next (s.onMe (fun b => { b with ops := b.ops.set (opIdx o).val v.bits (opIdx o).isLt }))) ∧
    let crossing (p : ResPort) : Result := ⟨p, s.myNow, s.myNow + 1, false, some (v.addr.setWidth 2048)⟩
    exec (.move c .xab) s = .next (s.onMe (fun b =>
      { b with inflight := b.inflight ++ [crossing .xab], bridging := (v.wide, b.bridging.2) })) ∧
    exec (.move c .xba) s = .next (s.onMe (fun b =>
      { b with inflight := b.inflight ++ [crossing .xba], bridging := (b.bridging.1, v.wide) }))

/-- R68, R87, R384, R405: a long immediate stands alone in lim, or below what a run of them has gathered; a pad does nothing. -/
def Obligations.LongImmediateAndPads : Prop :=
  ∀ (v : BitVec 20) (s : State),
    (∃ x : BitVec 72, exec (.limm v) s = .next (s.onMe (fun b => { b with regs := { b.regs with lim := x, limRun := true } })) ∧
      x.toNat = (if s.me.regs.limRun then (s.me.regs.lim.toNat * 2 ^ 20 + v.toNat) % 2 ^ 72 else v.toNat)) ∧
    exec .padC s = .next s ∧ exec .padJ s = .next s ∧ exec .padE s = .next s

/-- R71: a shape write changes the one field of the shadow that shx names, to the value modulo the field's width, and no other bit; an
index that names no field takes an unimplemented-port fault. -/
def Obligations.ShapeWrites : Prop :=
  ∀ (c : Ctl) (k : Fin 3) (s : State), Made c s →
    let i : Instr := if k.val = 0 then .mxShw c else if k.val = 1 then .wk0Shw c else .wk1Shw c
    match shapeField k.val (s.me.op (shxPort k.val)).toNat with
    | none => exec i s = .next (s.raise (s.slotFault c .unimplementedPort (BitVec.ofNat 72 (1472 + k.val))))
    | some f =>
      let old := (s.me.shadow.get k).toList.getD f.reg 0
      ∃ new : Shape,
        exec i s = .next (s.onMe (fun b =>
          { b with shadow := b.shadow.set k.val ((b.shadow.get k).setIfInBounds f.reg new) k.isLt })) ∧
        (∀ n < f.len, new.getLsbD (f.lo + n) = (movedVal c s).addr.getLsbD n) ∧
        ∀ n, n < f.lo ∨ f.lo + f.len ≤ n → new.getLsbD n = old.getLsbD n

/-- R61, R63, R85, R106: a move whose guard is false reads nothing and writes nothing, whatever it would do. One that reads a result port
while a result of it is in flight and none became ready in this cycle takes an early-read fault, before which only a fault of the same move
goes that ranks before a timing fault: those of a shape write, a JIG and an operation of control flow or the system unit. That it then goes
first, though R106 ranks the faults of a bundle and not those of one move, is the model's choice (log 77). -/
def Obligations.MovesNotMade : Prop :=
  ∀ (i : Instr) (c : Ctl) (s : State), i.ctl? = some c →
    (guardOn s.me.seen c.guard = false → exec i s = .next s) ∧
    ∀ r : ResPort, guardOn s.me.seen c.guard = true → c.src = .res r → s.me.readsEarly s.myNow r = true →
      let early : Cause × Info := (.earlyRead, BitVec.ofNat 72 (srcPortId c.slot r))
      let mayRank : Prop := i = .jig c ∨ (∃ k, i.form = .shw c k) ∨ ∃ k, i.form = .control c k
      (¬ mayRank → Takes i c s early) ∧
      (∃ f : Cause × Info, Takes i c s f ∧ (f = early ∨ causeRank f.1 < causeRank .earlyRead)) ∧
      ∀ k : Fin 3, i = (if k.val = 0 then .mxShw c else if k.val = 1 then .wk0Shw c else .wk1Shw c) →
        shapeField k.val (s.me.op (shxPort k.val)).toNat = none → Takes i c s (.unimplementedPort, BitVec.ofNat 72 (1472 + k.val))

/-! ## Vector units -/

/-- R342, R344, R390, R341, R421: sums modulo the lane, clamped sums, minimum, maximum, clamped magnitude and selection, lane by lane. -/
def Obligations.LaneSums : Prop :=
  ∀ (c : Ctl) (u : Fin 2) (w : Width) (s : State), Made c s → PortFree s (vecVr u) 2 →
    let a (k : Nat) : Int := laneS (s.me.va u) w.bits k
    let t (k : Nat) : Int := laneS (movedVal c s).bits w.bits k
    GivesLanes (ofUnit u (.vec0Add c w) (.vec1Add c w)) s (vecVr u) 2 w.bits (fun k => a k + t k) ∧
    GivesLanes (ofUnit u (.vec0Sub c w) (.vec1Sub c w)) s (vecVr u) 2 w.bits (fun k => a k - t k) ∧
    GivesLanes (ofUnit u (.vec0Adds c w) (.vec1Adds c w)) s (vecVr u) 2 w.bits (fun k => heldTo w.bits (a k + t k)) ∧
    GivesLanes (ofUnit u (.vec0Subs c w) (.vec1Subs c w)) s (vecVr u) 2 w.bits (fun k => heldTo w.bits (a k - t k)) ∧
    GivesLanes (ofUnit u (.vec0Min c w) (.vec1Min c w)) s (vecVr u) 2 w.bits (fun k => min (a k) (t k)) ∧
    GivesLanes (ofUnit u (.vec0Max c w) (.vec1Max c w)) s (vecVr u) 2 w.bits (fun k => max (a k) (t k)) ∧
    GivesLanes (ofUnit u (.vec0Abs c w) (.vec1Abs c w)) s (vecVr u) 2 w.bits (fun k => heldTo w.bits |t k|) ∧
    GivesLanes (ofUnit u (.vec0Sel c w) (.vec1Sel c w)) s (vecVr u) 2 w.bits
      (fun k => if (s.me.vb u).getLsbD (w.bits / 8 * k) = true then a k else t k)

/-- R345, R420: logic bit by bit, and shifts of each lane by the unsigned count in t's lane. -/
def Obligations.LaneLogicAndShifts : Prop :=
  ∀ (c : Ctl) (u : Fin 2) (w : Width) (s : State), Made c s → PortFree s (vecVr u) 2 →
    let a := s.me.va u
    let t := (movedVal c s).bits
    GivesBits (ofUnit u (.vec0And c w) (.vec1And c w)) s (vecVr u) 2 2048 (fun k => a.getLsbD k && t.getLsbD k) ∧
    GivesBits (ofUnit u (.vec0Or c w) (.vec1Or c w)) s (vecVr u) 2 2048 (fun k => a.getLsbD k || t.getLsbD k) ∧
    GivesBits (ofUnit u (.vec0Xor c w) (.vec1Xor c w)) s (vecVr u) 2 2048 (fun k => a.getLsbD k != t.getLsbD k) ∧
    GivesBits (ofUnit u (.vec0Andn c w) (.vec1Andn c w)) s (vecVr u) 2 2048 (fun k => a.getLsbD k && !t.getLsbD k) ∧
    GivesLanes (ofUnit u (.vec0Shl c w) (.vec1Shl c w)) s (vecVr u) 2 w.bits
      (fun k => (laneU a w.bits k : Int) * 2 ^ laneU t w.bits k) ∧
    GivesLanes (ofUnit u (.vec0Shr c w) (.vec1Shr c w)) s (vecVr u) 2 w.bits
      (fun k => (laneU a w.bits k : Int) / 2 ^ laneU t w.bits k) ∧
    GivesLanes (ofUnit u (.vec0Sar c w) (.vec1Sar c w)) s (vecVr u) 2 w.bits
      (fun k => laneS a w.bits k / 2 ^ laneU t w.bits k)

/-- R356, R406, R67: a vector compare writes every mask bit of its lane, and mask operations act on the 256 bits. -/
def Obligations.LaneConditions : Prop :=
  ∀ (c : Ctl) (u : Fin 2) (w : Width) (s : State), Made c s → PortFree s (vecMr u) 2 →
    let va := s.me.va u
    let tv := (movedVal c s).bits
    let a (k : Nat) : Int := laneS va w.bits k
    let t (k : Nat) : Int := laneS tv w.bits k
    let ua (k : Nat) : Nat := laneU va w.bits k
    let ut (k : Nat) : Nat := laneU tv w.bits k
    GivesMask (ofUnit u (.vec0Cmpeq c w) (.vec1Cmpeq c w)) s (vecMr u) 2 w.bits (fun k => decide (a k = t k)) ∧
    GivesMask (ofUnit u (.vec0Cmpne c w) (.vec1Cmpne c w)) s (vecMr u) 2 w.bits (fun k => decide (a k ≠ t k)) ∧
    GivesMask (ofUnit u (.vec0Cmplt c w) (.vec1Cmplt c w)) s (vecMr u) 2 w.bits (fun k => decide (a k < t k)) ∧
    GivesMask (ofUnit u (.vec0Cmple c w) (.vec1Cmple c w)) s (vecMr u) 2 w.bits (fun k => decide (a k ≤ t k)) ∧
    GivesMask (ofUnit u (.vec0Cmpltu c w) (.vec1Cmpltu c w)) s (vecMr u) 2 w.bits (fun k => decide (ua k < ut k)) ∧
    GivesMask (ofUnit u (.vec0Cmpleu c w) (.vec1Cmpleu c w)) s (vecMr u) 2 w.bits (fun k => decide (ua k ≤ ut k)) ∧
    GivesBits (ofUnit u (.vec0Pand c w) (.vec1Pand c w)) s (vecMr u) 2 256 (fun k => va.getLsbD k && tv.getLsbD k) ∧
    GivesBits (ofUnit u (.vec0Por c w) (.vec1Por c w)) s (vecMr u) 2 256 (fun k => va.getLsbD k || tv.getLsbD k) ∧
    GivesBits (ofUnit u (.vec0Pxor c w) (.vec1Pxor c w)) s (vecMr u) 2 256 (fun k => va.getLsbD k != tv.getLsbD k) ∧
    GivesBits (ofUnit u (.vec0Pnot c w) (.vec1Pnot c w)) s (vecMr u) 2 256 (fun k => !tv.getLsbD k)

/-- R389, R393, R394: products of lanes are exact before their one selection, rounding or clamp, and are ready 4 cycles on. MULW and
MACW have lane widths 8 and 16 only (R101). -/
def Obligations.LaneProducts : Prop :=
  ∀ (c : Ctl) (u : Fin 2) (w : Width) (s : State), Made c s → PortFree s (vecVr u) 4 →
    let n := laneCount w.bits
    let a (k : Nat) : Int := laneS (s.me.va u) w.bits k
    let t (k : Nat) : Int := laneS (movedVal c s).bits w.bits k
    let h := if (s.me.vb u).getLsbD 0 = true then n / 2 else 0
    (w ≠ .w32 → GivesLanes (ofUnit u (.vec0Mulw c w) (.vec1Mulw c w)) s (vecVr u) 4 (2 * w.bits) (fun k => a (k + h) * t (k + h))) ∧
    GivesLanes (ofUnit u (.vec0Mulq c w) (.vec1Mulq c w)) s (vecVr u) 4 w.bits
      (fun k => heldTo w.bits (nearest (a k * t k) ((s.me.vb u).toNat % 64))) ∧
    (w ≠ .w32 → GivesLanes (ofUnit u (.vec0Macw c w) (.vec1Macw c w)) s (vecVr u) 4 (2 * w.bits)
      (fun k => heldTo (2 * w.bits) (laneS (s.me.vb u) (2 * w.bits) k + a (2 * k) * t (2 * k) + a (2 * k + 1) * t (2 * k + 1))))

/-- R348, R378, R432, R440: broadcast, replacement of one lane, exchange of lane pairs, and the widening of one half. -/
def Obligations.LaneRearrangement : Prop :=
  ∀ (c : Ctl) (u : Fin 2) (w : Width) (s : State), Made c s → PortFree s (vecVr u) 2 →
    let n := laneCount w.bits
    let tv := (movedVal c s).bits
    let a (k : Nat) : Int := laneS (s.me.va u) w.bits k
    let h := if tv.getLsbD 0 = true then n / 2 else 0
    let ix := (movedVal c s).word.toNat % n
    GivesLanes (ofUnit u (.vec0Bcast c w) (.vec1Bcast c w)) s (vecVr u) 2 w.bits
      (fun _ => heldTo w.bits (movedVal c s).word.toInt) ∧
    GivesLanes (ofUnit u (.vec0Laneset c w) (.vec1Laneset c w)) s (vecVr u) 2 w.bits
      (fun k => if k = ix then heldTo w.bits ((s.me.vb u).setWidth 64).toInt else a k) ∧
    GivesLanes (ofUnit u (.vec0Swapp c w) (.vec1Swapp c w)) s (vecVr u) 2 w.bits
      (fun k =>
        let x := a (if k % 2 = 0 then k + 1 else k - 1)
        if tv.getLsbD (k % 2) = true then heldTo w.bits (-x) else x) ∧
    (w ≠ .w32 → GivesLanes (ofUnit u (.vec0Widen c w) (.vec1Widen c w)) s (vecVr u) 2 (2 * w.bits)
      (fun k => if tv.getLsbD 1 = true then (laneU (s.me.va u) w.bits (k + h) : Int) else a (k + h)))

/-- R391, R378, R354: the count of a mask's bits, one lane as a scalar, and the census of all lanes, the least number of sign bits
that a lane has beyond its first. -/
def Obligations.LaneScalars : Prop :=
  ∀ (c : Ctl) (u : Fin 2) (w : Width) (s : State), Made c s →
    let n := laneCount w.bits
    let tv := (movedVal c s).bits
    let ix := (movedVal c s).word.toNat % n
    (PortFree s (vecS u) 2 →
      Gives (ofUnit u (.vec0Mcount c w) (.vec1Mcount c w)) s (vecS u) 2
        (scalarOf ((List.range 256).countP (fun k => tv.getLsbD k) : Nat)) ∧
      Gives (ofUnit u (.vec0Laneget c w) (.vec1Laneget c w)) s (vecS u) 2 (scalarOf (laneS (s.me.va u) w.bits ix))) ∧
    (PortFree s .vredS 4 →
      ∃ m : Nat, m < w.bits ∧ Gives (.census c w) s .vredS 4 (scalarOf m) ∧
        (∀ k < n, hasSignBits w.bits m (laneS tv w.bits k)) ∧
        ∀ m' < w.bits, (∀ k < n, hasSignBits w.bits m' (laneS tv w.bits k)) → m' ≤ m)

/-- R422, R423, R399, R400, R139, R140, R142, R147, R149: SHRS shifts each lane stochastically; NARROW is a scaled write, whose register names
its exponent, one coarser or finer by its census where it is census-driven and a tensor begins, and is updated two cycles on with that
exponent, the least number of spare sign bits of what was written, and SAT where a value was clamped; until then no other scaled write may
name it: one that does faults, and changes nothing. -/
def Obligations.StochasticWrites : Prop :=
  ∀ (c : Ctl) (u : Fin 2) (w : Width) (s : State), Made c s → PortFree s (vecVr u) 2 →
    let n := laneCount w.bits
    let x := (movedVal c s).addr
    let base := (s.me.vb u).toNat % 2 ^ 42
    let a (k : Nat) : Int := laneS (s.me.va u) w.bits k
    let kv (stream level k : Nat) : Nat := kerfValue s.me.kseed.toNat stream level (base + k)
    (x.toNat < 2 ^ 31 → base + n ≤ 2 ^ 42 →
      let sh := (x.extractLsb' 0 8).toInt
      let r (k : Nat) : Nat :=
        let v := kv (x.toNat / 2 ^ 14) (x.toNat / 2 ^ 8) k
        if x.getLsbD 30 = true ∧ 1 ≤ sh ∧ sh ≤ 63 then v / 2 ^ (64 - sh.toNat) else v
      GivesLanes (ofUnit u (.vec0Shrs c w) (.vec1Shrs c w)) s (vecVr u) 2 w.bits (fun k => heldTo w.bits (shiftedBy (a k) sh (r k)))) ∧
    (w ≠ .w8 → x.toNat < 2 ^ 33 → base + n ≤ 2 ^ 42 →
      let narrow := ofUnit u (.vec0Narrow c w) (.vec1Narrow c w)
      let h := w.bits / 2
      let sc := x.toNat % 256
      let r := s.me.scAt sc
      let old := (r.extractLsb' 0 8).toInt
      let cen := r.toNat / 2 ^ 8 % 2 ^ 6
      let cont := x.getLsbD 32
      let driven : Bool := !cont && !r.getLsbD 15
      let e : Int := if driven then max (-127) (min 127 (if cen = 0 then old + 1 else if 2 < cen then old - 1 else old)) else old
      let z (k : Nat) : Int := shiftedBy (a k) (e - (x.extractLsb' 8 8).toInt) (kv (x.toNat / 2 ^ 16) 0 k)
      let busy : Prop := ∃ y ∈ s.me.scaling, y.reg = sc ∧ s.myNow ≤ y.last
      sc < s.half s.cur 256 → r.toNat / 2 ^ 16 % 16 = (if w = .w16 then 0 else 1) →
      (busy → Takes narrow c s (.scaleBusy, BitVec.ofNat 72 sc)) ∧
      (¬ busy → ∃ (v : VReg) (r' : BitVec 32) (m : Nat),
        exec narrow s = .next (s.onMe (fun b => { b with
          inflight := b.inflight ++ [⟨vecVr u, s.myNow, s.myNow + 2, false, some v⟩]
          scaling := b.scaling ++ [⟨sc, s.myNow + 1, some (s.myNow + 2, r')⟩] })) ∧
        (∀ k < n, lane v h k = BitVec.ofInt h (heldTo h (z k))) ∧ (∀ k, 1024 ≤ k → v.getLsbD k = false) ∧
        m < h ∧ (∀ k < n, hasSignBits h m (heldTo h (z k))) ∧ (∀ m' < h, (∀ k < n, hasSignBits h m' (heldTo h (z k))) → m' ≤ m) ∧
        (r'.extractLsb' 0 8).toInt = e ∧ r'.toNat / 2 ^ 8 % 2 ^ 6 = (if cont = true then min cen m else m) ∧
        r'.toNat / 2 ^ 15 = r.toNat / 2 ^ 15 ∧
        (r'.getLsbD 14 = true ↔ r.getLsbD 14 = true ∨ (driven = true ∧ cen = 0 ∧ old = 127) ∨ ∃ k < n, heldTo h (z k) ≠ z k)))

/-! ## Reductions within a register, tables and functions -/

/-- R412: the nodes of level G over groups of 2 ^ G lanes stand in 32-bit lanes, clamped, zero beyond them, and the root over all lanes
is the scalar; sums are exact. Both are ready 6 cycles on. -/
def Obligations.LaneReductions : Prop :=
  ∀ (c : Ctl) (w : Width) (s : State), Made c s → PortFree s .vredVr 6 → PortFree s .vredS 6 →
    let n := laneCount w.bits
    let t (k : Nat) : Int := laneS (movedVal c s).bits w.bits k
    let g := (s.me.op .vredVa).toNat % 16
    n / 64 ≤ 2 ^ g → 2 ^ g ≤ n →
    let gives (i : Instr) (node : Nat → Int) (root : Int) : Prop :=
      ∃ v : VReg,
        exec i s = .next (s.onMe (fun b => { b with inflight := b.inflight ++
          [⟨.vredVr, s.myNow, s.myNow + 6, false, some v⟩, ⟨.vredS, s.myNow, s.myNow + 6, false, some (scalarOf root)⟩] })) ∧
        ∀ k < 64, lane v 32 k = BitVec.ofInt 32 (if k < n / 2 ^ g then heldTo 32 (node k) else 0)
    gives (.redadd c w) (fun k => ((List.range (2 ^ g)).map (fun j => t (2 ^ g * k + j))).sum) ((List.range n).map t).sum ∧
    (∃ node : Nat → Int, ∃ root : Int, gives (.redmax c w) node root ∧
      (∀ k < n / 2 ^ g, (∀ j < 2 ^ g, t (2 ^ g * k + j) ≤ node k) ∧ ∃ j < 2 ^ g, t (2 ^ g * k + j) = node k) ∧
      (∀ k < n, t k ≤ root) ∧ ∃ k < n, t k = root) ∧
    (∃ node : Nat → Int, ∃ root : Int, gives (.redmin c w) node root ∧
      (∀ k < n / 2 ^ g, (∀ j < 2 ^ g, node k ≤ t (2 ^ g * k + j)) ∧ ∃ j < 2 ^ g, t (2 ^ g * k + j) = node k) ∧
      (∀ k < n, root ≤ t k) ∧ ∃ k < n, t k = root)

/-- R362, R363, R379, R388, R408: gathers, rotation and table lookup of lanes; DEC4 decodes 4-bit codes, and ENC4 chooses for each
element a code whose value is nearest, of the larger magnitude on a tie, and never the code 0b1000. -/
def Obligations.LaneTables : Prop :=
  ∀ (c : Ctl) (w : Width) (s : State), Made c s →
    let n := laneCount w.bits
    let a := s.me.op .vredVa
    let t := (movedVal c s).bits
    (PortFree s .vredVr 4 →
      GivesLanes (.perm c w) s .vredVr 4 8 (fun k => laneS a 8 (laneU t 8 k)) ∧
      GivesLanes (.lanerot c w) s .vredVr 4 w.bits
        (fun k => laneS a w.bits ((k + ((movedVal c s).word.toInt % n).toNat) % n))) ∧
    (PortFree s .vredVr 3 →
      GivesLanes (.lut c w) s .vredVr 3 w.bits (fun k => laneS a w.bits (laneU t w.bits k % n)) ∧
      GivesLanes (.dec4 c w) s .vredVr 3 8 (fun k => q4dec (laneU t 4 k) (scaleType a k)) ∧
      ∃ code : Nat → Nat, GivesLanes (.enc4 c w) s .vredVr 3 4 (fun k => if k < 256 then (code k : Int) else 0) ∧
        ∀ k < 256, code k < 16 ∧ code k ≠ 8 ∧
          (scaleType a k = 0 → q4dec (code k) 0 = heldTo 4 (laneS t 8 k)) ∧
          (scaleType a k ≠ 0 → ∀ j < 16,
            let d := |q4dec (code k) (scaleType a k) - laneS t 8 k|
            let d' := |q4dec j (scaleType a k) - laneS t 8 k|
            d ≤ d' ∧ (d = d' → |q4dec j (scaleType a k)| ≤ |q4dec (code k) (scaleType a k)|)))

/-- R359, R367, R385, R410, R418, R424: a routine of vfn acts on 64 lanes of 32 bits and is ready 10 cycles on; a reciprocal and a
reciprocal square root are rounded to nearest at their last bit, the cosine is the sine a quarter turn on, and the logarithm of a number
that is not positive is the least value. The power of two goes by a table of 64 roots and a polynomial, the sine by a polynomial of its
quadrant, the logarithm by a table of 64 logarithms, here bound to ten bits of fraction, and a polynomial; that of 2 ^ b is b - 24. -/
def Obligations.LaneFunctions : Prop :=
  ∀ (c : Ctl) (s : State), Made c s → PortFree s .vfnVr 10 →
    let t (k : Nat) : Int := laneS (movedVal c s).bits 32 k
    let th (k : Nat) : Int := laneU (movedVal c s).bits 32 k
    let sine (a : Int) : Int :=
      let q := a / 2 ^ 30
      let x := if q = 1 ∨ q = 3 then 2 ^ 30 - a % 2 ^ 30 else a % 2 ^ 30
      let z := x * x / 2 ^ 30
      let step (coef p : Int) : Int := coef - p * z / 2 ^ 30
      let p := step 1686629713 (step 693598668 (step 85569306 (step 5026995 172272)))
      let r := nearest (p * x / 2 ^ 30) 16
      heldTo 15 (if 2 ≤ q then -r else r)
    (∃ root : Nat → Int, (∀ j : Nat, j < 64 → 0 ≤ root j ∧ root j ^ 64 ≤ 2 ^ (1920 + j) ∧ 2 ^ (1920 + j) < (root j + 1) ^ 64) ∧
      GivesLanes (.exp2q c) s .vfnVr 10 32 (fun k =>
        let f := t k % 2 ^ 24
        let g := f % 2 ^ 18
        let p := 2 ^ 30 + (744261118 + (257941248 + 59597083 * g / 2 ^ 24) * g / 2 ^ 24) * g / 2 ^ 24
        let y := root (f / 2 ^ 18).toNat * p / 2 ^ 30
        let d := 6 - t k / 2 ^ 24
        heldTo 32 (if d ≤ 0 then y * 2 ^ d.natAbs else nearest y d.natAbs))) ∧
    (∃ logs : Nat → Int, logs 0 = 0 ∧
      (∀ j : Nat, j < 64 → 0 ≤ logs j ∧ ((2 : Nat) ^ 36 / (64 + j)) ^ 1024 * 2 ^ (logs j / 2 ^ 20).toNat ≤ 2 ^ 30720 ∧
        2 ^ 30720 < ((2 : Nat) ^ 36 / (64 + j)) ^ 1024 * 2 ^ ((logs j / 2 ^ 20).toNat + 1)) ∧
      ∃ b : Nat → Nat, (∀ k < 64, 0 < t k → 2 ^ b k ≤ t k ∧ t k < 2 ^ (b k + 1)) ∧
        GivesLanes (.log2q c) s .vfnVr 10 32 (fun k =>
          let m : Int := t k * 2 ^ (30 - b k)
          let j : Nat := ((m - 2 ^ 30) / 2 ^ 24).toNat
          let w : Int := m * (2 ^ 36 / (64 + (j : Int))) / 2 ^ 30 - 2 ^ 30
          let lw := (1549082005 + (-774541002 + 516360668 * w / 2 ^ 30) * w / 2 ^ 30) * w / 2 ^ 30
          if t k ≤ 0 then -(2 ^ 31 - 1) else heldTo 32 (nearest (((b k : Int) - 24) * 2 ^ 30 + logs j + lw) 6))) ∧
    (∀ b : Nat, b ≤ 30 → (∀ k < 64, t k = 2 ^ b) → GivesLanes (.log2q c) s .vfnVr 10 32 (fun _ => ((b : Int) - 24) * 2 ^ 24)) ∧
    GivesLanes (.sinq c) s .vfnVr 10 32 (fun k => sine (th k)) ∧
    GivesLanes (.cosq c) s .vfnVr 10 32 (fun k => sine ((th k + 2 ^ 30) % 2 ^ 32)) ∧
    GivesLanes (.rcpq c) s .vfnVr 10 32 (fun k =>
      if t k = 0 then 2 ^ 31 - 1
      else heldTo 32 ((if t k < 0 then -1 else 1) * nearest (2 ^ 49 / |t k|) 1)) ∧
    ∃ d : Nat → Int, GivesLanes (.rsqq c) s .vfnVr 10 32 (fun k =>
        if t k ≤ 0 then 2 ^ 31 - 1 else heldTo 32 (nearest (d k) 1)) ∧
      ∀ k < 64, 0 < t k → 0 ≤ d k ∧ d k * d k ≤ 2 ^ 74 / t k ∧ 2 ^ 74 / t k < (d k + 1) * (d k + 1)

/-! ## Memory -/

/-- R380, R381, R428, R429, R383, R431, R213: a local load or store of n bytes within the scratchpad, aligned, starts an access that
performs 4 cycles on; a load's result is ready in that cycle. LDV and STV take 256 bytes, STV under vm when t[21] is 1. A control value
with a reserved bit set, an offset beyond the scratchpad or one that is not aligned faults at the trigger. -/
def Obligations.LocalAccesses : Prop :=
  ∀ (c : Ctl) (u : Fin 2) (w : Width) (s : State), Made c s →
    let t := (movedVal c s).word
    let ctl := s.me.opW (lsuA u)
    let n := 2 ^ (ctl.toNat % 4)
    let size := s.half s.cur 2097152
    (ctl.toNat < 8 → t.toNat + n ≤ size → t.toNat % n = 0 →
      (PortFree s (lsuR u) 4 →
        Starts (.ld c u) s (localAccess s .ld (t.setWidth 72) n (ctl.getLsbD 2) 0 0 (some (lsuR u))) [awaited s (lsuR u) 4]) ∧
      Starts (.st c u) s (localAccess s .st (t.setWidth 72) n false (s.me.op (lsuD u)) 0 none) []) ∧
    (let off := t.toNat % 2 ^ 21
     let mask : MaskReg := if t.getLsbD 21 = true then (s.me.vm u).setWidth 256 else BitVec.allOnes 256
     off % 128 = 0 → off + 256 ≤ size →
      (PortFree s (vecVr u) 4 →
        Starts (ofUnit u (.vec0Ldv c w) (.vec1Ldv c w)) s (localAccess s .ldv (BitVec.ofNat 72 off) 256 false 0 0 (some (vecVr u)))
          [awaited s (vecVr u) 4]) ∧
      Starts (ofUnit u (.vec0Stv c w) (.vec1Stv c w)) s (localAccess s .stv (BitVec.ofNat 72 off) 256 false (s.me.va u) mask none) []) ∧
    (8 ≤ ctl.toNat →
      (PortFree s (lsuR u) 4 → Takes (.ld c u) c s (.reservedField, BitVec.ofNat 72 (402 + 16 * u.val))) ∧
      Takes (.st c u) c s (.reservedField, BitVec.ofNat 72 (403 + 16 * u.val))) ∧
    (ctl.toNat < 8 → size < t.toNat + n ∨ t.toNat % n ≠ 0 →
      (PortFree s (lsuR u) 4 → Takes (.ld c u) c s (.range, t.setWidth 72)) ∧ Takes (.st c u) c s (.range, t.setWidth 72)) ∧
    let off := t.toNat % 2 ^ 21
    (off % 128 ≠ 0 ∨ size < off + 256 →
      (PortFree s (vecVr u) 4 → Takes (ofUnit u (.vec0Ldv c w) (.vec1Ldv c w)) c s (.range, BitVec.ofNat 72 off)) ∧
      Takes (ofUnit u (.vec0Stv c w) (.vec1Stv c w)) c s (.range, BitVec.ofNat 72 off))

/-- R373, R374, R401, R402: HLOOK reads the scratchpad table that its descriptor names, its two results ready 12 cycles on; an optimiser
routine reads its 16 bytes of parameters and captures its operands, STEPC and KSEED, its result ready 10 cycles on; the STEPC that it takes is
kept for a rerun (R289). -/
def Obligations.TableReads : Prop :=
  ∀ (c : Ctl) (w : Width) (s : State), Made c s →
    let x := (movedVal c s).addr
    let size := s.half s.cur 2097152
    (PortFree s .vredVr 12 → PortFree s .vredMr 12 → x.toNat < 2 ^ 26 → x.toNat % 2 ^ 21 % 64 = 0 →
      x.toNat % 2 ^ 21 + 64 * 2 ^ (x.toNat / 2 ^ 21 % 32) ≤ size →
      Starts (.hlook c w) s (localAccess s .hlook x 0 false (s.me.op .vredVa) 0 none) [awaited s .vredVr 12, awaited s .vredMr 12]) ∧
    (PortFree s .vfnVr 10 → x.toNat < 2 ^ 59 → 16 * (x.toNat / 2 ^ 42 % 2 ^ 17) + 16 ≤ size → x.toNat % 2 ^ 42 + 63 < 2 ^ 42 →
      let starts (i : Instr) (k : Fin 3) : Prop :=
        let a := localAccess s (.opt k (s.me.op .vfnVb) s.me.stepc s.me.kseed) x 16 false (s.me.op .vfnVa) 0 none
        exec i s = .next (s.onMe (fun b => { b with acc := b.acc ++ [a], nextId := b.nextId + 1, inflight := b.inflight ++ [awaited s .vfnVr 10]
                                                    window := { b.window with replay := b.window.replay ++ [(s.poleTime s.cur, b.stepc.toNat)] } }))
      starts (.optm c) 0 ∧ starts (.optv c) 1 ∧ starts (.optw c) 2)

/-- R346, R347, R369, R372, R380, R381, R428 to R430, R213, R214: loads, stores, atomics and hands of shared memory start an access on
the tier latency; stores, atomics and hands are gated writes, buffered until the window is witnessed. Each stops at its trigger where one
of its checks fails, in their order, a load or store also on a control value with a reserved bit set (R381, R429), and a HAND last on a mode
word that its rule does not let it set (R227). -/
def Obligations.SharedAccesses : Prop :=
  ∀ (c : Ctl) (u : Fin 2) (s : State), Made c s →
    let va := (movedVal c s).addr
    let ctl := s.me.opW (lsuA u)
    let n := 2 ^ (ctl.toNat % 4)
    let d := leBytes n (s.me.opW (lsuD u)).toNat
    let cell : BitVec 96 := (s.me.opW .mem0D).setWidth 32 ++ s.me.opW .mem0A
    let atomic (k : Nat) (op : AtomicOp) (i : Instr) : Prop :=
      StartsShared i s (atomicOp k op) 16 false va 0 (some 0) (some (fun pl => .atomic op pl cell))
    (ctl.toNat < 8 →
      StartsShared (.ldg c u) s (loadOp u false) n (ctl.getLsbD 2) va 0 none none ∧
      StartsShared (.ldc c u) s (loadOp u true) n (ctl.getLsbD 2) va 0 none none ∧
      StartsShared (.stg c u) s (storeOp u false) n false va (s.me.op (lsuD u)) none (some (fun pl => .bytes pl d)) ∧
      StartsShared (.stp c u) s (storeOp u true) n false va (s.me.op (lsuD u)) none
        (some (fun pl => .lineFull (va.toNat % 2 ^ 64 / 128) pl d))) ∧
    atomic 0 .add (.atadd c) ∧ atomic 1 .max (.atmax c) ∧ atomic 2 .min (.atmin c) ∧ atomic 3 .or (.ator c) ∧
    StartsShared (.fetchadd c) s fetchOp 8 false va (s.me.op .mem0A) none none ∧
    (∀ (r : Nat) (e : Region), regionAt (s.partAt s.cur) (va.toNat % 2 ^ 64) = some (r, e) →
      handChk s va (s.me.opW .mem0A) = none →
      StartsShared (.hand c) s handOp 1 false va 0 (some ((modeInForce s.me r e.mode).setWidth 2048))
        (some (fun _ => .hand r (s.me.opW .mem0A ||| 0x1000000000000)))) ∧
    (ctl.toNat < 8 →
      VaStops (.ldg c u) c s (loadOp u false) n va ∧ VaStops (.ldc c u) c s (loadOp u true) n va ∧
      VaStops (.stg c u) c s (storeOp u false) n va ∧ VaStops (.stp c u) c s (storeOp u true) n va) ∧
    (8 ≤ ctl.toNat → s.booked s.cur < s.half s.cur 8192 →
      (VaPortFree s (loadOp u false) va → Takes (.ldg c u) c s (.reservedField, BitVec.ofNat 72 (404 + 16 * u.val))) ∧
      (VaPortFree s (loadOp u true) va → Takes (.ldc c u) c s (.reservedField, BitVec.ofNat 72 (406 + 16 * u.val))) ∧
      (s.me.window.gstores < 1024 →
        Takes (.stg c u) c s (.reservedField, BitVec.ofNat 72 (405 + 16 * u.val)) ∧
        Takes (.stp c u) c s (.reservedField, BitVec.ofNat 72 (407 + 16 * u.val)))) ∧
    VaStops (.atadd c) c s (atomicOp 0 .add) 16 va ∧ VaStops (.atmax c) c s (atomicOp 1 .max) 16 va ∧
    VaStops (.atmin c) c s (atomicOp 2 .min) 16 va ∧ VaStops (.ator c) c s (atomicOp 3 .or) 16 va ∧
    VaStops (.fetchadd c) c s fetchOp 8 va ∧ VaStops (.hand c) c s handOp 1 va ∧
    ∀ (x : Xlat) (cl : List Claim) (f : Cause × Info), VaPasses s handOp 1 va x cl → handChk s va (s.me.opW .mem0A) = some f →
      Takes (.hand c) c s f

/-- R188, R189, R435: TLOOK answers the lowest slot whose valid entry has the tag of the address, or -1; TFILL and TEVICT take effect at
the end of their cycle (not 4 cycles after the trigger, where R213 has them perform: the model's choice between the two, log 18) on the entry
of their slot alone, and their result is then known. A fill answers 1 where another slot holds the tag and 2 where the slot is
dirty, and then changes nothing; an evict answers the former entry. -/
def Obligations.TagTable : Prop :=
  ∀ (c : Ctl) (s : State), Made c s →
    let n := s.half s.cur 512
    let tag (x : Addr) : Nat := x.toNat / 2 ^ 12 % 2 ^ 60
    let hit (x : Addr) (i : Nat) : Prop := (s.me.tagAt i).getLsbD 0 = true ∧ (s.me.tagAt i).toNat / 16 = tag x
    let starts (i : Instr) (op : TagOp) : Prop :=
      exec i s = .next (s.onMe (fun b => { b with tagOp := some op, inflight := b.inflight ++ [awaited s .mem0R 4] }))
    let x := (movedVal c s).addr
    let slot := s.me.opW .mem0A
    (PortFree s .mem0R 3 → ∃ v : Word, Gives (.tlook c) s .mem0R 3 (v.setWidth 2048) ∧
      ((v = -1 ∧ ∀ i < n, ¬ hit x i) ∨ ∃ i < n, v = BitVec.ofNat 64 i ∧ hit x i ∧ ∀ j < i, ¬ hit x j)) ∧
    (PortFree s .mem0R 4 → slot.toNat < n → starts (.tfill c) (.fill slot.toNat (tag x))) ∧
    (PortFree s .mem0R 4 → (movedVal c s).word.toNat < n → starts (.tevict c) (.evict (movedVal c s).word.toNat)) ∧
    (∀ (b : BayId) (t : State), ((t.bay b).tagOp = none → t.endTag b = t) ∧
      ∀ op : TagOp, (t.bay b).tagOp = some op →
        let r := tagResult (t.bay b).tags (t.half b 512) op
        ∃ u : State, t.endTag b = u ∧ OnlyBay b t u ∧ (u.bay b).tags = r.1 ∧ (u.bay b).tagOp = none ∧
          (u.bay b).regs = (t.bay b).regs ∧ bayMems (u.bay b) = bayMems (t.bay b) ∧
          (u.bay b).inflight = (t.bay b).inflight.map (fun y =>
            if y.port = .mem0R ∧ y.remote = false ∧ y.due = t.now b + 4 ∧ y.value.isNone = true then
              { y with value := some (r.2.setWidth 2048) } else y)) ∧
    ∀ (tags : List (Nat × Word)) (i : Nat) (g : Nat), i < n → g < 2 ^ 60 →
      let other : Prop := ∃ j < n, j ≠ i ∧ (assocGet 0 tags j).getLsbD 0 = true ∧ (assocGet 0 tags j).toNat / 16 = g
      let r := tagResult tags n (.fill i g)
      let r' := tagResult tags n (.evict i)
      (other → r = (tags, 1)) ∧
      (¬ other → (assocGet 0 tags i).getLsbD 0 = true → (assocGet 0 tags i).getLsbD 1 = true → r = (tags, 2)) ∧
      (¬ other → ((assocGet 0 tags i).getLsbD 0 = false ∨ (assocGet 0 tags i).getLsbD 1 = false) →
        r = (assocSet 0 tags i (BitVec.ofNat 64 (16 * g + 1)), 0)) ∧
      r' = (assocSet 0 tags i 0, assocGet 0 tags i)

/-! ## Engine commands -/

/-- R41, R71, R76, R103: every engine command whose word and captured form pass the checks of its rule enters its queue of 16, in a hold
only where it stays in its bay; one that fails a check takes that check's fault. Which fault that is, check by check: R178, R395 and R396 for
the matrix unit, R239, R243 and R247 for the walkers, R257 and R409 for the gate engine, R251, R353, R357 and R360 for the coll engine, R282
for the scarf engine, R375 for jigs. -/
def Obligations.EngineCommands : Prop :=
  ∀ (c : Ctl) (s : State), Made c s →
    let w := (movedVal c s).addr.toNat
    let pad := s.half s.cur 2097152
    let p := s.partAt s.cur
    let ok (e : Engine) (op : Nat) (mask : BitVec 72) (leaves : Cmd → Bool) (mk : State → Cmd → Cmd) : Prop :=
      Enters c s e op leaves mk ∧ CleanWord c s e mask
    (let m := issuedCmd c s .mx 256 mxgoCmd
     let ia := s.me.selIx (m.sh2.toNat / 2 ^ 40 % 2 ^ 7)
     let ib := s.me.selIx (m.sh2.toNat / 2 ^ 47 % 2 ^ 7)
     ok .mx 256 (fieldMask 25 47) inBay mxgoCmd →
      (s.half s.cur 16 ≤ ia ∨ s.half s.cur 16 ≤ ib → Takes (.mxgo c) c s (.range, anyInfo 256)) ∧
      (ia < s.half s.cur 16 → ib < s.half s.cur 16 → (∀ h ∈ m.levels, h.cnt = 1) → m.fmt false ∉ [0, 1, 3, 4] → m.fmt true ∉ [0, 1, 3, 4] →
        m.hbase < s.half s.cur 16 → Takes (.mxgo c) c s (.format, BitVec.ofNat 72 (2 ^ 30 + ia)))) ∧
    (let mk := fun (t : State) (x : Cmd) => { x with fo := t.me.fmtAt (t.me.selIx (bits x.sh3 44 7)) }
     let m := issuedCmd c s .mx 257 mk
     let io := s.me.selIx (m.sh3.toNat / 2 ^ 44 % 2 ^ 7)
     let sc := m.fo.toNat / 2 ^ 4 % 2 ^ 8
     let fmt := m.fo.toNat % 16
     let sparse := m.fo.toNat / 2 ^ 12 % 4
     let fails (f : Cause × Info) : Prop := Takes (.mxdrain c) c s f
     ok .mx 257 (fieldMask 30 42) inBay mk →
      (s.half s.cur 16 ≤ io ∨ s.half s.cur 256 ≤ sc → fails (.range, anyInfo 257)) ∧
      (io < s.half s.cur 16 → sc < s.half s.cur 256 →
        (fmt ∉ [0, 1, 2, 4] ∨ sparse = 3 → fails (.format, BitVec.ofNat 72 (2 ^ 30 + io))) ∧
        (fmt ∈ [0, 1, 2, 4] → sparse ≠ 3 → (m.sh3.toNat / 2 ^ 42 % 4 = 3 ∨ fmt = 2 ∧ m.sh3.toNat / 2 ^ 42 % 4 ≠ 2) →
          fails (.format, 66)) ∧
        (drainFormat m io = none →
          (s.half s.cur 16 ≤ w / 2 ^ 25 % 16 → fails (.range, anyInfo 257)) ∧
          (drainRange m s = none → (s.me.viewOf m.handle).range = none → fails (.alignment, BitVec.ofNat 72 (w / 2 ^ 25 % 16))) ∧
          ∀ r : Nat × Nat, drainRange m s = none → (s.me.viewOf m.handle).range = some r → singleNode r = true →
            (s.me.scAt sc).toNat / 2 ^ 16 % 16 ≠ fmt → fails (.format, BitVec.ofNat 72 (2 ^ 30 + io))))) ∧
    (ok .mx 258 (fieldMask 29 43) inBay keepCmd → s.half s.cur 16 ≤ w / 2 ^ 25 % 16 → Takes (.mxclr c) c s (.range, anyInfo 258)) ∧
    (let walks (i : Instr) (e : Engine) (op : Nat) (mask : BitVec 72) : Prop :=
      let m := issuedCmd c s e op walkCmd
      let sp (d : Bool) : Nat := ((if d then m.sh.get 1 else m.sh.get 0).toNat / 2 ^ 4) % 4
      let size (d : Bool) : Nat := s.half s.cur (if sp d = 0 then 2097152 else 524288)
      let base (d : Bool) : Addr := if d then m.a1 else m.a0
      let based (d : Bool) : Prop := walkBaseChk m d s = none
      ok e op mask Cmd.walkLeaves walkCmd →
        ((2 ^ 78 ≤ (m.sh.get 0).toNat ∨ 2 ^ 78 ≤ (m.sh.get 1).toNat) → Takes i c s (.reservedField, BitVec.ofNat 72 op)) ∧
        (walkReserved m = false →
          (∀ d : Bool, (d = true → based false) → sp d ≠ 3 → size d ≤ (base d).toNat % 2 ^ 21 →
            Takes i c s (.range, BitVec.ofNat 72 ((base d).toNat % 2 ^ 21))) ∧
          (∀ (d : Bool) (f : Cause × Info), (d = true → based false) → sp d = 3 →
            translate p (base d) (if d then ⟨false, true, false⟩ else ⟨true, false, false⟩) true = .error f → Takes i c s f) ∧
          (based false → based true →
            (((m.sh.get 2).toNat % 2 ^ 20 + 1) % m.unit ≠ 0 → Takes i c s (.format, 8)) ∧
            (walkFormat m p = none → op = 265 ∨ op = 273 →
              (sp true = 3 → Takes i c s (.format, 5)) ∧
              (sp true ≠ 3 → w / 2 ^ 25 % 2 ^ 24 = 0 → Takes i c s (.format, BitVec.ofNat 72 (3 * 2 ^ 30 + op))))))
     walks (.wk0Walk c) .wk0 264 (fieldMask 25 47) ∧ walks (.wk0Walkm c) .wk0 265 (fieldMask 69 3) ∧
     walks (.wk1Walk c) .wk1 272 (fieldMask 25 47) ∧ walks (.wk1Walkm c) .wk1 273 (fieldMask 69 3)) ∧
    (let va := s.me.aSeen (w / 2 ^ 25 % 16)
     ok .gate 280 (fieldMask 35 37) outOfBay gateCmd →
      (2 ≤ w / 2 ^ 33 % 4 → Takes (.gate c) c s (.reservedField, 280)) ∧
      (w / 2 ^ 33 % 4 < 2 →
        (∀ f : Cause × Info, translate p va ⟨false, true, false⟩ false = .error f → Takes (.gate c) c s f) ∧
        ∀ x : Xlat, translate p va ⟨false, true, false⟩ false = .ok x → gatePlace p va = none → Takes (.gate c) c s (.range, va))) ∧
    (let va := s.me.aSeen (w / 2 ^ 25 % 16)
     let packet := 64 * (w / 2 ^ 29 % 2 ^ 15)
     let result := 8 * (w / 2 ^ 44 % 2 ^ 18)
     let fails (f : Cause × Info) : Prop := Takes (.qput c) c s f
     ok .gate 281 (fieldMask 62 10) outOfBay qputCmd →
      (pad < packet + 64 → fails (.range, BitVec.ofNat 72 packet)) ∧
      (packet + 64 ≤ pad →
        (pad < result + 8 → fails (.range, BitVec.ofNat 72 result)) ∧
        (result + 8 ≤ pad →
          (∀ f : Cause × Info, translate p va ⟨true, true, true⟩ false = .error f → fails f) ∧
          ∀ x : Xlat, translate p va ⟨true, true, true⟩ false = .ok x →
            let fit : Prop := 3 ≤ teStier x.raw ∧ teStier x.raw ≤ 5 ∧ va.toNat % 64 = 0
            (¬ fit → fails (.range, va)) ∧ (fit → inQueue p va = false → fails (.region, va))))) ∧
    (let line := 128 * (w / 2 ^ 25 % 2 ^ 14)
     let peer := w / 2 ^ 47 % 32
     ∀ (op : Nat) (i : Instr), (op = 288 ∧ i = .send c ∨ op = 289 ∧ i = .recv c) → ok .coll op (fieldMask 60 12) outOfBay keepCmd →
      (peer = s.cur.val % 24 ∨ s.inGangOf s.cur peer = false → Takes i c s (.range, anyInfo op)) ∧
      (peer ≠ s.cur.val % 24 → s.inGangOf s.cur peer = true → pad < line + 128 * (w / 2 ^ 39 % 2 ^ 8 + 1) →
        Takes i c s (.range, BitVec.ofNat 72 line))) ∧
    (let slot := w / 2 ^ 25 % 64
     let data := 64 * (w / 2 ^ 43 % 2 ^ 15)
     let sel := s.me.aSeen (w / 2 ^ 39 % 16)
     let bad : Cause × Info := (.format, BitVec.ofNat 72 slot)
     (ok .coll 290 (fieldMask 58 14) outOfBay credCmd →
      (p.descOf slot = none → Takes (.cred c) c s bad) ∧
      ∀ d : RDesc, p.descOf slot = some d → (d.bc = true → Takes (.cred c) c s bad) ∧
        (d.bc = false → pad < data + d.bytes → Takes (.cred c) c s (.range, BitVec.ofNat 72 data))) ∧
     (ok .coll 291 (fieldMask 58 14) outOfBay credCmd →
      (p.descOf slot = none → Takes (.cbcast c) c s bad) ∧
      ∀ d : RDesc, p.descOf slot = some d → (d.bc = false → Takes (.cbcast c) c s bad) ∧
        (d.bc = true → d.leaf p.lchip = 0 → pad < data + d.bytes → Takes (.cbcast c) c s (.range, BitVec.ofNat 72 data))) ∧
     (ok .coll 292 (fieldMask 63 9) outOfBay commitCmd →
      (p.descOf slot = none → Takes (.commit c) c s bad) ∧
      ∀ d : RDesc, p.descOf slot = some d →
        let fit : Prop := d.mode = 5 ∧ d.w = 0 ∧ d.nel = 1 ∧ d.bc = false
        (¬ fit → Takes (.commit c) c s bad) ∧
        (fit →
          (∀ f : Cause × Info, translate p sel ⟨false, true, false⟩ false = .error f → Takes (.commit c) c s f) ∧
          (∀ x : Xlat, translate p sel ⟨false, true, false⟩ false = .ok x →
            (sel.toNat % 8 ≠ 0 ∨ teStier x.raw ∉ [3, 4] → Takes (.commit c) c s (.range, sel))) ∧
          ∀ x : Xlat, selectorChk p s.cur sel = .ok x → pad < data + 4 * (w / 2 ^ 58 % 32) →
            Takes (.commit c) c s (.range, BitVec.ofNat 72 data)))) ∧
    (let va := s.me.aSeen (w / 2 ^ 25 % 16)
     ok .scarf 296 (fieldMask 30 42) outOfBay reshardCmd →
      ((∃ f : Cause × Info, translate p va ⟨true, false, false⟩ false = .error f) ∨ regionOk p s.cur .ldg va = false →
        Takes (.reshard c) c s (.range, va))) ∧
    (let first := w / 2 ^ 25 % 2 ^ 12
     let len := w / 2 ^ 37 % 2 ^ 12
     let mask : BitVec 8 := BitVec.ofNat 8 (w / 2 ^ 61)
     let limit := if s.sliced s.cur = true then 1365 else 2730
     ok .jig 304 (fieldMask 69 3) inBay keepCmd →
      (w / 2 ^ 6 % 2 ^ 18 ≠ 2 ^ 18 - 1 → Takes (.jig c) c s (.reservedField, 304)) ∧
      (w / 2 ^ 6 % 2 ^ 18 = 2 ^ 18 - 1 →
        (limit ≤ first + len → Takes (.jig c) c s (.range, BitVec.ofNat 72 (24 * (first + len)))) ∧
        (first + len < limit →
          (mask = 0 ∨ mask.getLsbD 7 = true ∨ mask &&& s.me.jmask ≠ mask ∨ (∃ x ∈ s.me.jigMasks, x &&& mask ≠ 0) ∨
            2 ≤ s.me.jigMasks.length) → Takes (.jig c) c s (.jigCollision, 0)))) ∧
    Queues (.mxgo c) c s .mx 256 (fieldMask 25 47) inBay mxgoCmd mxgoChk ∧
    Queues (.mxdrain c) c s .mx 257 (fieldMask 30 42) inBay
      (fun t x => { x with fo := t.me.fmtAt (t.me.selIx (bits x.sh3 44 7)) }) drainChk ∧
    Queues (.mxclr c) c s .mx 258 (fieldMask 29 43) inBay keepCmd
      (fun x t => if t.handleCount t.cur ≤ x.handle then some (.range, anyInfo 258) else none) ∧
    Queues (.wk0Walk c) c s .wk0 264 (fieldMask 25 47) Cmd.walkLeaves walkCmd walkChk ∧
    Queues (.wk0Walkm c) c s .wk0 265 (fieldMask 69 3) Cmd.walkLeaves walkCmd walkChk ∧
    Queues (.wk1Walk c) c s .wk1 272 (fieldMask 25 47) Cmd.walkLeaves walkCmd walkChk ∧
    Queues (.wk1Walkm c) c s .wk1 273 (fieldMask 69 3) Cmd.walkLeaves walkCmd walkChk ∧
    Queues (.gate c) c s .gate 280 (fieldMask 35 37) outOfBay gateCmd gateChk ∧
    Queues (.qput c) c s .gate 281 (fieldMask 62 10) outOfBay qputCmd qputChk ∧
    Queues (.send c) c s .coll 288 (fieldMask 60 12) outOfBay keepCmd xferChk ∧
    Queues (.recv c) c s .coll 289 (fieldMask 60 12) outOfBay keepCmd xferChk ∧
    Queues (.cred c) c s .coll 290 (fieldMask 58 14) outOfBay credCmd credChk ∧
    Queues (.cbcast c) c s .coll 291 (fieldMask 58 14) outOfBay credCmd cbcastChk ∧
    Queues (.commit c) c s .coll 292 (fieldMask 63 9) outOfBay commitCmd commitChk ∧
    Queues (.reshard c) c s .scarf 296 (fieldMask 30 42) outOfBay reshardCmd reshardChk ∧
    Queues (.jig c) c s .jig 304 (fieldMask 69 3) inBay keepCmd jigChk ∧
    Queues (.pegclr c) c s .peg 312 (fieldMask 58 14) inBay keepCmd
      (fun x _ => if x.word.getLsbD 25 && x.word.getLsbD 57 then some (.reservedField, 312) else none) ∧
    (PortFree s .scarfSt 2 → (movedVal c s).addr = 0xFFFFFF →
      Gives (.rsstat c) s .scarfSt 2 ((s.scarfStatus s.cur).setWidth 2048)) ∧
    ((movedVal c s).addr ≠ 0xFFFFFF → exec (.rsstat c) s = .next (s.raise (s.slotFault c .reservedField 297)))

/-! ## Control flow -/

/-- R79, R91, R92, R349 to R352, R377, R415: where its target is legal a transfer is made, and the bundle at its target is next: BR, BRM on a
uniform mask (all ones, or all zeros with bit 35), CALL and CALLI, which link, RET, and JMPI. CALLI needs a PAD C at its target, JMPI a
PAD J. Where it is not, a control-flow fault is taken; so it is by a BRM on a mixed mask. -/
def Obligations.Branches : Prop :=
  ∀ (c : Ctl) (s : State), Made c s →
    let pc : Int := s.me.pc
    let x := (movedVal c s).addr
    let off := (movedVal c s).word.toInt
    let code : Int := (movedVal c s).word.toNat
    let lk : Int := s.me.seen.lk.toNat
    let pad (a : Int) : Option Instr := s.me.slot7At (a / 24).toNat
    let m := s.me.seen.m.get ⟨x.toNat / 2 ^ 32 % 8, Nat.mod_lt _ (by decide)⟩
    let taken : MaskReg := if x.getLsbD 35 = true then 0 else BitVec.allOnes 256
    let dest := pc + (x.setWidth 32).toInt
    let flow (i : Instr) (code : Int) : Prop := exec i s = .next (s.raise (s.slotFault c .controlFlow (BitVec.ofInt 72 code)))
    (LegalTarget s (pc + off) true → exec (.br c) s = .next (jumps s (pc + off))) ∧
    (LegalTarget s (pc + off) false → exec (.call c) s = .next (calls s (pc + off))) ∧
    (code % 24 = 0 → LegalTarget s (code / 24) false → pad code = some .padC → exec (.calli c) s = .next (calls s (code / 24))) ∧
    (code % 24 = 0 → LegalTarget s (code / 24) true → pad code = some .padJ → exec (.jmpi c) s = .next (jumps s (code / 24))) ∧
    (lk % 24 = 0 → LegalTarget s (lk / 24) false → exec (.ret c) s = .next (jumps s (lk / 24))) ∧
    (x.toNat < 2 ^ 36 → m = taken → LegalTarget s dest true → exec (.brm c) s = .next (jumps s dest)) ∧
    (x.toNat < 2 ^ 36 → m = ~~~taken → exec (.brm c) s = .next s) ∧
    (¬ LegalTarget s (pc + off) true → flow (.br c) (24 * (pc + off))) ∧
    (¬ LegalTarget s (pc + off) false → flow (.call c) (24 * (pc + off))) ∧
    (¬ (code % 24 = 0 ∧ LegalTarget s (code / 24) false ∧ pad code = some .padC) → flow (.calli c) code) ∧
    (¬ (code % 24 = 0 ∧ LegalTarget s (code / 24) true ∧ pad code = some .padJ) → flow (.jmpi c) code) ∧
    (¬ (lk % 24 = 0 ∧ LegalTarget s (lk / 24) false) → flow (.ret c) lk) ∧
    (m = taken → ¬ LegalTarget s dest true → flow (.brm c) (24 * dest)) ∧
    (m ≠ taken → m ≠ ~~~taken → flow (.brm c) (24 * dest)) ∧
    (2 ^ 36 ≤ x.toNat → m = ~~~taken ∨ m = taken ∧ LegalTarget s dest true →
      exec (.brm c) s = .next (s.raise (s.slotFault c .reservedField 257)))

/-- R77, R78, R386, R387: LOOP pushes a level that starts at the next bundle, its index register 0, with the address updates its
descriptor names; COUNT 0 pushes nothing and passes beyond the level, and a fifth level overflows. That a LOOP with COUNT 0 does not overflow
where four levels are pushed is the model's choice (log 78). At the end bundle of the level pushed last its updates
are made; it repeats until its index reaches its count, then it leaves the stack and the level below is next. -/
def Obligations.Loops : Prop :=
  (∀ (c : Ctl) (s : State), Made c s →
    let x := (movedVal c s).addr.toNat
    let b := s.me
    let count := x % 2 ^ 32
    let stop := b.pc + x / 2 ^ 32 % 256
    let nupd := x / 2 ^ 40 % 8
    let ubase := x / 2 ^ 43 % 16
    let sbase := x / 2 ^ 47 % 16
    x < 2 ^ 51 → nupd ≤ 4 → ubase + nupd ≤ 16 → sbase + nupd ≤ 16 → b.pc < stop → stop < s.bundleLimit s.cur →
      (∀ l : LoopLevel, b.topLoop = some l → stop ≤ l.stop) →
      (4 ≤ b.loops.length → count ≠ 0 → exec (.loop c) s = .next (s.raise (s.slotFault c .loopOverflow 0))) ∧
      (b.loops.length < 4 → count ≠ 0 →
        ∃ l : LoopLevel, l.start = b.pc + 1 ∧ l.stop = stop ∧ l.count = count ∧ l.updates.length = nupd ∧
          (∀ u < nupd, ∃ p : Fin 16 × Int, l.updates[u]? = some p ∧ p.1.val = ubase + u ∧
            p.2 = ((b.seen.a.toList.getD (sbase + u) 0).setWidth 32).toInt) ∧
          exec (.loop c) s = .next (s.onMe (fun y => { y with
            loops := l :: y.loops, regs := { y.regs with l := y.regs.l.setIfInBounds y.loops.length 0 } }))) ∧
      (count = 0 → stop + 1 < s.bundleLimit s.cur → exec (.loop c) s = .next (jumps s (stop + 1 : Int))) ∧
      (count = 0 → stop + 1 = s.bundleLimit s.cur →
        exec (.loop c) s = .next (s.raise (s.slotFault c .controlFlow (BitVec.ofInt 72 (24 * (stop + 1 : Int))))))) ∧
  ∀ (b : Bay) (l : LoopLevel) (ls : List LoopLevel), b.suspended = 0 → b.loops = l :: ls →
    let r := l.updates.foldl Regs.stepA b.regs
    let index := (r.l.toList.getD ls.length 0).toNat + 1
    (l.stop ≠ b.pc → b.loopStep = (b.regs, b.loops, none)) ∧
    (l.stop = b.pc → index < l.count → b.loopStep = (r.setL ls.length (BitVec.ofNat 32 index), b.loops, some l.start)) ∧
    (l.stop = b.pc → l.count ≤ index → b.loopStep = ({ b with loops := ls, regs := r.setL ls.length 0 } : Bay).loopStep)

/-- R366, R299, R286, R416, R441: END is executed with no loop level, no queued or pegged command outstanding, no peg produced, no jig and no
access that changes state in flight, else it takes an end-state fault that says which; its bay is then idle, its ports read zero. WITNESS, END
and retirement close the window in their cycle, at whose end the next opens. RETIRE ends the task and writes a fault record with ACTION 1 and
the CODE and INFO of TCAUSE. -/
def Obligations.TaskEnds : Prop :=
  (∀ (c : Ctl) (s : State), Made c s →
    let b := s.me
    let info : Nat := (if b.loops = [] then 0 else 1)
      + (if (∃ q ∈ b.queues.toList, q ≠ []) ∨ (∃ p ∈ s.outstanding s.cur, p ≠ 63) then 2 else 0)
      + (if b.pegs = 0 then 0 else 4) + (if ∃ j ∈ b.jigs.toList, j ≠ none then 8 else 0)
      + (if b.changing s.myNow = true then 16 else 0)
    Either (.endTask c) c s (info = 0) (s.onMe (fun y => { y with closing := .ended })) .endState (BitVec.ofNat 72 info) ∧
    exec (.witness c) s = .next (s.onMe (fun y => { y with closing := .witness })) ∧
    ∃ t : State, exec (.retire c) s = .next t ∧ SameMemory s t ∧ (∀ b' : BayId, b' ≠ s.cur → t.bay b' = s.bay b') ∧
      t.yard.errlog = s.yard.errlog ++ [.fault (faultRecord s s.cur 1 b.cls (b.tcause.toNat / 2 ^ 8 % 2 ^ 8)
        (BitVec.ofNat 72 (b.tcause.toNat / 2 ^ 32)))] ∧
      t.me.mode = (if b.busyCommands = true ∨ s.scarfBusy s.cur = true then .retiring else .idle) ∧ t.me.task = none ∧
      t.me.loops = [] ∧ t.me.pegs = 0 ∧ t.me.queues = .replicate 8 [] ∧ t.me.jigs = .replicate 2 none ∧ t.me.inflight = [] ∧
      t.me.res = .replicate 23 0 ∧ t.me.window.closed = true ∧ t.me.window.num = b.window.num ∧ t.me.regs = b.regs ∧ t.me.closing = .retired) ∧
  ∀ (b : Bay) (t now : Nat) (jigs limm : Bool),
    (b.closing = .ended →
      let y := b.finish now jigs limm
      y.mode = .idle ∧ y.task = none ∧ y.inflight = [] ∧ y.res = .replicate 23 0 ∧ y.window.closed = true ∧
        y.window.num = b.window.num ∧ bayMems y = bayMems b) ∧
    (b.closing = .witness →
      let y := b.finish now jigs limm
      y.mode = b.mode ∧ y.task = b.task ∧ y.inflight = b.inflight ∧ y.res = b.res ∧ y.window.closed = true ∧
        y.window.num = b.window.num ∧ y.window.undo = b.window.undo ∧ bayMems y = bayMems b) ∧
    let z := b.turnWindow t
    (b.window.closed = false → z = b) ∧
    (b.window.closed = true → z.window.num = b.window.num + 1 ∧ z.window.closed = false ∧ z.window.bundles = 0 ∧ z.window.gstores = 0 ∧
      z.window.undo = [] ∧ z.window.openT = t ∧ z.regs = b.regs ∧ z.acc = b.acc ∧ z.gbuf = b.gbuf ∧ bayMems z = bayMems b ∧
      ∃ m : Witness, z.window.witness = some m ∧ m.regs = b.regs ∧ m.pc = b.pc ∧ m.acc = b.acc ∧ m.pegs = b.pegs ∧
        m.queues = b.queues ∧ m.tags = b.tags)

/-- R297, R298, R300, R301, R414, R436: TRAP takes the software trap, or with the handler active has the yard log it with ACTION 6 and
stop the partition. A trap writes TCAUSE, TBUNDLE and TSLOT, goes on at index 0, and suspends jigs and loop levels; in an active handler
or without a PAD E the task is retired instead. RESUME returns: CLASS is 0 and what was suspended runs again. -/
def Obligations.Traps : Prop :=
  (∀ (c : Ctl) (s : State), Made c s →
    let x := (movedVal c s).addr
    let code : Int := (movedVal c s).word.toNat
    (s.me.handlerActive = false → exec (.trap c) s = .next (s.raise (s.slotFault c .softwareTrap x))) ∧
    (s.me.handlerActive = true → ∃ t : State, exec (.trap c) s = .next t ∧ (∀ b : BayId, t.bay b = s.bay b) ∧ SameMemory s t ∧
      t.yard.errlog = s.yard.errlog ++ [.fault (faultRecord s s.cur 6 s.me.cls 0x0D x)] ∧
      ∀ q : PartId, t.part q = if s.partOf s.cur = some q then { s.part q with mode := .stopped } else s.part q) ∧
    Either (.resume c) c s
      (s.me.handlerActive = true ∧ s.me.loops.length ≤ s.me.suspended ∧ code % 24 = 0 ∧ code / 24 < s.bundleLimit s.cur)
      (s.onMe (fun b => { b with
        xfer := some (code / 24).toNat, tcause := b.tcause &&& ~~~7, suspended := 0, jigs := b.jigs.map resumeJig
        closing := .resumed })) .controlFlow (BitVec.ofInt 72 code)) ∧
  ∀ (s : State) (f : BFault), s.me.dry = none → handling f.cause = .trap →
    let b := s.me
    let at' : Word := BitVec.ofNat 64 (24 * b.pc)
    (b.handlerActive = false → b.padE = true →
      ∃ t : State, s.raise f = t ∧ OnlyBay s.cur s t ∧ t.me.pc = 0 ∧ t.me.tbundle = at' ∧ t.me.tslot = f.tslot ∧
        t.me.tcause.toNat = f.info.toNat % 2 ^ 32 * 2 ^ 32 + causeCode f.cause * 2 ^ 8 + 1 ∧ t.me.regs = b.regs ∧
        t.me.loops = b.loops ∧ t.me.suspended = b.loops.length ∧ t.me.jigs = b.jigs.map suspendJig ∧
        t.me.window.closed = true ∧ t.me.task = b.task ∧ bayMems t.me = bayMems b) ∧
    (b.handlerActive = true ∨ b.padE = false →
      ∃ t : State, s.raise f = t ∧ t.me.task = none ∧ t.me.tbundle = at' ∧ t.me.tslot = f.tslot ∧
        t.me.tcause.toNat / 2 ^ 32 = f.info.toNat % 2 ^ 32 ∧ t.me.tcause.toNat / 2 ^ 8 % 2 ^ 8 = causeCode f.cause ∧ SameMemory s t ∧
        t.yard.errlog.length = s.yard.errlog.length + 1 ∧ ∀ b' : BayId, b' ≠ s.cur → t.bay b' = s.bay b')

/-! ## The system unit -/

/-- R72, R73, R433, R434, R206: SYSR answers the register that its value names; a register of the yard is a privilege fault, one that is
not listed an unimplemented port. SYSW writes the low 64 bits of an address register to KSEED, a format entry or a scale register, and
ignores the others. TTLD answers half of a translation entry, TTCLR asks for a clear of its flags. -/
def Obligations.SystemRegisters : Prop :=
  ∀ (c : Ctl) (s : State), Made c s →
    let x := (movedVal c s).addr
    let b := s.me
    let p := s.partAt s.cur
    let id := x.toNat % 2 ^ 12
    let data : Word := (b.aSeen (x.toNat / 2 ^ 12 % 16)).setWidth 64
    let far : Prop := s.sliced s.cur = true ∧ ((0x18 ≤ id ∧ id < 0x20) ∨ (0x180 ≤ id ∧ id < 0x200))
    let unlisted : Prop := id ∈ [0x07, 0x0E, 0x0F] ∨ (0x38 ≤ id ∧ id < 0x100) ∨ (0x200 ≤ id ∧ id < 0x800)
    let jpc (j : Option JigRun) : Word := match j with
      | none => 0
      | some r => BitVec.ofNat 64 (r.reps * 2 ^ 12 + r.next)
    let here := s.remapEntry s.cur
    let gives (v : Word) : Prop := Gives (.sysr c) s .systemR 1 (v.setWidth 2048)
    let writes (f : Bay → Bay) : Prop := exec (.sysw c) s = .next (s.onMe f)
    (x.toNat < 2 ^ 12 → PortFree s .systemR 1 →
      (id = 0x02 → gives (BitVec.ofNat 64 p.framec)) ∧ (id = 0x03 → gives (BitVec.ofNat 64 p.polec)) ∧
      (id = 0x04 → gives p.slipw) ∧ (id = 0x05 → gives b.stepc) ∧ (id = 0x06 → gives b.kseed) ∧ (id = 0x08 → gives b.tcause) ∧
      (id = 0x09 → gives b.tbundle) ∧ (id = 0x0A → gives (b.tslot.setWidth 64)) ∧
      (∀ k : Fin 16, id = 0x10 + k.val → ¬ far → gives ((b.fmt.get k).setWidth 64)) ∧
      (∀ k : Fin 256, id = 0x100 + k.val → ¬ far → gives ((b.sc.get k).setWidth 64)) ∧
      (id = 0x00 → gives (BitVec.ofNat 64 ((26 * (s.cur.val / 24) + here.toNat % 32) * 256 + s.cur.val))) ∧
      (∀ q : PartId, s.partOf s.cur = some q → id = 0x01 → gives (BitVec.ofNat 64 q.val)) ∧
      (id = 0x0B → gives (jpc (b.jigs.get 0))) ∧ (id = 0x0C → gives (jpc (b.jigs.get 1))) ∧
      (id = 0x0D → gives (BitVec.ofNat 64 (b.window.bundles * 2 ^ 23 + b.window.handles.length * 2 ^ 20 + b.window.lines * 2 ^ 11 +
        b.window.gstores))) ∧
      (∀ k : Fin 24, id = 0x20 + k.val → gives (((s.bents.get (bentOf s.cur)).remap.get k).setWidth 64)) ∧
      (far → Takes (.sysr c) c s (.range, BitVec.ofNat 72 id)) ∧
      (0x800 ≤ id → Takes (.sysr c) c s (.privilege, BitVec.ofNat 72 id)) ∧
      (unlisted → Takes (.sysr c) c s (.unimplementedPort, 1318))) ∧
    (2 ^ 12 ≤ x.toNat → ¬ unlisted → PortFree s .systemR 1 → Takes (.sysr c) c s (.reservedField, 294)) ∧
    (2 ^ 16 ≤ x.toNat → ¬ unlisted → id < 0x100 ∨ 0x200 ≤ id → Takes (.sysw c) c s (.reservedField, 295)) ∧
    (x.toNat < 2 ^ 16 →
      (id = 0x06 → writes (fun y => { y with kseed := data })) ∧
      (∀ k : Fin 16, id = 0x10 + k.val → ¬ far → writes (fun y => { y with fmt := y.fmt.set k.val (syswFmt data) k.isLt })) ∧
      (∀ k : Fin 256, id = 0x100 + k.val → ¬ far → s.me.scaleBusy k.val s.myNow = false → s.commitNames s.cur k.val = false →
        writes (fun y => { y with sc := y.sc.set k.val (syswScale data) k.isLt })) ∧
      (∀ k : Fin 256, id = 0x100 + k.val → s.me.scaleBusy k.val s.myNow = true → Takes (.sysw c) c s (.scaleBusy, BitVec.ofNat 72 k.val)) ∧
      (id ∈ [0x00, 0x01, 0x02, 0x03, 0x04, 0x05, 0x08, 0x09, 0x0A, 0x0B, 0x0C, 0x0D] ∨ (0x20 ≤ id ∧ id < 0x38) →
        exec (.sysw c) s = .next s) ∧
      (far → (∀ k : Nat, id = 0x100 + k → s.me.scaleBusy k s.myNow = false ∧ s.commitNames s.cur k = false) →
        Takes (.sysw c) c s (.range, BitVec.ofNat 72 id)) ∧
      (0x800 ≤ id → Takes (.sysw c) c s (.privilege, BitVec.ofNat 72 id)) ∧
      (unlisted → Takes (.sysw c) c s (.unimplementedPort, 1319))) ∧
    (∀ e : TTEntry, x.toNat < 2 ^ 13 → p.tt[x.toNat % 2 ^ 12]? = some e → PortFree s .systemR 1 →
      let raw : BitVec 128 := if e.pending then e.raw ||| 4 else e.raw
      Gives (.ttld c) s .systemR 1 ((BitVec.ofNat 64 (if x.getLsbD 12 = true then raw.toNat / 2 ^ 64 else raw.toNat)).setWidth 2048)) ∧
    (∀ q : PartId, s.partOf s.cur = some q → x.toNat < 2 ^ 12 → x.toNat < p.tt.length →
      ∃ t : State, exec (.ttclr c) s = .next t ∧ OnlyPart q s t ∧ (t.part q).tt.length = (s.part q).tt.length ∧
        ∀ k : Nat, (t.part q).tt[k]? = ((s.part q).tt[k]?).map (fun e => if k = x.toNat then { e with clr := true } else e))

/-- R47 to R50, R425, R426, R439: SPAWN puts an entry with the template, the spawn instant and the eight argument words in the target
bay's spawn queue, WHEEL puts one with its release frame in the partition's wheel; each writes 1 to its predicate, or 0 where the queue
is full and then changes nothing else. -/
def Obligations.Spawns : Prop :=
  ∀ (c : Ctl) (s : State) (q : PartId) (n : Fin 7), Made c s → s.partOf s.cur = some q →
    let x := (movedVal c s).addr
    let p := s.part q
    let index := x.toNat % 2 ^ 16
    let bay := x.toNat / 2 ^ 16 % 2 ^ 8
    let off := 64 * (x.toNat / 2 ^ 24 % 2 ^ 15)
    let args := argWords s.me.scratch off
    x.toNat / 2 ^ 39 % 8 = n.val + 1 → p.hasBay bay = true → (p.template bay index).isSome = true →
      off + 64 ≤ s.half s.cur 2097152 → p.held = false →
    (x.toNat < 2 ^ 42 →
      ∃ t : State, exec (.spawn c) s = .next t ∧ SameMemory s t ∧
        (∃ u : State, RaceNoted s.cur s u ∧ t.parts = u.parts) ∧
        (∀ b : BayId, b ≠ s.cur → b.val ≠ bay → t.bay b = s.bay b) ∧
        ∀ target : BayId, target.val = bay →
          (t.me.regs.p.get n = true ↔ (s.bay target).spawnq.length + (s.bay target).freed < 64) ∧
          (∀ k : Fin 7, k ≠ n → t.me.regs.p.get k = s.me.regs.p.get k) ∧
          (t.bay target).spawnq = (if (s.bay target).spawnq.length + (s.bay target).freed < 64 then
            (s.bay target).spawnq ++ [⟨p.framec, p.polec, s.cur.val, index, args⟩] else (s.bay target).spawnq)) ∧
    (x.toNat < 2 ^ 46 →
      ∃ t : State, exec (.wheel c) s = .next t ∧ SameMemory s t ∧ (∀ b : BayId, b ≠ s.cur → t.bay b = s.bay b) ∧
        (∀ q' : PartId, q' ≠ q → t.part q' = s.part q') ∧ (t.part q).entries = p.entries ∧
        (t.me.regs.p.get n = true ↔ p.wheel.length < 256) ∧ (∀ k : Fin 7, k ≠ n → t.me.regs.p.get k = s.me.regs.p.get k) ∧
        (t.part q).wheel = if p.wheel.length < 256 then
            p.wheel ++ [⟨bay, index, wheelFrame p ((s.me.aSeen (x.toNat / 2 ^ 42 % 16)).toNat % 2 ^ 64), args⟩]
          else p.wheel)

/-- R233, R371: GSYNC completes when every other member of the gang issues one of the same value in the same cycle, and takes a gang-sync
fault with its value otherwise. A member is a bay that runs a task of the gang or has a story-pole entry of it, so one that has not
started, or has ended, is missed: who is a member is the model's choice (log 28). It changes no register and no memory. -/
def Obligations.GangSync : Prop :=
  ∀ (c : Ctl) (s : State), Made c s → (movedVal c s).addr.toNat < 256 → s.gangOf s.cur ≠ 0 → (s.partAt s.cur).held = false →
    let v : BitVec 8 := (movedVal c s).addr.setWidth 8
    let member (b : BayId) : Prop := s.gangOf b = s.gangOf s.cur ∨
      ∃ e ∈ (s.partAt b).entries, e.template = false ∧ e.bay = b.val ∧ e.gang = s.gangOf s.cur
    let agree : Prop := ∀ b : BayId, bentOf b = bentOf s.cur → member b → b ≠ s.cur → (s.bay b).gsync = some v
    (agree → ∃ t : State, exec (.gsync c) s = .next t ∧ SameMemory s t ∧ t.bays = s.bays ∧ t.parts = s.parts ∧
      t.yard = s.yard ∧ t.outs = s.outs) ∧
    (¬ agree → exec (.gsync c) s = .next (s.raise (s.slotFault c .gangSync (v.setWidth 72))))

/-! ## Results and accesses -/

/-- R63, R213, R380, R383, R428, R431, R374, R402: a due result reaches its port; a load delivers its bytes; a store writes its bytes to
the scratchpad and nothing elsewhere, a masked one those that its mask lets through; the keys of an HLOOK and the parameters of an
optimiser routine are read, their results due 8 and 6 cycles on. An access that meets an asynchronous walk has a race noted (R221). -/
def Obligations.LocalPerforms : Prop :=
  (∀ (b : BayId) (p : ResPort) (s : State) (l1 l2 : List Result) (r : Result) (v : VReg),
    (s.bay b).inflight = l1 ++ r :: l2 → r.port = p → r.value = some v →
    (if r.remote = true then r.due ≤ s.poleTime b else r.due ≤ s.now b) →
    (∀ x ∈ l1, x.port = p → x.isDue (s.now b) (s.poleTime b) = false) →
    exec (.resultReady b p) s = .next (s.onBay b (fun x => { x with
      res := x.res.set (resIdx p).val v (resIdx p).isLt
      ready := x.ready.set (resIdx p).val (some (s.now b)) (resIdx p).isLt
      inflight := l1 ++ l2
      bridges := if p = .xab then (x.bridging.1, x.bridges.2) else if p = .xba then (x.bridges.1, x.bridging.2) else x.bridges }))) ∧
  ∀ (b : BayId) (id : Nat) (s : State) (a : Access), Performs s b id a →
    let m := (s.bay b).scratch
    let off := a.addr.toNat % 2 ^ 64
    let voff := a.addr.toNat % 2 ^ 21
    let performs (f : Bay → Bay) : Prop := ∃ u : State, RaceNoted b s u ∧ exec (.accessPerform b id) s = .next (u.onBay b f)
    (∀ p : ResPort, a.kind = .ld → a.port = some p → a.size ∈ [1, 2, 4, 8] →
      performs (fun x => delivered x a p false a.due (scalarOf (loaded a.signed a.size (Mem.nat m off a.size))))) ∧
    (∀ p : ResPort, a.kind = .ldv → a.port = some p →
      ∃ v : VReg, performs (fun x => delivered x a p false a.due v) ∧
        ∀ k < 256, v.extractLsb' (8 * k) 8 = Mem.read m (voff + k)) ∧
    (a.kind = .st → a.size ∈ [1, 2, 4, 8] → off % a.size = 0 → m.wf = true → (∀ k < a.size, (0, off + k) ∉ (s.bay b).wrote) →
      (s.bay b).linesNow < 256 →
      ∃ t : State, exec (.accessPerform b id) s = .next t ∧ OnlyScratch b s t ∧
        Stored m (t.bay b).scratch off (leBytes a.size a.data.toNat) ∧ (t.bay b).scratch.wf = true ∧
        (t.bay b).acc = (s.bay b).acc.filter (fun x => decide (x.id ≠ a.id)) ∧
        (t.bay b).window.lines = (s.bay b).window.lines + 1) ∧
    (a.kind = .stv → voff % 128 = 0 → m.wf = true → (∀ k < 256, (0, voff + k) ∉ (s.bay b).wrote) →
      (s.bay b).linesNow + 2 ≤ 256 →
      ∃ t : State, exec (.accessPerform b id) s = .next t ∧ OnlyScratch b s t ∧ (t.bay b).scratch.wf = true ∧
        (∀ k < 256, Mem.read (t.bay b).scratch (voff + k) =
          if a.mask.getLsbD k = true then a.data.extractLsb' (8 * k) 8 else Mem.read m (voff + k)) ∧
        ∀ x : Nat, x < voff ∨ voff + 256 ≤ x → Mem.read (t.bay b).scratch x = Mem.read m x) ∧
    (a.kind = .hlook →
      ∃ v : VReg, ∃ k : MaskReg,
        performs (fun x => delivered (delivered x a .vredVr false (a.due + 8) v) a .vredMr false (a.due + 8) (k.setWidth 2048)) ∧
        ∀ i < 64,
          let found := hashFind m (a.addr.toNat % 2 ^ 21) (a.addr.toNat / 2 ^ 21 % 32) (laneU a.data 32 i)
          lane v 32 i = BitVec.ofNat 32 (found.getD 0xFFFFFFFF) ∧ ∀ j < 4, k.getLsbD (4 * i + j) = found.isSome) ∧
    ∀ (k : Fin 3) (vb : VReg) (stepc seed : Word), a.kind = .opt k vb stepc seed →
      performs (fun x => delivered x a .vfnVr false (a.due + 6)
        (optResult k (optParams m (16 * (a.addr.toNat / 2 ^ 42 % 2 ^ 17))) a.addr a.data vb stepc seed))

/-- R213, R214, R215, R225, R229, R231, R380, R428: on a page of this chip a load of shared memory delivers the bytes as its bay sees them; a
store, an atomic and a hand only perform, unseen until their window is witnessed; FETCHADD adds to its word and answers the former one.
An access that finds its channel line in the wrong state faults, and so does the second write of a bay to a byte in one cycle, be it a store,
an atomic or a FETCHADD. That the second is the one that performs later in the model's order within the cycle, is reported and dropped while
the first stays (R215 names neither), and that a line's state is checked before such a collision, is the model's choice (logs 31 and 27). -/
def Obligations.SharedPerforms : Prop :=
  ∀ (b : BayId) (id : Nat) (s : State) (a : Access) (pl : Place), Performs s b id a → a.place = some pl →
    (∀ c t x, pl ≠ .chip c t x) →
    let now := s.poleTime b
    let faults (k : RKind) (f : Cause × Info) : Prop := lineChk (s.partAt b) (s.bay b) k a.addr = some f →
      ∃ t : State, exec (.accessPerform b id) s = .next t ∧ SameMemory s t ∧ (t.bay b).inflight = (s.bay b).inflight ∧
        ((s.bay b).pending = none → ((t.bay b).pending.map (fun p => (p.fault.cause, p.fault.info))) = some f)
    let loads (k : RKind) : Prop := lineChk (s.partAt b) (s.bay b) k a.addr = none →
      ∀ p : ResPort, a.port = some p → a.size ∈ [1, 2, 4, 8] →
      ∃ t : State, exec (.accessPerform b id) s = .next t ∧ SameMemory s t ∧ (t.bay b).regs = (s.bay b).regs ∧
        (t.bay b).inflight = (delivered (s.bay b) a p true a.due
          (scalarOf (loaded a.signed a.size (leNat (s.readAs b now pl a.size))))).inflight ∧
        ∀ b' : BayId, b' ≠ b → t.bay b' = s.bay b'
    let performs (k : RKind) : Prop := lineChk (s.partAt b) (s.bay b) k a.addr = none →
      ((s.bay b).rewritesG a.id now = true → ∃ t : State, exec (.accessPerform b id) s = .next t ∧ SameMemory s t ∧
        (t.bay b).gbuf = (s.bay b).gbuf.filter (fun w => decide (w.id ≠ a.id)) ∧
        ((s.bay b).pending = none → (t.bay b).pending.map (fun p => (p.fault.cause, p.fault.info)) =
          some (.writeCollision, a.addr))) ∧
      ((s.bay b).rewritesG a.id now = false →
      ∃ t : State, exec (.accessPerform b id) s = .next t ∧ SameMemory s t ∧ (t.bay b).regs = (s.bay b).regs ∧
        (t.bay b).inflight = (s.bay b).inflight ∧ (t.bay b).gbuf.length = (s.bay b).gbuf.length ∧
        (∀ n : Nat, ∀ w : GWrite, (s.bay b).gbuf[n]? = some w → ∃ w' : GWrite, (t.bay b).gbuf[n]? = some w' ∧ w'.eff = w.eff ∧
          w'.performed = if w.id = a.id then some now else w.performed) ∧
        ∀ b' : BayId, b' ≠ b → t.bay b' = s.bay b')
    (a.kind = .ldg → loads .ldg ∧ ∀ f, faults .ldg f) ∧ (a.kind = .ldc → loads .ldc ∧ ∀ f, faults .ldc f) ∧
    (a.kind = .stg → performs .stg ∧ ∀ f, faults .stg f) ∧ (a.kind = .stp → performs .stp ∧ ∀ f, faults .stp f) ∧
    (∀ op, a.kind = .atomic op → performs .atomic) ∧ (a.kind = .hand → performs .hand) ∧
    (∀ p : ResPort, a.kind = .fetchAdd → a.port = some p →
      let old := leNat (s.readPlaceN pl 8)
      let clash := (s.bay b).gatedClash now (.bytes pl (List.replicate 8 0))
      (clash = false → ∃ t : State, exec (.accessPerform b id) s = .next t ∧ t.hostMem = s.hostMem ∧ (t.bay b).regs = (s.bay b).regs ∧
        (t.bay b).inflight = (delivered (s.bay b) a p true a.due (BitVec.ofNat 2048 old)).inflight ∧
        t.ring = (s.writePlace pl (leBytes 8 (old + (a.data.setWidth 64).toNat))).ring ∧
        t.lpddr = (s.writePlace pl (leBytes 8 (old + (a.data.setWidth 64).toNat))).lpddr ∧
        (pl, 8) ∈ (t.bay b).fetched ∧ ∀ b' : BayId, b' ≠ b → t.bay b' = s.bay b') ∧
      (clash = true → ∃ t : State, exec (.accessPerform b id) s = .next t ∧ SameMemory s t ∧ (t.bay b).inflight = (s.bay b).inflight ∧
        ((s.bay b).pending = none → (t.bay b).pending.map (fun p => (p.fault.cause, p.fault.info)) = some (.writeCollision, a.addr))))

/-! ## Jigs, pegs and gates -/

/-- R80, R82, R232, R375, R376, R407: a JIG whose turn has come takes the lowest free micro-PC and merges from the cycle after; a jig
that is done frees its micro-PC and produces its peg; PEGCLR clears the pegs that it names at the end of its cycle. At the end of a cycle
consumed pegs fall, produced ones rise, then cleared ones fall, then a PEGCLR's own rises. -/
def Obligations.JigsAndPegs : Prop :=
  (∀ (b : BayId) (s : State) (c : Cmd) (rest : List Cmd) (j : Fin 2), Begins s b .jig c rest →
    (s.bay b).jigs.get j = none → (∀ i : Fin 2, i < j → (s.bay b).jigs.get i ≠ none) →
    let w := c.word.toNat
    ∃ r : JigRun, exec (.jigStart b) s = .next (s.onBay b (fun x =>
        { x with queues := x.queues.set 6 rest (by decide), jigs := x.jigs.set j.val (some r) j.isLt })) ∧
      r.start = s.now b + 1 ∧ r.first = w / 2 ^ 25 % 2 ^ 12 ∧ r.len = w / 2 ^ 37 % 2 ^ 12 + 1 ∧ r.reps = w / 2 ^ 49 % 2 ^ 12 + 1 ∧
      r.mask.toNat = w / 2 ^ 61 % 2 ^ 8 ∧ r.next = r.first ∧ r.ppeg = c.ppeg ∧ r.suspended = false ∧ r.done = false) ∧
  (∀ (b : BayId) (j : Fin 2) (s : State) (r : JigRun), (s.bay b).jigs.get j = some r → r.done = true →
    exec (.jigEnd b j) s = .next (s.onBay b (fun x => { x with
      jigs := x.jigs.set j.val none j.isLt
      pegSet := if r.ppeg = 63 then x.pegSet else x.pegSet ++ [r.ppeg] }))) ∧
  (∀ (b : BayId) (s : State) (c : Cmd) (rest : List Cmd), Begins s b .peg c rest →
    ∃ t : State, exec (.pegclrBegin b) s = .next t ∧ OnlyBay b s t ∧ Begun s t b .peg c rest ∧
      (∀ k : Nat, k ∈ (t.bay b).pegClr ↔ (k ∈ (s.bay b).pegClr ∨
        (k < 64 ∧ c.word.getLsbD 25 = decide (32 ≤ k) ∧ c.word.getLsbD (26 + k % 32) = true))) ∧
      (t.bay b).pegLate = (if c.ppeg = 63 then (s.bay b).pegLate else (s.bay b).pegLate ++ [c.ppeg]) ∧
      (t.bay b).pegSet = (s.bay b).pegSet) ∧
  ∀ (b : Bay) (n : Nat), n < 64 →
    b.endPegs.1.pegs.getLsbD n =
      decide ((((b.pegs.getLsbD n = true ∧ n ∉ b.pegUse) ∨ n ∈ b.pegSet) ∧ n ∉ b.pegClr) ∨ n ∈ b.pegLate) ∧
    b.endPegs.1.pegUse = [] ∧ b.endPegs.1.pegSet = [] ∧ b.endPegs.1.pegClr = [] ∧ b.endPegs.1.pegLate = [] ∧
    b.endPegs.1.regs = b.regs

/-- R254 to R257, R289: a GATE begins and is applied at the tier latency: SET gives EXPECT its value and ARRIVED 0, ADD adds to ARRIVED,
which saturates; its peg is then produced. A gate whose ARRIVED has reached EXPECT completes: ARRIVED loses EXPECT, PHASE turns, and the
entries armed on it become eligible; a remainder that still reaches EXPECT completes again, every gate that is due in a pole cycle being an
event of that cycle. That gates are looked at in a phase of their own is the model's choice (log 5). -/
def Obligations.GateEvents : Prop :=
  (∀ (b : BayId) (s : State) (c : Cmd) (rest : List Cmd), Begins s b .gate c rest → c.op = 280 → (s.partAt b).held = false →
    regionAt (s.partAt b) (c.a0.toNat % 2 ^ 64) = none →
    ∃ t : State, exec (.gateBegin b) s = .next t ∧ OnlyBay b s t ∧ Begun s t b .gate c rest ∧
      (t.bay b).gates = (s.bay b).gates ++ [⟨(s.bay b).nextId, c, s.poleTime b + s.vaLatency b c.a0⟩]) ∧
  (∀ (b : BayId) (id : Nat) (s : State) (q : PartId) (g : GateRun) (pl : Place),
    (s.bay b).gates.find? (fun x => decide (x.id = id)) = some g → s.partOf b = some q → g.due ≤ s.poleTime b →
    (s.part q).held = false → gatePlace (s.part q) g.cmd.a0 = some pl →
    let old := s.gateAt pl
    let v := g.cmd.a1.toNat % 2 ^ 48
    ∃ t : State, ∃ new : BitVec 128, exec (.gatePerform b id) s = .next t ∧ WritesPlace s t pl (leBytes 16 new.toNat) ∧
      Produced s t b g.cmd ∧ (t.bay b).gates = (s.bay b).gates.filter (fun x => decide (x.id ≠ id)) ∧
      (t.bay b).regs = (s.bay b).regs ∧ g.cmd.a0 ∈ (t.part q).gatesDue ∧ (∀ b' : BayId, b' ≠ b → t.bay b' = s.bay b') ∧
      new.toNat / 2 ^ 96 = old.toNat / 2 ^ 96 ∧
      gateExpect new = (if g.cmd.word.toNat / 2 ^ 33 % 4 = 0 then v else gateExpect old) ∧
      gateArrived new = (if g.cmd.word.toNat / 2 ^ 33 % 4 = 0 then 0 else min (2 ^ 48 - 1) (gateArrived old + v))) ∧
  (∀ (q : PartId) (gate : Addr) (s : State), s.phase = 1 → (s.part q).half = 0 → gate ∈ (s.part q).gatesDue →
    Todo.event (.gateCompletion q gate) ∈ s.turn.todo) ∧
  ∀ (q : PartId) (gate : Addr) (s : State) (pl : Place), (s.part q).mode ≠ .preempted → gate ∈ (s.part q).gatesDue →
    gatePlace (s.part q) gate = some pl →
    let old := s.gateAt pl
    (gateExpect old ≠ 0 → gateExpect old ≤ gateArrived old →
      ∃ t : State, ∃ new : BitVec 128, exec (.gateCompletion q gate) s = .next t ∧ WritesPlace s t pl (leBytes 16 new.toNat) ∧
        t.bays = s.bays ∧ gateExpect new = gateExpect old ∧ gateArrived new = gateArrived old - gateExpect old ∧
        (∀ k : Nat, 96 ≤ k → new.getLsbD k = if k = 96 then !old.getLsbD 96 else old.getLsbD k) ∧
        (gateExpect new ≤ gateArrived new → gate ∈ (t.part q).gatesDue) ∧
        (gateArrived new < gateExpect new → (t.part q).gatesDue = (s.part q).gatesDue.erase gate) ∧
        (t.part q).entries.length = (s.part q).entries.length ∧
        ∀ (n : Nat) (e : Entry), (s.part q).entries[n]? = some e → ∃ v : List (Nat × Nat), (t.part q).entries[n]? = some
          (if e.gate = gate ∧ gate ≠ 0 ∧ e.template = false then { e with eligible := some (e.eligible.getD (s.clock, s.ptp)), cover := v } else e)) ∧
    (gateExpect old = 0 ∨ gateArrived old < gateExpect old →
      exec (.gateCompletion q gate) s = .next (s.onPart q (fun p => { p with gatesDue := p.gatesDue.erase gate })))

/-- R259, R262, R289, R409: a QPUT begins with its packet read; its claim at the home of the queue takes the slot that WIDX names and
advances WIDX, or takes none where the queue is full; it lands its claim, or all ones, in the scratchpad, performs the write of its
packet with SEQ in bytes 2 and 3, and produces its peg. A claim or a packet that would be the second write of the bay to a byte in a cycle
(R215) is a write collision, and is not made. -/
def Obligations.QueuePuts : Prop :=
  (∀ (b : BayId) (s : State) (c : Cmd) (rest : List Cmd) (x : Xlat), Begins s b .gate c rest → c.op = 281 →
    (s.partAt b).held = false → qputVaChk (s.partAt b) c.a0 = .ok x → inQueue (s.partAt b) c.a0 = true →
    let now := s.poleTime b
    let lat := tierLatency b x.raw
    ∃ t : State, exec (.gateBegin b) s = .next t ∧ SameMemory s t ∧ Begun s t b .gate c rest ∧
      (t.bay b).qputs = (s.bay b).qputs ++ [⟨(s.bay b).nextId, c, now + lat, now + 2 * lat, x.place, x.entry,
        Mem.readN (s.bay b).scratch c.qpkt 64, none, 0⟩]) ∧
  ∀ (b : BayId) (id : Nat) (s : State) (g : QputRun), (s.bay b).qputs.find? (fun x => decide (x.id = id)) = some g →
    (s.partAt b).held = false →
    (g.claimDue ≤ s.poleTime b → g.claim = none → (∀ c t x, g.place ≠ .chip c t x) →
      let h := s.headerAt g.place
      let free := hdrWidx h < hdrRidx h + 2 ^ hdrLog2n h
      let meets := (s.bay b).gatedClash (s.poleTime b) (.bytes (g.place.add 8) (List.replicate 8 0))
      (meets = true → exec (.qputClaim b id) s = .next ((s.onBay b (fun x => { x with
        qputs := x.qputs.filter (fun y => decide (y.id ≠ id))
        pegSet := if g.cmd.ppeg = 63 then x.pegSet else x.pegSet ++ [g.cmd.ppeg] })).strayFault b .writeCollision
          g.cmd.a0)) ∧
      (meets = false → ∃ t : State, exec (.qputClaim b id) s = .next t ∧
        (free → WritesPlace s t (g.place.add 8) (leBytes 8 (hdrWidx h + 1))) ∧
        (¬ free → t.ring = s.ring ∧ t.lpddr = s.lpddr ∧ t.hostMem = s.hostMem) ∧
        (t.bay b).qputs = (s.bay b).qputs.map (fun y => if y.id = g.id then
          { y with claim := some (if free then some (hdrWidx h) else none), header := h } else y) ∧
        (t.bay b).regs = (s.bay b).regs ∧ ∀ b' : BayId, b' ≠ b → t.bay b' = s.bay b')) ∧
    ∀ r : Option Nat, g.landDue ≤ s.poleTime b → g.claim = some r → (s.bay b).scratch.wf = true →
      (∀ k < 8, (0, g.cmd.qres + k) ∉ (s.bay b).wrote) → (s.bay b).linesNow < 256 →
      let landed (t : State) : Prop := exec (.qputLanding b id) s = .next t ∧ OnlyOwn b s t ∧
        Stored (s.bay b).scratch (t.bay b).scratch g.cmd.qres (leBytes 8 (r.getD (2 ^ 64 - 1))) ∧
        (t.bay b).qputs = (s.bay b).qputs.filter (fun y => decide (y.id ≠ id)) ∧ Produced s t b g.cmd ∧
        (t.bay b).regs = (s.bay b).regs
      (r = none → ∃ t : State, landed t ∧ (t.bay b).gbuf = (s.bay b).gbuf) ∧
      ∀ (n : Nat) (x : Xlat), r = some n → translate (s.partAt b) (g.slotVa n) ⟨false, true, false⟩ false = .ok x →
        let packet : GEffect := .bytes x.place (g.packet.take 2 ++ leBytes 2 (n % 65536) ++ g.packet.drop 4)
        ((s.bay b).gatedClash (s.poleTime b) packet = false →
          ∃ t : State, landed t ∧ (t.bay b).pending = (s.bay b).pending ∧ (t.bay b).gbuf = (s.bay b).gbuf ++
            [⟨g.id, g.slotVa n, 64, x.entry, some (s.poleTime b), g.cmd.win, packet, s.seenBy b.val, 0, true⟩]) ∧
        ((s.bay b).gatedClash (s.poleTime b) packet = true →
          ∃ t : State, landed t ∧ (t.bay b).gbuf = (s.bay b).gbuf ∧
            ((s.bay b).pending = none → (t.bay b).pending = some ⟨⟨.writeCollision, g.slotVa n, 0, false⟩, none, none, none⟩))

/-! ## Frames, releases and tasks -/

/-- R30, R35, R37 to R40, R49, R62, R299, R314, R337, R467: plan frame 0 starts once the instant of EPOCH has come, as PTP time gave it at the
load, a later frame at the end of the one before, an idle frame or pod time delaying it. An entry whose tick this is enters its bay's run queue,
and holds the partition where its bay runs a task. An idle bay starts the head of its run queue, its registers and ports cleared, g1 to g8 the
arguments. A retired bay is idle when its commands have completed. A pod plan waits until the tables of its chips are here and their yards have
passed the pod-wide checks. -/
def Obligations.Frames : Prop :=
  (∀ (q : PartId) (s : State),
    let p := s.part q
    let starts (f : Nat) : Prop := ∃ t : State, exec (.frameStart q) s = .next t ∧ (t.part q).framec = f ∧ (t.part q).polec = 0 ∧
      (t.part q).starting = false ∧ t.clock = s.clock ∧ t.ptp = s.ptp
    let loaded : Prop := p.awaiting = [] ∧ ∀ x ∈ p.tables, x.1 ∈ p.passed
    (p.mode = .waiting → loaded → 0 ≤ p.podCycle s.clock → p.podReady s.clock 0 = true → starts 0) ∧
    (p.mode = .waiting → (¬ loaded ∨ p.podCycle s.clock < 0 ∨ p.podReady s.clock 0 = false) →
      exec (.frameStart q) s = .next s) ∧
    (p.mode = .running → p.starting = true → p.stall = 0 → p.held = false → p.bringing = [] →
      (p.idleDue = false → p.podReady s.clock (p.framec + 1) = true → starts (p.framec + 1)) ∧
      (p.idleDue = true → ∃ t : State, exec (.frameStart q) s = .next t ∧ OnlyPart q s t ∧
        (t.part q).mode = .idleFrame (2 ^ p.hdr.fexp * p.k) ∧ (t.part q).framec = p.framec) ∧
      (p.idleDue = false → p.podReady s.clock (p.framec + 1) = false → ∃ t : State, exec (.frameStart q) s = .next t ∧
        OnlyPart q s t ∧ (t.part q).mode = .podWait ∧ (t.part q).framec = p.framec)) ∧
    (p.mode = .podWait → p.podReady s.clock (p.framec + 1) = true → starts (p.framec + 1))) ∧
  (∀ (b : BayId) (k : ReleaseKind) (idx : Nat) (s : State) (q : PartId) (r : Release), s.partOf b = some q →
    s.releaseNow (s.part q) b k idx = some r →
    (∀ o ∈ (s.bay b).runq, o.kind ≠ r.kind ∨ o.frame ≠ r.frame ∨ o.offset ≠ r.offset ∨ o.order ≠ r.order) →
    r.kind = k ∧ r.frame = (s.part q).framec ∧ r.offset = (s.part q).polec ∧
    ∃ t : State, ∃ late : Option Stop, exec (.storyRelease b k idx) s = .next t ∧ SameMemory s t ∧
      (t.bay b).runq = (s.bay b).runq ++ [{ r with late := late }] ∧ (t.bay b).regs = (s.bay b).regs ∧
      (∀ b' : BayId, b' ≠ b → t.bay b' = s.bay b') ∧
      (t.part q).holding = (if (s.bay b).mode = .running ∧ k ≠ .spawned then (s.part q).holding ++ [b] else (s.part q).holding)) ∧
  (∀ (b : BayId) (s : State) (q : PartId) (r : Release) (e : Entry), s.partOf b = some q → headOf (s.bay b).runq = some r →
    (s.part q).entryOf b.val r.index = some e → (s.bay b).mode = .idle → (s.part q).poleRuns = true →
    ∃ t : State, exec (.taskStart b) s = .next t ∧ SameMemory s t ∧ (∀ b' : BayId, b' ≠ b → t.bay b' = s.bay b') ∧
      (t.bay b).mode = .running ∧ (t.bay b).pc = e.code ∧
      (t.bay b).task = some ⟨e.task, e.index, e.gang, e.jmask, decide (r.kind = .spawned)⟩ ∧
      (t.bay b).runq = (s.bay b).runq.erase r ∧ (t.bay b).ops = .replicate 25 0 ∧ (t.bay b).res = .replicate 23 0 ∧
      (t.bay b).cls = 0 ∧ (t.bay b).sc = (s.bay b).sc ∧ (t.bay b).fmt = (s.bay b).fmt ∧
      (∀ n : Fin 64, (t.bay b).regs.g.get n = if 1 ≤ n.val ∧ n.val ≤ 8 then r.args.getD (n.val - 1) 0 else 0) ∧
      (∀ n : Fin 16, (t.bay b).regs.a.get n = 0) ∧ (∀ n : Fin 32, (t.bay b).regs.v.get n = 0) ∧
      (∀ n : Fin 7, (t.bay b).regs.p.get n = false) ∧ (t.bay b).regs.lk = 0 ∧ (t.bay b).regs.lim = 0) ∧
  ∀ (b : BayId) (s : State), (s.bay b).mode = .retiring → (s.bay b).busyCommands = false → s.scarfBusy b = false →
    exec (.retiredBayIdle b) s = .next (s.onBay b (fun x => { x with mode := .idle }))

/-! ## Refresh, pages, rollback and stops -/

/-- R195, R196, R203, R210, R288, R289, R291 to R293, R468: refresh commands come from the slot table while the pole clock runs, and every
2,340 clock cycles while it does not; the yard copies a page into free local frames through the 0xF0 slots, and copies it again until a
frame passes without a write; a page that is brought is present with the bytes of its backing location. A fault handled by rollback
stalls the partition for twice 64 cycles and those since the witness, on the bay's own clock, plus 16; a schedule error then enters the
trap with CLASS 2 and REPEATED; a translation fault asks for its page; reruns of a hardware fault that agree leave a transient, and
those that disagree retire the physical bay, the bay back at its witness. A bent in self-refresh takes no commands. The model's choices:
the net effect of a rollback stands for its reruns (log 12), whose outcome for a fault of the hardware is told by the input (log 66), and
transfers of the 0xF0 slots go in the order in which they were asked for (log 16). -/
def Obligations.PagesAndRollback : Prop :=
  (∀ (ch : Fin 96) (s : State) (q : PartId), s.partOfChannel ch = some q →
    let p := s.part q
    let refreshed : State := { s with refresh := s.refresh.set ch.val s.clock ch.isLt }
    (p.poleRuns = true → p.polec % 2 = 0 → refreshStart p ch.val (p.polec / 2) = true →
      exec (.refreshCommand ch) s = .next refreshed) ∧
    (p.poleRuns = false → (s.bents.get (Fin.ofNat 8 (ch.val / 12))).retired = false → s.refresh.get ch + 2340 ≤ s.clock →
      exec (.holdRefresh ch) s = .next refreshed) ∧
    ((s.bents.get (Fin.ofNat 8 (ch.val / 12))).retired = true → exec (.holdRefresh ch) s = .next s)) ∧
  (∀ (q : PartId) (x : Nat) (s : State) (e : TTEntry), (s.part q).tt[x]? = some e →
    let p := s.part q
    let waits (c : CopyRun) : Burst := ⟨0xF0, some (.lpddr c.bent (c.frame * 65536)), teSize e.raw, 0, .copy x, s.clock⟩
    (∀ c : CopyRun, p.copies.find? (fun c => decide (c.entry = x)) = some c →
      (c.moving = true → exec (.migrationCopy q x) s = .next s) ∧
      (c.moving = false → ∃ t : State, exec (.migrationCopy q x) s = .next t ∧ OnlyPart q s t ∧
        (t.part q).traffic = p.traffic ++ [waits c] ∧
        (t.part q).copies = p.copies.map (fun d => if d.entry = x then { d with moving := true } else d)) ∧
      let t := s.endCopy q x
      t.bays = s.bays ∧ t.ring = s.ring ∧ t.hostMem = s.hostMem ∧ (∀ q' : PartId, q' ≠ q → t.part q' = s.part q') ∧
        (t.part q).copies = p.copies.map (fun d =>
          if d.entry = x then { d with done := decide (d.quiet < p.framec), moving := false } else d) ∧
        ∀ a : Nat, teTier e.raw = 6 → s.hostAddr (tePair e.raw) (teRemote e.raw) (teSize e.raw) = some a →
          ∀ k < teSize e.raw, Mem.read (t.lpddr.get c.bent) (c.frame * 65536 + k) = Mem.read s.hostMem (a + k)) ∧
    (∀ (d : Nat × Migration) (f : Fin 8 × Nat), p.copies.find? (fun c => decide (c.entry = x)) = none →
      p.decisions.find? (fun d => decide (d.1 = x)) = some d → s.findFrames p (teSize e.raw / 65536) = some f →
      let c : CopyRun := ⟨x, d.2, f.1, f.2, p.framec + 1, false, true⟩
      ∃ t : State, exec (.migrationCopy q x) s = .next t ∧ OnlyPart q s t ∧ (t.part q).copies = p.copies ++ [c] ∧
        (t.part q).traffic = p.traffic ++ [waits c]) ∧
    ((∃ y ∈ p.bringing, y.1 = x) → ∀ cells : List (Nat × Byte),
      ∃ t : State, exec (.pageBring q x (some cells)) s = .next t ∧ t.bays = s.bays ∧ (teTier e.raw ≠ 6 → t.hostMem = s.hostMem) ∧
        (t.part q).bringing = p.bringing.filter (fun z => decide (z.1 ≠ x)) ∧
        (∃ e' : TTEntry, (t.part q).tt[x]? = some e' ∧ tePresent e'.raw = true) ∧
        (∀ y : Nat, y ≠ x → (t.part q).tt[y]? = p.tt[y]?) ∧
        ∀ (b : Fin 8) (a : Nat), teTier e.raw ≠ 6 → teTier e.raw ≠ 7 → tePlace e.raw 0 = .lpddr b a → cells = [] → t.ring = s.ring ∧
          (∀ k < teSize e.raw, Mem.read (t.lpddr.get b) (a + k) = Mem.read p.backing (x * 2 ^ 36 + k)) ∧
          ∀ y : Nat, y < a ∨ a + teSize e.raw ≤ y → Mem.read (t.lpddr.get b) y = Mem.read (s.lpddr.get b) y)) ∧
  ∀ (b : BayId) (s : State) (q : PartId), s.partOf b = some q →
    let w := (s.bay b).window
    let stall := 2 * (64 + ((s.poleTime b : Int) + (s.bay b).lead - (w.openT + w.openLead)).toNat) + 16
    (s.part q).mode = .running → (s.part q).restartsOf b = none →
    (∀ (p : Pending) (code : Nat), (s.bay b).pending = some p → (∀ x ∈ (s.part q).bringing, x.2.1 ≠ b) → p.hw = none →
      p.code = some code →
      (p.fault.cause ≠ .translation → p.retry = none → (s.bay b).mode = .running → (s.bay b).handlerActive = false →
        (s.bay b).padE = true →
        ∃ t : State, exec (.rollback b none) s = .next t ∧ SameMemory s t ∧ (∀ b' : BayId, b' ≠ b → t.bay b' = s.bay b') ∧
          (t.bay b).pc = 0 ∧ (t.bay b).tbundle = BitVec.ofNat 64 code ∧ (t.bay b).tslot = p.fault.tslot ∧
          (t.bay b).tcause.toNat = p.fault.info.toNat % 2 ^ 32 * 2 ^ 32 + causeCode p.fault.cause * 2 ^ 8 + 2 ^ 3 + 2 ∧
          (t.bay b).pending = none ∧ (t.bay b).regs = (s.bay b).regs ∧ (t.part q).stall = max (s.part q).stall stall ∧
          t.yard.errlog.length = s.yard.errlog.length + 1) ∧
      ∀ (x : Nat) (raw : BitVec 128) (e : TTEntry), p.fault.cause = .translation →
        findEntry (s.part q).tt (p.fault.info.toNat % 2 ^ 64) = some (x, raw) → (s.part q).tt[x]? = some e → e.backed = true →
        ∃ t : State, exec (.rollback b none) s = .next t ∧ OnlyPart q s t ∧
          (t.part q).bringing = (s.part q).bringing ++ [(x, b, 0)]) ∧
    (∀ (h : HwFault) (r : RerunEnd × RerunEnd), (s.bay b).pending = none → h.cause = .baySram → h.reruns = [r] → rerunPage r = none →
      (rerunsAgree r = true → r.2.fault = none → signature r.1.escapes = signature h.escapes →
        signature r.2.escapes = signature h.escapes →
        ∃ t : State, exec (.rollback b (some h)) s = .next t ∧ t.bays = s.bays ∧ SameMemory s t ∧
          (t.part q).stall = max (s.part q).stall stall ∧
          t.yard.errlog = s.yard.errlog ++ [.fault (faultRecord s b 5 (s.bay b).cls 0x21 (h.info.setWidth 72))]) ∧
      (rerunsAgree r = false → (s.part q).fab.isSome = true →
        ∃ t : State, exec (.rollback b (some h)) s = .next t ∧ (t.part q).mode = .stopped ∧ (t.part q).remapDue = true ∧
          (t.phys.get (s.physAt b)).healthy = false ∧ t.bay b = (s.bay b).rolledBack ∧
          t.yard.errlog = s.yard.errlog ++ [.fault (faultRecord s b 9 (s.bay b).cls 0x21 (h.info.setWidth 72))])) ∧
    ∀ (m : Witness) (k : BayStore) (off : Nat) (data : List Byte), w.witness = some m → w.undo = [] → ((s.bay b).store k).wf = true →
      let y := ((s.bay b).writeStore k off data).rolledBack
      y.regs = m.regs ∧ y.acc = m.acc ∧ y.queues = m.queues ∧ y.jigs = m.jigs ∧ y.tags = m.tags ∧
        (∀ g ∈ y.gbuf, g.win ≠ w.num) ∧ ∀ (k' : BayStore) (a : Nat), Mem.read (y.store k') a = Mem.read ((s.bay b).store k') a

/-- R58 to R60, R303, R307, R325, R327: at a pre-emption point a partition that is to be pre-empted, or has a checkpoint due, stops with
its bays, ring SRAM and control state saved; a pre-empted one resumes at a frame start with what was saved, its code from its image, when
its bents are free and healthy. A queued
plan is dispatched. When every chip has stopped for a checkpoint the dirty map is cleared and each goes on at the next common frame
start. Without a chip to take a lost one every partition of a pod plan stops; else it goes back to its checkpoint, its routers at the rounds
that they had come to. A plan that may not be sliced does not go on where its bents are. The model's choices: bays freed by a pre-emption
stand as after reset (logs 54, 85), the whole bay is saved and restored (log 65), a pre-empted partition goes on at a nominal frame start
and a checkpointed one at a common one (log 86), and recovery as the input tells it (log 70). -/
def Obligations.Stops : Prop :=
  (∀ (q : PartId) (s : State),
    let p := s.part q
    (p.preempt = true → p.mode = .running → s.preemptPoint q = true →
      ∃ t : State, exec (.preemption q) s = .next t ∧ t.ring = s.ring ∧ t.lpddr = s.lpddr ∧ t.hostMem = s.hostMem ∧
        (t.part q).mode = .preempted ∧ (t.part q).preempt = false ∧ (t.part q).saved = p.bays.map (fun b => ⟨b.val, s.bay b⟩) ∧
        (t.part q).savedRing = s.saveRing q ∧ (t.part q).framec = p.framec ∧ (t.part q).polec = p.polec ∧
        (∀ q' : PartId, q' ≠ q → t.part q' = s.part q') ∧
        ∀ b : BayId, t.bay b = if p.hdr.bents.getLsbD (b.val / 24) = true then .reset else s.bay b) ∧
    (p.mode = .preempted → s.holders p.hdr.bents = [] → s.bentsHealthy p.hdr.bents = true → s.outranked p = false →
      p.podCycle (s.clock + 1) % (p.frameLen * s.rateOf p : Nat) = 0 →
      (s.rateOk p = false → exec (.preemptionResume q) s = .next (s.stopFor q 53)) ∧
      (s.rateOk p = true → ∃ t : State, exec (.preemptionResume q) s = .next t ∧ (t.part q).k = s.rateOf p ∧
        (t.part q).slips = p.slips ++ p.stop.toList.map (fun x => x.ended (s.clock + 1)) ++
          (if s.rateOf p = p.k then [] else [⟨p.framec, p.polec, 0xFF, 0, 4, false, s.rateOf p, s.ptp⟩]) ∧ t.lpddr = s.lpddr ∧ t.hostMem = s.hostMem ∧
        (t.part q).mode = .running ∧ (t.part q).framec = p.framec ∧ (t.part q).polec = p.polec ∧ (t.part q).saved = [] ∧
        ∀ f : BayId → Bay, p.saved = p.bays.map (fun b => ⟨b.val, f b⟩) → ∀ b : BayId, b ∈ p.bays →
          t.bay b = { f b with imem := (t.bay b).imem, jigmem := (t.bay b).jigmem }))) ∧
  (∀ s : State, ∃ t : State, exec .checkpoint s = .next t ∧ t.ring = s.ring ∧ t.hostMem = s.hostMem ∧ t.bays = s.bays ∧
    (∀ (x : Fin 8) (a : Nat), a < (bentFrames - reservedFrames) * 65536 → Mem.read (t.lpddr.get x) a = Mem.read (s.lpddr.get x) a) ∧
    ∀ q : PartId,
      ((s.part q).ckDue = true → (s.part q).mode = .running → s.preemptPoint q = true →
        (t.part q).mode = .checkpointed ∧ (t.part q).checkpoint = some ⟨s.snap q, s.saveBays q, s.saveRing q⟩ ∧
        (t.part q).ckParity = true ∧ ((s.part q).ckArea ≠ [] → (t.part q).ckArea = (s.part q).ckArea)) ∧
      ((s.part q).ckDue = false ∨ (s.part q).mode ≠ .running → t.part q = s.part q)) ∧
  (∀ s : State, s.allStopped = true → (∃ q : PartId, (s.part q).mode = .checkpointed) →
    ∃ t : State, exec .checkpointResume s = .next t ∧ SameMemory s t ∧ t.bays = s.bays ∧
      ((∃ q : PartId, (s.part q).ckParity = true) → t.dirty = []) ∧
      ((∀ q : PartId, (s.part q).ckParity = false) → t.dirty = s.dirty) ∧
      (∀ q : PartId, t.part q = if (s.part q).mode = .checkpointed then { s.part q with ckGo := true, ckParity := false } else s.part q)) ∧
  (∀ (s : State) (q : PartId), (s.part q).mode = .checkpointed → (s.part q).ckGo = true →
    let p := s.part q
    let t := s.resumePart q
    (p.podCycle (s.clock + 1) % (p.frameLen * s.rateOf p : Nat) = 0 → OnlyPart q s t ∧ (t.part q).mode = .running ∧
      (t.part q).ckDue = false ∧ (t.part q).framec = p.framec ∧ (t.part q).polec = p.polec ∧
      ∀ x : Stop, p.stop = some x → (t.part q).slips = p.slips ++ [x.ended (s.clock + 1)]) ∧
    (p.podCycle (s.clock + 1) % (p.frameLen * s.rateOf p : Nat) ≠ 0 → t = s)) ∧
  (∀ (s : State) (w : WaitingPlan), s.nextPlan = some w →
    let s1 : State := { s with yard := { s.yard with planq := s.yard.planq.erase w } }
    (s1.forming w.image = .now → exec .planDispatch s = .next (match s1.loadPlan w.image with
      | .error rule => (s1.refusePod w.image).log (.note rule 0)
      | .ok (_, t) => t)) ∧
    ∀ rule : Nat, s1.forming w.image = .refused rule → exec .planDispatch s = .next (s1.log (.note rule 0))) ∧
  ∀ (r : Recovery) (s : State) (f : FabHeader), s.podHeader = some f →
    (r.lost < f.nlchip → s.takerOf f r.lost = none →
      ∃ t : State, exec (.podRecovery r) s = .next t ∧ t.bays = s.bays ∧ SameMemory s t ∧
        ∀ q : PartId, t.part q = if (s.part q).fab.isSome = true then { s.part q with mode := .stopped } else s.part q) ∧
    ∀ (q : PartId) (k : Checkpoint), f.nlchip ≤ r.lost → (s.part q).fab = some f → (∀ q' : PartId, q' ≠ q → (s.part q').fab = none) →
      (s.part q).mode ≠ .unformed → (s.part q).mode ≠ .preempted → s.rateOk (s.part q) = true → (s.part q).checkpoint = some k →
      let n := k.snap
      ∃ t : State, exec (.podRecovery r) s = .next t ∧ t.arrivals = [] ∧ t.lpddr = s.lpddr ∧ t.hostMem = s.hostMem ∧
        (∀ q' : PartId, q' ≠ q → t.part q' = s.part q') ∧ (t.part q).mode = .checkpointed ∧ (t.part q).framec = n.framec ∧
        (t.part q).polec = n.polec ∧ (t.part q).entries = n.entries ∧ (t.part q).wheel = n.wheel ∧ (t.part q).regions = n.regions ∧
        (t.part q).k = s.rateOf (s.part q) ∧
        (s.rateOf (s.part q) ≠ (s.part q).k →
          (⟨n.framec, n.polec, 0xFF, 0, 4, false, s.rateOf (s.part q), s.ptp⟩ : Slip) ∈ (t.part q).slips) ∧
        ∀ d ∈ (s.part q).rds, (t.router.get d.slot).round = assocGet 0 n.rounds d.slot.val

/-! ## The matrix unit, walkers and transfers -/

/-- R176, R179, R180, R181, R395, R397, R398: a nest begins with its queue head, makes its reads cycle by cycle, binds the products of a
step for their addition 140 cycles on, and gives way after its last step. An addition adds to every sum of its handle the products over
K, and nothing else. A drain lands its rows in the scratchpad or in operand SRAM, whose banks take their writes at the end of the cycle (R173),
empties its handle if it releases it, then writes its scale register, and of a Q4 output the scale lines; MXCLR empties its handle. -/
def Obligations.Matrix : Prop :=
  (∀ (b : BayId) (s : State) (c : Cmd) (rest : List Cmd), Begins s b .mx c rest → c.op = 256 → (s.bay b).nests = [] →
    (∀ d ∈ (s.bay b).drains, d.begun + 127 < s.now b ∨ d.handle ∉ c.handlesOf) →
    ∃ t : State, exec (.mxgoBegin b) s = .next t ∧ OnlyOwn b s t ∧ Begun s t b .mx c rest ∧ bayMems (t.bay b) = bayMems (s.bay b) ∧
      (t.bay b).handles = (s.bay b).handles ∧
      (1 < c.tc → ∃ r : NestRun, (t.bay b).nests = [r] ∧ r.cmd = c ∧ r.begun = s.now b)) ∧
  (∀ (b : BayId) (s : State) (r : NestRun), (s.bay b).nests.head? = some r → r.begun ≤ s.now b →
    let el := s.now b - r.begun
    ∃ t : State, exec (.mxgoBegin b) s = .next t ∧ OnlyOwn b s t ∧ bayMems (t.bay b) = bayMems (s.bay b) ∧
      (t.bay b).handles = (s.bay b).handles ∧ (t.bay b).queues = (s.bay b).queues ∧
      (∃ l : List MxStep, (t.bay b).adds = (s.bay b).adds ++ l ∧ l.length ≤ 1 ∧ (el % r.cmd.tc = 0 → l.length = 1) ∧
        ∀ st ∈ l, st.due = s.now b + 140 ∧ st.cmd = r.cmd.id ∧ st.first = decide (el % r.cmd.tc = 0) ∧ st.start = r.cmd.start ∧
          st.len = 2 ^ r.cmd.logLen ∧ st.fa = r.cmd.fmt false ∧ st.fb = r.cmd.fmt true) ∧
      (el % r.cmd.tc + 1 < r.cmd.tc → ∃ r' : NestRun, (t.bay b).nests = [r'] ∧ r'.cmd = r.cmd ∧ r'.begun = r.begun) ∧
      (el % r.cmd.tc + 1 = r.cmd.tc → el / r.cmd.tc + 1 = r.cmd.steps → (t.bay b).nests = [] ∧
        (t.bay b).tails = (s.bay b).tails ++ [⟨r.cmd, s.now b + 140⟩])) ∧
  (∀ (b : BayId) (s : State) (st : MxStep), (s.bay b).adds.filter (fun x => decide (x.due ≤ s.now b)) = [st] → st.handle < 16 →
    st.fault = none → st.void = false →
    expsDiffer ((s.bay b).handle st.handle).ba (stepExps st.fa st.sa) = false →
    expsDiffer ((s.bay b).handle st.handle).bb (stepExps st.fb st.sb) = false →
    (st.handle ∈ (s.bay b).window.handles ∨ (s.bay b).window.handles.length < if s.sliced b = true then 2 else 5) →
    (∀ p ∈ st.rows, p.1.length = 128 ∧ p.2.length = 128) →
    ∃ t : State, exec (.mxAddition b) s = .next t ∧ OnlyBay b s t ∧
      (t.bay b).adds = (s.bay b).adds.filter (fun x => decide (s.now b < x.due)) ∧ bayMems (t.bay b) = bayMems (s.bay b) ∧
      (t.bay b).regs = (s.bay b).regs ∧ (∀ h : Nat, h ≠ st.handle → (t.bay b).handle h = (s.bay b).handle h) ∧
      ((t.bay b).handle st.handle).pair = some (st.fa, st.fb) ∧
      ∀ r < 128, ∀ q < 128, ((t.bay b).handle st.handle).at' r q = ((s.bay b).handle st.handle).at' r q +
        (st.rows.map (fun p => p.1.getD r 0 * p.2.getD q 0)).sum) ∧
  (∀ (b : BayId) (s : State),
    ∃ t : State, exec (.mxgoComplete b) s = .next t ∧ OnlyBay b s t ∧
      (t.bay b).tails = (s.bay b).tails.filter (fun x => decide (s.now b < x.completes)) ∧
      (t.bay b).pegSet = (s.bay b).pegSet ++ (((s.bay b).tails.filter (fun x =>
        decide (x.completes ≤ s.now b) && decide (x.cmd.ppeg ≠ 63))).map (fun x => x.cmd.ppeg)) ∧
      (t.bay b).handles = (s.bay b).handles) ∧
  (∀ (b : BayId) (s : State) (c : Cmd) (rest : List Cmd), Begins s b .mx c rest → c.op = 257 →
    (s.bay b).owes c.handle (s.now b) = false →
    (∀ d ∈ (s.bay b).drains, d.begun + 127 < s.now b ∧ d.reg ≠ fmtScale c.fo) →
    (s.bay b).scaleBusy (fmtScale c.fo) (s.now b) = false →
    ∃ t : State, exec (.mxdrainBegin b) s = .next t ∧ OnlyBay b s t ∧ Begun s t b .mx c rest ∧
      (t.bay b).drains = (s.bay b).drains ++ [drainStart s b c] ∧ bayMems (t.bay b) = bayMems (s.bay b) ∧
      (t.bay b).handles = (s.bay b).handles ∧ (t.bay b).sc = (s.bay b).sc) ∧
  (∀ (b : BayId) (s : State) (l l' : List DrainRun) (d : DrainRun), (s.bay b).drains = l ++ d :: l' →
    (∀ e ∈ l ++ l', e.rows.find? (fun p => decide (e.begun + p.1 + 2 = s.now b)) = none ∧
      (e.release = false ∨ s.now b ≠ e.begun + 127) ∧ s.now b < e.begun + 130) →
    (∀ (r : Nat) (runs : List (Nat × List Byte)), d.rows.find? (fun p => decide (d.begun + p.1 + 2 = s.now b)) = some (r, runs) →
      (d.release = false ∨ s.now b ≠ d.begun + 127) → MayLand s b d.store runs false →
      ∃ t : State, exec (.drainRowLanding b) s = .next t ∧ Landed s t b d.store runs false ∧
        (t.bay b).drains = (s.bay b).drains) ∧
    (d.rows.find? (fun p => decide (d.begun + p.1 + 2 = s.now b)) = none → d.release = true → s.now b = d.begun + 127 →
      d.handle < 16 → (d.handle ∈ (s.bay b).window.handles ∨
        (s.bay b).window.handles.length < if s.sliced b = true then 2 else 5) →
      ∃ t : State, exec (.drainRowLanding b) s = .next t ∧ OnlyBay b s t ∧ (t.bay b).handle d.handle = .empty ∧
        bayMems (t.bay b) = bayMems (s.bay b)) ∧
    (d.begun + 130 ≤ s.now b → (d.tail ≠ [] → MayLand s b d.store d.tail true) → d.reg < 256 →
      ∃ t : State, exec (.mxdrainComplete b) s = .next t ∧ (t.bay b).drains = l ++ l' ∧ Produced s t b d.cmd ∧
        (t.bay b).scAt d.reg = d.regAfter ∧ (∀ i : Nat, i ≠ d.reg → (t.bay b).scAt i = (s.bay b).scAt i) ∧
        (d.tail = [] → OnlyBay b s t ∧ bayMems (t.bay b) = bayMems (s.bay b)) ∧
        (d.tail ≠ [] → Landed s t b d.store d.tail true))) ∧
  (∀ (x : Bay) (bank : Nat), x.lost = [] → (∀ k : BayStore, (x.store k).wf = true) →
    (∀ k : BayStore, StoredRuns (x.store k) ((x.makeBankWrites bank).store k)
      ((x.bankWrites.filter (fun w => decide (w.1 = k))).flatMap (fun w => w.2))) ∧
    (x.makeBankWrites bank).bankWrites = [] ∧ (x.makeBankWrites bank).regs = x.regs ∧
    (x.makeBankWrites bank).handles = x.handles) ∧
  ∀ (b : BayId) (s : State) (c : Cmd) (rest : List Cmd), Begins s b .mx c rest → c.op = 258 →
    (s.bay b).owes c.handle (s.now b) = false →
    (∀ d ∈ (s.bay b).drains, d.begun + 127 < s.now b) →
    (c.handle ∈ (s.bay b).window.handles ∨ (s.bay b).window.handles.length < if s.sliced b = true then 2 else 5) →
    ∃ t : State, exec (.mxclrBegin b) s = .next t ∧ OnlyBay b s t ∧ Begun s t b .mx c rest ∧ Produced s t b c ∧
      (t.bay b).handle c.handle = .empty ∧ (∀ h : Nat, h ≠ c.handle → (t.bay b).handle h = (s.bay b).handle h) ∧
      bayMems (t.bay b) = bayMems (s.bay b)

/-- R226, R241 to R249, R468: a walk begins with the trigger of its first unit, triggers a unit a cycle, reads units of a VA source at the latency
of their page, and lands each in its store, in the receivers of a WALKM, or as a gated write at its VA; each landing adds its bytes at the gate for
each receiver, and the last unit ends the walk and produces its peg. A unit of an asynchronous walk waits for its 0xF0 slots at both ends and
then lands; one that fails is logged. The model's choices: a walk that the region table forbids leaves its queue, moves nothing and produces no
peg (log 38), and the ends of a walk between stores of a bay run on that bay's own clock (log 25). -/
def Obligations.Walks : Prop :=
  (∀ (b : BayId) (k : Fin 2) (s : State) (c : Cmd) (rest : List Cmd) (l : List WalkRun),
    Begins s b (if k = 0 then .wk0 else .wk1) c rest → (s.bay b).walksOf k = l →
    (∀ a ∈ l, a.next = a.total ∧ a.begun + a.total ≤ s.walkClock b a.cmd ∧ a.cmd.id ≠ c.id) →
    (c.bothLocal = true ∨ (s.partAt b).held = false) →
    (c.forbidden (s.partAt b) b = none → c.isAsync (s.partAt b) = false → MayTrigger s b c 0 →
      ∃ t : State, exec (.walkBegin b k) s = .next t ∧ Begun s t b (if k = 0 then .wk0 else .wk1) c rest ∧
        Triggered s t b k c 0 (fun r => l ++ [⟨c, s.walkClock b c, c.units, 1, [r], 0⟩])) ∧
    ∀ va : Addr, c.forbidden (s.partAt b) b = some va → (s.bay b).pending = none →
      ∃ t : State, exec (.walkBegin b k) s = .next t ∧ OnlyBay b s t ∧ Begun s t b (if k = 0 then .wk0 else .wk1) c rest ∧
        (t.bay b).walksOf k = l ∧ (t.bay b).pegSet = (s.bay b).pegSet ∧ bayMems (t.bay b) = bayMems (s.bay b) ∧
        (t.bay b).pending.map (fun p => (p.fault.cause, p.fault.info)) = some (.region, va)) ∧
  (∀ (b : BayId) (k : Fin 2) (s : State) (l : List WalkRun) (w : WalkRun), (s.bay b).walksOf k = l ++ [w] →
    s.walkMoves b w.cmd = true → w.next < w.total → w.begun + w.next ≤ s.walkClock b w.cmd → MayTrigger s b w.cmd w.next →
    (∀ a ∈ l, a.next = a.total ∧ a.cmd.id ≠ w.cmd.id ∧ ∀ v ∈ a.units, v.reads (s.walkClock b a.cmd) = false) →
    (∀ v ∈ w.units, v.id ≠ (s.bay b).nextId ∧ v.reads (s.walkClock b w.cmd) = false) →
    ∃ t : State, exec (.walkUnitRead b k) s = .next t ∧ (t.bay b).queues = (s.bay b).queues ∧
      Triggered s t b k w.cmd w.next (fun r => l ++ [{ w with next := w.next + 1, units := w.units ++ [r] }])) ∧
  (∀ (b : BayId) (k : Fin 2) (s : State) (l l' : List WalkRun) (w : WalkRun) (us us' : List WalkUnit) (r : WalkUnit),
    SoleUnit (s.bay b) k l l' w us us' r → s.walkMoves b w.cmd = true →
    let c := w.cmd
    let u := c.wu r.i
    let clock := s.walkClock b c
    let va (d : Bool) : Addr := c.wva d u
    (∀ x : Xlat, (c.wend false).sp = 3 → 0 < c.live u → r.landDue = none → r.readDue ≤ clock →
      (∀ a ∈ l ++ w :: l', a.next = a.total ∨ s.walkClock b a.cmd < a.begun + a.next) →
      (∀ a ∈ l ++ l', ∀ v ∈ a.units, v.reads (s.walkClock b a.cmd) = false) → (∀ v ∈ us ++ us', v.reads clock = false) →
      unitVaChk s b false (va false) = .ok x → (∀ f e a, x.place ≠ .chip f e a) →
      ∃ t : State, exec (.walkUnitRead b k) s = .next t ∧ SameMemory s t ∧ (∀ b' : BayId, b' ≠ b → t.bay b' = s.bay b') ∧
        (t.bay b).regs = (s.bay b).regs ∧ (t.bay b).walksOf k = l ++ { w with units := us ++ { r with
          data := s.readAs b (s.poleTime b) x.place (c.live u) ++ List.replicate (c.writes u - c.live u) 0
          landDue := some (r.readDue + (if (c.wend true).sp = 3 then c.unitLat (s.partAt b) b true (va true)
            else if c.isM = true then 24 else 1)) } :: us' } :: l') ∧
    ∀ (due : Nat) (q : PartId), r.landDue = some due → due ≤ clock → s.partOf b = some q →
      (∀ a ∈ l ++ l', ∀ v ∈ a.units, ∀ d : Nat, v.landDue = some d → s.walkClock b a.cmd < d) →
      (∀ v ∈ us ++ us', ∀ d : Nat, v.landDue = some d → clock < d) →
      ((c.wend true).sp ≠ 3 → r.data ≠ [] →
        let st := spStore (c.wend true).sp
        let off := c.woff true u
        let ts := c.landsIn b u
        0 ≤ off → ts.Nodup → (∀ x ∈ ts, off + r.data.length ≤ s.storeSize x st ∧ MayLand s x st [(off.toNat, r.data)] false) →
        ∃ t : State, exec (.walkUnitLanding b k) s = .next t ∧ UnitOver (s.bay b) (t.bay b) k l l' w (us ++ us') ∧
          (∀ x ∈ ts, LandedIn (s.bay x) (t.bay x) st [(off.toNat, r.data)] false) ∧
          (b ∉ ts → bayMems (t.bay b) = bayMems (s.bay b) ∧ (t.bay b).regs = (s.bay b).regs) ∧
          (∀ x : BayId, x ≠ b → x ∉ ts → t.bay x = s.bay x) ∧ CountsAt s t q c.gva (ts.length * c.unit)) ∧
      ∀ x : Xlat, (c.wend true).sp = 3 → 0 < c.writes u → c.isM = false → unitVaChk s b true (va true) = .ok x →
        (s.bay b).gatedClash (s.poleTime b) (.bytes x.place r.data) = false →
        ∃ (t : State) (seen : List (Nat × Nat)) (tag : Nat), exec (.walkUnitLanding b k) s = .next t ∧
          UnitOver (s.bay b) (t.bay b) k l l' w (us ++ us') ∧ bayMems (t.bay b) = bayMems (s.bay b) ∧
          (t.bay b).regs = (s.bay b).regs ∧ (∀ b' : BayId, b' ≠ b → t.bay b' = s.bay b') ∧ CountsAt s t q c.gva c.unit ∧
          (t.bay b).gbuf = (s.bay b).gbuf ++
            [⟨r.id, va true, r.data.length, x.entry, some (s.poleTime b), r.win, .bytes x.place r.data, seen, tag, false⟩]) ∧
  ∀ (q : PartId) (walk i : Nat) (s : State) (w : AsyncWalk), (s.part q).mode ≠ .preempted →
    (s.part q).asyncs.find? (fun x => decide (x.id = walk)) = some w → i < w.total → i ∉ w.landed → i ∉ w.failed →
    let p := s.part q
    let b : BayId := Fin.ofNat 192 w.bay
    let c := w.cmd
    let u := c.wu i
    let atEnd (d : Bool) : List (Place × Nat) :=
      if (c.wend d).sp = 3 ∧ c.spanAt d u ≠ 0 then
        match findEntry p.tt ((c.wva d u).toNat % 2 ^ 64) with
        | some (_, e) => if teTier e ≤ 4 then [(tePlace e ((c.wva d u).toNat % 2 ^ 64 - teBase e), c.spanAt d u)] else []
        | none => []
      else []
    let places := atEnd false ++ atEnd true
    let fails (t : State) : Prop := (∀ v ∈ (t.part q).asyncs, v.id = walk → i ∈ v.failed) ∧
      (∃ l : List LogEntry, t.yard.errlog = s.yard.errlog ++ .note 248 walk :: l) ∧
      (c.outward p = false → SameMemory s t ∧ t.yard.errlog = s.yard.errlog ++ [.note 248 walk])
    (∃ t : State, exec (.asyncUnitLanding q walk i none) s = .next t ∧ fails t) ∧
    ∀ came : List Byte,
      let act : Traffic := .unit walk i came
      (∃ t : State, exec (.asyncUnitLanding q walk i (some came)) s = .next t ∧ OnlyPart q s t ∧ (t.part q).traffic = p.traffic ++
        places.dropLast.map (fun x => ⟨0xF0, some x.1, x.2, 0, .bulk, s.clock⟩) ++
        [⟨0xF0, places.getLast?.map (fun x => x.1), (places.getLast?.map (fun x => x.2)).getD 0, 0, act, s.clock⟩]) ∧
      ∀ x : Burst, x.act = act →
        let t := s.performBurst q x
        (s.asyncSource p b c u came = none → fails t) ∧
        ∀ l : List Byte, s.asyncSource p b c u came = some l → l.length = c.live u →
          let data := l ++ List.replicate (c.writes u - c.live u) 0
          let ts := c.landsIn b u
          let st := spStore (c.wend true).sp
          let off := c.woff true u
          let took : Prop := ∀ v ∈ (t.part q).asyncs, v.id = walk → i ∈ v.landed
          ((c.wend true).sp ≠ 3 → data ≠ [] → 0 ≤ off → ts.Nodup →
            (∀ y ∈ ts, off + data.length ≤ s.storeSize y st ∧ ((s.bay y).store st).wf = true ∧
              ((s.bay y).mode = .idle ∨ (s.bay y).linesNow + (runLines [(off.toNat, data)]).length ≤ 256)) →
            took ∧ (∀ y ∈ ts, Stored ((s.bay y).store st) ((t.bay y).store st) off.toNat data ∧ (t.bay y).regs = (s.bay y).regs) ∧
            (∀ y : BayId, y ≠ b → y ∉ ts → t.bay y = s.bay y) ∧ CountsAt s t q c.gva (ts.length * c.unit)) ∧
          ∀ z : Xlat, (c.wend true).sp = 3 → c.isM = false → data ≠ [] → (c.wva true u).toNat % 65536 + data.length ≤ 65536 →
            asyncXlat p b true (c.wva true u) = some z → teTier z.raw ≤ 4 → c.blockAt p true (i / c.perBlock) = none →
            let s1 := s.writePlace z.place data
            c.outward p = false → took ∧ CountsAt s1 t q c.gva c.unit ∧ ∀ b' : BayId, bayMems (t.bay b') = bayMems (s.bay b')

/-- R251, R252, R285, R361, R468: a SEND reads a line a cycle, which reaches the receiver's bay 24 cycles on; a RECV lands the line
that it expects, and produces its peg with the last; a line without its RECV is a transfer mismatch. A collective command contributes at
COFF of a contribution frame; its value reaches the chip's router 20 pole cycles on. -/
def Obligations.Transfers : Prop :=
  (∀ (b : BayId) (s : State) (c : Cmd) (rest : List Cmd), Begins s b .coll c rest → (s.partAt b).held = false →
    let now := s.poleTime b
    let peer := peerBay b c.xpeer
    (c.op = 288 → (s.bay b).sends = [] → s.inFlightFull b = false → s.inFlightFull peer = false →
      ∃ t : State, exec (.sendBegin b) s = .next t ∧ SameMemory s t ∧ Begun s t b .coll c rest ∧
        (t.bay peer).arriving = (s.bay peer).arriving ++ [⟨b.val, c.issued - (s.bay b).lead, now, now + 24, c.xtag, c.xlines - 1, 0,
          c.xpeer, Mem.readN (s.bay b).scratch (128 * c.xline) 128, c.seen⟩] ∧
        (c.xlines = 1 → (t.bay b).sends = [] ∧ Produced s t b c) ∧ (c.xlines ≠ 1 → (t.bay b).sends = [⟨c, now, 1⟩]) ∧
        ∀ b' : BayId, b' ≠ b → b' ≠ peer → t.bay b' = s.bay b') ∧
    (c.op = 289 → (s.bay b).recvs = [] →
      ∃ t : State, exec (.recvBegin b) s = .next t ∧ OnlyBay b s t ∧ Begun s t b .coll c rest ∧ bayMems (t.bay b) = bayMems (s.bay b) ∧
        (t.bay b).recvs = [⟨c, now, 0⟩]) ∧
    ∀ d : RDesc, 290 ≤ c.op → (s.partAt b).descOf c.cslot = some d → commitRegion s b c = none → (s.partAt b).polec = d.coff →
      d.contributes (s.partAt b).framec = true → s.contributed (s.partAt b) d.slot (d.roundOf (s.partAt b).framec) = false →
      let round := d.roundOf (s.partAt b).framec
      let leaf := d.leaf (s.partAt b).lchip
      ∃ t : State, ∃ list : List (BitVec 32), exec (.collBegin b) s = .next t ∧ SameMemory s t ∧ Begun s t b .coll c rest ∧
        (t.bay b).colls = (s.bay b).colls ++ [⟨c, d.slot, round, list, now, s.seenBy b.val⟩] ∧ (c.op ≠ 292 → list = []) ∧
        t.arrivals = (if c.op = 291 ∧ leaf ≠ 0 then s.arrivals
          else s.arrivals ++ [(s.clock + 20 * (s.partAt b).k, c.contribution (s.bay b) d leaf round)]) ∧
        ∀ b' : BayId, b' ≠ b → t.bay b' = s.bay b') ∧
  (∀ (b : BayId) (s : State) (r : XferRun), (s.partAt b).held = false →
    (s.bay b).sends.find? (fun x => decide (x.begun < s.poleTime b)) = some r →
    let c := r.cmd
    let peer := peerBay b c.xpeer
    let now := s.poleTime b
    s.inFlightFull b = false → s.inFlightFull peer = false → peer ≠ b →
    ∃ t : State, exec (.sendBegin b) s = .next t ∧ SameMemory s t ∧ (t.bay b).regs = (s.bay b).regs ∧
      (t.bay b).queues = (s.bay b).queues ∧
      (t.bay peer).arriving = (s.bay peer).arriving ++ [⟨b.val, c.issued - (s.bay b).lead, r.begun, now + 24, c.xtag, c.xlines - 1, r.pos,
        c.xpeer, Mem.readN (s.bay b).scratch (128 * (c.xline + r.pos)) 128, c.seen⟩] ∧
      (r.pos + 1 = c.xlines → (t.bay b).sends = (s.bay b).sends.filter (fun x => decide (x.cmd.id ≠ c.id)) ∧ Produced s t b c) ∧
      (r.pos + 1 ≠ c.xlines → (t.bay b).pegSet = (s.bay b).pegSet ∧
        (t.bay b).sends = (s.bay b).sends.map (fun x => if x.cmd.id = c.id then { x with pos := x.pos + 1 } else x)) ∧
      ∀ b' : BayId, b' ≠ b → b' ≠ peer → t.bay b' = s.bay b') ∧
  ∀ (b : BayId) (s : State), (s.partAt b).held = false →
    let here := (s.bay b).arriving.filter (fun l => decide (l.due ≤ s.poleTime b))
    let stays := (s.bay b).arriving.filter (fun l => decide (s.poleTime b < l.due))
    let mismatch (tag j : Nat) : Option Pending :=
      some ⟨⟨.transferMismatch, BitVec.ofNat 72 (256 * tag + j), 0, false⟩, none, none, none⟩
    (∀ r : XferRun, (s.bay b).recvs.head? = some r →
      let moved (t : State) : Prop := (t.bay b).arriving = stays ∧ (∀ b' : BayId, b' ≠ b → t.bay b' = s.bay b') ∧
        (r.pos + 1 = r.cmd.xlines →
          (t.bay b).recvs = (s.bay b).recvs.filter (fun y => decide (y.cmd.id ≠ r.cmd.id)) ∧ Produced s t b r.cmd) ∧
        (r.pos + 1 ≠ r.cmd.xlines →
          (t.bay b).recvs = (s.bay b).recvs.map (fun y => if y.cmd.id = r.cmd.id then { y with pos := y.pos + 1 } else y))
      (∀ l : SentLine, here.find? (lineMatches b r) = some l → l.data.length = 128 →
        let off := 128 * (r.cmd.xline + r.pos)
        MayLand s b .scratch [(off, l.data)] false →
        ∃ t : State, exec (.recvLineLanding b) s = .next t ∧ moved t ∧ Landed s t b .scratch [(off, l.data)] false ∧
          ((∀ y ∈ here, lineMatches b r y = true) → (t.bay b).pending = (s.bay b).pending) ∧
          ∀ y : SentLine, here.find? (fun l => !lineMatches b r l) = some y → (s.bay b).pending = none →
            (t.bay b).pending = mismatch y.tag y.j) ∧
      (here.find? (lineMatches b r) = none → (s.bay b).pending = none →
        ∃ t : State, exec (.recvLineLanding b) s = .next t ∧ moved t ∧ OnlyBay b s t ∧ bayMems (t.bay b) = bayMems (s.bay b) ∧
          (t.bay b).pending = mismatch r.cmd.xtag r.pos)) ∧
    ∀ l : SentLine, (s.bay b).recvs = [] → here.head? = some l → (s.bay b).pending = none →
      ∃ t : State, exec (.recvLineLanding b) s = .next t ∧ OnlyBay b s t ∧ (t.bay b).arriving = stays ∧
        bayMems (t.bay b) = bayMems (s.bay b) ∧ (t.bay b).pending = mismatch l.tag l.j

/-- R318 to R321: a value that reaches the chip's own router is taken by its node, or counted where it comes late or twice; at the
decision instant the root decides the round from what it holds, and every router goes on to the next round; at DOFF of the delivery frame
the verdict's status line stands at RESVA. -/
def Obligations.Rounds : Prop :=
  (∀ (m : NodeVal) (s : State) (due : Nat) (q : PartId) (d : RDesc) (f : FabHeader),
    s.arrivals.find? (fun a => decide (a.2 = m) && decide (a.1 ≤ s.clock)) = some (due, m) → s.slotOf m.slot = some (q, d) →
    (s.part q).fab = some f → d.goesTo m = f.lchip →
    let r := s.router.get d.slot
    let onSlot (x : RSlot) : State :=
      { s with arrivals := s.arrivals.erase (due, m), router := s.router.set d.slot.val x d.slot.isLt }
    (r.round ≤ m.round → r.has m.round m.lev m.j = none → d.top ≤ m.lev →
      exec (.routerArrival m) s = .next (onSlot { r with held := m :: r.held })) ∧
    (m.round < r.round → exec (.routerArrival m) s = .next (onSlot { r with
      status := setBits r.status 32 16 (min 65535 (bits r.status 32 16 + 1)) })) ∧
    (r.round ≤ m.round → r.has m.round m.lev m.j ≠ none → exec (.routerArrival m) s = .next (onSlot { r with
      status := setBits r.status 48 16 (min 65535 (bits r.status 48 16 + 1)) }))) ∧
  ∀ (q : PartId) (slot : Fin 64) (s : State) (f : FabHeader) (d : RDesc), (s.part q).fab = some f →
    (s.part q).rds.find? (fun d => decide (d.slot = slot)) = some d →
    let r := s.router.get slot
    ((s.part q).inRounds = true → s.decisionAt q f d r.round ≤ (s.part q).podCycle s.clock →
      ∃ t : State, exec (.roundDecision q slot) s = .next t ∧ SameMemory s t ∧ t.bays = s.bays ∧
        (t.router.get slot).round = r.round + 1 ∧
        (t.router.get slot).held = r.held.filter (fun v => decide (r.round < v.round)) ∧
        (t.router.get slot).verdicts = (if s.physOf f (d.chips.getD 0 0) = s.physOf f f.lchip ∧ f.lchip ∈ d.chips then
          r.verdicts ++ [d.decide' r r.round] else r.verdicts) ∧
        (s.physOf f (d.chips.getD 0 0) = s.physOf f f.lchip →
          (t.router.get slot).status.toNat % 2 ^ 8 = (d.decide' r r.round).status % 2 ^ 8) ∧
        bits (t.router.get slot).status 8 24 = r.round % 2 ^ 24 ∧ ∀ k : Fin 64, k ≠ slot → t.router.get k = s.router.get k) ∧
    ∀ (round : Nat) (v : Verdict), (s.part q).poleRuns = true → (s.part q).polec = d.doff →
      d.deliveredIn (s.part q).framec = some round → r.verdicts.find? (fun v => decide (v.round = round)) = some v →
      ∃ t : State, exec (.roundDelivery q slot) s = .next t ∧ t.hostMem = s.hostMem ∧
        (t.router.get slot).verdicts = r.verdicts.filter (fun w => decide (round < w.round)) ∧
        ∀ (x : Nat) (pl : Place), (∀ b : BayId, (s.bay b).colls = []) → v.status ≠ 0 → d.gateva = 0 → (s.scarf.get q).mode = .idle →
          (s.part q).vaPlace d.resva = some (x, pl) → WritesPlace s t pl (leBytes 64 (verdictLine v)) ∧ t.bays = s.bays

/-! ## The scarf engine and the fabric -/

/-- R225, R268, R270, R271, R273, R276, R279 to R281: an idle scarf context begins the command of its lowest bay and reads its record; the check
ends in the code of the first of its tests that fails, or the context runs; it issues a request at a time, lands what has come, and stops on a
timeout or an error flit of its own command; a segment of a merge pass ends every two pole cycles, where the window of the commanding bay has
room for it: a combining pass writes the roots, and a level pass of SHIFT the sums in the staging planes. A chip answers a read of its memory
with the bytes, once they have had their 0xF1 slots, or with an error. The model's choices: a region that forbids the record at begin ends in
CODE 10 (log 96), a local request and a landing take their 0xF1 slots as bulk bursts beside them (log 88), a landing counts in the window that is
open in its cycle (log 98), and an alignment that R264 asks for and R268 does not list is RANGE (log 102). -/
def Obligations.Scarf : Prop :=
  (∀ (p : Part) (b : BayId) (r : Layout) (unknown : Bool) (at' : Addr) (src dst : Option (List Nat)) (table : Option (List Word)),
    let code := checkCode p b r unknown at' src dst table
    let field (lo n : Nat) : Nat := r.toNat / 2 ^ lo % 2 ^ n
    let merge := r.getLsbD 23
    let fails (n : Nat) : Prop := 1 ≤ code ∧ code ≤ n
    let old : Prop := field 0 8 = 0 ∨ field 8 8 < 4 ∨ (field 0 8 = 1 ∧ field 8 8 ≠ 4)
    let nl : Nat := match p.fab with
      | some f => f.nlchip
      | none => 1
    code ≤ 8 ∧ (code = 1 ↔ old) ∧ (code = 2 ↔ ¬ old ∧ unknown = true) ∧
    ((∃ k, 942 ≤ k ∧ r.getLsbD k = true) → fails 3) ∧ (field 34 14 ≠ 0 → fails 3) ∧
    (merge = false → field 24 40 ≠ 0 ∨ field 744 198 ≠ 0 → fails 3) ∧
    (∀ k < 6, field 20 3 ≤ k → field (64 + 32 * k) 32 ≠ 0 ∨ field (256 + 8 * k) 8 ≠ 0 ∨ field (304 + 8 * k) 8 ≠ 0 → fails 3) ∧
    (∀ (l : List Word) (e : Word), merge = true → table = some l → e ∈ l → e.toNat / 2 ^ 56 ≠ 0 → fails 3) ∧
    (3 < field 16 4 → fails 4) ∧ (merge = true → 6 ≤ field 24 4 → fails 4) ∧
    (∀ k < field 20 3, ∀ o ∈ [256 + 8 * k, 304 + 8 * k], field o 2 = 3 ∨ field (o + 2) 2 = 3 → fails 4) ∧
    (∀ l : List Nat, src = some l ∨ dst = some l → ¬ l.Nodup ∨ (∃ c ∈ l, nl ≤ c) → fails 5) ∧
    (∀ l : List Nat, dst = some l → p.lchip ∉ l → fails 5) ∧ (field 20 3 = 0 ∨ 6 < field 20 3 → fails 5) ∧
    (merge = true → field 364 4 = 0 ∨ field 888 48 = 0 ∨ 2 ^ 42 < field 888 48 → fails 5) ∧
    (∀ (va : Addr) (need : Need), (va, need) ∈ ([(r.extractLsb' 456 72, ⟨false, true, false⟩), (r.extractLsb' 528 72, ⟨true, false, false⟩),
        (r.extractLsb' 600 72, ⟨true, false, false⟩), (r.extractLsb' 672 72, ⟨true, true, false⟩)] : List (Addr × Need)) →
      (∃ e, translate p va need false = .error e) ∨ (need.w = true ∧ regionOk p b .stg va = false) ∨
        (need.r = true ∧ regionOk p b .ldg va = false) → fails 6) ∧
    (∀ (l : List Nat) (e : Cause × Info), src = some l → p.lchip ∈ l →
      translate p (r.extractLsb' 384 72) ⟨true, false, false⟩ false = .error e → fails 6) ∧
    (field 672 4 ≠ 0 → fails 6) ∧ (merge = true → field 816 3 ≠ 0 ∨ field 744 6 ≠ 0 → fails 6) ∧
    (∀ l : List Word, merge = true → table = some l → (∀ e ∈ l, e.toNat % 2 ^ 42 ≠ 0) ∨ (field 24 4 ≠ 2 ∧
      ∃ x ∈ l, ∃ y ∈ l, x.extractLsb' 48 8 ≠ y.extractLsb' 48 8) → fails 7) ∧
    (r.extractLsb' 456 72 = at' → 0 < lyBytes r true → fails 8)) ∧
  (∀ (ctx : NodeCtx) (kv : Word) (ea eb x y : Int), ctx.mode = .shift → 0 < ctx.w → (nodeElem ctx kv ea eb x y).1 =
    if eb ≤ ea then x + heldTo ctx.w (shiftedBy y (ea - eb) kv.toNat) else heldTo ctx.w (shiftedBy x (eb - ea) kv.toNat) + y) ∧
  ∀ (q : PartId) (s : State),
    let c := s.scarfOf q
    let p := s.part q
    let r := c.record
    let stops (i : Instr) (code : Nat) : Prop := ∃ t : State, exec i s = .next t ∧ (t.scarfOf q).mode = .stopped ∧
      (t.scarfOf q).code = code ∧ (t.scarfOf q).flights = [] ∧ (t.scarfOf q).toIssue = [] ∧ (t.scarfOf q).cmd = none ∧
      (∀ m : Cmd, c.cmd = some m → (t.bay c.party).pegSet =
        if m.ppeg = 63 then (s.bay c.party).pegSet else (s.bay c.party).pegSet ++ [m.ppeg]) ∧
      ∀ q' : PartId, q' ≠ q → t.scarfOf q' = s.scarfOf q'
    (∀ (b : BayId) (m : Cmd) (rest : List Cmd), Begins s b .scarf m rest → b ∈ p.bays → c.mode ≠ .checking → c.mode ≠ .running →
      p.held = false → (∀ b' ∈ p.bays, b' < b → (s.bay b').queue .scarf = []) →
      (regionOk p b .ldg m.a0 = true →
        ∃ t : State, exec (.reshardBegin q) s = .next t ∧ SameMemory s t ∧ Begun s t b .scarf m rest ∧
          (t.scarfOf q).mode = .checking ∧ (t.scarfOf q).bay = b.val ∧ (t.scarfOf q).cmd = some m ∧
          (t.scarfOf q).record = BitVec.ofNat 2048 (leNat ((s.scarfRead q b m.a0 256).getD [])) ∧
          (t.scarfOf q).checkEnd = p.time + checkTime (t.scarfOf q).record) ∧
      (regionOk p b .ldg m.a0 = false →
        ∃ t : State, exec (.reshardBegin q) s = .next t ∧ Begun s t b .scarf m rest ∧ (t.scarfOf q).mode = .stopped ∧
          (t.scarfOf q).code = 10 ∧ (t.scarfOf q).cmd = none)) ∧
    (∀ m : Cmd, c.mode = .checking → c.cmd = some m → c.checkEnd ≤ p.time → p.held = false →
      let srcL := s.scarfWords q c.party (lySrcList r) 2 (min 4096 (lyMesh r false).chips)
      let dstL := s.scarfWords q c.party (lyDstList r) 2 (min 4096 (lyMesh r true).chips)
      let tab : Option (List Word) := if lyMerge r then
        (s.scarfWords q c.party (lyTable r) 8 (lyMesh r false).rep).map (fun l => l.map (BitVec.ofNat 64)) else some []
      let code := checkCode p c.party r (s.scarfNonzero q c.party (m.a0 + 256) (lyExtra r)) m.a0 srcL dstL tab
      (code ≠ 0 → stops (.reshardCheckEnd q) code) ∧
      ∀ (t0 : Transfer) (more : List Transfer), code = 0 → m.word.getLsbD 29 = false →
        planOf r (srcL.getD []) (dstL.getD []) p.lchip = t0 :: more →
        ∃ t : State, exec (.reshardCheckEnd q) s = .next t ∧ t.bays = s.bays ∧ SameMemory s t ∧ (t.scarfOf q).mode = .running ∧
          (t.scarfOf q).plan = t0 :: more ∧ (t.scarfOf q).next = t0.index ∧
          (t.scarfOf q).toIssue = (t0 :: more).filter (fun x => decide (t0.index ≤ x.index))) ∧
    (∀ (x : Transfer) (rest : List Transfer), c.mode = .running → c.pass = 0 → c.flights.length < 64 → p.held = false →
      c.toIssue = x :: rest →
      let flies (due : Nat) : Prop := ∃ t : State, exec (.scarfRequest q) s = .next t ∧ t.bays = s.bays ∧ SameMemory s t ∧
        (t.scarfOf q).toIssue = rest ∧ (t.scarfOf q).flights = c.flights ++ [⟨x, due, none⟩]
      let page := findEntry p.tt ((x.srcVa r).toNat % 2 ^ 64)
      (x.chip = p.lchip → (page = none → stops (.scarfRequest q) 6) ∧
        ∀ (k : Nat) (e : BitVec 128), page = some (k, e) → flies (p.time + tierLatency c.party e)) ∧
      ∀ f : FabHeader, x.chip ≠ p.lchip → p.fab = some f →
        let allowed : Prop := ∀ a ∈ pageEnds (x.srcVa r) (elemSpan r x.src x.count), regionOk p c.party .ldg a = true
        (¬ allowed → stops (.scarfRequest q) 10) ∧
        (allowed → s.bulkSlot q f x.chip = true →
          flies (p.time + 380 + 360 * f.hops (s.physOf f f.lchip) (s.physOf f x.chip))) ∧
        (allowed → s.bulkSlot q f x.chip = false → exec (.scarfRequest q) s = .next s)) ∧
    (∀ (l l' : List Flight) (f : Flight) (d : List Byte), c.mode = .running → c.pass = 0 → p.held = false → c.flights = l ++ f :: l' →
      f.due ≤ p.time → (∀ x ∈ l ++ l', p.time < x.due ∧ x.tr.index ≠ f.tr.index) → s.flightData q c f = some (.ok d) →
      (∃ x ∈ c.plan, x.index ≠ f.tr.index ∧ ∀ y ∈ c.landed, y.1 ≠ x.index) →
      let u := if f.tr.chip = p.lchip then s.scarfNote q c.party (f.tr.srcVa r) (elemSpan r f.tr.src f.tr.count) else s
      let raw := rawElems r f.tr.src f.tr.count d
      let pieces : List (Addr × List Byte) :=
        if lyMerge r = true then pagePieces (stageVa r f.tr.replica f.tr.dst) (stageBytes (raw.map (fun v => sext (v : Nat) (lyWidth r))))
        else pagePieces (u.runBytes q c.party r (lyDstVa r) f.tr.dst raw).1 (u.runBytes q c.party r (lyDstVa r) f.tr.dst raw).2
      (s.landsFull c.party = true → (s.bay c.party).pending = none → ∃ t : State, exec (.scarfLanding q) s = .next t ∧ SameMemory s t ∧
        t.scarfOf q = c ∧ (t.bay c.party).pending.map (fun p => (p.fault.cause, p.fault.info)) = some (.windowOverflow, 2)) ∧
      (s.landsFull c.party = false → u.piecesClash q c.party pieces = false →
        (∀ e : Nat, u.scarfPieces q c.party pieces = .error e → stops (.scarfLanding q) e) ∧
        ∀ s1 : State, u.scarfPieces q c.party pieces = .ok s1 →
          ∃ t : State, exec (.scarfLanding q) s = .next t ∧ SameMemory s t ∧ (t.scarfOf q).mode = .running ∧
            (t.scarfOf q).flights = l ++ l' ∧ (t.scarfOf q).landed = c.landed ++ [(f.tr.index, (s.bay c.party).window.num)] ∧
            (t.bay c.party).gbuf = (s1.bay c.party).gbuf ∧ (t.bay c.party).regs = (s.bay c.party).regs ∧
            (t.bay c.party).window.gstores = (s.bay c.party).window.gstores + 1)) ∧
    (∀ f ∈ c.flights, c.mode = .running → f.data = none → f.tr.chip ≠ p.lchip → f.due + 2 * 2 ^ p.hdr.fexp < p.time →
      stops (.timeout q) 9) ∧
    (∀ code : Nat, c.mode = .running → c.pass = 0 → stops (.scarfErrorFlit q code) code) ∧
    (∀ (port : Port) (run code : Nat),
      (c.run = run → s.receive port (.scarfError q run code) = exec (.scarfErrorFlit q code) s) ∧
      (c.run ≠ run → s.receive port (.scarfError q run code) = .next s)) ∧
    (c.mode = .running → c.pass ≠ 0 → p.held = false → c.orRound = none →
      let b := c.party
      let pos := c.pos p.lchip
      let es := segElems r pos c.seg
      let roots := (s.segRoots q c pos c.seg).1
      let ctx := mergeCtx r (s.bay b).kseed
      let sum (x : SNode × SNode) (e : Nat × Nat) : Int :=
        (nodeElem ctx (nodeKerf ctx (lyBase r + c.level) (x.1.j / 2) (prodOf ((lyDims r true).map Dim.n)) e.2) x.1.exp x.2.exp
          (s.staged q b r ctx x.1 e).1 (s.staged q b r ctx x.2 e).1).1
      let combining : Prop := lyMode r ≠ 2 ∨ c.writing = true
      let ends (pieces : List (Addr × List Byte)) (last : State → Prop) : Prop :=
        (s.landsFull b = true → ∃ t : State, exec (.mergePass q) s = .next t ∧ t.scarfOf q = c ∧ SameMemory s t ∧
          ((s.bay b).pending = none →
            (t.bay b).pending.map (fun p => (p.fault.cause, p.fault.info)) = some (.windowOverflow, 2))) ∧
        (s.landsFull b = false → s.piecesClash q b pieces = false →
          (∀ e : Nat, s.scarfPieces q b pieces = .error e → stops (.mergePass q) e) ∧
          ∀ s1 : State, s.scarfPieces q b pieces = .ok s1 →
            ∃ t : State, exec (.mergePass q) s = .next t ∧ (t.bay b).gbuf = (s1.bay b).gbuf ∧ (t.bay b).regs = (s.bay b).regs ∧
              (∀ q' : PartId, q' ≠ q → t.scarfOf q' = s.scarfOf q') ∧
              (c.seg + 1 < lySegs r → SameMemory s t ∧ (t.scarfOf q).mode = .running ∧ (t.scarfOf q).seg = c.seg + 1 ∧
                (t.scarfOf q).segDue = p.time + 2 ∧ (t.scarfOf q).landed = c.landed ++ [(c.seg, (s.bay b).window.num)]) ∧
              (lySegs r ≤ c.seg + 1 → last t))
      (c.orWait = false → c.segDue ≤ p.time → (∀ l ∈ c.landed, l.1 ≠ c.seg) →
        (combining → ends ((joinRuns roots).flatMap (fun x =>
            pagePieces (s.runBytes q b r (lyDstVa r) x.1 x.2).1 (s.runBytes q b r (lyDstVa r) x.1 x.2).2))
          (fun t => (t.scarfOf q).mode = .done ∧ (t.scarfOf q).cmd = none)) ∧
        (¬ combining → ends ((levelPairs c.nodes c.level).flatMap (fun x => es.flatMap (fun e =>
            pagePieces (stageVa r x.1.plane e.1) (stageBytes [sum x e]))))
          (fun t => SameMemory s t ∧ (t.scarfOf q).orWait = true ∧ (t.scarfOf q).nodes = levelNodes c.nodes c.level))) ∧
      (∀ (m n : Nat) (em en : Int), c.nodes = [⟨0, 0, m, em, none⟩, ⟨0, 1, n, en, none⟩] → lyMn r = 2 → lyMode r ≠ 2 → lyMode r < 6 →
        ∀ y ∈ roots,
          let v (plane : Nat) : Int :=
            (BitVec.ofNat 64 (leNat ((s.scarfRead q b (lyStage r + BitVec.ofNat 72 (8 * (plane * lyElems r true + y.1))) 8).getD []))).toInt
          let root : Int := match lyMode r with
            | 0 | 1 => heldTo (lyWidth r) (v m + v n)
            | 3 => max (v m) (v n)
            | 4 => min (v m) (v n)
            | _ => (BitVec.ofInt 96 (v m) ||| BitVec.ofInt 96 (v n)).toInt
          (y.2 : Int) = root % 2 ^ lyWidth r) ∧
      ∀ d : RDesc, c.orWait = true → p.rds.find? (fun d => decide (d.slot.val = lySlot r)) = some d → p.polec = d.coff →
        p.framec % 2 ^ d.pexp = d.phase →
        ∃ (t : State) (v : NodeVal), exec (.mergePass q) s = .next t ∧ t.bays = s.bays ∧ SameMemory s t ∧ (t.scarfOf q).orWait = false ∧
          (t.scarfOf q).orRound = some ((p.framec - d.phase) / 2 ^ d.pexp) ∧ t.arrivals = s.arrivals ++ [(s.clock + 20 * p.k, v)] ∧
          v.slot = d.slot ∧ v.round = (p.framec - d.phase) / 2 ^ d.pexp ∧ v.elems.length = d.nel) ∧
    ∀ (r : ScarfRead) (f : FabHeader), r.part = q → p.fab = some f → 0 < r.n →
      let allows (va : Addr) : Bool := remoteAllows p r.bay r.chip r.mode .ldg va
      let readable (k : Nat) : Prop := (∃ x : Xlat, translate p (r.va + BitVec.ofNat 72 k) ⟨true, false, false⟩ false = .ok x) ∧
        allows (r.va + BitVec.ofNat 72 k) = true ∧ lineChk p .reset .ldg (r.va + BitVec.ofNat 72 k) = none
      s.serveScarf r = s.sendBy .bulk q 0 (flitsFor r.n) f r.chip (s.sourceAnswer r) ∧
      (∀ e : Cause × Info, translate p r.va ⟨true, false, false⟩ false = .error e →
        exec (.sourceRead r) s = .next (s.serveScarf r) ∧ s.sourceAnswer r = .scarfError q r.run (scarfCode e.1)) ∧
      (∀ x : Xlat, translate p r.va ⟨true, false, false⟩ false = .ok x →
        exec (.sourceRead r) s = .next (s.queueBurst q 0xF1 (some x.place) r.n (.scarf r)) ∧
        (allows r.va = false → s.sourceAnswer r = .scarfError q r.run 10)) ∧
      ((∀ k < r.n, readable k) → ∃ l : List Byte, s.sourceAnswer r = .scarfData q r.run r.index l ∧ l.length = r.n ∧
        ∀ (k : Nat) (x : Xlat), k < r.n → translate p (r.va + BitVec.ofNat 72 k) ⟨true, false, false⟩ false = .ok x →
          l[k]? = some (s.readPlace x.place 0)) ∧
      ∀ x : Burst, x.act = .scarf r → p.mode ≠ .preempted → s.performBurst q x = s.serveScarf r

/-- R225, R310 to R317, R327: a flit is accepted when it is intact and its number is the one expected, and with the last flit of a message
the message is here; it is dropped when it was accepted before, and else asked for again. A retry request, the flits that one asks for, and PTP
messages wait for reserved flit times, in which they leave. A PTP message is timestamped, a delay request answered, and PTP time alone is
corrected. Offset reports, nominal frame starts and the tables of other chips change what a pod plan's partition knows; a silent chip is lost,
and the pod plan stops. A tier 5 request that the region table allows waits for its 0xF1 slots, and is served in this chip's memory. The
model's choices: what corrects PTP time, and what the chip sends as a boundary clock, is told by the input (log 87), the tables of a chip
come as one message, and reserved flit times are counted by the pod plan's time (log 43), and a forbidden request is dropped and logged
(log 92). -/
def Obligations.Fabric : Prop :=
  (∀ (port : Port) (seq : BitVec 16) (intact : Bool) (x : Flit) (s : State),
    let l := s.links.get (portIdx port)
    let taken : State := { s with
      links := s.links.set (portIdx port).val { l with expect := l.expect + 1 } (portIdx port).isLt }
    let asks : State := { s with links := s.links.set (portIdx port).val { l with
      waiting := l.waiting ++ [⟨.yard, 0, 0, s.clock, 24 / l.width, .retry l.expect⟩] } (portIdx port).isLt }
    (∀ v : Verdict, intact = true → seq = l.expect → (∀ f : FabHeader, s.podHeader = some f → f.lchip = x.dest) →
      x.load.msg = .verdict v → x.load.ix + 1 = x.load.count →
      ∃ y : RSlot, exec (.linkFlit port seq intact x.dest x.load) s = .next { taken with
          router := s.router.set v.slot.val y v.slot.isLt } ∧
        y.verdicts = (s.router.get v.slot).verdicts ++ [v] ∧ y.round = (s.router.get v.slot).round ∧
        y.held = (s.router.get v.slot).held ∧
        y.status.toNat % 2 ^ 8 = (if bits (s.router.get v.slot).status 8 24 = v.round % 2 ^ 24 then v.status % 2 ^ 8
          else (s.router.get v.slot).status.toNat % 2 ^ 8)) ∧
    (intact = true → seq = l.expect → s.samePhys x.dest = true → x.load.ix + 1 ≠ x.load.count →
      exec (.linkFlit port seq intact x.dest x.load) s = .next taken) ∧
    (∀ (f : FabHeader) (out : Port), intact = true → seq = l.expect → s.samePhys x.dest = false → s.podHeader = some f →
      f.firstPort (s.physOf f f.lchip) (s.physOf f x.dest) = some out → (∀ v : NodeVal, x.load.msg ≠ .node v) →
      let m := taken.links.get (portIdx out)
      exec (.linkFlit port seq intact x.dest x.load) s = .next { taken with
        outs := s.outs ++ [.flit out m.next x]
        links := taken.links.set (portIdx out).val { m with next := m.next + 1, replay := ((m.next, x) :: m.replay).take 512 }
          (portIdx out).isLt }) ∧
    (intact = true → seq ≠ l.expect → (l.expect - seq).toNat < 2 ^ 15 → exec (.linkFlit port seq intact x.dest x.load) s = .next s) ∧
    ((intact = false ∨ 2 ^ 15 ≤ (l.expect - seq).toNat) → exec (.linkFlit port seq intact x.dest x.load) s = .next asks)) ∧
  (∀ (port : Port) (next : BitVec 16) (s : State),
    let l := s.links.get (portIdx port)
    exec (.replay port next) s = .next { s with links := s.links.set (portIdx port).val { l with
      waiting := l.waiting.filter (fun w => !w.load.isAgain) ++
        ((l.replay.filter (fun r => decide ((r.1 - next).toNat < 2 ^ 15))).reverse.map
          (fun r => ⟨.yard, 0, 0, s.clock, 24 / l.width, .again r.1⟩)) } (portIdx port).isLt }) ∧
  (∀ (port : Port) (may : Waiting → Bool) (w : Waiting) (s : State),
    let l := s.links.get (portIdx port)
    w ∈ l.waiting → may w = true → (∀ y ∈ l.waiting, may y = true → y = w) →
    let sent (o : List Out) : Prop := s.takeFlit port may = { s with
      outs := s.outs ++ o, links := s.links.set (portIdx port).val { l with waiting := l.waiting.erase w } (portIdx port).isLt }
    (2 ≤ w.left → s.takeFlit port may = { s with links := s.links.set (portIdx port).val { l with
      waiting := { w with left := w.left - 1 } :: l.waiting.erase w } (portIdx port).isLt }) ∧
    (w.left ≤ 1 →
      (∀ next : BitVec 16, w.load = .retry next → sent [.retry port next]) ∧
      (∀ (n : BitVec 16) (x : Flit), w.load = .again n → (n, x) ∈ l.replay → (∀ y ∈ l.replay, y.1 = n → y.2 = x) →
        sent [.flit port n x]) ∧
      (∀ k : PtpKind, w.load = .ptp k → sent [.ptpSent (some port) k, .timestamp s.ptp]) ∧
      (∀ at' : Nat, w.load = .ptpAnswer at' → sent [.ptpAnswer (some port) at', .timestamp s.ptp]) ∧
      ∀ (dest gone count : Nat) (m : Msg), w.load = .flits dest m gone count →
        let x : Flit := ⟨dest, m, gone, count⟩
        s.takeFlit port may = { s with
          outs := s.outs ++ [.flit port l.next x]
          links := s.links.set (portIdx port).val { l with
            next := l.next + 1
            replay := ((l.next, x) :: l.replay).take 512
            waiting := (if gone + 1 < count then [{ w with left := 24 / l.width, load := .flits dest m (gone + 1) count }] else [])
              ++ l.waiting.erase w } (portIdx port).isLt })) ∧
  (∀ (m : PtpMsg) (s : State),
    let waits (p : Port) (x : Parcel) (o : List Out) (ptp : Nat) : State :=
      let l := s.links.get (portIdx p)
      { s with outs := s.outs ++ o, ptp := ptp, links := s.links.set (portIdx p).val { l with
        waiting := l.waiting ++ [⟨.yard, 0, 0, s.clock, 24 / l.width, x⟩] } (portIdx p).isLt }
    let corrected := ((s.ptp : Int) + m.correction).toNat
    (m.received = true → (m.kind = .delayReq → m.port ≠ none) → (m.kind = .pdelayReq → m.port = none) →
      exec (.ptpEventMessage m) s = .next { s with outs := s.outs ++ [.timestamp s.ptp], ptp := corrected }) ∧
    (m.received = true → m.kind = .delayReq → m.port = none →
      exec (.ptpEventMessage m) s = .next { s with outs := s.outs ++ [.timestamp s.ptp, .ptpAnswer none s.ptp], ptp := corrected }) ∧
    (∀ p : Port, m.received = true → m.kind = .pdelayReq → m.port = some p →
      exec (.ptpEventMessage m) s = .next (waits p (.ptpAnswer s.ptp) [.timestamp s.ptp] corrected)) ∧
    (m.received = false → m.port = none →
      exec (.ptpEventMessage m) s = .next { s with outs := s.outs ++ [.ptpSent none m.kind, .timestamp s.ptp] }) ∧
    ∀ p : Port, m.received = false → m.port = some p → exec (.ptpEventMessage m) s = .next (waits p (.ptp m.kind) [] s.ptp)) ∧
  (∀ (chip frame offset : Nat) (s : State), ∃ t : State, exec (.offsetReport chip frame offset) s = .next t ∧ t.bays = s.bays ∧
    SameMemory s t ∧ ∀ q : PartId,
      ((s.part q).fab = none → t.part q = s.part q) ∧
      ((s.part q).fab ≠ none → (s.part q).mode = .waiting ∨ (s.part q).framec < frame + (s.part q).podLag →
        (t.part q).pod.reports = (s.part q).pod.reports ++ [(frame, offset)] ∧ (t.part q).framec = (s.part q).framec ∧
        (chip, s.clock) ∈ (t.part q).pod.heard)) ∧
  (∀ (chip : Nat) (s : State) (q : PartId), (s.part q).silent chip s.clock = true →
    ∃ t : State, exec (.unresponsive chip) s = .next t ∧ t.bays = s.bays ∧ SameMemory s t ∧
      .unresponsive chip ∈ t.outs ∧ chip ∈ t.yard.lost ∧
      ∀ q' : PartId, (t.part q').pod.heard = (s.part q').pod.heard.filter (fun h => decide (h.1 ≠ chip)) ∧
        (t.part q').mode = (if chip ∉ s.yard.lost ∧ (s.part q').fab.isSome = true ∧ (s.part q').mode ≠ .unformed ∧
          (s.part q').mode ≠ .preempted then .stopped else (s.part q').mode)) ∧
  (∀ (s : State), ∃ t : State, exec .nominalFrameStart s = .next t ∧ t.bays = s.bays ∧ SameMemory s t ∧
    ∀ (q : PartId) (f : Nat), (s.part q).nominalDue s.clock = some f → (t.part q).pod.nominal = f + 1 ∧
      (t.part q).pod.reports = (s.part q).pod.reports ++ [(f, (s.part q).pod.offset + (s.part q).pod.excess)]) ∧
  (∀ (chip : Nat) (tables : PodTables) (s : State),
    ((∀ q : PartId, chip ∉ (s.part q).awaiting) → exec (.podWideChecks chip tables) s = .next { s with yard := { s.yard with
      podTables := s.yard.podTables.filter (fun x => decide (x.1 ≠ chip)) ++ [(chip, tables)] } }) ∧
    ∀ q₀ : PartId, chip ∈ (s.part q₀).awaiting →
      let missing (p : Part) (c : Nat) : Prop := c ≠ p.lchip ∧ c ≠ chip ∧ ∀ x ∈ p.tables ++ s.yard.podTables, x.1 ≠ c
      (∀ q : PartId, chip ∈ (s.part q).awaiting → tables.descs ≠ [] ∧ chip ∈ (s.part q).listed ∧
        ∃ c ∈ (s.part q).listed, missing (s.part q) c) →
      ∃ t : State, exec (.podWideChecks chip tables) s = .next t ∧ t.bays = s.bays ∧ SameMemory s t ∧
        t.yard = { s.yard with podTables := t.yard.podTables } ∧ (∀ x ∈ t.yard.podTables, x ∈ s.yard.podTables) ∧
        ∀ q : PartId, (chip ∉ (s.part q).awaiting → t.part q = s.part q) ∧
          (chip ∈ (s.part q).awaiting →
            t.part q = { s.part q with tables := (t.part q).tables, awaiting := (t.part q).awaiting } ∧
            (chip, tables) ∈ (t.part q).tables ∧ chip ∉ (t.part q).awaiting ∧
            ∀ c : Nat, missing (s.part q) c → (c ∈ (s.part q).listed ∨ ∃ d ∈ tables.descs, c ∈ d.chips) →
              c ∈ (t.part q).awaiting)) ∧
  ∀ (r : Tier5Req) (s : State) (q : PartId), s.partOfBent r.bent = some q →
    let pl : Place := .lpddr r.bent r.pa
    (homeAllows (s.part q) r = false → exec (.tier5Request r) s = .next (s.log (.note 225 r.chip))) ∧
    (∀ x : Nat × Region, r.bay < 192 → regionAt (s.part q) (vaNat r.va) = some x → 2 ≤ mwMode x.2.mode →
      r.mode ≠ some (mwMode x.2.mode) → homeAllows (s.part q) r = false) ∧
    (homeAllows (s.part q) r = true →
      exec (.tier5Request r) s = .next (s.queueBurst q 0xF1 (some pl) (tier5Bytes r.kind) (.tier5 r))) ∧
    ∀ x : Burst, x.act = .tier5 r →
      let t := s.performBurst q x
      (∀ data : List Byte, r.kind = .write data → WritesPlace s t pl data ∧ t.bays = s.bays ∧ t.outs = s.outs) ∧
      (∀ (op : AtomicOp) (v : BitVec 96), r.kind = .atomic op v → t.bays = s.bays ∧
        WritesPlace s t pl (leBytes 16 (atomicCell op (BitVec.ofNat 128 (leNat (s.readPlaceN pl 16))) v).toNat)) ∧
      ∀ f : FabHeader, (s.part q).fab = some f →
        let answers (u : State) (d : List Byte) : Prop := u.bays = s.bays ∧
          t = if r.chip = f.lchip then u.takeAnswer r.bay r.id d
            else u.remoteSend q (s.part q).time f r.chip (.tier5Answer r.bay r.id d)
        (∀ n : Nat, r.kind = .read n → ∃ u : State, SameMemory s u ∧ answers u (s.readPlaceN pl n)) ∧
        ∀ v : Word, r.kind = .fetchAdd v →
          let old := leNat (s.readPlaceN pl 8)
          ∃ u : State, WritesPlace s u pl (leBytes 8 (old + v.toNat)) ∧ answers u (leBytes 8 old)

/-! ## The host -/

/-- R24, R205, R255, R259, R261, R329 to R331: a running yard takes connections under the lowest free number; host RDMA to a partition's queue
pages waits for its 0xF0 slots, and then reads or writes what it may, an atomic answering the former word; a packet written whole into one
slot of a queue adds 64 to the queue's gate, after the packet; the mailbox is read and written at once; every other access is refused and
logged. -/
def Obligations.HostAccess : Prop :=
  ∀ s : State,
    (∀ k : Nat, s.yard.boot = .running → s.freeConn = some k → exec .roceConnect s =
      .next { s with yard := { s.yard with conns := s.yard.conns ++ [⟨k, none⟩] }, outs := s.outs ++ [.connected Config.mailboxBase Config.mailboxKey k] }) ∧
    (∀ conn : Nat, exec (.connectionClose conn) s =
      .next { s with yard := { s.yard with conns := s.yard.conns.filter (fun c => decide (c.num ≠ conn)) } }) ∧
    (s.yard.boot = .running →
      let refused (i : Instr) : Prop := exec i s = .next { s with
        yard := { s.yard with errlog := s.yard.errlog ++ [.note 329 0] }, outs := s.outs ++ [.rdmaError] }
      (∀ (peer : Nat) (q : PartId) (va : Addr) (data : List Byte) (v : Word) (n : Nat),
        (s.hostMay q va data.length = false → refused (.rdmaWrite (.memory peer q va) data)) ∧
        (s.hostMay q va n = false → refused (.rdmaRead (.memory peer q va) n)) ∧
        ((s.hostMay q va 8 = false ∨ va.toNat % 2 ^ 64 % 8 ≠ 0) → refused (.atomicFetchAndAdd (.memory peer q va) v)) ∧
        let waits (i : Instr) (l : List Burst) : Prop := ∃ t : State, exec i s = .next t ∧
          SameMemory s t ∧ t.bays = s.bays ∧ t.outs = s.outs ∧ (∀ q' : PartId, q' ≠ q → t.part q' = s.part q') ∧
          (t.part q).traffic = (s.part q).traffic ++ l
        let place := ((s.part q).vaPlace va).map (fun x => x.2)
        (s.hostMay q va n = true → n ≤ 65536 - va.toNat % 2 ^ 64 % 65536 →
          waits (.rdmaRead (.memory peer q va) n) [⟨0xF0, place, n, 0, .hostRead va n, s.clock⟩]) ∧
        (s.hostMay q va data.length = true → data.length ≤ 65536 - va.toNat % 2 ^ 64 % 65536 →
          waits (.rdmaWrite (.memory peer q va) data)
            (⟨0xF0, place, data.length, 0, .bytes (hostParty peer) s.nextTag va data, s.clock⟩ ::
              (s.slotGates q va data.length).map (fun g => ⟨0xF0, none, 0, 0, .arrive (hostParty peer) s.nextTag g 64, s.clock⟩))) ∧
        (∀ (hva : Addr) (base k : Nat), hva ∈ (s.part q).queues.map (fun x => x.2) →
          let h : BitVec 512 := BitVec.ofNat 512 (leNat (s.getVa q hva 64))
          base = vaNat (hdrSlotVa h) → k < 2 ^ hdrLog2n h → va.toNat % 2 ^ 64 = base + 64 * k →
            hdrGateVa h ∈ s.slotGates q va 64 ∧ ∀ m : Nat, m ≠ 64 → s.slotGates q va m = []) ∧
        (s.hostMay q va 8 = true → va.toNat % 2 ^ 64 % 8 = 0 →
          waits (.atomicFetchAndAdd (.memory peer q va) v) [⟨0xF0, place, 8, 0, .hostAdd (hostParty peer) va v, s.clock⟩]) ∧
        ∀ y : Burst, (s.part q).mode ≠ .preempted →
          let t := s.performBurst q y
          (y.act = .hostRead va n → t = { s with outs := s.outs ++ [.rdmaAnswer (s.hostReadVa q va n)] }) ∧
          (∀ (tag : Nat) (gate : Addr) (k : Nat), y.act = .arrive (hostParty peer) tag gate k → CountsAt s t q gate k ∧ t.bays = s.bays) ∧
          (∀ (tag x : Nat) (pl : Place), y.act = .bytes (hostParty peer) tag va data → 0 < data.length →
            data.length ≤ 65536 - va.toNat % 2 ^ 64 % 65536 → (s.part q).vaPlace va = some (x, pl) →
            WritesPlace s t pl data ∧ t.bays = s.bays ∧ t.outs = s.outs ∧
              ∃ e : TTEntry, (t.part q).tt[x]? = some e ∧ e.pending = true) ∧
          ∀ (x : Nat) (pl : Place), y.act = .hostAdd (hostParty peer) va v → (s.part q).vaPlace va = some (x, pl) →
            let old := leNat (s.readPlaceN pl 8)
            WritesPlace s t pl (leBytes 8 ((old + v.toNat) % 2 ^ 64)) ∧ t.bays = s.bays ∧
              t.outs = s.outs ++ [.atomicAnswer (BitVec.ofNat 64 old)]) ∧
      ∀ (conn off n : Nat) (data : List Byte) (v : Word),
        ((∃ c ∈ s.yard.conns, c.num = conn) → 0x1000 ≤ off → off + data.length ≤ 0x2000 →
          ∃ t : State, exec (.rdmaWrite (.mailbox conn off) data) s = .next t ∧ SameMemory s t ∧ t.bays = s.bays ∧ t.outs = s.outs ∧
            t.yard.mailbox = Mem.writeN s.yard.mailbox off data ∧
            (off % 64 = 0 → data.length = 64 → ((off - 0x1000) / 64, conn) ∈ t.yard.requester)) ∧
        ((off < 0x1000 ∨ 0x2000 < off + data.length) → refused (.rdmaWrite (.mailbox conn off) data)) ∧
        ((off + n ≤ 16 ∨ (0x1000 ≤ off ∧ off + n ≤ 0x3400)) → exec (.rdmaRead (.mailbox conn off) n) s =
          .next { s with outs := s.outs ++ [.rdmaAnswer (Mem.readN s.yard.mailbox off n)] }) ∧
        (off = 0 → ∃ t : State, exec (.atomicFetchAndAdd (.mailbox conn off) v) s = .next t ∧ SameMemory s t ∧
          t.yard.mailbox = Mem.writeN s.yard.mailbox 0 (leBytes 8 ((s.reqIndex + v.toNat) % 2 ^ 64)) ∧
          t.outs = s.outs ++ [.atomicAnswer (BitVec.ofNat 64 s.reqIndex)]) ∧
        (off ≠ 0 → refused (.atomicFetchAndAdd (.mailbox conn off) v)) ∧
        ((∀ c ∈ s.yard.conns, c.num ≠ conn) → refused (.rdmaWrite (.mailbox conn off) data)) ∧
        (16 < off + n → off < 0x1000 ∨ 0x3400 < off + n → refused (.rdmaRead (.mailbox conn off) n)))

/-- R28, R58, R211, R302, R321, R330 to R333, R336: the commands of the mailbox. LOAD forms the plan's partition, queues the plan, or is
refused with the rule that refuses it; STOP dissolves a partition; LOGREAD, SLOTREAD, PAGEREQ, HOSTREG and CERT answer as their rules
say; a command that there is not is answered BADCMD. The model's choices: STOP of an unformed partition is refused, HOSTREG with ARG2 answers
3, and LOGREAD counts fault records alone (log 68); PAGEREQ of a page that no table maps, or that a plan which does not run holds, is refused
(log 46); a LOAD of a plan that is queued is answered at once (log 42); the rule numbers that a refusal logs are the model's (log 67). -/
def Obligations.MailboxCommands : Prop :=
  ∀ (n : Nat) (s : State),
    let r := s.request n
    let arg (k : Nat) : Nat := r.toNat / 2 ^ (64 + 64 * k) % 2 ^ 64
    let conn := s.requester' n
    (Serves s n 1 →
      (s.hostGet (arg 2) (arg 0) (arg 1) = none → exec (.load n) s = .next (s.refuse n 9 331)) ∧
      ∀ img : List Byte, s.hostGet (arg 2) (arg 0) (arg 1) = some img →
        ((imgHeader img).toNat / 2 ^ 32 % 2 ^ 32 ≠ arg 1 → exec (.load n) s = .next (s.refuse n 4 332)) ∧
        ((imgHeader img).toNat / 2 ^ 32 % 2 ^ 32 = arg 1 →
          (∀ rule : Nat, s.forming img = .refused rule → exec (.load n) s = .next ((s.refusePod img).refuse n 4 rule)) ∧
          (s.forming img = .now → exec (.load n) s = .next (match s.loadPlan img with
            | .error rule => (s.refusePod img).refuse n 4 rule
            | .ok (q, t) => if (t.part q).podDone = true then t.respond n 0 q.val
              else t.setPart q { t.part q with request := some n })) ∧
          ∀ l : List PartId, s.forming img = .waits l → ∃ t : State, exec (.load n) s = .next t ∧ t.bays = s.bays ∧
            SameMemory s t ∧ t.yard.planq = s.yard.planq ++ [⟨storyPrio (storyHeader img), img⟩] ∧
            ∀ q : PartId, (t.part q).preempt = ((s.part q).preempt || l.contains q))) ∧
    (Serves s n 2 →
      ((8 ≤ arg 0 ∨ ∃ q : PartId, q.val = arg 0 ∧ (s.part q).mode = .unformed) → exec (.stop n) s = .next (s.refuse n 4 332)) ∧
      ∀ q : PartId, q.val = arg 0 → (s.part q).mode ≠ .unformed →
        ∃ t : State, exec (.stop n) s = .next t ∧ t.part q = .reset ∧ (∀ q' : PartId, q' ≠ q → t.part q' = s.part q') ∧
          t.ring = s.ring ∧ t.lpddr = s.lpddr ∧ t.hostMem = s.hostMem ∧
          ∀ b : BayId, t.bay b = if (s.part q).formed = true ∧ (s.part q).hdr.bents.getLsbD (b.val / 24) = true then .reset
            else s.bay b) ∧
    (Serves s n 3 →
      let l := s.yard.records.drop (arg 1)
      (∀ u : State, s.hostPut conn (arg 0) (l.flatMap (fun x => leBytes 32 x.toNat)) = some u →
        exec (.logread n) s = .next (u.respond n 0 l.length)) ∧
      (s.hostPut conn (arg 0) (l.flatMap (fun x => leBytes 32 x.toNat)) = none → exec (.logread n) s = .next (s.refuse n 9 331))) ∧
    (Serves s n 4 →
      (∀ k : Fin 64, arg 0 = k.val → exec (.slotread n) s = .next (s.respond n 0 (s.router.get k).status.toNat)) ∧
      (64 ≤ arg 0 → exec (.slotread n) s = .next (s.refuse n 4 332))) ∧
    (Serves s n 5 →
      let l := s.mappers (arg 0)
      let held : Prop := ∃ x ∈ l, teStier x.2.2 ≠ 6 ∧ (s.part x.1).running = true
      (held → exec (.pagereq n) s = .next (s.respond n 6 0)) ∧
      (¬ held → (∀ x ∈ l, teStier x.2.2 ≠ 6) → exec (.pagereq n) s = .next (s.refuse n 4 211)) ∧
      ∀ (q : PartId) (x : Nat × BitVec 128) (before more : List (PartId × Nat × BitVec 128)), l = before ++ (q, x) :: more →
        ¬ held → teStier x.2 = 6 → (∀ y ∈ before, teStier y.2.2 ≠ 6) → exec (.pagereq n) s =
          .next (({ s with yard := { s.yard with hostWants := s.yard.hostWants ++ [(q.val, x.1)] } } : State).respond n 0 0)) ∧
    (Serves s n 11 → arg 2 = 0 → ∃ t : State, exec (.hostreg n) s = .next t ∧ SameMemory s t ∧
      t.yard.conns = s.yard.conns.map (fun c => if c.num = conn then
        { c with region := some (BitVec.ofNat 64 (arg 0), BitVec.ofNat 32 (arg 1), arg 1 / 2 ^ 32) } else c)) ∧
    (Serves s n 11 → arg 2 ≠ 0 → exec (.hostreg n) s = .next (s.respond n 3 0)) ∧
    (Serves s n 12 → exec (.cert n) s = .next (match s.hostPut conn (arg 0) (Config.certificate.take 2048) with
      | none => s.refuse n 9 331
      | some u => u.respond n 0 (Config.certificate.take 2048).length)) ∧
    ∀ k : Nat, Serves s n k → k = 0 ∨ 12 < k → exec (.badcmd n) s = .next (s.respond n 8 0)

/-- R52, R185, R335 to R339: a firmware image that passes its check boots, is staged and is switched to at frame starts; a quote is
signed over its body; a monitor is read. Servicing retires bents and channels, readmits a bent as recalibration finds, reloads a
partition, degrades a port and recalibrates monitors; an operation is told by a code that the yard's firmware defines. The model's choices:
the codes of the operations and the numbers of the monitors are opaque functions of the arguments (log 61), whether a bent passes
recalibration is a free value (log 69), monitors are recalibrated at the next frame starts (log 68), and a staged image that fails its check
takes the slot and is answered BADSIG (log 101). -/
def Obligations.YardServices : Prop :=
  ∀ (n : Nat) (s : State),
    let r := s.request n
    let arg (k : Nat) : Nat := r.toNat / 2 ^ (64 + 64 * k) % 2 ^ 64
    let img := s.yard.fetched
    let booted : State := if firmwarePasses img = true then
        { s with yard := { s.yard with boot := .running, fwA := img, activeB := false, fetched := [] } }
      else { s with yard := { s.yard with boot := .rom (s.clock + 12000000000), fetched := [] } }
    let code := Config.serviceCode (arg 0)
    let unit := arg 1
    let serviced (i : Instr) (k : Nat) (t : State) : Prop := exec i s = .next (if code = k then t else s)
    (s.yard.boot = .rom 0 → img ≠ [] → exec .boot s = .next booted) ∧
    (∀ due : Nat, s.yard.boot = .rom due → due ≠ 0 → due ≤ s.clock → img ≠ [] → exec .bootRetry s = .next booted) ∧
    (Serves s n 7 → ∀ fw : List Byte, s.hostGet (s.requester' n) (arg 0) (arg 1) = some fw →
      ∃ t : State, exec (.fwstage n) s = .next t ∧ SameMemory s t ∧ t.yard.staged = firmwarePasses fw ∧
        t.yard.fwA = (if s.yard.activeB = true then fw else s.yard.fwA) ∧
        t.yard.fwB = (if s.yard.activeB = true then s.yard.fwB else fw)) ∧
    (Serves s n 8 → s.yard.staged = false → exec (.fwswitch n) s = .next (s.respond n 7 0)) ∧
    (Serves s n 8 → s.yard.staged = true → ∃ t : State, exec (.fwswitch n) s = .next t ∧ SameMemory s t ∧
      t.yard.switching = some s.runningIds ∧ t.yard.activeB = s.yard.activeB) ∧
    (∀ l : List Nat, s.yard.switching = some l → (∀ q ∈ l, q ∉ s.runningIds) → exec .firmwareActivation s =
      .next { s with yard := { s.yard with activeB := !s.yard.activeB, staged := false, switching := none } }) ∧
    (Serves s n 9 →
      let body := s.quoteBody (arg 0) (arg 1)
      let page := Mem.writeN s.yard.mailbox 0x3000 (body ++ fitBytes 96 (Config.sign body) ++ List.replicate 48 0)
      let written : State := { s with yard := { s.yard with mailbox := page } }
      exec (.quote n) s = .next (written.respond n 0 0)) ∧
    (Serves s n 10 → exec (.monread n) s = .next (match s.reading (monitorId (arg 0)) with
      | some v => s.respond n 0 (v % 2 ^ 64).toNat
      | none => s.refuse n 4 337)) ∧
    (Serves s n 6 →
      (∀ (b : Fin 8) (q : PartId), unit = b.val → s.partOfBent b = some q → (s.part q).mode ≠ .stopped →
        serviced (.retireBent n) 0 (s.refuse n 4 338)) ∧
      (∀ b : Fin 8, unit = b.val → (∀ q : PartId, s.partOfBent b = some q → (s.part q).mode = .stopped) →
        let bare : State := { s with bents := s.bents.set b.val ({ s.bents.get b with retired := true }) b.isLt }
        serviced (.retireBent n) 0 (bare.respond n 0 0)) ∧
      (8 ≤ unit → serviced (.retireBent n) 0 (s.refuse n 4 338)) ∧
      (∀ b : Fin 8, unit = b.val → (s.bents.get b).retired = true → ∃ t : State, exec (.readmitBent n) s = .next t ∧
        t.ring = s.ring ∧ t.lpddr = s.lpddr ∧ (t.bents.get b).retired = (if code = 1 then !(s.freeWord.1.getLsbD 0) else true)) ∧
      (∀ q : PartId, unit = q.val → (s.part q).mode ≠ .unformed → (s.dissolve q).forming (s.part q).image = .now →
        serviced (.reloadPartition n) 2 (match (s.dissolve q).loadPlan (s.part q).image with
          | .error rule => ((s.dissolve q).refusePod (s.part q).image).refuse n 4 rule
          | .ok (q', t) => if (t.part q').podDone = true then t.respond n 0 q'.val
            else t.setPart q' { t.part q' with request := some n })) ∧
      (∀ b : Fin 8, unit / 12 = b.val → (s.bents.get b).retired = true → ∃ t : State, exec (.retireChannel n) s = .next t ∧
        ∀ c : Nat, c ∈ (t.bents.get b).badChannels ↔ c ∈ (s.bents.get b).badChannels ∨ (code = 3 ∧ c = unit)) ∧
      (∀ p : Fin 6, unit = p.val → ∃ t : State, exec (.degradeLanes n) s = .next t ∧
        (t.links.get p).lanes = (if code = 4 then 12 else (s.links.get p).lanes) ∧ (t.links.get p).width = (s.links.get p).width) ∧
      (∃ t : State, exec (.recalibrateMonitors n) s = .next t ∧ SameMemory s t ∧
        t.yard.recalibrate = (if code = 5 then decide (s.runningIds ≠ []) else s.yard.recalibrate)) ∧
      exec (.badcmd n) s = .next (if 6 ≤ code then s.refuse n 4 338 else s))

/-! ## Bundles and faults -/

/-- R94, R105 to R107, R284, R285, R297 to R299: the class of a cause decides. A timing fault leaves the bay as it is and is rolled back at
the end of the cycle. A range or privilege fault retires the task, and so does any other where the handler is active or PAD E is absent;
else the trap is entered. A bundle with a word that is no instruction commits nothing, whatever the word's guard holds. -/
def Obligations.FaultHandling : Prop :=
  (∀ (s : State) (b : BayId) (f : BFault),
    let x := s.bay b
    let t := s.takeFault b f
    let code : Word := BitVec.ofNat 64 (24 * x.pc)
    let keeps : Prop := OnlyBay b s t ∧ (t.bay b).regs = x.regs ∧ (t.bay b).ops = x.ops ∧ (t.bay b).pegs = x.pegs ∧
      (t.bay b).queues = x.queues ∧ (t.bay b).inflight = x.inflight ∧ (t.bay b).acc = x.acc ∧ (t.bay b).gbuf = x.gbuf ∧
      (t.bay b).loops = x.loops ∧ bayMems (t.bay b) = bayMems x
    let retires (action : Nat) : Prop :=
      (t.bay b).mode = (if x.busyCommands = true ∨ s.scarfBusy b = true then .retiring else .idle) ∧ (t.bay b).task = none ∧
        (t.bay b).queues = .replicate 8 [] ∧ (t.bay b).loops = [] ∧ (t.bay b).jigs = .replicate 2 none ∧ (t.bay b).pegs = 0 ∧
        (t.bay b).inflight = [] ∧ (t.bay b).res = .replicate 23 0 ∧ (t.bay b).regs = x.regs ∧ (t.bay b).ops = x.ops ∧
        (t.bay b).tbundle = code ∧ (t.bay b).tslot = f.tslot ∧ (t.bay b).tcause.toNat / 2 ^ 32 = f.info.toNat % 2 ^ 32 ∧
        (t.bay b).tcause.toNat / 2 ^ 8 % 2 ^ 8 = causeCode f.cause ∧ (t.bay b).window.closed = true ∧ SameMemory s t ∧
        (∀ b' : BayId, b' ≠ b → t.bay b' = s.bay b') ∧ ∃ r : BitVec 256, t.yard.errlog = s.yard.errlog ++ [.fault r] ∧
          r.toNat / 2 ^ 144 % 16 = action ∧ r.toNat / 2 ^ 128 % 256 = causeCode f.cause ∧
          r.toNat / 2 ^ 32 % 2 ^ 32 = f.info.toNat % 2 ^ 32
    (handling f.cause = .rollback → keeps ∧ (t.bay b).pc = x.pc ∧ (t.bay b).window = x.window ∧
      (x.pending = none → (t.bay b).pending = some ⟨f, some (24 * x.pc), none, none⟩)) ∧
    (handling f.cause = .retire → retires 0) ∧
    (handling f.cause = .trap →
      (x.handlerActive = true → retires 2) ∧
      (x.handlerActive = false → x.padE = false → retires 3) ∧
      (x.handlerActive = false → x.padE = true → keeps ∧ (t.bay b).pc = 0 ∧ (t.bay b).xfer = none ∧
        (t.bay b).tcause = tcauseWord f.info (causeCode f.cause) false 1 ∧ (t.bay b).tbundle = code ∧ (t.bay b).tslot = f.tslot ∧
        (t.bay b).suspended = x.loops.length ∧ (t.bay b).jigs = x.jigs.map suspendJig ∧ (t.bay b).window.closed = true))) ∧
  ∀ (s : State) (b : BayId) (i : Fin 8) (w : SlotWord) (e : DecodeErr),
    let x := s.bay b
    x.mergingJigs (s.now b) = [] → slotWords (bundleAt x.imem x.pc) x.jigmem [] = [(i, w)] → decodeSlot i w = .error e →
      s.issue b = (({ s with cur := b } : State).takeFault b (decodeFault 0 x.pc i e)).onBay b Bay.endIssue

/-- R61, R90, R91, R107: a step takes the first thing that is due. A bundle of one move, with no jig merged into it, makes that move and
then ends as its bundle ends; where the move raises a fault nothing of it stands, and the fault is taken in the state before it. An event
runs; with nothing due the next phase begins. What is due, and in which phase of a clock cycle, is the model's choice: the list of what
there is to do (log 5) and the order of the phases (log 9). -/
def Obligations.StepRuns : Prop :=
  ∀ s : State,
    (∀ (i : Instr) (rest : List Todo), s.todo = .event i :: rest → step s = exec i { s with todo := rest }) ∧
    (s.todo = [] → step s = .next s.turn) ∧
    ∀ (b : BayId) (rest : List Todo), s.todo = .issue b :: rest →
      let u : State := { s with todo := rest, cur := b }
      let x := s.bay b
      step s = .next (State.issue { s with todo := rest } b) ∧
      ∀ (k : Fin 8) (w : SlotWord) (i : Instr) (t : State),
        x.mergingJigs (s.now b) = [] → slotWords (bundleAt x.imem x.pc) x.jigmem [] = [(k, w)] → decodeSlot k w = .ok i →
          x.window.bundles < 2048 →
        let begun := u.onBay b (fun y => { y with dry := some [], jigSlots := 0, pre := some y.regs })
        let ends (t : State) (limm : Bool) : Prop :=
          (t.me.dry = some [] → t.followFault [] = [] →
            step s = .next (t.onBay b (fun y => ({ y with dry := none }).finish (s.now b) false limm))) ∧
          ∀ f : BFault, t.me.dry = some [f] → t.followFault [f] = [] → step s = .next ((u.takeFault b f).onBay b Bay.endIssue)
        (stageOf i ≠ 0 → exec i begun = .next t → ends t false) ∧
        (stageOf i = 0 → exec i (u.onBay b (fun y => { y with dry := some [], jigSlots := 0 })) = .next t →
          ends (t.onMe Bay.beginMoves) true)

/-! ## Encodings -/

/-- R84 to R104: slot words written out from the fields of the spec decode to the instructions that they stand for, one of every class
and family; a reserved guard, an unassigned id and a malformed pad decode to the fault that the spec names. -/
def Obligations.DecodeWords : Prop :=
  decodeSlot 0 0b000000000001010100000000 = .ok (.add ⟨0, 0, .g 5⟩ 0) ∧
  decodeSlot 2 0b100110000001110101011001 = .ok (.cmplt ⟨2, 9, .imm 7⟩ 1) ∧
  decodeSlot 2 0b000100011000000001000000 = .error (.port false 96) ∧
  decodeSlot 3 0b000000011000100000100001 = .ok (.move ⟨3, 0, .res .mul0R⟩ (.g 33)) ∧
  decodeSlot 0 0b000000010001000110010010 = .ok (.ld ⟨0, 0, .a 4⟩ 0) ∧
  decodeSlot 3 0b000000000000000110110100 = .ok (.fetchadd ⟨3, 0, .g 0⟩) ∧
  decodeSlot 1 0b000010000000010111000001 = .ok (.wk0Shw ⟨1, 0, .imm 1⟩) ∧
  decodeSlot 4 0b000000100000110111001001 = .ok (.vec1Sar ⟨4, 0, .v 3⟩ .w16) ∧
  decodeSlot 5 0b000000100001111001000101 = .ok (.cosq ⟨5, 0, .v 7⟩) ∧
  decodeSlot 4 0b000000100000001001111110 = .error (.port true 638) ∧
  decodeSlot 6 0b000000010011110100000000 = .ok (.mxgo ⟨6, 0, .a 15⟩) ∧
  decodeSlot 7 0b001011111111100100000010 = .ok (.call ⟨7, 2, .imm 510⟩) ∧
  decodeSlot 7 0b100000000000000000000111 = .ok (.limm 7) ∧
  decodeSlot 6 0b100000000000000000000111 = .error .illegalGuard ∧
  decodeSlot 7 0b000010000000100100000110 = .ok .padE ∧
  decodeSlot 7 0b000110000000100100000110 = .error .badPad

/-- R84 to R104: no bit of an encoding is dropped. Every well-formed instruction that is no event has a slot and a word, and the decoder
reads the instruction back from the word in that slot; an event has none. -/
def Obligations.EncodeDecode : Prop :=
  ∀ i : Instr, i.WellFormed →
    (∀ (s : Fin 8) (w : SlotWord), i.slotOf = some s → encode i = some w → decodeSlot s w = .ok i) ∧
    (i.form = .event → i.slotOf = none ∧ encode i = none) ∧
    (i.form ≠ .event → ∃ (s : Fin 8) (w : SlotWord), i.slotOf = some s ∧ encode i = some w)

/-- R84 to R104: whatever the decoder accepts is well formed, stands in the slot it was read from, and encodes to the same 24 bits: no two
words of a slot are one instruction. -/
def Obligations.DecodeEncode : Prop :=
  ∀ (s : Fin 8) (w : SlotWord) (i : Instr), decodeSlot s w = .ok i → i.WellFormed ∧ i.slotOf = some s ∧ encode i = some w

/-! ## Reset and the invariants -/

/-- R15, R51, R335: after reset the ROM waits for the firmware, no partition is formed and every bay is idle, so that nothing issues; entry
p of every remap table names physical bay p, unsliced. Clocks are in their bounds and memories in their canonical form. That registers
and memories read zero is the model's choice (log 3, log 7), and so is it that no bent is retired (log 1). -/
def Obligations.ResetValues : Prop :=
  let s := State.reset
  s.yard.boot = .rom 0 ∧ (∀ q : PartId, (s.part q).mode = .unformed) ∧ (∀ b : BayId, (s.bay b).mode = .idle ∧ (s.bay b).task = none) ∧
    s.todo = [] ∧ (∀ (t : Fin 8) (p : Fin 24), ((s.bents.get t).remap.get p).toNat = p.val) ∧
    (∀ t : Fin 8, (s.bents.get t).retired = false) ∧ TimeOk s ∧ MemsWf s ∧
    (∀ b : BayId, (s.bay b).regs = .clear ∧ ∀ m ∈ bayMems (s.bay b), ∀ a : Nat, Mem.read m a = 0) ∧
    ∀ m ∈ deviceMems s, ∀ a : Nat, Mem.read m a = 0

/-- R21, R22: time goes on by itself alone. From every state whose clocks are in their bounds, whatever step is made leaves them so; the
clock stands still but in the last phase of a cycle with nothing left to do, which moves it on by one, and the phase changes only where
nothing is left to do, to the next of the cycle. The phases of a cycle, the last of which moves the clock, are the model's choice (log 5,
log 9): R21 and R22 speak of cycles alone. -/
def Obligations.TimeKept : Prop :=
  ∀ s t : State, TimeOk s → step s = .next t →
    TimeOk t ∧ (s.todo ≠ [] → t.clock = s.clock ∧ t.phase = s.phase) ∧
    (s.todo = [] → t.phase = (s.phase + 1) % phases ∧ t.clock = if s.phase = 17 then s.clock + 1 else s.clock)

/-- Every step keeps every memory in its canonical form: ring SRAM, LPDDR-6, the stores of every bay, what a partition keeps,
the mailbox and the host's memory (log 3). So equal memories are equal data. -/
def Obligations.MemoriesKept : Prop := ∀ s t : State, MemsWf s → step s = .next t → MemsWf t
end

