-- ==== Sys2Proof/Laws/Num.lean ====
section
/-!
SUPPORT. Lanes read back from a vector register or mask that was built lane by lane, and associations read back after a write.
-/

namespace Sys2Proof.Laws

open Sys2Proof.Machine

/-- A number built from n digits of wd bits lies below 2 ^ (wd * n). -/
theorem packNat_lt (wd : Nat) (f : Nat → Int) (n : Nat) : packNat wd f n < 2 ^ (wd * n) := by
  induction n with
  | zero => simp [packNat]
  | succ n ih =>
    have hd : (f n % 2 ^ wd).toNat < 2 ^ wd := by
      have h0 := Int.emod_lt_of_pos (f n) (show (0 : Int) < 2 ^ wd by positivity)
      have h1 := Int.emod_nonneg (f n) (show ((2 : Int) ^ wd) ≠ 0 by positivity)
      zify
      rw [Int.toNat_of_nonneg h1]
      exact h0
    have hm : (f n % 2 ^ wd).toNat * 2 ^ (wd * n) ≤ (2 ^ wd - 1) * 2 ^ (wd * n) := Nat.mul_le_mul_right _ (by omega)
    have hp : 2 ^ (wd * (n + 1)) = 2 ^ (wd * n) + (2 ^ wd - 1) * 2 ^ (wd * n) := by
      rw [Nat.mul_succ, pow_add, Nat.sub_mul, Nat.one_mul, Nat.mul_comm]
      have : 2 ^ (wd * n) ≤ 2 ^ wd * 2 ^ (wd * n) := Nat.le_mul_of_pos_left _ (by positivity)
      omega
    simp only [packNat]
    omega

/-- Digit i of a number built from n digits. -/
theorem packNat_digit (wd : Nat) (f : Nat → Int) (n i : Nat) (h : i < n) :
    packNat wd f n / 2 ^ (wd * i) % 2 ^ wd = (f i % 2 ^ wd).toNat := by
  induction n with
  | zero => omega
  | succ n ih =>
    simp only [packNat]
    rcases Nat.lt_succ_iff_lt_or_eq.mp h with hlt | rfl
    · have hk : wd * n = wd * i + (wd + wd * (n - i - 1)) := by
        obtain ⟨k, rfl⟩ : ∃ k, n = i + 1 + k := ⟨n - i - 1, by omega⟩
        rw [show i + 1 + k - i - 1 = k by omega]
        ring
      rw [hk, pow_add, pow_add]
      rw [show (f n % 2 ^ wd).toNat * (2 ^ (wd * i) * (2 ^ wd * 2 ^ (wd * (n - i - 1))))
        = 2 ^ (wd * i) * (2 ^ wd * ((f n % 2 ^ wd).toNat * 2 ^ (wd * (n - i - 1)))) by ring]
      rw [Nat.add_mul_div_left _ _ (by positivity), Nat.add_mul_mod_self_left]
      exact ih hlt
    · rw [Nat.add_mul_div_right _ _ (by positivity), Nat.div_eq_of_lt (packNat_lt wd f i), Nat.zero_add]
      apply Nat.mod_eq_of_lt
      have h0 := Int.emod_lt_of_pos (f i) (show (0 : Int) < 2 ^ wd by positivity)
      have h1 := Int.emod_nonneg (f i) (show ((2 : Int) ^ wd) ≠ 0 by positivity)
      zify
      rw [Int.toNat_of_nonneg h1]
      exact h0

/-- Digit i of a bit vector that holds n digits of wd bits. -/
theorem extract_pack (W wd n : Nat) (f : Nat → Int) (i : Nat) (hw : wd * n ≤ W) (h : i < n) :
    (BitVec.ofNat W (packNat wd f n)).extractLsb' (wd * i) wd = BitVec.ofInt wd (f i) := by
  have hb : packNat wd f n < 2 ^ W := lt_of_lt_of_le (packNat_lt wd f n) (Nat.pow_le_pow_right (by norm_num) hw)
  apply BitVec.eq_of_toNat_eq
  rw [BitVec.extractLsb'_toNat, BitVec.toNat_ofNat, BitVec.toNat_ofInt, Nat.shiftRight_eq_div_pow, Nat.mod_eq_of_lt hb,
    packNat_digit wd f n i h]
  norm_cast

/-- Lane i of a register built lane by lane is the function's value at i, modulo the lane's width. -/
theorem lane_vecOf (wd : Nat) (f : Nat → Int) (i : Nat) (h : i < laneCount wd) :
    lane (vecOf wd f) wd i = BitVec.ofInt wd (f i) :=
  extract_pack _ wd (laneCount wd) f i (Nat.mul_div_le _ wd) h

/-- The signed value of a lane of a register built lane by lane. -/
theorem laneS_vecOf (wd : Nat) (f : Nat → Int) (i : Nat) (h : i < laneCount wd) :
    laneS (vecOf wd f) wd i = (BitVec.ofInt wd (f i)).toInt := by
  rw [laneS, lane_vecOf wd f i h]

/-- Every mask bit of a lane of a compare holds the lane's condition. -/
theorem maskOf_bit (w : Width) (f : Nat → Bool) (i k : Nat) (h : i < laneCount w.bits) (hk : k < w.bits / 8) :
    (maskOf w.bits f).getLsbD (w.bits / 8 * i + k) = f i := by
  have hw : w.bits / 8 * laneCount w.bits ≤ 256 := by cases w <;> decide
  have e := extract_pack 256 (w.bits / 8) (laneCount w.bits) (fun i => if f i then -1 else 0) i hw h
  have g := congrArg (fun v => v.getLsbD k) e
  simp only [BitVec.getLsbD_extractLsb', hk, decide_true, Bool.true_and] at g
  rw [maskOf, g]
  cases f i with
  | false => simp
  | true =>
    simp only [if_true]
    have ones : ∀ w : Width, ∀ k < w.bits / 8, (BitVec.ofInt (w.bits / 8) (-1)).getLsbD k = true := by
      intro w
      cases w <;> decide
    exact ones w k hk

/-! ## Associations -/

section
variable {β : Type} [DecidableEq β]

/-- A write leaves the value at every other key. -/
theorem assocGet_set_ne (d : β) (l : List (Nat × β)) (k k' : Nat) (x : β) (h : k' ≠ k) :
    assocGet d (assocSet d l k x) k' = assocGet d l k' := by
  induction l with
  | nil => by_cases hx : x = d <;> simp [assocSet, assocGet, hx, Ne.symm h]
  | cons a l ih =>
    obtain ⟨a, v⟩ := a
    simp only [assocSet]
    split
    · simp [assocGet, ih]
    · split
      · subst_vars
        split <;> simp [assocGet, Ne.symm h]
      · split
        · rfl
        · simp [assocGet, Ne.symm h]

/-- Every key of an association in canonical form lies above a bound that its first key lies above. -/
theorem assocWf_cons (d : β) (a : Nat) (v : β) (l : List (Nat × β)) :
    assocWf d ((a, v) :: l) = true ↔ v ≠ d ∧ (∀ p ∈ l, a < p.1) ∧ assocWf d l = true := by
  induction l generalizing a v with
  | nil => simp [assocWf]
  | cons b l ih =>
    obtain ⟨b, u⟩ := b
    simp only [assocWf, Bool.and_eq_true, decide_eq_true_eq]
    constructor
    · rintro ⟨⟨hab, hv⟩, hl⟩
      refine ⟨hv, ?_, hl⟩
      intro p hp
      rcases List.mem_cons.mp hp with rfl | hp
      · exact hab
      · exact hab.trans (((ih b u).mp hl).2.1 p hp)
    · rintro ⟨hv, hall, hl⟩
      exact ⟨⟨hall (b, u) (by simp), hv⟩, hl⟩

omit [DecidableEq β] in
/-- An unlisted key reads as the default. -/
theorem assocGet_absent (d : β) (l : List (Nat × β)) (k : Nat) (h : ∀ p ∈ l, p.1 ≠ k) : assocGet d l k = d := by
  induction l with
  | nil => rfl
  | cons a l ih =>
    obtain ⟨a, v⟩ := a
    simp only [assocGet, h (a, v) (by simp), if_false]
    exact ih (fun p hp => h p (by simp [hp]))

/-- A read after a write at the same key gives the value written, in an association in canonical form. -/
theorem assocGet_set_self (d : β) (l : List (Nat × β)) (k : Nat) (x : β) (h : assocWf d l = true) :
    assocGet d (assocSet d l k x) k = x := by
  induction l with
  | nil => by_cases hx : x = d <;> simp [assocSet, assocGet, hx]
  | cons a l ih =>
    obtain ⟨a, v⟩ := a
    obtain ⟨_, hall, hl⟩ := (assocWf_cons d a v l).mp h
    simp only [assocSet]
    split
    · simp only [assocGet, show a ≠ k by omega, if_false, ih hl]
    · split
      · subst_vars
        split
        · subst_vars
          exact assocGet_absent _ _ _ (fun p hp => by have := hall p hp; omega)
        · simp [assocGet]
      · split
        · subst_vars
          refine assocGet_absent _ _ _ (fun p hp => ?_)
          rcases List.mem_cons.mp hp with rfl | hp
          · assumption
          · have := hall p hp; omega
        · simp [assocGet]

/-- The keys after a write are the former ones and the key written. -/
theorem mem_assocSet (d : β) (l : List (Nat × β)) (k : Nat) (x : β) (p : Nat × β) (h : p ∈ assocSet d l k x) :
    p ∈ l ∨ p.1 = k := by
  induction l with
  | nil =>
    simp only [assocSet] at h
    split at h <;> simp_all
  | cons a l ih =>
    obtain ⟨a, v⟩ := a
    simp only [assocSet] at h
    split at h
    · rcases List.mem_cons.mp h with rfl | h
      · simp
      · rcases ih h with h | h <;> simp [h]
    · split at h
      · split at h
        · exact .inl (by simp [h])
        · rcases List.mem_cons.mp h with rfl | h <;> simp_all
      · split at h
        · exact .inl h
        · rcases List.mem_cons.mp h with rfl | h <;> simp_all

/-- A write keeps the canonical form. -/
theorem assocSet_wf (d : β) (l : List (Nat × β)) (k : Nat) (x : β) (h : assocWf d l = true) :
    assocWf d (assocSet d l k x) = true := by
  induction l with
  | nil => by_cases hx : x = d <;> simp [assocSet, assocWf, hx]
  | cons a l ih =>
    obtain ⟨a, v⟩ := a
    obtain ⟨hv, hall, hl⟩ := (assocWf_cons d a v l).mp h
    simp only [assocSet]
    split
    · refine (assocWf_cons d a v _).mpr ⟨hv, fun p hp => ?_, ih hl⟩
      rcases mem_assocSet d l k x p hp with hp | hp
      · exact hall p hp
      · omega
    · split
      · subst_vars
        split
        · exact hl
        · exact (assocWf_cons d _ x l).mpr ⟨by assumption, hall, hl⟩
      · split
        · exact h
        · refine (assocWf_cons d k x _).mpr ⟨by assumption, fun p hp => ?_, h⟩
          rcases List.mem_cons.mp hp with rfl | hp
          · simp only; omega
          · have := hall p hp; omega

end

end Sys2Proof.Laws
end

