-- ==== Sys2Proof/Laws/Mem.lean ====
section
/-!
SUPPORT. Laws of the byte stores: reads after writes, and that every memory operation keeps the canonical form.
-/

namespace Sys2Proof.Laws

open Sys2Proof.Machine

/-! ## One byte and runs of bytes -/

/-- A read at the address written gives the byte written. -/
theorem read_write_self (m : Mem) (a : Nat) (v : Byte) (h : m.wf = true) : Mem.read (Mem.write m a v) a = v :=
  assocGet_set_self 0 m a v h

/-- A read elsewhere gives what it gave. -/
theorem read_write_ne (m : Mem) (a k : Nat) (v : Byte) (h : k ≠ a) : Mem.read (Mem.write m a v) k = Mem.read m k :=
  assocGet_set_ne 0 m a k v h

theorem write_wf (m : Mem) (a : Nat) (v : Byte) (h : m.wf = true) : (Mem.write m a v).wf = true := assocSet_wf 0 m a v h

theorem writeN_wf (m : Mem) (a : Nat) (l : List Byte) (h : m.wf = true) : (Mem.writeN m a l).wf = true := by
  induction l generalizing m a with
  | nil => exact h
  | cons v l ih => exact ih _ _ (write_wf m a v h)

theorem writeAll_wf (m : Mem) (l : List (Nat × Byte)) (h : m.wf = true) : (Mem.writeAll m l).wf = true := by
  induction l generalizing m with
  | nil => exact h
  | cons v l ih => exact ih _ (write_wf m v.1 v.2 h)

/-- A run of bytes leaves every address outside it. -/
theorem read_writeN_out (m : Mem) (a k : Nat) (l : List Byte) (h : k < a ∨ a + l.length ≤ k) :
    Mem.read (Mem.writeN m a l) k = Mem.read m k := by
  induction l generalizing m a with
  | nil => rfl
  | cons v l ih =>
    simp only [List.length_cons] at h
    rw [Mem.writeN, ih _ _ (by omega), read_write_ne _ _ _ _ (by omega)]

/-- Byte k of a run stands at address k of it. -/
theorem read_writeN_in (m : Mem) (a k : Nat) (l : List Byte) (hm : m.wf = true) (h : k < l.length) :
    Mem.read (Mem.writeN m a l) (a + k) = l.getD k 0 := by
  induction l generalizing m a k with
  | nil => simp at h
  | cons v l ih =>
    rw [Mem.writeN]
    cases k with
    | zero => rw [read_writeN_out _ _ _ _ (by omega), Nat.add_zero, read_write_self _ _ _ hm]; rfl
    | succ k =>
      rw [show a + (k + 1) = a + 1 + k by omega, ih _ _ k (write_wf m a v hm) (by simpa using h)]
      rfl

/-- A run written stands in its store, and every other address reads as before. -/
theorem writeN_stored (m : Mem) (a : Nat) (l : List Byte) (h : m.wf = true) : Stored m (Mem.writeN m a l) a l :=
  ⟨fun k hk => read_writeN_in m a k l h hk, fun k hk => read_writeN_out m a k l hk⟩

/-- A read of n bytes is the list of the reads of each. -/
theorem readN_getD (m : Mem) (a n k : Nat) (h : k < n) : (Mem.readN m a n).getD k 0 = Mem.read m (a + k) := by
  simp [Mem.readN, h]

@[simp] theorem readN_length (m : Mem) (a n : Nat) : (Mem.readN m a n).length = n := by simp [Mem.readN]

/-! ## The canonical form by keys -/

/-- A list is canonical when its keys rise strictly and no entry reads as an unlisted address does. -/
theorem wf_iff (m : Mem) : m.wf = true ↔ m.Pairwise (fun x y => x.1 < y.1) ∧ ∀ p ∈ m, p.2 ≠ 0 := by
  unfold Mem.wf
  induction m with
  | nil => simp [assocWf]
  | cons c m ih =>
    obtain ⟨a, v⟩ := c
    rw [assocWf_cons, ih, List.pairwise_cons]
    simp only [List.mem_cons, forall_eq_or_imp]
    tauto

theorem copyRange_wf (src : Mem) (a n : Nat) (dst : Mem) (b : Nat) (hs : src.wf = true) (hd : dst.wf = true) :
    (Mem.copyRange src a n dst b).wf = true := by
  rw [wf_iff] at *
  obtain ⟨ps, zs⟩ := hs
  obtain ⟨pd, zd⟩ := hd
  unfold Mem.copyRange
  refine ⟨?_, ?_⟩
  · rw [List.pairwise_append, List.pairwise_append]
    refine ⟨⟨pd.filter _, ?_, ?_⟩, pd.filter _, ?_⟩
    · rw [List.pairwise_map]
      refine (ps.filter _).imp_of_mem ?_
      intro x y hx hy hxy
      simp only [List.mem_filter, Bool.and_eq_true, decide_eq_true_eq] at hx hy
      simp only
      omega
    · intro x hx y hy
      simp only [List.mem_filter, List.mem_map, Bool.and_eq_true, decide_eq_true_eq] at hx hy
      obtain ⟨z, hz, rfl⟩ := hy
      simp only
      omega
    · intro x hx y hy
      simp only [List.mem_append, List.mem_filter, List.mem_map, Bool.and_eq_true, decide_eq_true_eq] at hx hy
      rcases hx with hx | ⟨z, hz, rfl⟩
      · omega
      · simp only
        omega
  · intro p hp
    simp only [List.mem_append, List.mem_filter, List.mem_map] at hp
    rcases hp with (hp | ⟨z, hz, rfl⟩) | hp
    · exact zd p hp.1
    · exact zs z hz.1
    · exact zd p hp.1

/-- A copy of a range leaves every address of its store outside it. -/
theorem read_copyRange_out (src : Mem) (a n : Nat) (dst : Mem) (b k : Nat) (h : k < b ∨ b + n ≤ k) :
    Mem.read (Mem.copyRange src a n dst b) k = Mem.read dst k := by
  have get_append (l l' : Mem) (hl : ∀ p ∈ l, p.1 ≠ k) : assocGet 0 (l ++ l') k = assocGet 0 l' k := by
    induction l with
    | nil => rfl
    | cons c l ih =>
      obtain ⟨x, v⟩ := c
      simp only [List.cons_append, assocGet, hl (x, v) (by simp), if_false]
      exact ih (fun p hp => hl p (by simp [hp]))
  have get_prefix (l l' : Mem) (hl : ∀ p ∈ l', p.1 ≠ k) : assocGet 0 (l ++ l') k = assocGet 0 l k := by
    induction l with
    | nil => exact assocGet_absent 0 l' k hl
    | cons c l ih =>
      obtain ⟨x, v⟩ := c
      simp only [List.cons_append, assocGet, ih]
  have get_filter (l : Mem) (f : Nat × Byte → Bool) (hf : ∀ v : Byte, f (k, v) = true) :
      assocGet 0 (l.filter f) k = assocGet 0 l k := by
    induction l with
    | nil => rfl
    | cons c l ih =>
      obtain ⟨x, v⟩ := c
      by_cases hx : x = k
      · subst hx
        simp [assocGet, hf v]
      · cases hc : f (x, v) <;> simp only [List.filter_cons, hc, assocGet, hx, if_false, if_true, Bool.false_eq_true] <;> exact ih
  have inner : ∀ p ∈ (src.filter (fun c => decide (a ≤ c.1) && decide (c.1 < a + n))).map (fun c => (c.1 - a + b, c.2)), p.1 ≠ k := by
    intro p hp
    simp only [List.mem_map, List.mem_filter, Bool.and_eq_true, decide_eq_true_eq] at hp
    obtain ⟨z, hz, rfl⟩ := hp
    simp only
    omega
  unfold Mem.read Mem.copyRange
  rcases h with h | h
  · rw [get_prefix, get_prefix _ _ inner, get_filter _ _ (by simp [h])]
    intro p hp
    simp only [List.mem_filter, decide_eq_true_eq] at hp
    omega
  · rw [get_append, get_filter _ _ (by simp [h])]
    intro p hp
    simp only [List.mem_append] at hp
    rcases hp with hp | hp
    · simp only [List.mem_filter, decide_eq_true_eq] at hp
      omega
    · exact inner p hp

/-! ## Device memory and the stores of bays -/

/-- A write to device memory keeps the canonical form of ring SRAM and LPDDR-6. -/
theorem writePlace_wf (s : State) (pl : Place) (data : List Byte) (h : ∀ m ∈ deviceMems s, m.wf = true) :
    ∀ m ∈ deviceMems (s.writePlace pl data), m.wf = true := by
  have inSet (v : Vector Mem 8) (t : Fin 8) (x : Mem) (hv : ∀ m ∈ v.toList, m.wf = true) (hx : x.wf = true) :
      ∀ m ∈ (v.set t.val x t.isLt).toList, m.wf = true := by
    intro m hm
    rw [Vector.toList_set] at hm
    rcases List.mem_or_eq_of_mem_set hm with hm | rfl
    · exact hv m hm
    · exact hx
  simp only [deviceMems, List.mem_append] at h ⊢
  have hr : ∀ m ∈ s.ring.toList, m.wf = true := fun m hm => h m (.inl hm)
  have hl : ∀ m ∈ s.lpddr.toList, m.wf = true := fun m hm => h m (.inr hm)
  cases pl with
  | ring t o =>
    rintro m (hm | hm)
    · exact inSet _ t _ hr (writeN_wf _ _ _ (hr _ (by simp [Vector.get]))) m hm
    · exact hl m hm
  | lpddr t a =>
    rintro m (hm | hm)
    · exact hr m hm
    · exact inSet _ t _ hl (writeN_wf _ _ _ (hl _ (by simp [Vector.get]))) m hm
  | chip c t a => exact h

/-- A write to one store of a bay keeps the canonical form of all of its stores. -/
theorem setStore_wf (b : Bay) (k : BayStore) (m : Mem) (hb : ∀ x ∈ bayMems b, x.wf = true) (hm : m.wf = true) :
    ∀ x ∈ bayMems (b.setStore k m), x.wf = true := by
  simp only [bayMems, List.mem_cons, forall_eq_or_imp] at hb ⊢
  cases k <;> simp_all [Bay.setStore]

/-! ## Reset -/

set_option maxRecDepth 100000 in
/-- Memory after reset lists nothing, and so is in its canonical form. -/
theorem reset_mems : MemsWf State.reset := by
  refine ⟨?_, ?_, ?_, rfl, rfl, ?_, ?_⟩ <;> decide

end Sys2Proof.Laws
end

