-- ==== Sys2Proof/Laws/State.lean ====
section
/-!
SUPPORT. One lemma for each field and each update of the state, so that no proof unfolds a record update.
-/

namespace Sys2Proof.Machine

/-! ## setBay -/

@[simp] theorem State.setBay_clock (s : State) (b : BayId) (x : Bay) : (s.setBay b x).clock = s.clock := rfl
@[simp] theorem State.setBay_ptp (s : State) (b : BayId) (x : Bay) : (s.setBay b x).ptp = s.ptp := rfl
@[simp] theorem State.setBay_ptpSixths (s : State) (b : BayId) (x : Bay) : (s.setBay b x).ptpSixths = s.ptpSixths := rfl
@[simp] theorem State.setBay_parts (s : State) (b : BayId) (x : Bay) : (s.setBay b x).parts = s.parts := rfl
@[simp] theorem State.setBay_phys (s : State) (b : BayId) (x : Bay) : (s.setBay b x).phys = s.phys := rfl
@[simp] theorem State.setBay_bents (s : State) (b : BayId) (x : Bay) : (s.setBay b x).bents = s.bents := rfl
@[simp] theorem State.setBay_ring (s : State) (b : BayId) (x : Bay) : (s.setBay b x).ring = s.ring := rfl
@[simp] theorem State.setBay_lpddr (s : State) (b : BayId) (x : Bay) : (s.setBay b x).lpddr = s.lpddr := rfl
@[simp] theorem State.setBay_refresh (s : State) (b : BayId) (x : Bay) : (s.setBay b x).refresh = s.refresh := rfl
@[simp] theorem State.setBay_chipmap (s : State) (b : BayId) (x : Bay) : (s.setBay b x).chipmap = s.chipmap := rfl
@[simp] theorem State.setBay_linkTab (s : State) (b : BayId) (x : Bay) : (s.setBay b x).linkTab = s.linkTab := rfl
@[simp] theorem State.setBay_links (s : State) (b : BayId) (x : Bay) : (s.setBay b x).links = s.links := rfl
@[simp] theorem State.setBay_router (s : State) (b : BayId) (x : Bay) : (s.setBay b x).router = s.router := rfl
@[simp] theorem State.setBay_arrivals (s : State) (b : BayId) (x : Bay) : (s.setBay b x).arrivals = s.arrivals := rfl
@[simp] theorem State.setBay_scarf (s : State) (b : BayId) (x : Bay) : (s.setBay b x).scarf = s.scarf := rfl
@[simp] theorem State.setBay_yard (s : State) (b : BayId) (x : Bay) : (s.setBay b x).yard = s.yard := rfl
@[simp] theorem State.setBay_hostMem (s : State) (b : BayId) (x : Bay) : (s.setBay b x).hostMem = s.hostMem := rfl
@[simp] theorem State.setBay_dirty (s : State) (b : BayId) (x : Bay) : (s.setBay b x).dirty = s.dirty := rfl
@[simp] theorem State.setBay_inputs (s : State) (b : BayId) (x : Bay) : (s.setBay b x).inputs = s.inputs := rfl
@[simp] theorem State.setBay_outs (s : State) (b : BayId) (x : Bay) : (s.setBay b x).outs = s.outs := rfl
@[simp] theorem State.setBay_todo (s : State) (b : BayId) (x : Bay) : (s.setBay b x).todo = s.todo := rfl
@[simp] theorem State.setBay_cur (s : State) (b : BayId) (x : Bay) : (s.setBay b x).cur = s.cur := rfl
@[simp] theorem State.setBay_phase (s : State) (b : BayId) (x : Bay) : (s.setBay b x).phase = s.phase := rfl
@[simp] theorem State.setBay_free (s : State) (b : BayId) (x : Bay) : (s.setBay b x).free = s.free := rfl
@[simp] theorem State.setBay_vclocks (s : State) (b : BayId) (x : Bay) : (s.setBay b x).vclocks = s.vclocks := rfl
@[simp] theorem State.setBay_touches (s : State) (b : BayId) (x : Bay) : (s.setBay b x).touches = s.touches := rfl
@[simp] theorem State.setBay_nextTag (s : State) (b : BayId) (x : Bay) : (s.setBay b x).nextTag = s.nextTag := rfl
@[simp] theorem State.setBay_later (s : State) (b : BayId) (x : Bay) : (s.setBay b x).later = s.later := rfl
@[simp] theorem State.setBay_queuePairs (s : State) (b : BayId) (x : Bay) : (s.setBay b x).queuePairs = s.queuePairs := rfl
@[simp] theorem State.setBay_rebuild (s : State) (b : BayId) (x : Bay) : (s.setBay b x).rebuild = s.rebuild := rfl

/-! ## onBay -/

@[simp] theorem State.onBay_clock (s : State) (b : BayId) (f : Bay → Bay) : (s.onBay b f).clock = s.clock := rfl
@[simp] theorem State.onBay_ptp (s : State) (b : BayId) (f : Bay → Bay) : (s.onBay b f).ptp = s.ptp := rfl
@[simp] theorem State.onBay_ptpSixths (s : State) (b : BayId) (f : Bay → Bay) : (s.onBay b f).ptpSixths = s.ptpSixths := rfl
@[simp] theorem State.onBay_parts (s : State) (b : BayId) (f : Bay → Bay) : (s.onBay b f).parts = s.parts := rfl
@[simp] theorem State.onBay_phys (s : State) (b : BayId) (f : Bay → Bay) : (s.onBay b f).phys = s.phys := rfl
@[simp] theorem State.onBay_bents (s : State) (b : BayId) (f : Bay → Bay) : (s.onBay b f).bents = s.bents := rfl
@[simp] theorem State.onBay_ring (s : State) (b : BayId) (f : Bay → Bay) : (s.onBay b f).ring = s.ring := rfl
@[simp] theorem State.onBay_lpddr (s : State) (b : BayId) (f : Bay → Bay) : (s.onBay b f).lpddr = s.lpddr := rfl
@[simp] theorem State.onBay_refresh (s : State) (b : BayId) (f : Bay → Bay) : (s.onBay b f).refresh = s.refresh := rfl
@[simp] theorem State.onBay_chipmap (s : State) (b : BayId) (f : Bay → Bay) : (s.onBay b f).chipmap = s.chipmap := rfl
@[simp] theorem State.onBay_linkTab (s : State) (b : BayId) (f : Bay → Bay) : (s.onBay b f).linkTab = s.linkTab := rfl
@[simp] theorem State.onBay_links (s : State) (b : BayId) (f : Bay → Bay) : (s.onBay b f).links = s.links := rfl
@[simp] theorem State.onBay_router (s : State) (b : BayId) (f : Bay → Bay) : (s.onBay b f).router = s.router := rfl
@[simp] theorem State.onBay_arrivals (s : State) (b : BayId) (f : Bay → Bay) : (s.onBay b f).arrivals = s.arrivals := rfl
@[simp] theorem State.onBay_scarf (s : State) (b : BayId) (f : Bay → Bay) : (s.onBay b f).scarf = s.scarf := rfl
@[simp] theorem State.onBay_yard (s : State) (b : BayId) (f : Bay → Bay) : (s.onBay b f).yard = s.yard := rfl
@[simp] theorem State.onBay_hostMem (s : State) (b : BayId) (f : Bay → Bay) : (s.onBay b f).hostMem = s.hostMem := rfl
@[simp] theorem State.onBay_dirty (s : State) (b : BayId) (f : Bay → Bay) : (s.onBay b f).dirty = s.dirty := rfl
@[simp] theorem State.onBay_inputs (s : State) (b : BayId) (f : Bay → Bay) : (s.onBay b f).inputs = s.inputs := rfl
@[simp] theorem State.onBay_outs (s : State) (b : BayId) (f : Bay → Bay) : (s.onBay b f).outs = s.outs := rfl
@[simp] theorem State.onBay_todo (s : State) (b : BayId) (f : Bay → Bay) : (s.onBay b f).todo = s.todo := rfl
@[simp] theorem State.onBay_cur (s : State) (b : BayId) (f : Bay → Bay) : (s.onBay b f).cur = s.cur := rfl
@[simp] theorem State.onBay_phase (s : State) (b : BayId) (f : Bay → Bay) : (s.onBay b f).phase = s.phase := rfl
@[simp] theorem State.onBay_free (s : State) (b : BayId) (f : Bay → Bay) : (s.onBay b f).free = s.free := rfl
@[simp] theorem State.onBay_vclocks (s : State) (b : BayId) (f : Bay → Bay) : (s.onBay b f).vclocks = s.vclocks := rfl
@[simp] theorem State.onBay_touches (s : State) (b : BayId) (f : Bay → Bay) : (s.onBay b f).touches = s.touches := rfl
@[simp] theorem State.onBay_nextTag (s : State) (b : BayId) (f : Bay → Bay) : (s.onBay b f).nextTag = s.nextTag := rfl
@[simp] theorem State.onBay_later (s : State) (b : BayId) (f : Bay → Bay) : (s.onBay b f).later = s.later := rfl
@[simp] theorem State.onBay_queuePairs (s : State) (b : BayId) (f : Bay → Bay) : (s.onBay b f).queuePairs = s.queuePairs := rfl
@[simp] theorem State.onBay_rebuild (s : State) (b : BayId) (f : Bay → Bay) : (s.onBay b f).rebuild = s.rebuild := rfl

/-! ## onMe -/

@[simp] theorem State.onMe_clock (s : State) (f : Bay → Bay) : (s.onMe f).clock = s.clock := rfl
@[simp] theorem State.onMe_ptp (s : State) (f : Bay → Bay) : (s.onMe f).ptp = s.ptp := rfl
@[simp] theorem State.onMe_ptpSixths (s : State) (f : Bay → Bay) : (s.onMe f).ptpSixths = s.ptpSixths := rfl
@[simp] theorem State.onMe_parts (s : State) (f : Bay → Bay) : (s.onMe f).parts = s.parts := rfl
@[simp] theorem State.onMe_phys (s : State) (f : Bay → Bay) : (s.onMe f).phys = s.phys := rfl
@[simp] theorem State.onMe_bents (s : State) (f : Bay → Bay) : (s.onMe f).bents = s.bents := rfl
@[simp] theorem State.onMe_ring (s : State) (f : Bay → Bay) : (s.onMe f).ring = s.ring := rfl
@[simp] theorem State.onMe_lpddr (s : State) (f : Bay → Bay) : (s.onMe f).lpddr = s.lpddr := rfl
@[simp] theorem State.onMe_refresh (s : State) (f : Bay → Bay) : (s.onMe f).refresh = s.refresh := rfl
@[simp] theorem State.onMe_chipmap (s : State) (f : Bay → Bay) : (s.onMe f).chipmap = s.chipmap := rfl
@[simp] theorem State.onMe_linkTab (s : State) (f : Bay → Bay) : (s.onMe f).linkTab = s.linkTab := rfl
@[simp] theorem State.onMe_links (s : State) (f : Bay → Bay) : (s.onMe f).links = s.links := rfl
@[simp] theorem State.onMe_router (s : State) (f : Bay → Bay) : (s.onMe f).router = s.router := rfl
@[simp] theorem State.onMe_arrivals (s : State) (f : Bay → Bay) : (s.onMe f).arrivals = s.arrivals := rfl
@[simp] theorem State.onMe_scarf (s : State) (f : Bay → Bay) : (s.onMe f).scarf = s.scarf := rfl
@[simp] theorem State.onMe_yard (s : State) (f : Bay → Bay) : (s.onMe f).yard = s.yard := rfl
@[simp] theorem State.onMe_hostMem (s : State) (f : Bay → Bay) : (s.onMe f).hostMem = s.hostMem := rfl
@[simp] theorem State.onMe_dirty (s : State) (f : Bay → Bay) : (s.onMe f).dirty = s.dirty := rfl
@[simp] theorem State.onMe_inputs (s : State) (f : Bay → Bay) : (s.onMe f).inputs = s.inputs := rfl
@[simp] theorem State.onMe_outs (s : State) (f : Bay → Bay) : (s.onMe f).outs = s.outs := rfl
@[simp] theorem State.onMe_todo (s : State) (f : Bay → Bay) : (s.onMe f).todo = s.todo := rfl
@[simp] theorem State.onMe_cur (s : State) (f : Bay → Bay) : (s.onMe f).cur = s.cur := rfl
@[simp] theorem State.onMe_phase (s : State) (f : Bay → Bay) : (s.onMe f).phase = s.phase := rfl
@[simp] theorem State.onMe_free (s : State) (f : Bay → Bay) : (s.onMe f).free = s.free := rfl
@[simp] theorem State.onMe_vclocks (s : State) (f : Bay → Bay) : (s.onMe f).vclocks = s.vclocks := rfl
@[simp] theorem State.onMe_touches (s : State) (f : Bay → Bay) : (s.onMe f).touches = s.touches := rfl
@[simp] theorem State.onMe_nextTag (s : State) (f : Bay → Bay) : (s.onMe f).nextTag = s.nextTag := rfl
@[simp] theorem State.onMe_later (s : State) (f : Bay → Bay) : (s.onMe f).later = s.later := rfl
@[simp] theorem State.onMe_queuePairs (s : State) (f : Bay → Bay) : (s.onMe f).queuePairs = s.queuePairs := rfl
@[simp] theorem State.onMe_rebuild (s : State) (f : Bay → Bay) : (s.onMe f).rebuild = s.rebuild := rfl

/-! ## setPart -/

@[simp] theorem State.setPart_clock (s : State) (q : PartId) (x : Part) : (s.setPart q x).clock = s.clock := rfl
@[simp] theorem State.setPart_ptp (s : State) (q : PartId) (x : Part) : (s.setPart q x).ptp = s.ptp := rfl
@[simp] theorem State.setPart_ptpSixths (s : State) (q : PartId) (x : Part) : (s.setPart q x).ptpSixths = s.ptpSixths := rfl
@[simp] theorem State.setPart_bays (s : State) (q : PartId) (x : Part) : (s.setPart q x).bays = s.bays := rfl
@[simp] theorem State.setPart_phys (s : State) (q : PartId) (x : Part) : (s.setPart q x).phys = s.phys := rfl
@[simp] theorem State.setPart_bents (s : State) (q : PartId) (x : Part) : (s.setPart q x).bents = s.bents := rfl
@[simp] theorem State.setPart_ring (s : State) (q : PartId) (x : Part) : (s.setPart q x).ring = s.ring := rfl
@[simp] theorem State.setPart_lpddr (s : State) (q : PartId) (x : Part) : (s.setPart q x).lpddr = s.lpddr := rfl
@[simp] theorem State.setPart_refresh (s : State) (q : PartId) (x : Part) : (s.setPart q x).refresh = s.refresh := rfl
@[simp] theorem State.setPart_chipmap (s : State) (q : PartId) (x : Part) : (s.setPart q x).chipmap = s.chipmap := rfl
@[simp] theorem State.setPart_linkTab (s : State) (q : PartId) (x : Part) : (s.setPart q x).linkTab = s.linkTab := rfl
@[simp] theorem State.setPart_links (s : State) (q : PartId) (x : Part) : (s.setPart q x).links = s.links := rfl
@[simp] theorem State.setPart_router (s : State) (q : PartId) (x : Part) : (s.setPart q x).router = s.router := rfl
@[simp] theorem State.setPart_arrivals (s : State) (q : PartId) (x : Part) : (s.setPart q x).arrivals = s.arrivals := rfl
@[simp] theorem State.setPart_scarf (s : State) (q : PartId) (x : Part) : (s.setPart q x).scarf = s.scarf := rfl
@[simp] theorem State.setPart_yard (s : State) (q : PartId) (x : Part) : (s.setPart q x).yard = s.yard := rfl
@[simp] theorem State.setPart_hostMem (s : State) (q : PartId) (x : Part) : (s.setPart q x).hostMem = s.hostMem := rfl
@[simp] theorem State.setPart_dirty (s : State) (q : PartId) (x : Part) : (s.setPart q x).dirty = s.dirty := rfl
@[simp] theorem State.setPart_inputs (s : State) (q : PartId) (x : Part) : (s.setPart q x).inputs = s.inputs := rfl
@[simp] theorem State.setPart_outs (s : State) (q : PartId) (x : Part) : (s.setPart q x).outs = s.outs := rfl
@[simp] theorem State.setPart_todo (s : State) (q : PartId) (x : Part) : (s.setPart q x).todo = s.todo := rfl
@[simp] theorem State.setPart_cur (s : State) (q : PartId) (x : Part) : (s.setPart q x).cur = s.cur := rfl
@[simp] theorem State.setPart_phase (s : State) (q : PartId) (x : Part) : (s.setPart q x).phase = s.phase := rfl
@[simp] theorem State.setPart_free (s : State) (q : PartId) (x : Part) : (s.setPart q x).free = s.free := rfl
@[simp] theorem State.setPart_vclocks (s : State) (q : PartId) (x : Part) : (s.setPart q x).vclocks = s.vclocks := rfl
@[simp] theorem State.setPart_touches (s : State) (q : PartId) (x : Part) : (s.setPart q x).touches = s.touches := rfl
@[simp] theorem State.setPart_nextTag (s : State) (q : PartId) (x : Part) : (s.setPart q x).nextTag = s.nextTag := rfl
@[simp] theorem State.setPart_later (s : State) (q : PartId) (x : Part) : (s.setPart q x).later = s.later := rfl
@[simp] theorem State.setPart_queuePairs (s : State) (q : PartId) (x : Part) : (s.setPart q x).queuePairs = s.queuePairs := rfl
@[simp] theorem State.setPart_rebuild (s : State) (q : PartId) (x : Part) : (s.setPart q x).rebuild = s.rebuild := rfl

/-! ## onPart -/

@[simp] theorem State.onPart_clock (s : State) (q : PartId) (f : Part → Part) : (s.onPart q f).clock = s.clock := rfl
@[simp] theorem State.onPart_ptp (s : State) (q : PartId) (f : Part → Part) : (s.onPart q f).ptp = s.ptp := rfl
@[simp] theorem State.onPart_ptpSixths (s : State) (q : PartId) (f : Part → Part) : (s.onPart q f).ptpSixths = s.ptpSixths := rfl
@[simp] theorem State.onPart_bays (s : State) (q : PartId) (f : Part → Part) : (s.onPart q f).bays = s.bays := rfl
@[simp] theorem State.onPart_phys (s : State) (q : PartId) (f : Part → Part) : (s.onPart q f).phys = s.phys := rfl
@[simp] theorem State.onPart_bents (s : State) (q : PartId) (f : Part → Part) : (s.onPart q f).bents = s.bents := rfl
@[simp] theorem State.onPart_ring (s : State) (q : PartId) (f : Part → Part) : (s.onPart q f).ring = s.ring := rfl
@[simp] theorem State.onPart_lpddr (s : State) (q : PartId) (f : Part → Part) : (s.onPart q f).lpddr = s.lpddr := rfl
@[simp] theorem State.onPart_refresh (s : State) (q : PartId) (f : Part → Part) : (s.onPart q f).refresh = s.refresh := rfl
@[simp] theorem State.onPart_chipmap (s : State) (q : PartId) (f : Part → Part) : (s.onPart q f).chipmap = s.chipmap := rfl
@[simp] theorem State.onPart_linkTab (s : State) (q : PartId) (f : Part → Part) : (s.onPart q f).linkTab = s.linkTab := rfl
@[simp] theorem State.onPart_links (s : State) (q : PartId) (f : Part → Part) : (s.onPart q f).links = s.links := rfl
@[simp] theorem State.onPart_router (s : State) (q : PartId) (f : Part → Part) : (s.onPart q f).router = s.router := rfl
@[simp] theorem State.onPart_arrivals (s : State) (q : PartId) (f : Part → Part) : (s.onPart q f).arrivals = s.arrivals := rfl
@[simp] theorem State.onPart_scarf (s : State) (q : PartId) (f : Part → Part) : (s.onPart q f).scarf = s.scarf := rfl
@[simp] theorem State.onPart_yard (s : State) (q : PartId) (f : Part → Part) : (s.onPart q f).yard = s.yard := rfl
@[simp] theorem State.onPart_hostMem (s : State) (q : PartId) (f : Part → Part) : (s.onPart q f).hostMem = s.hostMem := rfl
@[simp] theorem State.onPart_dirty (s : State) (q : PartId) (f : Part → Part) : (s.onPart q f).dirty = s.dirty := rfl
@[simp] theorem State.onPart_inputs (s : State) (q : PartId) (f : Part → Part) : (s.onPart q f).inputs = s.inputs := rfl
@[simp] theorem State.onPart_outs (s : State) (q : PartId) (f : Part → Part) : (s.onPart q f).outs = s.outs := rfl
@[simp] theorem State.onPart_todo (s : State) (q : PartId) (f : Part → Part) : (s.onPart q f).todo = s.todo := rfl
@[simp] theorem State.onPart_cur (s : State) (q : PartId) (f : Part → Part) : (s.onPart q f).cur = s.cur := rfl
@[simp] theorem State.onPart_phase (s : State) (q : PartId) (f : Part → Part) : (s.onPart q f).phase = s.phase := rfl
@[simp] theorem State.onPart_free (s : State) (q : PartId) (f : Part → Part) : (s.onPart q f).free = s.free := rfl
@[simp] theorem State.onPart_vclocks (s : State) (q : PartId) (f : Part → Part) : (s.onPart q f).vclocks = s.vclocks := rfl
@[simp] theorem State.onPart_touches (s : State) (q : PartId) (f : Part → Part) : (s.onPart q f).touches = s.touches := rfl
@[simp] theorem State.onPart_nextTag (s : State) (q : PartId) (f : Part → Part) : (s.onPart q f).nextTag = s.nextTag := rfl
@[simp] theorem State.onPart_later (s : State) (q : PartId) (f : Part → Part) : (s.onPart q f).later = s.later := rfl
@[simp] theorem State.onPart_queuePairs (s : State) (q : PartId) (f : Part → Part) : (s.onPart q f).queuePairs = s.queuePairs := rfl
@[simp] theorem State.onPart_rebuild (s : State) (q : PartId) (f : Part → Part) : (s.onPart q f).rebuild = s.rebuild := rfl

/-! ## log -/

@[simp] theorem State.log_clock (s : State) (e : LogEntry) : (s.log e).clock = s.clock := rfl
@[simp] theorem State.log_ptp (s : State) (e : LogEntry) : (s.log e).ptp = s.ptp := rfl
@[simp] theorem State.log_ptpSixths (s : State) (e : LogEntry) : (s.log e).ptpSixths = s.ptpSixths := rfl
@[simp] theorem State.log_bays (s : State) (e : LogEntry) : (s.log e).bays = s.bays := rfl
@[simp] theorem State.log_parts (s : State) (e : LogEntry) : (s.log e).parts = s.parts := rfl
@[simp] theorem State.log_phys (s : State) (e : LogEntry) : (s.log e).phys = s.phys := rfl
@[simp] theorem State.log_bents (s : State) (e : LogEntry) : (s.log e).bents = s.bents := rfl
@[simp] theorem State.log_ring (s : State) (e : LogEntry) : (s.log e).ring = s.ring := rfl
@[simp] theorem State.log_lpddr (s : State) (e : LogEntry) : (s.log e).lpddr = s.lpddr := rfl
@[simp] theorem State.log_refresh (s : State) (e : LogEntry) : (s.log e).refresh = s.refresh := rfl
@[simp] theorem State.log_chipmap (s : State) (e : LogEntry) : (s.log e).chipmap = s.chipmap := rfl
@[simp] theorem State.log_linkTab (s : State) (e : LogEntry) : (s.log e).linkTab = s.linkTab := rfl
@[simp] theorem State.log_links (s : State) (e : LogEntry) : (s.log e).links = s.links := rfl
@[simp] theorem State.log_router (s : State) (e : LogEntry) : (s.log e).router = s.router := rfl
@[simp] theorem State.log_arrivals (s : State) (e : LogEntry) : (s.log e).arrivals = s.arrivals := rfl
@[simp] theorem State.log_scarf (s : State) (e : LogEntry) : (s.log e).scarf = s.scarf := rfl
@[simp] theorem State.log_hostMem (s : State) (e : LogEntry) : (s.log e).hostMem = s.hostMem := rfl
@[simp] theorem State.log_dirty (s : State) (e : LogEntry) : (s.log e).dirty = s.dirty := rfl
@[simp] theorem State.log_inputs (s : State) (e : LogEntry) : (s.log e).inputs = s.inputs := rfl
@[simp] theorem State.log_outs (s : State) (e : LogEntry) : (s.log e).outs = s.outs := rfl
@[simp] theorem State.log_todo (s : State) (e : LogEntry) : (s.log e).todo = s.todo := rfl
@[simp] theorem State.log_cur (s : State) (e : LogEntry) : (s.log e).cur = s.cur := rfl
@[simp] theorem State.log_phase (s : State) (e : LogEntry) : (s.log e).phase = s.phase := rfl
@[simp] theorem State.log_free (s : State) (e : LogEntry) : (s.log e).free = s.free := rfl
@[simp] theorem State.log_vclocks (s : State) (e : LogEntry) : (s.log e).vclocks = s.vclocks := rfl
@[simp] theorem State.log_touches (s : State) (e : LogEntry) : (s.log e).touches = s.touches := rfl
@[simp] theorem State.log_nextTag (s : State) (e : LogEntry) : (s.log e).nextTag = s.nextTag := rfl
@[simp] theorem State.log_later (s : State) (e : LogEntry) : (s.log e).later = s.later := rfl
@[simp] theorem State.log_queuePairs (s : State) (e : LogEntry) : (s.log e).queuePairs = s.queuePairs := rfl
@[simp] theorem State.log_rebuild (s : State) (e : LogEntry) : (s.log e).rebuild = s.rebuild := rfl

/-! ## emit -/

@[simp] theorem State.emit_clock (s : State) (o : Out) : (s.emit o).clock = s.clock := rfl
@[simp] theorem State.emit_ptp (s : State) (o : Out) : (s.emit o).ptp = s.ptp := rfl
@[simp] theorem State.emit_ptpSixths (s : State) (o : Out) : (s.emit o).ptpSixths = s.ptpSixths := rfl
@[simp] theorem State.emit_bays (s : State) (o : Out) : (s.emit o).bays = s.bays := rfl
@[simp] theorem State.emit_parts (s : State) (o : Out) : (s.emit o).parts = s.parts := rfl
@[simp] theorem State.emit_phys (s : State) (o : Out) : (s.emit o).phys = s.phys := rfl
@[simp] theorem State.emit_bents (s : State) (o : Out) : (s.emit o).bents = s.bents := rfl
@[simp] theorem State.emit_ring (s : State) (o : Out) : (s.emit o).ring = s.ring := rfl
@[simp] theorem State.emit_lpddr (s : State) (o : Out) : (s.emit o).lpddr = s.lpddr := rfl
@[simp] theorem State.emit_refresh (s : State) (o : Out) : (s.emit o).refresh = s.refresh := rfl
@[simp] theorem State.emit_chipmap (s : State) (o : Out) : (s.emit o).chipmap = s.chipmap := rfl
@[simp] theorem State.emit_linkTab (s : State) (o : Out) : (s.emit o).linkTab = s.linkTab := rfl
@[simp] theorem State.emit_links (s : State) (o : Out) : (s.emit o).links = s.links := rfl
@[simp] theorem State.emit_router (s : State) (o : Out) : (s.emit o).router = s.router := rfl
@[simp] theorem State.emit_arrivals (s : State) (o : Out) : (s.emit o).arrivals = s.arrivals := rfl
@[simp] theorem State.emit_scarf (s : State) (o : Out) : (s.emit o).scarf = s.scarf := rfl
@[simp] theorem State.emit_yard (s : State) (o : Out) : (s.emit o).yard = s.yard := rfl
@[simp] theorem State.emit_hostMem (s : State) (o : Out) : (s.emit o).hostMem = s.hostMem := rfl
@[simp] theorem State.emit_dirty (s : State) (o : Out) : (s.emit o).dirty = s.dirty := rfl
@[simp] theorem State.emit_inputs (s : State) (o : Out) : (s.emit o).inputs = s.inputs := rfl
@[simp] theorem State.emit_todo (s : State) (o : Out) : (s.emit o).todo = s.todo := rfl
@[simp] theorem State.emit_cur (s : State) (o : Out) : (s.emit o).cur = s.cur := rfl
@[simp] theorem State.emit_phase (s : State) (o : Out) : (s.emit o).phase = s.phase := rfl
@[simp] theorem State.emit_free (s : State) (o : Out) : (s.emit o).free = s.free := rfl
@[simp] theorem State.emit_vclocks (s : State) (o : Out) : (s.emit o).vclocks = s.vclocks := rfl
@[simp] theorem State.emit_touches (s : State) (o : Out) : (s.emit o).touches = s.touches := rfl
@[simp] theorem State.emit_nextTag (s : State) (o : Out) : (s.emit o).nextTag = s.nextTag := rfl
@[simp] theorem State.emit_later (s : State) (o : Out) : (s.emit o).later = s.later := rfl
@[simp] theorem State.emit_queuePairs (s : State) (o : Out) : (s.emit o).queuePairs = s.queuePairs := rfl
@[simp] theorem State.emit_rebuild (s : State) (o : Out) : (s.emit o).rebuild = s.rebuild := rfl

/-! ## Bays and partitions read back -/

@[simp] theorem State.bay_setBay (s : State) (b : BayId) (x : Bay) : (s.setBay b x).bay b = x := by
  simp [State.bay, State.setBay, Vector.get_eq_getElem]

theorem State.bay_setBay_ne (s : State) (b c : BayId) (x : Bay) (h : c ≠ b) : (s.setBay b x).bay c = s.bay c := by
  have : b.val ≠ c.val := fun e => h (Fin.ext e.symm)
  simp [State.bay, State.setBay, Vector.get_eq_getElem, this]

@[simp] theorem State.bay_onBay (s : State) (b : BayId) (f : Bay → Bay) : (s.onBay b f).bay b = f (s.bay b) := by
  simp [State.onBay]

theorem State.bay_onBay_ne (s : State) (b c : BayId) (f : Bay → Bay) (h : c ≠ b) : (s.onBay b f).bay c = s.bay c := by
  simp [State.onBay, State.bay_setBay_ne s b c _ h]

@[simp] theorem State.me_onMe (s : State) (f : Bay → Bay) : (s.onMe f).me = f s.me := by
  simp [State.onMe, State.me]

@[simp] theorem State.part_setPart (s : State) (q : PartId) (x : Part) : (s.setPart q x).part q = x := by
  simp [State.part, State.setPart, Vector.get_eq_getElem]

theorem State.part_setPart_ne (s : State) (q r : PartId) (x : Part) (h : r ≠ q) : (s.setPart q x).part r = s.part r := by
  have : q.val ≠ r.val := fun e => h (Fin.ext e.symm)
  simp [State.part, State.setPart, Vector.get_eq_getElem, this]

@[simp] theorem State.part_onPart (s : State) (q : PartId) (f : Part → Part) : (s.onPart q f).part q = f (s.part q) := by
  simp [State.onPart]

theorem State.part_onPart_ne (s : State) (q r : PartId) (f : Part → Part) (h : r ≠ q) : (s.onPart q f).part r = s.part r := by
  simp [State.onPart, State.part_setPart_ne s q r _ h]

@[simp] theorem State.part_onBay (s : State) (b : BayId) (f : Bay → Bay) (q : PartId) : (s.onBay b f).part q = s.part q := rfl

@[simp] theorem State.bay_onPart (s : State) (q : PartId) (f : Part → Part) (b : BayId) : (s.onPart q f).bay b = s.bay b := rfl

@[simp] theorem State.partAt_onBay (s : State) (b c : BayId) (f : Bay → Bay) : (s.onBay b f).partAt c = s.partAt c := rfl

@[simp] theorem State.partOf_onBay (s : State) (b c : BayId) (f : Bay → Bay) : (s.onBay b f).partOf c = s.partOf c := rfl

@[simp] theorem State.poleTime_onBay (s : State) (b c : BayId) (f : Bay → Bay) : (s.onBay b f).poleTime c = s.poleTime c := rfl

/-- Two changes of one bay are one. -/
theorem State.onBay_onBay (s : State) (b : BayId) (f g : Bay → Bay) : (s.onBay b f).onBay b g = s.onBay b (fun x => g (f x)) := by
  simp only [State.onBay, State.bay_setBay]
  simp [State.setBay]

/-- A bay set to what it is leaves the state as it is. -/
theorem State.onBay_id (s : State) (b : BayId) : s.onBay b (fun x => x) = s := by
  simp [State.onBay, State.setBay, State.bay, Vector.get_eq_getElem]

end Sys2Proof.Machine
end

