-- ==== Sys2Proof/Laws/Ops.lean ====
section
/-!
SUPPORT. What a move of a slot, a trigger of known value and an engine command can do, said once each (R61, R63, R64, R76, R103).
-/

namespace Sys2Proof.Laws

open Sys2Proof.Machine

/-- A change of a bay depends only on what it makes of the bay. -/
theorem onBay_congr {s : State} {b : BayId} {f g : Bay → Bay} (h : f (s.bay b) = g (s.bay b)) : s.onBay b f = s.onBay b g := by
  simp only [State.onBay, h]

variable {c : Ctl} {s : State} {chk : Val → State → Check} {eff : Val → State → State}

/-- A move whose guard is false does nothing. -/
theorem move_off (h : guardOn s.me.seen c.guard = false) : s.move c chk eff = s := by
  have h' : guardOn (s.bay s.cur).seen c.guard = false := h
  simp [State.move, h']

/-- A move that reads a result port early takes that fault, unless its check has one that ranks before it (R106). -/
theorem move_early {f : Cause × Info} (h : guardOn s.me.seen c.guard = true) (hf : s.me.sourceFault s.myNow c = some f) :
    s.move c chk eff =
      s.raise (s.slotFault c ((chk (movedVal c s) s).early.getD f).1 ((chk (movedVal c s) s).early.getD f).2) := by
  have h' : guardOn (s.bay s.cur).seen c.guard = true := h
  have hf' : (s.bay s.cur).sourceFault (s.now s.cur) c = some f := hf
  simp [State.move, h', hf', movedVal, State.me]

/-- A move whose check fails takes the check's fault. -/
theorem move_refused {f : Cause × Info} (h : Made c s) (hc : chk (movedVal c s) s = some f) :
    s.move c chk eff = s.raise (s.slotFault c f.1 f.2) := by
  have h1 : guardOn (s.bay s.cur).seen c.guard = true := h.1
  have h2 : (s.bay s.cur).sourceFault (s.now s.cur) c = none := h.2
  have h3 : chk ((s.bay s.cur).value c.src) s = some f := hc
  simp [State.move, h1, h2, h3]

/-- A move whose check passes has its effect, with the value moved. -/
theorem move_made (h : Made c s) (hc : chk (movedVal c s) s = none) : s.move c chk eff = eff (movedVal c s) s := by
  have h1 : guardOn (s.bay s.cur).seen c.guard = true := h.1
  have h2 : (s.bay s.cur).sourceFault (s.now s.cur) c = none := h.2
  have h3 : chk ((s.bay s.cur).value c.src) s = none := hc
  simp [State.move, h1, h2, h3, movedVal, State.me]

/-- The first check that fails: none fails when neither does. -/
@[simp] theorem andThen_none (b : Check) : Check.andThen none b = b := rfl

/-- A trigger whose checks pass puts its result in flight, and changes nothing else. -/
theorem trigger_made {id : Nat} {p : ResPort} {lat : Nat} {f : Val → Bay → VReg} (h : Made c s)
    (hc : chk (movedVal c s) s = none) (hp : PortFree s p lat) :
    s.trigger c id p lat chk f = putResult s p lat (f (movedVal c s) s.me) := by
  have h4 : (s.bay s.cur).collides (s.now s.cur) (s.poleTime s.cur) (s.partAt s.cur).held p false lat = false := hp
  have h5 : s.collision p false lat id = none := by simp [State.collision, h4]
  rw [State.trigger, move_made h (by simp [hc, h5])]
  rfl

/-- A trigger without a check of its own. -/
theorem trigger_free {id : Nat} {p : ResPort} {lat : Nat} {f : Val → Bay → VReg} (h : Made c s) (hp : PortFree s p lat) :
    s.trigger c id p lat noCheck f = putResult s p lat (f (movedVal c s) s.me) :=
  trigger_made h rfl hp

/-- A command whose checks pass, whose queue has room, which no hold bars and whose gated write the window takes enters the queue of its
engine. -/
theorem command_made {e : Engine} {op : Nat} {mask : BitVec 72} {leaves : Cmd → Bool} {mk : State → Cmd → Cmd}
    {chk : Cmd → State → Check} {eff : Cmd → Bay → Bay} (h : Made c s) (hq : (s.me.queue e).length < 16)
    (hl : leaves (issuedCmd c s e op mk) = true → (s.partAt s.cur).held = false)
    (hg : op = 281 → s.me.window.gstores < 1024)
    (hw : wordChk e op mask (movedVal c s).addr = none) (hc : chk (issuedCmd c s e op mk) s = none) :
    s.command c e op mask leaves mk chk eff = s.onMe (fun b =>
      let b1 := match shapeUnit e with
        | some u => b.swap u (movedVal c s).addr
        | none => b
      eff (issuedCmd c s e op mk)
        { b1.setQueue e (b1.queue e ++ [issuedCmd c s e op mk]) with nextId := b.nextId + 1 }) := by
  have hg' : gatedChk op s = none := by
    simp only [gatedChk, ite_eq_right_iff]
    exact fun h => absurd h.2 (Nat.not_le.mpr (hg h.1))
  have ht : commandTiming e op (leaves (issuedCmd c s e op mk)) s = none := by
    cases hb : leaves (issuedCmd c s e op mk) with
    | false => simp [commandTiming, queueChk, Nat.not_le.mpr hq, hg']
    | true => simp [commandTiming, queueChk, holdChk, Nat.not_le.mpr hq, hl hb, hg']
  rw [State.command, move_made h ?_]
  · rfl
  · show Check.andThen (commandTiming e op (leaves (issuedCmd c s e op mk)) s)
      (Check.andThen (wordChk e op mask (movedVal c s).addr) (chk (issuedCmd c s e op mk) s)) = none
    rw [ht, hw, hc]
    rfl

end Sys2Proof.Laws
end

