-- ==== Sys2Proof/Tests/Slice0.lean ====
section
/-!
SUPPORT. Tests: words written out from the spec's encodings decode to their instructions; an ill-formed term for each check of
well-formedness; single steps from small states; and for every statement with hypotheses a state and operands that meet them.
-/

namespace Sys2Proof.Tests

open Sys2Proof.Machine

set_option maxRecDepth 100000
set_option exponentiation.threshold 4096

/-! ## Small states -/

/-- The reset state with bay 0, the bay in issue, changed. -/
def withBay (f : Bay → Bay) : State := State.reset.onBay 0 f

/-- A running partition on bent 0. -/
def part0 : Part := { Part.reset with mode := .running, hdr := { Part.reset.hdr with bents := 1 } }

/-- The reset state with partition 0 and bay 0 changed. -/
def withPart (p : Part) (f : Bay → Bay) : State := (State.reset.setPart 0 p).onBay 0 f

/-- The control part of an unguarded move of an immediate. -/
def imm (k : Fin 8) (v : BitVec 9) : Ctl := ⟨k, 0, .imm v⟩

/-- The control part of an unguarded move of lim. -/
def fromLim (k : Fin 8) : Ctl := ⟨k, 0, .lim⟩

/-- The reset state with a value in lim. -/
def withLim (x : BitVec 72) (f : Bay → Bay) : State := withBay (fun b => f { b with regs := { b.regs with lim := x } })

/-- The same in a running partition. -/
def partLim (p : Part) (x : BitVec 72) (f : Bay → Bay) : State :=
  withPart p (fun b => f { b with regs := { b.regs with lim := x } })

/-- A command of an engine with a word, issued in cycle 0. -/
def cmd (op : Nat) (word : BitVec 72) : Cmd := ⟨0, op, word, 0, .replicate 4 0, 0, 0, 0, 0, 0, 0, 64, 0, []⟩

/-! ## Decoding (R84 to R104): every bit written out from the spec's encoding; expected instructions by hand -/

/-- R97: offset 20 of alu0. -/
theorem test_decode_alu : decodeSlot 1 0b001100000100010100010100 = .ok (.ext ⟨1, 3, .g 17⟩ 0) := by decide

/-- R97: offset 32 of alu1. -/
theorem test_decode_alu_b : decodeSlot 3 0b000000001111000101100000 = .ok (.pnot ⟨3, 0, .g 60⟩ 1) := by decide

/-- R98. -/
theorem test_decode_mul : decodeSlot 2 0b000000011000100110000011 = .ok (.mulq ⟨2, 0, .res .mul0R⟩) := by decide

/-- R98. -/
theorem test_decode_div : decodeSlot 3 0b000011000000000110001100 = .ok (.sqrtq ⟨3, 0, .imm 256⟩) := by decide

/-- R98: the id of lsu0 plus 16. -/
theorem test_decode_lsu : decodeSlot 3 0b000000010011110110100111 = .ok (.stp ⟨3, 0, .a 15⟩ 1) := by decide

/-- R98. -/
theorem test_decode_mem0 : decodeSlot 0 0b111100010000000110111000 = .ok (.tevict ⟨0, 15, .a 0⟩) := by decide

/-- R98. -/
theorem test_decode_shape_write : decodeSlot 2 0b000000010111000111000010 = .ok (.wk1Shw ⟨2, 0, .lk⟩) := by decide

/-- R100, R101: 256 + 4k + w. -/
theorem test_decode_vec0 : decodeSlot 4 0b000000110000110110010110 = .ok (.vec0Laneset ⟨4, 0, .res .vec1Vr⟩ .w32) := by decide

/-- R100, R101: 416 + 4k + w. -/
theorem test_decode_vec1 : decodeSlot 5 0b000000101001111000000101 = .ok (.vec1Mulw ⟨5, 0, .m 7⟩ .w16) := by decide

/-- R101: 576 + k. -/
theorem test_decode_vfn : decodeSlot 4 0b000000100111111001001000 = .ok (.optw ⟨4, 0, .v 31⟩) := by decide

/-- R101: 608 + 4k + w. -/
theorem test_decode_vred : decodeSlot 5 0b000000010111011010000100 = .ok (.enc4 ⟨5, 0, .lim⟩ .w8) := by decide

/-- R102. -/
theorem test_decode_engine : decodeSlot 6 0b000000010111010100111000 = .ok (.pegclr ⟨6, 0, .lim⟩) := by decide

/-- R104. -/
theorem test_decode_control : decodeSlot 7 0b101100010101110100010001 = .ok (.endTask ⟨7, 11, .p 6⟩) := by decide

/-- R104. -/
theorem test_decode_system : decodeSlot 7 0b000000010110110100101010 = .ok (.wheel ⟨7, 0, .l 3⟩) := by decide

/-- R95, R96: cluster A reads xba and writes xab. -/
theorem test_decode_move : decodeSlot 0 0b000000010111110001011110 = .ok (.move ⟨0, 0, .res .xba⟩ .xab) := by decide

/-- R99. -/
theorem test_decode_move_vector : decodeSlot 5 0b000000110010010010111001 = .ok (.move ⟨5, 0, .res .vredS⟩ (.op .vredVm)) := by decide

/-- R87: all 20 bits of the payload. -/
theorem test_decode_limm : decodeSlot 7 0b100011111111111111111111 = .ok (.limm 0xFFFFF) := by decide

/-- R92. -/
theorem test_decode_pad : decodeSlot 7 0b000010000000010100000110 = .ok (.padJ) := by decide

/-- R85: no guard but in slot 7. -/
theorem test_refuse_guard : decodeSlot 4 0b100000000000000010000000 = .error (.illegalGuard) := by decide

/-- R95: g32 is out of reach of slots 0 and 1. -/
theorem test_refuse_source : decodeSlot 0 0b000000001000000000000001 = .error (.port false 32) := by decide

/-- R102: slot 6 does not write lk. -/
theorem test_refuse_destination : decodeSlot 6 0b000000000000000001011100 = .error (.port true 92) := by decide

/-- R93: ids 768 to 1023 are reserved. -/
theorem test_refuse_reserved_destination : decodeSlot 7 0b000000000000001100000000 = .error (.port true 768) := by decide

/-- R100, R101: MULQ does not list width b. -/
theorem test_refuse_width : decodeSlot 4 0b000000100000001000001000 = .error (.port true 520) := by decide

/-- R92: the source of a pad is an immediate. -/
theorem test_refuse_pad : decodeSlot 7 0b000000010000000100000110 = .error (.badPad) := by decide

/-! ## Well-formedness: an ill-formed term for each check -/

theorem test_ill_formed_guard : ¬ (Instr.add ⟨0, 8, .g 1⟩ 0).WellFormed := by decide

theorem test_ill_formed_source : ¬ (Instr.add ⟨0, 0, .g 33⟩ 0).WellFormed := by decide

theorem test_ill_formed_destination : ¬ (Instr.move ⟨0, 0, .g 1⟩ (.g 33)).WellFormed := by decide

theorem test_ill_formed_alu_cluster : ¬ (Instr.add ⟨0, 0, .g 1⟩ 1).WellFormed := by decide

theorem test_ill_formed_mul_cluster : ¬ (Instr.mul ⟨1, 0, .g 1⟩).WellFormed := by decide

theorem test_ill_formed_div_cluster : ¬ (Instr.divq ⟨0, 0, .g 1⟩).WellFormed := by decide

theorem test_ill_formed_lsu_cluster : ¬ (Instr.ld ⟨2, 0, .a 1⟩ 0).WellFormed := by decide

theorem test_ill_formed_mem_class : ¬ (Instr.hand ⟨4, 0, .a 1⟩).WellFormed := by decide

theorem test_ill_formed_shape_class : ¬ (Instr.mxShw ⟨6, 0, .a 1⟩).WellFormed := by decide

theorem test_ill_formed_vec_class : ¬ (Instr.vec0Add ⟨0, 0, .a 1⟩ .w8).WellFormed := by decide

theorem test_ill_formed_vec_width : ¬ (Instr.vec1Widen ⟨4, 0, .v 1⟩ .w32).WellFormed := by decide

theorem test_ill_formed_vfn_class : ¬ (Instr.cosq ⟨3, 0, .a 1⟩).WellFormed := by decide

theorem test_ill_formed_vred_class : ¬ (Instr.perm ⟨7, 0, .a 1⟩ .w8).WellFormed := by decide

theorem test_ill_formed_vred_width : ¬ (Instr.lut ⟨4, 0, .v 1⟩ .w32).WellFormed := by decide

theorem test_ill_formed_engine_class : ¬ (Instr.mxgo ⟨7, 0, .a 1⟩).WellFormed := by decide

theorem test_ill_formed_control_class : ¬ (Instr.br ⟨6, 0, .a 1⟩).WellFormed := by decide

theorem test_well_formed : (Instr.vec1Widen ⟨5, 3, .res .vec1Vr⟩ .w16).WellFormed := by decide

/-! ## A step runs the word that stands where the next bundle is fetched -/

/-- R84, R342: alu0.add of g5 is 256 | 5 << 10. -/
theorem test_table_word : decodeTableWord 24 0x1500 = some (.add ⟨0, 0, .g 5⟩ 0) := by decide

/-- R68, R87: a long immediate alone in its bundle gives lim its payload, and the bundle that follows is next. -/
theorem test_step_limm :
    (match step (State.reset.withFetchWord 24 0x8ABCDE) with
      | .next t => decide ((t.bay 0).regs.lim = 0xABCDE ∧ (t.bay 0).pc = 1 ∧ t.todo = [])
      | _ => false) = true := by decide

/-- R85, R105, R297: a reserved guard faults, and with no PAD E at index 0 the task is retired. -/
theorem test_step_illegal_guard :
    (match step (State.reset.withFetchWord 24 0x800000 |>.onBay 0 (fun b => { b with imem := Mem.writeN [] 0 [0, 0, 0x80] })) with
      | .next t => decide ((t.bay 0).tcause = 0x101 ∧ (t.bay 0).tslot = 1 ∧ (t.bay 0).task = none)
      | _ => false) = true := by decide

/-! ## Witnesses: scalar units and plain moves -/

/-- MADE: an unguarded move of an immediate reads no port. -/
theorem wit_made (k : Fin 8) (v : BitVec 9) : Made (imm k v) State.reset := ⟨rfl, rfl⟩

/-- For AluSums, AluLogic, AluShifts, AluChoices, AluConditions, AluBitCounts and the bridges of MoveDestinations. -/
theorem wit_AluSums : Made (imm 0 1) State.reset ∧ PortFree State.reset (aluPort 0) 1 ∧ PortFree State.reset (aluPort 1) 1 ∧
    PortFree State.reset .xab 1 ∧ PortFree State.reset .xba 1 := ⟨wit_made 0 1, rfl, rfl, rfl, rfl⟩

/-- A result that becomes ready in another cycle leaves the port free. -/
theorem wit_AluLogic : Made (imm 2 1) State.reset ∧
    PortFree (withBay (fun b => { b with inflight := [⟨.alu1R, 0, 2, false, some 5⟩] })) (aluPort 1) 1 :=
  ⟨wit_made 2 1, by unfold PortFree; decide⟩

theorem wit_Products : Made (imm 2 3) State.reset ∧ PortFree State.reset .mul0R 3 := ⟨wit_made 2 3, rfl⟩

theorem wit_Quotients : Made (imm 2 0) State.reset ∧ PortFree State.reset .div0R 20 ∧ PortFree State.reset .div0R 14 :=
  ⟨wit_made 2 0, rfl, rfl⟩

theorem wit_AddressSteps : Made (imm 0 1) State.reset ∧ PortFree State.reset (lsuAr 0) 1 ∧ PortFree State.reset (lsuAr 1) 1 :=
  ⟨wit_made 0 1, rfl, rfl⟩

/-- Field 0 of mx is a field; 63 is the last index of level 5 of mx.sh1 and 255 names none. -/
theorem wit_ShapeWrites : Made (imm 0 1) State.reset ∧ (shapeField 0 (State.reset.me.op (shxPort 0)).toNat).isSome = true ∧
    shapeField 0 ((withBay (fun b => { b with ops := b.ops.set 12 255 })).me.op (shxPort 0)).toNat = none :=
  ⟨wit_made 0 1, by decide, by decide⟩

/-- Guard p1, which is 0, and the same guard inverted, which lets the move be made. -/
theorem wit_MovesNotMade_guard : (Instr.add ⟨0, 1, .g 1⟩ 0).ctl? = some ⟨0, 1, .g 1⟩ ∧ guardOn State.reset.me.seen 1 = false ∧
    guardOn State.reset.me.seen 9 = true := by decide

theorem wit_MovesNotMade_early : (Instr.add ⟨0, 0, .res .alu0R⟩ 0).ctl? = some ⟨0, 0, .res .alu0R⟩ ∧
    (let s := (State.reset.onBay 0 (fun b => { b with lead := 1, inflight := [⟨.alu0R, 0, 2, false, some 5⟩] }))
     guardOn s.me.seen 0 = true ∧ s.me.readsEarly s.myNow .alu0R = true) := by decide

/-! ## Witnesses: vector units -/

/-- For LaneSums, LaneLogicAndShifts, LaneConditions, LaneRearrangement and LaneScalars. -/
theorem wit_LaneSums : Made (imm 4 1) State.reset ∧ PortFree State.reset (vecVr 0) 2 ∧ PortFree State.reset (vecVr 1) 2 ∧
    PortFree State.reset (vecMr 0) 2 ∧ PortFree State.reset (vecMr 1) 2 ∧ PortFree State.reset (vecS 0) 2 ∧
    PortFree State.reset (vecS 1) 2 ∧ PortFree State.reset .vredS 4 := ⟨wit_made 4 1, rfl, rfl, rfl, rfl, rfl, rfl, rfl⟩

theorem wit_LaneProducts : Made (imm 4 1) State.reset ∧ PortFree State.reset (vecVr 0) 4 ∧ Width.w16 ≠ .w32 :=
  ⟨wit_made 4 1, rfl, by decide⟩

/-- SHRS with the last base that fits 64 lanes, and NARROW of 16-bit and 32-bit lanes to the last scale register of the format. -/
theorem wit_StochasticWrites_shrs :
    (let s := withBay (fun b => { b with ops := b.ops.set 16 (2 ^ 42 - 64) })
     Made (imm 4 5) s ∧ PortFree s (vecVr 0) 2) ∧
    (let s := withBay (fun b => { b with ops := b.ops.set 16 (2 ^ 42 - 64) })
     (movedVal (imm 4 5) s).addr.toNat < 2 ^ 31 ∧ (s.me.vb 0).toNat % 2 ^ 42 + laneCount 32 ≤ 2 ^ 42) :=
  ⟨⟨⟨by decide, rfl⟩, rfl⟩, by decide⟩

theorem wit_StochasticWrites_narrow :
    (let s := State.reset
     (movedVal (imm 4 255) s).addr.toNat < 2 ^ 33 ∧ (s.me.vb 0).toNat % 2 ^ 42 + laneCount 16 ≤ 2 ^ 42 ∧
       255 < s.half s.cur 256 ∧ scFmt (s.me.scAt 255) = 0 ∧ s.me.scaleBusy 255 s.myNow = false) ∧
    (let s := withBay (fun b => { b with sc := b.sc.set 3 0x10000 })
     scFmt (s.me.scAt 3) = 1 ∧ s.me.scaleBusy 3 s.myNow = false) := by decide

/-- The least and the greatest level of each width. -/
theorem wit_LaneReductions : Made (imm 4 1) State.reset ∧ PortFree State.reset .vredVr 6 ∧ PortFree State.reset .vredS 6 ∧
    (∀ w ∈ [Width.w8, .w16, .w32], ∀ g ∈ [(laneCount w.bits).log2 - 6, (laneCount w.bits).log2],
      laneCount w.bits / 64 ≤ 2 ^ g ∧ 2 ^ g ≤ laneCount w.bits ∧
        ((withBay (fun b => { b with ops := b.ops.set 23 (BitVec.ofNat 2048 g) })).me.op .vredVa).toNat % 16 = g) :=
  ⟨wit_made 4 1, rfl, rfl, by decide⟩

theorem wit_LaneTables : Made (imm 4 1) State.reset ∧ PortFree State.reset .vredVr 4 ∧ PortFree State.reset .vredVr 3 :=
  ⟨wit_made 4 1, rfl, rfl⟩

theorem wit_LaneFunctions : Made (imm 4 1) State.reset ∧ PortFree State.reset .vfnVr 10 := ⟨wit_made 4 1, rfl⟩

/-! ## Witnesses: memory -/

/-- The last byte of the scratchpad, and the last 256. -/
theorem wit_LocalAccesses :
    (let s := withBay (fun b => { b with regs := { b.regs with g := b.regs.g.set 5 2097151 } })
     Made ⟨0, 0, .g 5⟩ s ∧ PortFree s (lsuR 0) 4) ∧
    (let s := withBay (fun b => { b with regs := { b.regs with g := b.regs.g.set 5 2097151 } })
     let t := (movedVal ⟨0, 0, .g 5⟩ s).word
     (s.me.opW (lsuA 0)).toNat < 8 ∧ t.toNat + 2 ^ ((s.me.opW (lsuA 0)).toNat % 4) ≤ s.half s.cur 2097152 ∧
       t.toNat % 2 ^ ((s.me.opW (lsuA 0)).toNat % 4) = 0) ∧
    (let s := withLim 2096896 id
     let off := (movedVal (fromLim 4) s).word.toNat % 2 ^ 21
     off % 128 = 0 ∧ off + 256 ≤ s.half s.cur 2097152) ∧ PortFree State.reset (vecVr 0) 4 :=
  ⟨⟨⟨by decide, rfl⟩, rfl⟩, by decide, by decide, rfl⟩

/-- HLOOK of the largest table, and parameters in the last 16 bytes of the scratchpad with the last base. -/
theorem wit_TableReads :
    Made (imm 4 0) State.reset ∧ PortFree State.reset .vredVr 12 ∧ PortFree State.reset .vredMr 12 ∧ PortFree State.reset .vfnVr 10 ∧
    (let s := withLim (15 * 2 ^ 21) id
     let x := (movedVal (fromLim 4) s).addr
     x.toNat < 2 ^ 26 ∧ x.toNat % 2 ^ 21 % 64 = 0 ∧
       x.toNat % 2 ^ 21 + 64 * 2 ^ (x.toNat / 2 ^ 21 % 32) ≤ s.half s.cur 2097152) ∧
    (let s := withLim (131071 * 2 ^ 42 + (2 ^ 42 - 64)) id
     let x := (movedVal (fromLim 4) s).addr
     x.toNat < 2 ^ 59 ∧ 16 * (x.toNat / 2 ^ 42 % 2 ^ 17) + 16 ≤ s.half s.cur 2097152 ∧ x.toNat % 2 ^ 42 + 63 < 2 ^ 42) :=
  ⟨wit_made 4 0, rfl, rfl, rfl, by decide, by decide⟩

/-! ## Witnesses: shared memory and tags -/

/-- A present page of 64 KiB at address 0 that all may read, write and update, of tiers 4, at physical address 0 of bent 0. -/
def entry0 : TTEntry := ⟨0x483B, false, false, true, none⟩

/-- A running partition with that page and a region on it of a mode whose parties are both bay 0. -/
def partR (mode : Word) : Part := { part0 with tt := [entry0], regions := [⟨0, 0, 0x1000000000000 + mode⟩] }

/-- The last line of the page moved to a VA port in that partition. -/
def atLine (mode : Word) : State := partLim (partR mode) 0xFF80 id

/-- The access passes its checks, with the claim of slot 80 of channel 2. -/
def passes (o : VaOp) (n : Nat) (mode : Word) : Prop :=
  Made (fromLim 0) (atLine mode) ∧
    VaPasses (atLine mode) o n (movedVal (fromLim 0) (atLine mode)).addr ⟨0, 0x483B, .lpddr 0 0xFF80⟩ [.burst 2 80 0]

theorem wit_SharedAccesses_loads : passes (loadOp 0 false) 8 0 ∧ passes (loadOp 1 true) 8 1 := by
  refine ⟨⟨⟨by decide, rfl⟩, ⟨rfl, by decide, by decide, by decide, rfl, by decide, ?_, by decide, by decide⟩⟩,
    ⟨⟨by decide, rfl⟩, ⟨rfl, by decide, by decide, by decide, rfl, by decide, ?_, by decide, by decide⟩⟩⟩ <;> (intro p h; cases h; try rfl)

theorem wit_SharedAccesses_stores : passes (storeOp 0 false) 8 0 ∧ passes (storeOp 1 true) 8 1 := by
  refine ⟨⟨⟨by decide, rfl⟩, ⟨rfl, by decide, by decide, by decide, rfl, by decide, ?_, by decide, by decide⟩⟩,
    ⟨⟨by decide, rfl⟩, ⟨rfl, by decide, by decide, by decide, rfl, by decide, ?_, by decide, by decide⟩⟩⟩ <;> (intro p h; cases h; try rfl)

theorem wit_SharedAccesses_atomics : passes (atomicOp 0 .add) 16 3 ∧ passes fetchOp 8 4 := by
  refine ⟨⟨⟨by decide, rfl⟩, ⟨rfl, by decide, by decide, by decide, rfl, by decide, ?_, by decide, by decide⟩⟩,
    ⟨⟨by decide, rfl⟩, ⟨rfl, by decide, by decide, by decide, rfl, by decide, ?_, by decide, by decide⟩⟩⟩ <;> (intro p h; cases h; try rfl)

theorem wit_SharedAccesses_hand : passes handOp 1 0 ∧
    (let s := atLine 0
     regionAt (s.partAt s.cur) 0xFF80 = some (0, ⟨0, 0, 0x1000000000000⟩) ∧ handChk s 0xFF80 (s.me.opW .mem0A) = none) :=
  ⟨⟨⟨by decide, rfl⟩, ⟨rfl, by decide, by decide, by decide, rfl, by decide, (fun p h => by cases h; rfl), by decide, by decide⟩⟩, by decide⟩

/-- TLOOK with no entry, a fill of the last slot, and the entry of another slot with its tag. -/
theorem wit_TagTable : Made (imm 0 511) State.reset ∧ PortFree State.reset .mem0R 3 ∧ PortFree State.reset .mem0R 4 ∧
    (movedVal (imm 0 255) State.reset).word.toNat < State.reset.half State.reset.cur 512 ∧
    (State.reset.me.opW .mem0A).toNat < State.reset.half State.reset.cur 512 ∧
    (511 < State.reset.half State.reset.cur 512 ∧
      ∃ j < 512, j ≠ 511 ∧ (assocGet 0 [(3, (0x71 : Word))] j).getLsbD 0 = true ∧ (assocGet 0 [(3, (0x71 : Word))] j).toNat / 16 = 7) :=
  ⟨wit_made 0 511, rfl, rfl, by decide, by decide, by decide, 3, by decide, by decide, by decide, by decide⟩

/-! ## Witnesses: engine commands -/

/-- A command word in lim passes the checks of a trigger, its queue has room, and the partition is in no hold. -/
def issuesIn (s : State) (e : Engine) (op : Nat) (mask : BitVec 72) (mk : State → Cmd → Cmd) (chk : Cmd → State → Check) : Bool :=
  let c := fromLim 6
  !(s.partAt s.cur).held && guardOn s.me.seen c.guard && (s.me.sourceFault s.myNow c).isNone && decide ((movedVal c s).addr &&& mask = 0) &&
    ((shapeUnit e).isSome || !(movedVal c s).addr.getLsbD 24) && (chk (issuedCmd c s e op mk) s).isNone &&
    decide ((s.me.queue e).length < 16)

/-- The same in a running partition. -/
def issues (p : Part) (word : BitVec 72) (f : Bay → Bay) (e : Engine) (op : Nat) (mask : BitVec 72) (mk : State → Cmd → Cmd)
    (chk : Cmd → State → Check) : Bool := issuesIn (partLim p word f) e op mask mk chk

/-- Shapes of zeros: a nest of one step, a walk of one row of 128 bytes where sh2 says so. -/
theorem wit_EngineCommands_mx :
    issues part0 0x0 id .mx 256 (fieldMask 25 47) mxgoCmd mxgoChk = true ∧
    issues part0 0x0 (fun b => { b with
      view := b.view.set 0 { Handle.empty with range := some (0, 1) }
      active := b.active.set 0 ((b.active.get 0).set 3 (BitVec.ofNat 256 (2 ^ 129))) }) .mx 257 (fieldMask 30 42)
      (fun t x => { x with fo := t.me.fmtAt (t.me.selIx (bits x.sh3 44 7)) }) drainChk = true ∧
    issues part0 (15 <<< 25) id .mx 258 (fieldMask 29 43) keepCmd
      (fun x t => if t.handleCount t.cur ≤ x.handle then some (.range, anyInfo 258) else none) = true := by decide

/-- A gang of bays 0 and 1. -/
def inGang (f : Bay → Bay) (b : Bay) : Bay := f { b with task := some ⟨0, 0, 1, 0xFF, false⟩ }

/-- A walk of one row of 128 bytes. -/
def oneRow : Vector Shape 4 := #v[0, 0, 127, 0]

theorem wit_EngineCommands_wk :
    issues part0 0 (fun b => { b with active := .replicate 3 oneRow }) .wk0 264 (fieldMask 25 47) walkCmd walkChk = true ∧
    issues part0 (1 <<< 49 ||| 1 <<< 25) (inGang (fun b => { b with active := .replicate 3 oneRow })) .wk0 265 (fieldMask 69 3) walkCmd
      walkChk = true ∧
    issues part0 0 (fun b => { b with active := .replicate 3 oneRow }) .wk1 272 (fieldMask 25 47) walkCmd walkChk = true ∧
    issues part0 (1 <<< 49 ||| 1 <<< 25) (inGang (fun b => { b with active := .replicate 3 oneRow })) .wk1 273 (fieldMask 69 3) walkCmd
      walkChk = true := by decide

theorem wit_EngineCommands_gate :
    issues { part0 with tt := [entry0] } (1 <<< 33) id .gate 280 (fieldMask 35 37) gateCmd gateChk = true ∧
    issues (partR 4) 0 id .gate 281 (fieldMask 62 10) qputCmd qputChk = true := by decide

/-- A descriptor of slot 0 that reduces one byte, and one that sends one. -/
def desc (bc : Bool) (mode : Nat) : RDesc := ⟨0, bc, mode, 0, 1, 1, 0, 0, 0, 0, 0, 0, 0, [0], 0, 0⟩

theorem wit_EngineCommands_coll :
    issuesIn ((partLim part0 (1 <<< 47 ||| 255 <<< 39) (inGang id)).onBay 1 (inGang id)) .coll 288 (fieldMask 60 12) keepCmd xferChk =
      true ∧
    issuesIn ((partLim part0 (1 <<< 47 ||| 16383 <<< 25) (inGang id)).onBay 1 (inGang id)) .coll 289 (fieldMask 60 12) keepCmd
      xferChk = true ∧
    issues { part0 with rds := [desc false 0] } 0 id .coll 290 (fieldMask 58 14) credCmd credChk = true ∧
    issues { part0 with rds := [desc true 0] } 0 id .coll 291 (fieldMask 58 14) credCmd cbcastChk = true ∧
    issues { part0 with tt := [entry0], rds := [desc false 5] } 0 id .coll 292 (fieldMask 63 9) commitCmd commitChk = true := by decide

theorem wit_EngineCommands_rest :
    issues (partR 0) 0 id .scarf 296 (fieldMask 30 42) reshardCmd reshardChk = true ∧
    issues part0 (0xFFFFC0 ||| 1 <<< 61) (inGang id) .jig 304 (fieldMask 69 3) keepCmd jigChk = true ∧
    issues part0 (1 <<< 25) id .peg 312 (fieldMask 58 14) keepCmd
      (fun x _ => if x.word.getLsbD 25 && x.word.getLsbD 57 then some (.reservedField, 312) else none) = true := by decide

/-- Sixteen commands in the queue. -/
theorem wit_EngineCommands_full :
    let s := partLim part0 (1 <<< 25) (fun b => { b with queues := .replicate 8 (List.replicate 16 (cmd 312 0)) })
    (movedVal (fromLim 6) s).addr &&& fieldMask 58 14 = 0 ∧ 16 ≤ (s.me.queue .peg).length := by decide

/-- A SEND, and a walk from a page, in a hold. -/
theorem wit_EngineCommands_hold :
    let s := partLim { part0 with holding := [1] } 0 (fun b => { b with active := .replicate 3 #v[0x30, 0, 127, 0] })
    (s.partAt s.cur).held = true ∧ (s.me.queue .coll).length < 16 ∧ outOfBay (issuedCmd (fromLim 6) s .coll 288 keepCmd) = true ∧
      (s.me.queue .wk0).length < 16 ∧ (issuedCmd (fromLim 6) s .wk0 264 walkCmd).walkLeaves = true := by decide

theorem wit_EngineCommands_rsstat :
    Made (fromLim 6) (withLim 0xFFFFFF id) ∧ PortFree (withLim 0xFFFFFF id) .scarfSt 2 ∧
      (movedVal (fromLim 6) (withLim 0xFFFFFF id)).addr = 0xFFFFFF ∧ (movedVal (fromLim 6) (withLim 0 id)).addr ≠ 0xFFFFFF :=
  ⟨⟨by decide, rfl⟩, rfl, by decide, by decide⟩

/-! ## Witnesses: control flow -/

/-- A bay at bundle 1, in whose instruction memory slot 7 of bundle 2 is PAD C and slot 7 of bundle 3 PAD J. -/
def atBundle1 (x : BitVec 72) : State := partLim part0 x (fun b => { b with
  pc := 1, regs := { b.regs with lk := 0 }, imem := Mem.writeN (Mem.writeN [] 69 [0x06, 0x01, 0x08]) 93 [0x06, 0x05, 0x08] })

/-- BR and CALL to the last bundle and beyond it; CALLI and JMPI to their pads and to a bundle without one; RET to bundle 0. -/
theorem wit_Branches_targets : Made (fromLim 7) (atBundle1 48) ∧
    (let s := atBundle1 10920
     s.me.topLoop = none ∧ (movedVal (fromLim 7) s).word.toInt = 10920 ∧ ((s.me.pc : Int) + 10920 < s.bundleLimit s.cur) ∧
       ¬ ((s.me.pc : Int) + 10921 < s.bundleLimit s.cur) ∧ s.me.seen.lk.toNat = 0) ∧
    (movedVal (fromLim 7) (atBundle1 48)).word.toNat = 48 ∧ (atBundle1 48).me.slot7At 2 = some .padC ∧
    (atBundle1 72).me.slot7At 3 = some .padJ ∧ (atBundle1 72).me.slot7At 2 ≠ some .padJ :=
  ⟨⟨by decide, rfl⟩, by decide, by decide, by decide, by decide, by decide⟩

/-- In no loop the last bundle is a legal target, the one beyond it is none; in a level that starts at bundle 0 and ends at bundle 5 the
end bundle is in reach of a ranged transfer and the one beyond it only of a call; no transfer leaves the end bundle of a level below. -/
theorem wit_Branches_legal :
    (∀ r : Bool, LegalTarget (atBundle1 48) 10921 r ∧ LegalTarget (atBundle1 48) 0 r ∧ ¬ LegalTarget (atBundle1 48) 10922 r) ∧
    (let s := (atBundle1 48).onBay 0 (fun b => { b with loops := [⟨0, 5, 2, []⟩] })
     LegalTarget s 5 true ∧ LegalTarget s 6 false ∧ ¬ LegalTarget s 6 true) ∧
    (let s := (atBundle1 48).onBay 0 (fun b => { b with loops := [⟨0, 5, 2, []⟩, ⟨0, 1, 2, []⟩] })
     ¬ LegalTarget s 5 false) := by
  refine ⟨fun r => ⟨⟨by decide, by decide, by decide, fun l h => by cases h⟩, ⟨by decide, by decide, by decide, fun l h => by cases h⟩,
      fun h => absurd h.2.1 (by decide)⟩, ⟨⟨by decide, by decide, by decide, fun l h => by cases h; decide⟩, ⟨by decide, by decide, by decide,
      fun l _ h => by cases h⟩, fun h => absurd (h.2.2.2 _ rfl rfl).2 (by decide)⟩, fun h => absurd h.2.2.1 (by decide)⟩

/-- BRM of m0, which is all zeros: with bit 35 it is taken, without not; a mixed mask; a bit beyond the fields. -/
theorem wit_Branches_brm :
    (let s := atBundle1 (2 ^ 35 + 1)
     let x := (movedVal (fromLim 7) s).addr
     x.toNat < 2 ^ 36 ∧ x.getLsbD 35 = true ∧ s.me.seen.m.get ⟨x.toNat / 2 ^ 32 % 8, Nat.mod_lt _ (by decide)⟩ = 0 ∧
       (s.me.pc : Int) + (x.setWidth 32).toInt < s.bundleLimit s.cur) ∧
    (let s := atBundle1 (2 ^ 35 - 1)
     let x := (movedVal (fromLim 7) s).addr
     x.getLsbD 35 = false ∧ s.me.seen.m.get ⟨x.toNat / 2 ^ 32 % 8, Nat.mod_lt _ (by decide)⟩ = ~~~(BitVec.allOnes 256)) ∧
    (let s := (atBundle1 0).onBay 0 (fun b => { b with regs := { b.regs with m := b.regs.m.set 0 1 } })
     s.me.seen.m.get 0 ≠ 0 ∧ s.me.seen.m.get 0 ≠ BitVec.allOnes 256) ∧
    2 ^ 36 ≤ (movedVal (fromLim 7) (atBundle1 (2 ^ 36))).addr.toNat := by decide

/-- A descriptor: COUNT, the distance to the end bundle, and four updates from a12 by the steps in a12 on. -/
def loopWord (count len : Nat) : BitVec 72 := BitVec.ofNat 72 (count + len * 2 ^ 32 + 4 * 2 ^ 40 + 12 * 2 ^ 43 + 12 * 2 ^ 47)

/-- Loops of one iteration and of none, whose level is one bundle or 255, with room and in the last level. -/
theorem wit_Loops_push (n : Nat) (hn : n ∈ [0, 3, 4]) :
    let s := partLim part0 (loopWord 1 255) (fun b => { b with loops := List.replicate n ⟨0, 300, 2, []⟩, suspended := 0 })
    let x := (movedVal (fromLim 7) s).addr.toNat
    Made (fromLim 7) s ∧ x < 2 ^ 51 ∧ x % 2 ^ 32 = 1 ∧ x / 2 ^ 32 % 256 = 255 ∧ x / 2 ^ 40 % 8 = 4 ∧ x / 2 ^ 43 % 16 = 12 ∧
      x / 2 ^ 47 % 16 = 12 ∧ s.me.pc + 255 < s.bundleLimit s.cur ∧ s.me.loops.length = n ∧
      ∀ l ∈ s.me.topLoop, s.me.pc + 255 ≤ l.stop := by
  fin_cases hn <;> exact ⟨⟨by decide, rfl⟩, by decide⟩

/-- COUNT 0, with four levels pushed: the level would end one bundle before the last, or with it. -/
theorem wit_Loops_none : ∀ pc ∈ [10665, 10666],
    let s := partLim part0 (loopWord 0 255) (fun b => { b with pc := pc, loops := List.replicate 4 ⟨0, 10921, 2, []⟩ })
    let x := (movedVal (fromLim 7) s).addr.toNat
    x < 2 ^ 51 ∧ x % 2 ^ 32 = 0 ∧ x / 2 ^ 32 % 256 = 255 ∧ (∀ l ∈ s.me.topLoop, s.me.pc + 255 ≤ l.stop) ∧
      (s.me.pc + 255 + 1 = s.bundleLimit s.cur ↔ pc = 10666) := by decide

/-- The end bundle of a level whose index is 0: it repeats at count 2 and leaves at count 1. -/
theorem wit_Loops_end : ∀ n ∈ [1, 2],
    let b : Bay := { Bay.reset with loops := [⟨0, 0, n, [(3, -5)]⟩] }
    b.suspended = 0 ∧ (⟨0, 0, n, [(3, -5)]⟩ : LoopLevel).stop = b.pc ∧ (b.regs.l.toList.getD 0 0).toNat + 1 = 1 := by decide

/-- END in a bay with nothing outstanding, and with a level and a peg; a bundle that ends a task and one that witnesses. -/
theorem wit_TaskEnds : Made (imm 7 0) State.reset ∧ State.reset.me.loops = [] ∧
    (∀ q ∈ State.reset.me.queues.toList, q = []) ∧ (∀ p ∈ State.reset.outstanding State.reset.cur, p = 63) ∧ State.reset.me.pegs = 0 ∧
    (∀ j ∈ State.reset.me.jigs.toList, j = none) ∧ State.reset.me.changing State.reset.myNow = false ∧
    ({ Bay.reset with closing := .ended } : Bay).closing = .ended ∧ ({ Bay.reset with closing := .witness } : Bay).closing = .witness :=
  ⟨wit_made 7 0, by decide⟩

/-- PAD E in slot 7 of bundle 0. -/
def padE0 : Mem := Mem.writeN [] 21 [0x06, 0x09, 0x08]

/-- TRAP outside and inside the handler; RESUME to the last bundle. -/
theorem wit_Traps : Made (imm 7 9) State.reset ∧ State.reset.me.handlerActive = false ∧
    (let s := partLim part0 (24 * 10921) (fun b => { b with tcause := 1 })
     Made (fromLim 7) s ∧ s.me.handlerActive = true ∧ s.me.loops.length ≤ s.me.suspended ∧
       (movedVal (fromLim 7) s).word.toNat / 24 < s.bundleLimit s.cur) :=
  ⟨wit_made 7 9, by decide, ⟨by decide, rfl⟩, by decide, by decide, by decide⟩

/-- A software trap where bundle 0 has PAD E, in a handler, and where it has none. -/
theorem wit_Traps_entry : handling .softwareTrap = .trap ∧ State.reset.me.dry = none ∧ State.reset.me.padE = false ∧
    (withBay (fun b => { b with imem := padE0 })).me.padE = true ∧ (withBay (fun b => { b with tcause := 1 })).me.handlerActive = true := by
  decide

/-! ## Witnesses: the system unit -/

/-- The first and the last register of each table, of the yard's, and one that is not listed. -/
theorem wit_SystemRegisters_read : (∀ v : BitVec 9, Made (imm 7 v) State.reset) ∧ PortFree State.reset .systemR 1 ∧
    (∀ x ∈ [0x02, 0x10, 0x1F, 0x100, 0x1FF, 0x07, 0x800, 0xFFF],
      (movedVal (fromLim 7) (withLim (BitVec.ofNat 72 x) id)).addr.toNat = x) ∧
    State.reset.sysRead State.reset.cur 0x07 = none ∧ State.reset.sliced State.reset.cur = false :=
  ⟨fun v => wit_made 7 v, rfl, by decide, rfl, rfl⟩

/-- SYSW of a15 to the last scale register; both halves of the last translation entry. -/
theorem wit_SystemRegisters_write :
    (let x := (movedVal (fromLim 7) (withLim 0xF1FF id)).addr
     x.toNat < 2 ^ 16 ∧ x.toNat % 2 ^ 12 = 0x100 + 255 ∧ State.reset.me.scaleBusy 255 State.reset.myNow = false ∧
       State.reset.commitNames State.reset.cur 255 = false) ∧
    (let s := partLim (partR 0) (2 ^ 12) id
     (movedVal (fromLim 7) s).addr.toNat < 2 ^ 13 ∧ (s.partAt s.cur).tt[0]? = some entry0 ∧ s.partOf s.cur = some 0 ∧
       0 < (s.part 0).tt.length) := by decide

/-- A template 0 of bay 0 or of another. -/
def template (bay : Nat) : Entry := ⟨bay, 0, 0, 0, 0, 0, 0, 0, 0, 0, 0, true, 0, none, none, []⟩

/-- A spawn of bay 23 and of the bay itself, its arguments in the last 64 bytes of the scratchpad, its answer in p7; queue free. -/
theorem wit_Spawns : ∀ bay ∈ [0, 23],
    let s := partLim { part0 with entries := [template bay] } (BitVec.ofNat 72 (bay * 2 ^ 16 + 32767 * 2 ^ 24 + 7 * 2 ^ 39)) id
    let x := (movedVal (fromLim 7) s).addr
    (guardOn s.me.seen 0 = true ∧ s.me.sourceFault s.myNow (fromLim 7) = none) ∧ s.partOf s.cur = some 0 ∧ x.toNat < 2 ^ 42 ∧
      x.toNat / 2 ^ 39 % 8 = 6 + 1 ∧ x.toNat / 2 ^ 16 % 2 ^ 8 = bay ∧ (s.part 0).hasBay bay = true ∧
      ((s.part 0).template bay 0).isSome = true ∧ 64 * (x.toNat / 2 ^ 24 % 2 ^ 15) + 64 ≤ s.half s.cur 2097152 ∧
      (s.part 0).held = false := by decide

/-- A gang of bays 0 and 1 with and without the other's GSYNC. -/
theorem wit_GangSync : ∀ g ∈ [none, some (7 : BitVec 8)],
    let s := (withPart part0 (inGang id)).onBay 1 (inGang (fun b => { b with gsync := g }))
    guardOn s.me.seen 0 = true ∧ (movedVal (imm 7 7) s).addr.toNat < 256 ∧ s.gangOf s.cur ≠ 0 ∧ (s.partAt s.cur).held = false ∧
      ((∀ b : BayId, bentOf b = bentOf s.cur → s.gangOf b = s.gangOf s.cur → b ≠ s.cur → (s.bay b).gsync = some 7) ↔ g = some 7) := by
  decide

/-! ## Witnesses: results and accesses -/

/-- A result due in this cycle behind one of the same port that is not; its port is held by none before it. -/
theorem wit_LocalPerforms_result :
    let l1 : List Result := [⟨.alu0R, 0, 2, false, some 5⟩]
    let r : Result := ⟨.alu0R, 0, 0, false, some 7⟩
    let s := withBay (fun b => { b with inflight := l1 ++ r :: [] })
    (s.bay 0).inflight = l1 ++ r :: [] ∧ r.value = some 7 ∧ r.due ≤ s.now 0 ∧
      ∀ x ∈ l1, x.port = .alu0R → x.isDue (s.now 0) (s.poleTime 0) = false := by decide

/-- An access of the bay in issue, with id 0, at an address, due now. -/
def access (kind : AccKind) (addr : Addr) (size : Nat) (port : Option ResPort) (place : Option Place) : Access :=
  ⟨0, kind, addr, size, true, 0xFF, 1, false, false, 0, place, port, 0, 0, 0⟩

/-- A bay with one access in flight. -/
def holdsAcc (a : Access) (b : Bay) : Bay := { b with acc := [a] }

/-- Each kind at the end of the scratchpad; an optimiser routine with its parameters there. -/
theorem wit_LocalPerforms_kinds : ∀ a ∈ [access .ld 2097144 8 (some .lsu0R) none, access .ldv 2096896 256 (some .vec0Vr) none,
      access .st 2097151 1 none none, access .stv 2096896 256 none none, access .hlook 0 64 none none,
      access (.opt 2 0 3 5) (131071 * 2 ^ 42) 16 none none],
    let s := withBay (holdsAcc a)
    (s.bay 0).acc.find? (fun x => decide (x.id = 0)) = some a ∧ s.accDue 0 a = true ∧ (s.bay 0).scratch.wf = true ∧
      (s.bay 0).wrote = [] ∧ (s.bay 0).linesNow + 2 ≤ 256 := by decide

/-- Each kind of shared access that performs, with its region's mode, to a line of the right state and of the wrong one. -/
theorem wit_SharedPerforms : ∀ x ∈ [(AccKind.ldg, RKind.ldg, (0 : Word), false), (.ldc, .ldc, 1, true), (.stg, .stg, 0, false),
      (.stp, .stp, 1, false), (.atomic .add, .atomic, 3, false), (.hand, .hand, 0, false), (.fetchAdd, .fetchAdd, 4, false)],
    let a := access x.1 0xFF80 8 (some .lsu0R) (some (.lpddr 0 0xFF80))
    let p : Part := { partR x.2.2.1 with full := if x.2.2.2 = true then [511] else [] }
    let s := withPart p (holdsAcc a)
    (s.bay 0).acc.find? (fun y => decide (y.id = 0)) = some a ∧ s.accDue 0 a = true ∧
      lineChk (s.partAt 0) (s.bay 0) x.2.1 a.addr = none ∧ (s.bay 0).pending = none := by decide

theorem wit_SharedPerforms_faults :
    lineChk (partR 1) .reset .ldg 0xFF80 = some (.channelLine, 0xFF80) ∧ lineChk (partR 1) .reset .ldc 0xFF80 = some (.channelLine, 0xFF80) ∧
    lineChk { partR 1 with full := [511] } .reset .stg 0xFF80 = some (.channelLine, 0xFF80) ∧
    lineChk { partR 1 with full := [511] } .reset .stp 0xFF80 = some (.channelLine, 0xFF80) := by decide

/-! ## Witnesses: jigs, pegs and gates -/

/-- A command that consumes no peg and produces peg 5, issued in cycle 0. -/
def cmd5 (op : Nat) (word : BitVec 72) : Cmd := cmd op (word &&& 0xFFFFFFFFFFFF000000 ||| 0xFFFFC5)

/-- A bay with one command at the head of an engine's queue, in cycle 1. -/
def queued (e : Engine) (c : Cmd) (b : Bay) : Bay := { b.setQueue e [c] with lead := 1 }

/-- A JIG with one micro-PC in use; a PEGCLR of peg 63; a jig that is done. -/
theorem wit_JigsAndPegs :
    (let c := cmd5 304 (BitVec.ofNat 72 (2 ^ 61))
     let s := withBay (fun b => queued .jig c { b with jigs := b.jigs.set 0 (some ⟨0, 0, 1, 2, 1, 0, 63, false, false⟩) })
     Begins s 0 .jig c [] ∧ (s.bay 0).jigs.get 1 = none ∧ ∀ i : Fin 2, i < 1 → (s.bay 0).jigs.get i ≠ none) ∧
    (let c := cmd5 312 (BitVec.ofNat 72 (2 ^ 25 + 2 ^ 57))
     Begins (withBay (queued .peg c)) 0 .peg c [] ∧ c.ppeg = 5) ∧
    (let r : JigRun := ⟨0, 0, 1, 2, 1, 1, 5, false, true⟩
     ((withBay (fun b => { b with jigs := b.jigs.set 1 (some r) })).bay 0).jigs.get 1 = some r ∧ r.done = true) :=
  ⟨⟨⟨rfl, by decide, by decide⟩, by decide⟩, ⟨⟨rfl, by decide, by decide⟩, by decide⟩, by decide⟩

/-- A gate at the last 16 bytes of the page, SET and ADD; a gate of EXPECT 2 that 3 have reached, and one that none has. -/
theorem wit_GateEvents_begin : ∀ k ∈ [0, 1],
    let c : Cmd := { cmd5 280 (BitVec.ofNat 72 (k * 2 ^ 33)) with a0 := 0xFFF0, a1 := 0xFFFFFFFFFFFF }
    let p : Part := { part0 with tt := [entry0] }
    let s := withPart p (queued .gate c)
    let t := withPart p (fun b => { b with gates := [⟨3, c, 0⟩] })
    Begins s 0 .gate c [] ∧ c.op = 280 ∧ (s.partAt 0).held = false ∧ regionAt (s.partAt 0) (c.a0.toNat % 2 ^ 64) = none ∧
      (t.bay 0).gates.find? (fun x => decide (x.id = 3)) = some ⟨3, c, 0⟩ ∧ t.partOf 0 = some 0 ∧ (t.part 0).held = false ∧
      gatePlace (t.part 0) c.a0 = some (.lpddr 0 0xFFF0) ∧ c.word.toNat / 2 ^ 33 % 4 = k := by
  intro k hk
  fin_cases hk <;> exact ⟨⟨rfl, by decide, by decide⟩, by decide⟩

/-- A gate of EXPECT 2 that 3 have reached, and one that none has. -/
theorem wit_GateEvents_completion : ∀ n ∈ [0, 3],
    let p : Part := { part0 with tt := [entry0], gatesDue := [0] }
    let s : State := { State.reset.setPart 0 p with
      lpddr := State.reset.lpddr.set 0 (Mem.writeN [] 0 [2, 0, 0, 0, 0, 0, BitVec.ofNat 8 n]) }
    (s.part 0).mode ≠ .preempted ∧ (0 : Addr) ∈ (s.part 0).gatesDue ∧ gatePlace (s.part 0) 0 = some (.lpddr 0 0) ∧
      gateExpect (s.gateAt (.lpddr 0 0)) = 2 ∧ gateArrived (s.gateAt (.lpddr 0 0)) = n := by decide

/-- A QPUT on the page in a QUEUE region with the last packet; its claim and its landing in the last word. -/
theorem wit_QueuePuts :
    (let c : Cmd := { cmd5 281 (BitVec.ofNat 72 (32767 * 2 ^ 29)) with a0 := 0 }
     let s := withPart (partR 4) (queued .gate c)
     Begins s 0 .gate c [] ∧ (s.partAt 0).held = false ∧ inQueue (s.partAt 0) c.a0 = true ∧
       qputVaChk (s.partAt 0) c.a0 = .ok ⟨0, 0x483B, .lpddr 0 0⟩) ∧
    (∀ r ∈ [none, some none, some (some 1)],
      let c : Cmd := cmd5 281 (BitVec.ofNat 72 (262143 * 2 ^ 44))
      let g : QputRun := ⟨3, c, 0, 0, .lpddr 0 0, 0, List.replicate 64 7, r, 0⟩
      let s := withPart (partR 4) (fun b => { b with qputs := [g] })
      (s.bay 0).qputs.find? (fun x => decide (x.id = 3)) = some g ∧ (s.partAt 0).held = false ∧ g.claimDue ≤ s.poleTime 0 ∧
        c.qres = 2097144 ∧ (s.bay 0).scratch.wf = true ∧ (s.bay 0).wrote = [] ∧ (s.bay 0).linesNow < 256) ∧
    (let g : QputRun := ⟨3, cmd 281 0, 0, 0, .lpddr 0 0, 0, [], some (some 1), 0⟩
     translate (partR 4) (g.slotVa 1) ⟨false, true, false⟩ false = .ok ⟨0, 0x483B, tePlace 0x483B (vaNat (g.slotVa 1))⟩) :=
  ⟨⟨⟨rfl, by decide, by decide⟩, by decide, by decide, rfl⟩, by decide, rfl⟩

/-! ## Witnesses: frames, pages and stops -/

/-- A pod plan of one chip. -/
def fab1 : FabHeader := ⟨(1, 1, 1), 0, 1, 0⟩

theorem wit_Frames_start :
    (∀ e ∈ [0, 1],
      let s := State.reset.setPart 0 { part0 with mode := .waiting, pod := { part0.pod with base := e } }
      (s.part 0).mode = .waiting ∧ (s.part 0).awaiting = [] ∧ (s.part 0).podReady s.clock 0 = true ∧
        (0 ≤ (s.part 0).podCycle s.clock ↔ e = 0)) ∧
    (∀ i ∈ [false, true], ∀ f ∈ [none, some fab1],
      let s := State.reset.setPart 0 { part0 with starting := true, idleDue := i, fab := f }
      (s.part 0).mode = .running ∧ (s.part 0).starting = true ∧ (s.part 0).stall = 0 ∧ (s.part 0).held = false ∧
        (s.part 0).bringing = [] ∧ (s.part 0).idleDue = i ∧ (s.part 0).podReady s.clock ((s.part 0).framec + 1) = f.isNone) := by
  decide

/-- An entry of bay 0 at the first tick of every frame. -/
def entryAt0 : Entry := ⟨0, 0, 0, 0, 10, 0, 0, 0, 3, 0, 7, false, 0, none, none, []⟩

theorem wit_Frames_release :
    let r : Release := ⟨0, 0, .story, 0, 0, [], none, []⟩
    let p : Part := { part0 with entries := [entryAt0] }
    (let s := withPart p id
     s.partOf 0 = some 0 ∧ s.releaseNow (s.part 0) 0 .story 0 = some r ∧ (s.bay 0).runq = []) ∧
    (let s := withPart p (fun b => { b with runq := [r] })
     s.partOf 0 = some 0 ∧ headOf (s.bay 0).runq = some r ∧ (s.part 0).entryOf 0 0 = some entryAt0 ∧ (s.bay 0).mode = .idle ∧
       (s.part 0).poleRuns = true) ∧
    (let s := withPart p (fun b => { b with mode := .retiring })
     (s.bay 0).mode = .retiring ∧ (s.bay 0).busyCommands = false ∧ s.scarfBusy 0 = false) := by decide

/-- A refresh slot at entry 0 of channel 0; a hold of 2,340 cycles. -/
theorem wit_PagesAndRollback_refresh :
    (let s := State.reset.setPart 0 { part0 with chTab := Mem.writeN [] 0 [0xFE] }
     s.partOfChannel 0 = some 0 ∧ (s.part 0).poleRuns = true ∧ (s.part 0).polec % 2 = 0 ∧
       refreshStart (s.part 0) 0 ((s.part 0).polec / 2) = true) ∧
    (let s : State := { State.reset.setPart 0 { part0 with stall := 9 } with clock := 2340 }
     s.partOfChannel 0 = some 0 ∧ (s.part 0).poleRuns = false ∧ s.refresh.get 0 + 2340 ≤ s.clock) := by decide

/-- A page whose copy is under way, from the host and on this chip; a page that is asked for. -/
theorem wit_PagesAndRollback_pages :
    (∀ m ∈ [false, true],
      let c : CopyRun := ⟨0, .migrate, 0, 5, 0, false, m⟩
      let s := State.reset.setPart 0 { partR 0 with copies := [c] }
      (s.part 0).tt[0]? = some entry0 ∧ (s.part 0).copies.find? (fun c => decide (c.entry = 0)) = some c ∧ c.moving = m) ∧
    (let s := State.reset.setPart 0 { partR 0 with bringing := [(0, 0, 0)] }
     (s.part 0).tt[0]? = some entry0 ∧ (∃ y ∈ (s.part 0).bringing, y.1 = 0) ∧ tePlace entry0.raw 0 = .lpddr 0 0) := by decide

/-- A page of the host that the comparator chose, and free frames for it, where a channel holds 4 GiB. -/
theorem wit_PagesAndRollback_copy (h : Config.channelGiB = 4) :
    let e : TTEntry := ⟨0x6D3B, false, false, true, none⟩
    let p : Part := { part0 with tt := [e], decisions := [(0, .migrate)] }
    let s := State.reset.setPart 0 p
    (s.part 0).copies.find? (fun c => decide (c.entry = 0)) = none ∧
      (s.part 0).decisions.find? (fun d => decide (d.1 = 0)) = some (0, .migrate) ∧
      s.findFrames (s.part 0) (teSize e.raw / 65536) = some (0, 0) := by
  refine ⟨by decide, by decide, ?_⟩
  unfold State.findFrames freeRun frameLimit reservedFrames bentFrames
  rw [h]
  rfl

theorem wit_PagesAndRollback_rollback :
    (let f : Pending := ⟨⟨.earlyRead, 3, 0, false⟩, some 24, none, none⟩
     let s := withPart part0 (fun b => { b with mode := .running, imem := padE0, pending := some f })
     s.partOf 0 = some 0 ∧ (s.bay 0).pending = some f ∧ (s.part 0).bringing = [] ∧ (s.part 0).restartsOf 0 = none ∧
       (s.bay 0).handlerActive = false ∧ (s.bay 0).padE = true) ∧
    (let s := withPart (partR 0) (fun b => { b with pending := some ⟨⟨.translation, 0, 0, false⟩, some 24, none, none⟩ })
     findEntry (s.part 0).tt 0 = some (0, entry0.raw) ∧ (s.part 0).tt[0]? = some entry0 ∧ entry0.backed = true) ∧
    (∀ same ∈ [true, false],
      let ok : RerunEnd := ⟨3, [], [⟨9, 0x1000, [1]⟩], none, none⟩
      let r : RerunEnd × RerunEnd := (ok, if same = true then ok else { ok with bundles := 2 })
      let h : HwFault := ⟨.baySram, 1, [r], ok.escapes⟩
      let s := State.reset.setPart 0 { part0 with fab := some fab1 }
      s.partOf 0 = some 0 ∧ (s.part 0).mode = .running ∧ (s.part 0).restartsOf 0 = none ∧ (s.bay 0).pending = none ∧
        h.cause = .baySram ∧ rerunPage r = none ∧ rerunsAgree r = same ∧ r.2.fault = none ∧
        signature r.1.escapes = signature h.escapes ∧ signature r.2.escapes = signature h.escapes ∧ (s.part 0).fab.isSome = true) := by
  decide

/-- The witness of a window, with nothing undone yet. -/
theorem wit_PagesAndRollback_restore :
    let b : Bay := { Bay.reset with window := { Bay.reset.window with witness := some Bay.reset.witnessNow } }
    b.window.witness = some Bay.reset.witnessNow ∧ b.window.undo = [] ∧ (b.store .opA).wf = true := by decide

theorem wit_Stops_preempt :
    (let s := State.reset.setPart 0 { part0 with preempt := true, ckDue := true }
     (s.part 0).preempt = true ∧ (s.part 0).ckDue = true ∧ (s.part 0).mode = .running ∧ s.preemptPoint 0 = true) ∧
    (let s := State.reset.setPart 0 { part0 with mode := .checkpointed, ckDue := true, ckGo := true, hdr := { part0.hdr with fexp := 12 } }
     s.allStopped = true ∧ (s.part 0).mode = .checkpointed ∧ (s.part 0).ckGo = true ∧
       (s.part 0).podCycle (4095 + 1) % ((s.part 0).frameLen * s.rateOf (s.part 0) : Nat) = 0 ∧
       (s.part 0).podCycle 4095 % ((s.part 0).frameLen * s.rateOf (s.part 0) : Nat) ≠ 0) := by decide

theorem wit_Stops_resume :
    let p : Part := { part0 with
      mode := .preempted, saved := part0.bays.map (fun b => ⟨b.val, .reset⟩), hdr := { part0.hdr with fexp := 12 } }
    let s : State := { State.reset.setPart 0 p with clock := 4095 }
    ((s.part 0).mode = .preempted ∧ s.holders (s.part 0).hdr.bents = [] ∧ s.bentsHealthy (s.part 0).hdr.bents = true ∧
      s.outranked (s.part 0) = false ∧ (s.part 0).podCycle (s.clock + 1) % ((s.part 0).frameLen * s.rateOf (s.part 0) : Nat) = 0) ∧
      p.saved = p.bays.map (fun b => ⟨b.val, .reset⟩) :=
  ⟨by decide, rfl⟩

/-- A plan image of a header, the story-pole header at 64 and the memory header at 128, of partition 0 on bent 0. -/
def image : List Byte :=
  leBytes 64 (1 + 1 * 2 ^ 8 + 8 * 2 ^ 16 + 192 * 2 ^ 32 + 64 * 2 ^ 64 + 128 * 2 ^ 96) ++
    leBytes 64 (1 + 1 * 2 ^ 8 + 1 * 2 ^ 24 + 12 * 2 ^ 32 + 1 * 2 ^ 200 + 6 * 2 ^ 232) ++ List.replicate 64 0

/-- With the customer memory as it should be the image forms its partition now; in no case is an empty image a plan. -/
theorem wit_Stops_dispatch (h : Config.memoryOk = true) :
    (let s : State := { State.reset with yard := { State.reset.yard with planq := [⟨1, image⟩] } }
     s.nextPlan = some ⟨1, image⟩ ∧ s.forming image = .now) ∧
    (let s : State := { State.reset with yard := { State.reset.yard with planq := [⟨1, []⟩] } }
     s.nextPlan = some ⟨1, []⟩ ∧ s.forming [] = .refused 333) := by
  simp only [State.nextPlan, State.forming, h]
  decide

/-- Chips 1 to 7 are sliced, so that none can take chip 0; a pod plan that has a checkpoint. -/
theorem wit_Stops_recovery :
    (let s : State := { State.reset.setPart 0 { part0 with fab := some fab1 } with
       chipmap := (List.range 7).map (fun k => (k + 1, 0x8000)) }
     s.podHeader = some fab1 ∧ 0 < fab1.nlchip ∧ s.takerOf fab1 0 = none) ∧
    (let k : Checkpoint := ⟨⟨5, 0, [], [], [], [], 0, 0, []⟩, [], []⟩
     let s := State.reset.setPart 0 { part0 with fab := some fab1, checkpoint := some k, hdr := { part0.hdr with halffit := true } }
     s.podHeader = some fab1 ∧ fab1.nlchip ≤ 1 ∧ (s.part 0).fab = some fab1 ∧ (∀ q : PartId, q ≠ 0 → (s.part q).fab = none) ∧
       (s.part 0).mode ≠ .unformed ∧ (s.part 0).mode ≠ .preempted ∧ s.rateOk (s.part 0) = true ∧
       (s.part 0).checkpoint = some k) := by
  decide

/-! ## Witnesses: the matrix unit, walkers and transfers -/

/-- A nest of one step of 128 K values, with its operands in format 0. -/
def nest : Cmd := { cmd5 256 0 with sh := #v[0, 0, BitVec.ofNat 256 (127 * 2 ^ 58), 0] }

theorem wit_Matrix_nest :
    (let s := withBay (queued .mx nest)
     Begins s 0 .mx nest [] ∧ nest.op = 256 ∧ (s.bay 0).nests = [] ∧ (s.bay 0).drains = [] ∧ 1 < nest.tc) ∧
    (let r : NestRun := ⟨nest, 0, [], [], [], [], [], [], [], false⟩
     let s := withBay (fun b => { b with nests := [r], lead := 127 })
     (s.bay 0).nests = [r] ∧ r.begun ≤ s.now 0 ∧ (s.now 0 - r.begun) % r.cmd.tc + 1 = r.cmd.tc ∧
       (s.now 0 - r.begun) / r.cmd.tc + 1 = r.cmd.steps) ∧
    (let s := withBay (fun b => { b with tails := [⟨nest, 0⟩] })
     (s.bay 0).tails = [⟨nest, 0⟩] ∧ 0 ≤ s.now 0) :=
  ⟨⟨⟨rfl, by decide, by decide⟩, by decide⟩, by decide, by decide⟩

/-- An addition of one K value to handle 15, where four handles are noted in the window. -/
theorem wit_Matrix_addition :
    let st : MxStep := ⟨0, 0, 15, 0, 0, 1, 0, 0, 0, [], [], true, none, false, [(List.replicate 128 3, List.replicate 128 (-3))]⟩
    let s := withBay (fun b => { b with adds := [st], window := { b.window with handles := [0, 1, 2, 3] } })
    (s.bay 0).adds = [st] ∧ st.due ≤ s.now 0 ∧ st.handle < 16 ∧ st.fault = none ∧ st.void = false ∧
      expsDiffer ((s.bay 0).handle st.handle).ba (stepExps st.fa st.sa) = false ∧
      expsDiffer ((s.bay 0).handle st.handle).bb (stepExps st.fb st.sb) = false ∧
      (s.bay 0).window.handles.length < (if s.sliced 0 = true then 2 else 5) ∧
      ∀ p ∈ st.rows, p.1.length = 128 ∧ p.2.length = 128 := by decide

/-- A drain and a clear of handle 15. -/
theorem wit_Matrix_drain : ∀ op ∈ [257, 258],
    let c := cmd5 op (BitVec.ofNat 72 (15 * 2 ^ 25))
    let s := withBay (queued .mx c)
    Begins s 0 .mx c [] ∧ c.op = op ∧ c.handle = 15 ∧ (s.bay 0).owes c.handle (s.now 0) = false ∧ (s.bay 0).drains = [] ∧
      (s.bay 0).scaleBusy (fmtScale c.fo) (s.now 0) = false ∧
      (s.bay 0).window.handles.length < if s.sliced 0 = true then 2 else 5 := by
  intro op h
  fin_cases h <;> exact ⟨⟨rfl, by decide, by decide⟩, by decide⟩

/-- A row of two bytes at the end of the scratchpad, the cycle of its landing; the cycle of the release; the end. -/
theorem wit_Matrix_rows :
    (let d : DrainRun := ⟨cmd5 257 0, 0, 15, true, 255, 5, .scratch, [(0, [(2097150, [1, 2])])], []⟩
     let s := withBay (fun b => { b with drains := [d], lead := 2 })
     (s.bay 0).drains = [d] ∧ d.rows.find? (fun p => decide (d.begun + p.1 + 2 = s.now 0)) = some (0, [(2097150, [1, 2])]) ∧
       s.now 0 ≠ d.begun + 127 ∧ d.store = .scratch ∧ (s.bay 0).scratch.wf = true ∧ (s.bay 0).wrote = [] ∧
       (s.bay 0).linesNow + ((2097150 + 2 - 1) / 128 - 2097150 / 128 + 1) ≤ 256) ∧
    (∀ n ∈ [127, 130],
      let d : DrainRun := ⟨cmd5 257 0, 0, 15, true, 255, 5, .scratch, [], []⟩
      let s := withBay (fun b => { b with drains := [d], lead := n })
      (s.bay 0).drains = [d] ∧ d.rows.find? (fun p => decide (d.begun + p.1 + 2 = s.now 0)) = none ∧ d.release = true ∧
        s.now 0 = d.begun + n ∧ d.handle < 16 ∧ (s.bay 0).window.handles.length < (if s.sliced 0 = true then 2 else 5) ∧
        d.tail = [] ∧ d.reg < 256) := by decide

/-- A walk of the last two units of the scratchpad, from A0. -/
def walk2 : Cmd := { cmd5 264 0 with
  sh := #v[BitVec.ofNat 256 (128 * 2 ^ 38), BitVec.ofNat 256 (128 * 2 ^ 38), BitVec.ofNat 256 (127 + 2 ^ 20), 0]
  a0 := 2096896, a1 := 2096896, unit := 128 }

theorem wit_Walks_begin :
    let s := withBay (queued .wk1 walk2)
    Begins s 0 (if (1 : Fin 2) = 0 then .wk0 else .wk1) walk2 [] ∧ (s.bay 0).walksOf 1 = [] ∧ walk2.bothLocal = true ∧
      walk2.isAsync (s.partAt 0) = false ∧ s.inFlightFull 0 = false ∧ (walk2.wend false).sp = 0 ∧
      0 ≤ walk2.woff false (walk2.wu 0) ∧ walk2.woff false (walk2.wu 0) + walk2.live (walk2.wu 0) ≤ s.half 0 2097152 :=
  ⟨⟨rfl, by decide, by decide⟩, by decide⟩

theorem wit_Walks_units :
    (let w : WalkRun := ⟨walk2, 0, 2, 1, [], 0⟩
     let s := withBay (fun b => { b with walks := b.walks.set 0 [w], lead := 1 })
     let u := walk2.wu w.next
     (s.bay 0).walksOf 0 = [w] ∧ s.inFlightFull 0 = false ∧ w.units = [] ∧ w.next < w.total ∧ w.begun + w.next ≤ s.now 0 ∧
       0 ≤ walk2.woff false u ∧ walk2.woff false u + walk2.live u = s.half 0 2097152) ∧
    (let r : WalkUnit := ⟨1, 0, false, false, 0, some 1, List.replicate 128 7, 0⟩
     let w : WalkRun := ⟨walk2, 0, 2, 2, [r], 1⟩
     let s := withBay (fun b => { b with walks := b.walks.set 0 [w], lead := 1 })
     let off := w.cmd.woff true (w.cmd.wu r.i)
     (s.bay 0).walksOf 0 = [w] ∧ w.cmd.bothLocal = true ∧ w.units = [r] ∧ (1 : Nat) ≤ s.now 0 ∧ (w.cmd.wend true).sp = 0 ∧
       w.cmd.gva = 0 ∧ r.data ≠ [] ∧ off + r.data.length = s.half 0 2097152 ∧ (s.bay 0).scratch.wf = true ∧ (s.bay 0).wrote = [] ∧
       (s.bay 0).linesNow + ((off.toNat + r.data.length - 1) / 128 - off.toNat / 128 + 1) ≤ 256 ∧ w.landed + 1 = w.total) := by
  decide

/-- A walk of one row from a page of a region that its bay may not read. -/
theorem wit_Walks_forbidden :
    let c : Cmd := { cmd5 264 0 with sh := #v[0x30, 0, 63, 0], unit := 64 }
    let s := withPart (partR 3) (queued .wk0 c)
    Begins s 0 (if (0 : Fin 2) = 0 then .wk0 else .wk1) c [] ∧ (s.bay 0).walksOf 0 = [] ∧ (s.partAt 0).held = false ∧
      c.forbidden (s.partAt 0) 0 = some 0 ∧ (s.bay 0).pending = none :=
  ⟨⟨rfl, by decide, by decide⟩, by decide⟩

/-- A walk of one unit from a page of the host, and from one that no connection has registered. -/
theorem wit_Walks_async : ∀ l ∈ [[], [⟨0, some (0, 0, 1)⟩]],
    let c : Cmd := { cmd5 264 0 with sh := #v[0x30, 0, 63, 0], unit := 64 }
    let w : AsyncWalk := ⟨7, 0, c, 1, [], [], 0, [], []⟩
    let s0 := State.reset.setPart 0 { part0 with tt := [⟨0x6D3B, false, false, true, none⟩], asyncs := [w] }
    let s : State := { s0 with yard := { s0.yard with conns := l } }
    let u := c.wu 0
    let off := c.woff true u
    (s.part 0).mode ≠ .preempted ∧ (s.part 0).asyncs.find? (fun x => decide (x.id = 7)) = some w ∧ 0 < w.total ∧ 0 ∉ w.landed ∧
      c.isM = false ∧ (c.wend true).sp = 0 ∧ c.gva = 0 ∧ s.asyncSource (s.part 0) 0 c u [] = (if l = [] then none else some (List.replicate 64 0)) ∧ c.live u = 64 ∧ c.writes u = 64 ∧
      0 ≤ off ∧ off + 64 ≤ s.half 0 2097152 ∧ (s.bay 0).scratch.wf = true := by decide

/-- A SEND and a RECV of one line and of 256, and each collective command at its COFF. -/
theorem wit_Transfers_begin : ∀ op ∈ [288, 289, 290, 291, 292],
    let c := cmd5 op (BitVec.ofNat 72 (255 * 2 ^ 39))
    let s := withPart { part0 with rds := [{ desc (decide (op = 291)) 1 with slot := 0 }] } (queued .coll c)
    Begins s 0 .coll c [] ∧ c.op = op ∧ (s.partAt 0).held = false ∧ (s.bay 0).sends = [] ∧ (s.bay 0).recvs = [] ∧
      s.inFlightFull 0 = false ∧ s.inFlightFull (peerBay 0 c.xpeer) = false ∧ (op ≠ 292 → commitRegion s 0 c = none) ∧
      ((s.partAt 0).descOf c.cslot = some (desc (decide (op = 291)) 1) ∧ (s.partAt 0).polec = 0 ∧
        (desc (decide (op = 291)) 1).contributes (s.partAt 0).framec = true ∧ s.contributed (s.partAt 0) 0 0 = false) := by
  intro op h
  fin_cases h <;> exact ⟨⟨rfl, by decide, by decide⟩, by decide⟩

/-- The line that a RECV expects, in the last line of the scratchpad, and one without a RECV. -/
theorem wit_Transfers_landing : ∀ n ∈ [0, 1],
    let r : XferRun := ⟨cmd5 289 (BitVec.ofNat 72 (16383 * 2 ^ 25 + 2 ^ 47)), 24, 0⟩
    let l : SentLine := ⟨1, 0, 0, 24, 0, 0, 0, 0, List.replicate 128 7, []⟩
    let s := withPart { part0 with polec := 24 } (fun b => { b with arriving := [l], recvs := List.replicate n r })
    (s.partAt 0).held = false ∧ (s.bay 0).arriving = [l] ∧ l.due ≤ s.poleTime 0 ∧ (s.bay 0).recvs = List.replicate n r ∧
      lineMatches 0 r l = true ∧ l.data.length = 128 ∧ (s.bay 0).scratch.wf = true ∧ (s.bay 0).wrote = [] ∧
      (s.bay 0).linesNow < 256 ∧ (s.bay 0).pending = none := by decide

/-- A value of round 1 at the router of slot 0 where the round in course is 1 or 2, and one that is there already. -/
theorem wit_Rounds_arrival : ∀ x ∈ [(1, false), (2, false), (1, true)],
    let m : NodeVal := ⟨0, 1, 0, 0, [5], 0, false, 0, [], 0⟩
    let s : State := { State.reset.setPart 0 { part0 with fab := some fab1, rds := [desc false 1] } with
      arrivals := [(0, m)], router := State.reset.router.set 0 ⟨0, x.1, if x.2 = true then [m] else [], []⟩ }
    s.arrivals.find? (fun a => decide (a.2 = m) && decide (a.1 ≤ s.clock)) = some (0, m) ∧ s.slotOf m.slot = some (0, desc false 1) ∧
      (s.part 0).fab = some fab1 ∧ (desc false 1).goesTo m = fab1.lchip ∧ (desc false 1).top ≤ m.lev ∧
      (s.router.get 0).round = x.1 ∧ ((s.router.get 0).has 1 0 0 = none ↔ x.2 = false) := by decide

theorem wit_Rounds_decision :
    (let s : State := { State.reset.setPart 0 { part0 with fab := some fab1, rds := [desc false 1] } with clock := 8192 }
     (s.part 0).fab = some fab1 ∧ (s.part 0).rds.find? (fun d => decide (d.slot = 0)) = some (desc false 1) ∧
       (s.part 0).inRounds = true ∧ fab1.lchip ∈ (desc false 1).chips ∧ s.decisionAt 0 fab1 (desc false 1) 0 ≤ (s.part 0).podCycle s.clock) ∧
    (let v : Verdict := ⟨0, 0, 1, 0, 0, 0, false, [5]⟩
     let p : Part := { partR 0 with fab := some fab1, rds := [desc false 1], framec := 2 }
     let s : State := { State.reset.setPart 0 p with router := State.reset.router.set 0 ⟨0, 1, [], [v]⟩ }
     (s.part 0).poleRuns = true ∧ (s.part 0).polec = 0 ∧ (desc false 1).deliveredIn (s.part 0).framec = some 0 ∧
       (s.router.get 0).verdicts.find? (fun w => decide (w.round = 0)) = some v ∧ (∀ b : BayId, (s.bay b).colls = []) ∧
       (desc false 1).gateva = 0 ∧ (s.scarf.get 0).mode = .idle ∧ (s.part 0).vaPlace (desc false 1).resva = some (0, .lpddr 0 0)) := by
  decide

/-! ## Witnesses: the scarf engine and the fabric -/

/-- Partition 0's page and its scarf context as a function makes it. -/
def scarfState (p : Part) (f : Scarf → Scarf) : State :=
  let s := State.reset.setPart 0 p
  { s with scarf := s.scarf.set 0 (f .reset) }

/-- A layout record of one dimension of 4 bytes over meshes of one chip: the source at 0x1000, the destination at 0x2000, the chip lists
at 0x3000 and 0x3100 and the progress block at 0x4000. -/
def record4 : BitVec 2048 := BitVec.ofNat 2048 (1 + 4 * 2 ^ 8 + 2 ^ 20 + 4 * 2 ^ 64 + 0x1000 * 2 ^ 384 + 0x2000 * 2 ^ 456 +
  0x3000 * 2 ^ 528 + 0x3100 * 2 ^ 600 + 0x4000 * 2 ^ 672)

/-- The same with a merge in reduction slot 0. -/
def recordM : BitVec 2048 := record4 ||| 0x800000

/-- A page on which nothing is a region. -/
def partP : Part := { part0 with tt := [entry0] }

theorem wit_Scarf_begin :
    let c := cmd5 296 0
    let s := withPart partP (queued .scarf c)
    Begins s 0 .scarf c [] ∧ 0 ∈ (s.part 0).bays ∧ (s.scarfOf 0).mode = .idle ∧ (s.part 0).held = false ∧
      (∀ b' ∈ (s.part 0).bays, b' < 0 → (s.bay b').queue .scarf = []) ∧ regionOk (s.part 0) 0 .ldg c.a0 = true ∧
      regionOk (partR 3) 0 .ldg c.a0 = false :=
  ⟨⟨rfl, by decide, by decide⟩, by decide⟩

/-- The record is accepted, and a record of zeros is not. -/
theorem wit_Scarf_check : ∀ ok ∈ [true, false],
    let r : BitVec 2048 := if ok = true then record4 else 0
    let m : Cmd := { cmd5 296 0 with a0 := 0x5000 }
    let s := scarfState partP (fun c => { c with mode := .checking, cmd := some m, record := r })
    let srcL := s.scarfWords 0 (s.scarfOf 0).party (lySrcList r) 2 (min 4096 (lyMesh r false).chips)
    let dstL := s.scarfWords 0 (s.scarfOf 0).party (lyDstList r) 2 (min 4096 (lyMesh r true).chips)
    (s.scarfOf 0).mode = .checking ∧ (s.scarfOf 0).cmd = some m ∧ (s.scarfOf 0).checkEnd ≤ (s.part 0).time ∧
      (s.part 0).held = false ∧ (checkCode (s.part 0) 0 r false m.a0 srcL dstL (some []) = 0 ↔ ok = true) ∧ lyExtra r = 0 ∧ m.word.getLsbD 29 = false ∧
      (planOf r (srcL.getD []) (dstL.getD []) (s.part 0).lchip = [⟨0, 0, 0, 0, 4, 0, 0⟩] ↔ ok = true) ∧ lyMerge r = false := by decide

/-- A pod of two chips along x. -/
def fab2 : FabHeader := ⟨(2, 1, 1), 0, 2, 0⟩

/-- A transfer from this chip, and one from the other with and without a bulk slot of the partition. -/
theorem wit_Scarf_request : ∀ x ∈ [(0, false), (1, false), (1, true)],
    let t : Transfer := ⟨0, 0, 0, 0, 4, x.1, 0⟩
    let s : State := { scarfState { partP with fab := some fab2 } (fun c => { c with mode := .running, record := record4, toIssue := [t] })
      with linkTab := if x.2 = true then (List.range 6).map (fun k => (k * 2 ^ 20, 0x40)) else [] }
    let c := s.scarfOf 0
    c.mode = .running ∧ c.pass = 0 ∧ c.flights.length < 64 ∧ (s.part 0).held = false ∧ c.toIssue = [t] ∧
      findEntry (s.part 0).tt ((t.srcVa c.record).toNat % 2 ^ 64) = some (0, entry0.raw) ∧ (s.part 0).fab = some fab2 ∧
      (t.chip = (s.part 0).lchip ↔ x.1 = 0) ∧ (x.1 = 1 → s.bulkSlot 0 fab2 1 = x.2) := by decide

/-- A flight from this chip that lands, with another transfer to come. -/
theorem wit_Scarf_landing :
    let t : Transfer := ⟨0, 0, 0, 0, 2, 0, 0⟩
    let f : Flight := ⟨t, 0, none⟩
    let s := scarfState partP (fun c => { c with
      mode := .running, record := record4, flights := [f], plan := [t, ⟨1, 0, 2, 2, 2, 0, 0⟩] })
    let c := s.scarfOf 0
    (c.mode = .running ∧ c.pass = 0 ∧ (s.part 0).held = false ∧ c.flights = [f] ∧ f.due ≤ (s.part 0).time ∧ lyMerge c.record = false ∧
      s.landsFull c.party = false ∧ (∃ x ∈ c.plan, x.index ≠ f.tr.index ∧ ∀ l ∈ c.landed, l.1 ≠ x.index)) ∧
    s.flightData 0 c f = some (.ok [0, 0]) ∧
      ∃ s1 : State,
        (let u := if f.tr.chip = (s.part 0).lchip then
           s.scarfNote 0 c.party (f.tr.srcVa c.record) (elemSpan c.record f.tr.src f.tr.count) else s
         let x := u.runBytes 0 c.party c.record (lyDstVa c.record) f.tr.dst (rawElems c.record f.tr.src f.tr.count [0, 0])
         u.scarfPieces 0 c.party (pagePieces x.1 x.2)) = .ok s1 :=
  ⟨by decide, rfl, _, rfl⟩

/-- A request to the other chip that is two frames late; a segment of a merge pass; the OR of its flags. -/
theorem wit_Scarf_rest :
    (let f : Flight := ⟨⟨0, 0, 0, 0, 4, 1, 0⟩, 0, none⟩
     let s := scarfState { partP with fab := some fab2, framec := 3 } (fun c => { c with mode := .running, flights := [f] })
     let c := s.scarfOf 0
     f ∈ c.flights ∧ c.mode = .running ∧ c.pass = 0 ∧ c.run = 0 ∧ c.run ≠ 1 ∧ f.tr.chip ≠ (s.part 0).lchip ∧
       f.due + 2 * 2 ^ (s.part 0).hdr.fexp < (s.part 0).time) ∧
    (∀ w ∈ [false, true],
      let s := scarfState { partP with rds := [desc false 1] } (fun c => { c with
        mode := .running, pass := 1, record := recordM, orWait := w })
      let c := s.scarfOf 0
      c.mode = .running ∧ c.pass ≠ 0 ∧ (s.part 0).held = false ∧ c.orRound = none ∧ c.orWait = w ∧ c.segDue ≤ (s.part 0).time ∧
        (s.part 0).rds.find? (fun d => decide (d.slot.val = lySlot c.record)) = some (desc false 1) ∧ (s.part 0).polec = 0 ∧
        (s.part 0).framec % 2 ^ 0 = 0 ∧ c.landed = [] ∧ s.landsFull c.party = false) ∧
    (let s := (scarfState partP (fun c => { c with mode := .running, pass := 1 })).onBay 0 (fun b => { b with
       window := { b.window with gstores := 1024 }, lead := 5 })
     s.landsFull (s.scarfOf 0).party = true) := by decide

/-- Another chip's read of this chip's page, and of an address without one. -/
theorem wit_Scarf_source :
    let p : Part := { partP with fab := some fab2 }
    (⟨1, 0, none, 0, 0, 0, 0xFF80, 128⟩ : ScarfRead).part = 0 ∧ p.fab = some fab2 ∧
      translate p 0xFF80 ⟨true, false, false⟩ false = .ok ⟨0, 0x483B, .lpddr 0 0xFF80⟩ ∧
      translate p 0x10000 ⟨true, false, false⟩ false = .error (.range, 0x10000) ∧ remoteAllows p 0 1 none .ldg 0xFF80 = true ∧
      remoteAllows { partR 0 with fab := some fab2 } 0 1 none .ldg 0xFF80 = false ∧ (∀ k < 128, lineChk p .reset .ldg (0xFF80 + BitVec.ofNat 72 k) = none) ∧
      p.mode ≠ .preempted := ⟨rfl, rfl, rfl, rfl, rfl, by decide, by decide, by decide⟩

/-- The flit expected for this chip and for another, one accepted before, and one too early. -/
theorem wit_Fabric_flit :
    (let v : Verdict := ⟨0, 0, 1, 0, 0, 0, false, []⟩
     let s := State.reset.setPart 0 { part0 with fab := some fab2 }
     (0 : BitVec 16) = (s.links.get (portIdx .zm)).expect ∧ s.podHeader = some fab2 ∧ fab2.lchip = 0 ∧ s.samePhys 1 = false ∧ Msg.verdict v = .verdict v) ∧
    (let l := State.reset.links.get (portIdx .zm)
     (0xFFFF : BitVec 16) ≠ l.expect ∧ (l.expect - 0xFFFF).toNat < 2 ^ 15 ∧ (0x8001 : BitVec 16) ≠ l.expect ∧
       (l.expect - 0x8001).toNat = 2 ^ 15 - 1 ∧ 2 ^ 15 ≤ (l.expect - 0x8000).toNat) := by decide

theorem wit_Fabric_reports :
    (∀ m ∈ [PartMode.waiting, .running],
      let s := State.reset.setPart 0 { part0 with mode := m, fab := some fab2 }
      (s.part 0).fab ≠ none ∧ ((s.part 0).mode = .waiting ∨ (s.part 0).framec < 0 + (s.part 0).podLag)) ∧
    (let s : State := { State.reset.setPart 0 { part0 with fab := some fab2, pod := ⟨0, 0, [], [(1, 0)], 0, 0⟩ } with clock := 12288 }
     (s.part 0).silent 1 s.clock = true) ∧
    (let s := State.reset.setPart 0 { part0 with mode := .waiting, fab := some fab2 }
     (s.part 0).nominalDue s.clock = some 0) ∧
    (let d : PodDesc := (desc false 1).pod
     let s := State.reset.setPart 0 { part0 with mode := .waiting, fab := some fab2, awaiting := [1, 2] }
     ∀ q : PartId, 1 ∈ (s.part q).awaiting → ([d] ≠ [] ∧ ∃ c ∈ (s.part q).awaiting, c ≠ 1)) ∧
    (let s := State.reset.setPart 0 { partP with fab := some fab2 }
     s.partOfBent 0 = some 0 ∧ (s.part 0).fab = some fab2 ∧ 1 ≠ fab2.lchip ∧
       homeAllows (s.part 0) ⟨1, 0, none, 0, 0, 0, 0, 0, .read 8⟩ = true ∧ homeAllows (partR 0) ⟨1, 0, none, 0, 0, 0, 0, 0, .read 8⟩ = false) := by decide

/-! ## Witnesses: the host -/

/-- A running yard whose connection 3 has asked for one command, with a region of 64 KiB of the host's memory. -/
def asks (k a0 a1 a2 : Nat) : State :=
  { State.reset with yard := { State.reset.yard with
      boot := .running
      conns := [⟨3, some (0, 7, 1)⟩]
      requester := [(0, 3)]
      mailbox := Mem.writeN (Mem.writeN [] 0 [1]) 0x1000
        (leBytes 32 (1 + 2 ^ 8 + k * 2 ^ 16 + a0 * 2 ^ 64 + a1 * 2 ^ 128 + a2 * 2 ^ 192)) } }

theorem wit_HostAccess :
    (let s := asks 0 0 0 0
     s.yard.boot = .running ∧ s.freeConn = some 0 ∧ (∃ c ∈ s.yard.conns, c.num = 3) ∧ ∀ c ∈ s.yard.conns, c.num ≠ 4) ∧
    (let s := State.reset.setPart 0 (partR 4)
     s.hostMay 0 0xFFC0 64 = true ∧ s.hostMay 0 0xFFC0 8 = true ∧ 64 = 65536 - (0xFFC0 : Addr).toNat % 2 ^ 64 % 65536 ∧
       s.slotGates 0 0xFFC0 64 = [] ∧ (s.part 0).vaPlace 0xFFC0 = some (0, .lpddr 0 0xFFC0)) ∧
    (let s := State.reset.setPart 0 (partR 0)
     s.hostMay 0 0xFFC0 64 = false) := by decide

/-- Every command's request is served, whatever its arguments. -/
theorem wit_Serves (k a0 a1 a2 : Nat) (h : reqCmd ((asks k a0 a1 a2).request 0) = k) (h' : reqStatus ((asks k a0 a1 a2).request 0) = 0)
    (hr : (asks k a0 a1 a2).respIndex = 0) (hq : (asks k a0 a1 a2).reqIndex = 1) : Serves (asks k a0 a1 a2) 0 k :=
  ⟨rfl, hr.symm, by rw [hq]; decide, rfl, h, by intro q; exact (by decide : ∀ q : PartId, (State.reset.part q).request ≠ some 0) q, h', rfl⟩

/-- LOAD outside the region, of a length that the header does not name, and of the empty plan. -/
theorem wit_MailboxCommands_load : Serves (asks 1 0 65537 3) 0 1 ∧ Serves (asks 1 0 192 3) 0 1 ∧
    (asks 1 0 65537 3).hostGet 3 0 65537 = none ∧
    (asks 1 0 192 3).hostGet 3 0 192 = some (List.replicate 192 0) ∧
    ((imgHeader (List.replicate 192 0)).toNat / 2 ^ 32 % 2 ^ 32 ≠ 192) :=
  ⟨wit_Serves 1 0 65537 3 (by decide) (by decide) (by decide) (by decide), wit_Serves 1 0 192 3 (by decide) (by decide) (by decide) (by decide),
    rfl, rfl, by decide⟩

/-- An image in the host's memory that forms its partition now, with the customer memory as it should be, and one that waits for it. -/
theorem wit_MailboxCommands_forming (h : Config.memoryOk = true) :
    (let s : State := { asks 1 0 192 3 with hostMem := Mem.writeN [] 0 image }
     Serves s 0 1 ∧ s.hostGet 3 0 192 = some image ∧ (imgHeader image).toNat / 2 ^ 32 % 2 ^ 32 = 192 ∧ s.forming image = .now) ∧
    (let s := (asks 1 0 192 3).setPart 0 { part0 with mode := .stopped }
     s.forming image = .waits []) := by
  refine ⟨⟨⟨rfl, by decide, by decide, rfl, by decide, by decide, by decide, rfl⟩, by decide, by decide, ?_⟩, ?_⟩
  · simp only [State.forming, h]
    decide
  · simp only [State.forming, h]
    decide

/-- STOP of a partition and of none; LOGREAD; SLOTREAD of the last slot and beyond; PAGEREQ; HOSTREG; CERT; a command that is none. -/
theorem wit_MailboxCommands_rest :
    (∀ x ∈ [(2, 0), (2, 8), (3, 0), (4, 63), (4, 64), (5, 0xFFFF), (11, 0), (12, 0), (13, 0), (255, 0)],
      let s := (asks x.1 x.2 0 0).setPart 0 (partR 0)
      let r := s.request 0
      s.yard.boot = .running ∧ 0 = s.respIndex ∧ 0 < s.reqIndex ∧ (s.requesterOf 0).isSome = true ∧ reqCmd r = x.1 ∧
        (∀ q : PartId, (s.part q).request ≠ some 0) ∧ reqStatus r = 0 ∧ s.yard.busy = false ∧ r.toNat / 2 ^ 64 % 2 ^ 64 = x.2) ∧
    (State.reset.setPart 0 (partR 0)).mappers 0xFFFF = [(0, 0, entry0.raw)] ∧ (State.reset.setPart 0 (partR 0)).mappers 0x10000 = [] ∧
    (State.reset.setPart 0 { partP with tt := [⟨0x6C3B, false, false, true, none⟩] }).mappers 0 = [(0, 0, 0x6C3B)] := by decide

theorem wit_YardServices_boot :
    (let s : State := { State.reset with clock := 9, yard := { State.reset.yard with fetched := [1] } }
     s.yard.boot = .rom 0 ∧ s.yard.fetched ≠ []) ∧
    (let s : State := { State.reset with clock := 9, yard := { State.reset.yard with boot := .rom 9, fetched := [1] } }
     s.yard.boot = .rom 9 ∧ 9 ≠ 0 ∧ 9 ≤ s.clock ∧ s.yard.fetched ≠ []) := by decide

/-- FWSTAGE of a region's bytes; FWSWITCH; QUOTE; MONREAD; SERVICE of each unit. -/
theorem wit_YardServices :
    (∀ x ∈ [(7, 0, 64), (8, 0, 0), (9, 0, 0), (10, 0, 0), (6, 0, 7), (6, 1, 0), (6, 3, 95), (6, 4, 5), (6, 5, 0), (6, 9, 8)],
      let s := asks x.1 x.2.1 x.2.2 0
      let r := s.request 0
      s.yard.boot = .running ∧ 0 = s.respIndex ∧ 0 < s.reqIndex ∧ (s.requesterOf 0).isSome = true ∧ reqCmd r = x.1 ∧
        (∀ q : PartId, (s.part q).request ≠ some 0) ∧ reqStatus r = 0 ∧ s.yard.busy = false ∧ r.toNat / 2 ^ 64 % 2 ^ 64 = x.2.1 ∧
        r.toNat / 2 ^ 128 % 2 ^ 64 = x.2.2) ∧
    ((asks 7 0 64 0).hostGet 3 0 64).isSome = true ∧ (asks 8 0 0 0).yard.staged = false ∧
    (let s : State := { asks 8 0 0 0 with yard := { (asks 8 0 0 0).yard with staged := true } }
     s.yard.staged = true) ∧
    (let s : State := { State.reset with yard := { State.reset.yard with switching := some [0] } }
     s.yard.switching = some [0] ∧ ∀ q ∈ [0], q ∉ s.runningIds) ∧
    (let s : State := { State.reset with bents := State.reset.bents.set 7 { State.reset.bents.get 7 with retired := true } }
     s.partOfBent 7 = none ∧ (s.bents.get 7).retired = true ∧ 95 / 12 = (7 : Fin 8).val) := by decide

theorem wit_YardServices_reload (h : Config.memoryOk = true) :
    let s := (asks 6 2 0 0).setPart 0 { part0 with image := image }
    (s.part 0).formed = true ∧ (s.dissolve 0).forming (s.part 0).image = .now := by
  refine ⟨by decide, ?_⟩
  simp only [State.forming, h]
  decide

/-! ## Witnesses: bundles, faults and encodings -/

/-- A cause of each handling; a handler that is active, and PAD E there and absent (wit_Traps_entry). -/
theorem wit_FaultHandling : handling .earlyRead = .rollback ∧ handling .privilege = .retire ∧ handling .format = .trap ∧
    (withBay (fun b => { b with imem := padE0 })).me.padE = true ∧ State.reset.me.padE = false ∧
    (withBay (fun b => { b with tcause := 1 })).me.handlerActive = true := by decide

/-- A bundle of one word with a reserved guard in slot 0. -/
theorem wit_FaultHandling_word :
    let s := withBay (fun b => { b with imem := Mem.writeN [] 2 [0x80] })
    (s.bay 0).mergingJigs (s.now 0) = [] ∧ slotWords (bundleAt (s.bay 0).imem (s.bay 0).pc) (s.bay 0).jigmem [] = [(0, 0x800000)] ∧
      decodeSlot 0 0x800000 = .error .illegalGuard := by decide

/-- A bundle of one move to an ALU, a store to no page, which faults, and one of a long immediate. -/
theorem wit_StepRuns : ∀ x ∈ [((0 : Fin 8), [0x00, 0x15, 0x00], false), (3, [0xA7, 0x3D, 0x01], true)],
    let s : State := { withBay (fun b => { b with imem := Mem.writeN [] (3 * x.1.val) x.2.1 }) with todo := [.issue 0] }
    let y := s.bay 0
    let begun := ({ s with todo := [], cur := 0 } : State).onBay 0 (fun b => { b with dry := some [], jigSlots := 0, pre := some b.regs })
    s.todo = [.issue 0] ∧ y.mergingJigs (s.now 0) = [] ∧ y.window.bundles < 2048 ∧
      (slotWords (bundleAt y.imem y.pc) y.jigmem []).length = 1 ∧
      (slotWords (bundleAt y.imem y.pc) y.jigmem []).all (fun z =>
        z.1 = x.1 &&
        (match decodeSlot z.1 z.2 with
        | .error _ => false
        | .ok i => decide (stageOf i ≠ 0) &&
          (match exec i begun with
          | .next t => decide (t.followFault (t.me.dry.getD []) = []) && (match t.me.dry with
            | some [] => !x.2.2
            | some [_] => x.2.2
            | _ => false)
          | _ => false))) = true := by decide

theorem wit_StepRuns_limm :
    let s : State := { withBay (fun b => { b with imem := Mem.writeN [] 21 [0x07, 0x00, 0x80] }) with todo := [.issue 0] }
    let y := s.bay 0
    slotWords (bundleAt y.imem y.pc) y.jigmem [] = [(7, 0x800007)] ∧ decodeSlot 7 0x800007 = .ok (.limm 7) ∧ stageOf (.limm 7) = 0 ∧
      (match exec (.limm 7) (({ s with todo := [], cur := 0 } : State).onBay 0 (fun b => { b with dry := some [], jigSlots := 0 })) with
        | .next t => decide (t.followFault [] = []) && decide (t.me.dry = some [])
        | _ => false) = true := by decide

/-- For EncodeDecode a move of the last vector port, and an event. -/
theorem wit_EncodeDecode : (Instr.vec1Widen ⟨5, 3, .res .vec1Vr⟩ .w16).WellFormed ∧
    (Instr.vec1Widen ⟨5, 3, .res .vec1Vr⟩ .w16).form ≠ .event ∧ Instr.checkpoint.WellFormed ∧ Instr.checkpoint.form = .event := by decide

theorem wit_DecodeEncode : decodeSlot 4 0b000010000010011010100111 ≠ .error .illegalGuard ∧
    decodeSlot 7 0b000010000000100100000110 = .ok .padE := by decide

/-- The machine right after reset keeps the invariants, and makes a step. -/
theorem wit_TimeKept : TimeOk State.reset ∧ ∃ t : State, step State.reset = .next t :=
  ⟨⟨by decide, by decide⟩, _, rfl⟩

theorem wit_MemoriesKept : MemsWf State.reset := by
  refine ⟨?_, ?_, ?_, rfl, rfl, ?_, ?_⟩ <;> decide

/-! ## Witnesses: faults at the trigger, ranks and values -/

/-- The same early read by a shape write whose index names no field. -/
theorem wit_MovesNotMade_ranked : (Instr.mxShw ⟨0, 0, .res .alu0R⟩).ctl? = some ⟨0, 0, .res .alu0R⟩ ∧
    (let s := State.reset.onBay 0 (fun b => { b with lead := 1, ops := b.ops.set 12 255, inflight := [⟨.alu0R, 0, 2, false, some 5⟩] })
     guardOn s.me.seen 0 = true ∧ s.me.readsEarly s.myNow .alu0R = true ∧ shapeField 0 (s.me.op (shxPort 0)).toNat = none) := by decide

/-- A scaled write to the last register in the last cycle of another one to it, and in the cycle after. -/
theorem wit_StochasticWrites_busy : ∀ n ∈ [0, 1],
    let s := withLim 255 (fun b => { b with lead := n, scaling := [⟨255, 0, none⟩] })
    Made (fromLim 4) s ∧ PortFree s (vecVr 0) 2 ∧ (movedVal (fromLim 4) s).addr.toNat < 2 ^ 33 ∧ Width.w16 ≠ .w8 ∧
      (s.me.vb 0).toNat % 2 ^ 42 + laneCount 16 ≤ 2 ^ 42 ∧ (movedVal (fromLim 4) s).addr.toNat % 256 = 255 ∧ 255 < s.half s.cur 256 ∧
      (s.me.scAt 255).toNat / 2 ^ 16 % 16 = 0 ∧ ((∃ y ∈ s.me.scaling, y.reg = 255 ∧ s.myNow ≤ y.last) ↔ n = 0) := by
  intro n hn
  fin_cases hn <;> exact ⟨⟨by decide, rfl⟩, rfl, by decide⟩

/-- Every lane the least and the greatest power of two. -/
theorem wit_LaneFunctions_powers : ∀ b ∈ [0, 30],
    let s := withBay (fun y => { y with regs := { y.regs with v := y.regs.v.set 0 (BitVec.ofNat 2048 (∑ k ∈ Finset.range 64, 2 ^ (32 * k + b))) } })
    Made ⟨4, 0, .v 0⟩ s ∧ PortFree s .vfnVr 10 ∧ ∀ k < 64, laneS (movedVal ⟨4, 0, .v 0⟩ s).bits 32 k = 2 ^ b := by
  intro b hb
  fin_cases hb <;> exact ⟨⟨by decide, rfl⟩, rfl, by decide⟩

/-- A control value beyond its bits; an offset one beyond the last, and one that is not aligned; the same for vectors. -/
theorem wit_LocalAccesses_faults :
    (let s := withBay (fun b => { b with ops := b.ops.set (opIdx (lsuA 0)).val 8 })
     Made (imm 0 0) s ∧ PortFree s (lsuR 0) 4 ∧ 8 ≤ (s.me.opW (lsuA 0)).toNat) ∧
    (∀ x ∈ [((0 : VReg), (2097152 : BitVec 72)), (1, 1)],
      let s := withLim x.2 (fun b => { b with ops := b.ops.set (opIdx (lsuA 0)).val x.1 })
      let t := (movedVal (fromLim 0) s).word
      let n := 2 ^ ((s.me.opW (lsuA 0)).toNat % 4)
      Made (fromLim 0) s ∧ PortFree s (lsuR 0) 4 ∧ (s.me.opW (lsuA 0)).toNat < 8 ∧
        (s.half s.cur 2097152 < t.toNat + n ∨ t.toNat % n ≠ 0)) ∧
    ∀ x ∈ [(2097024 : BitVec 72), 64],
      let s := withLim x id
      let off := (movedVal (fromLim 4) s).word.toNat % 2 ^ 21
      Made (fromLim 4) s ∧ PortFree s (vecVr 0) 4 ∧ (off % 128 ≠ 0 ∨ s.half s.cur 2097152 < off + 256) := by
  refine ⟨⟨wit_made 0 0, rfl, by decide⟩, fun x hx => ?_, fun x hx => ?_⟩ <;> fin_cases hx <;> exact ⟨⟨by decide, rfl⟩, rfl, by decide⟩

/-- Where a VA operation stops: a result that meets its own; the last gated write of the window; the page of another number, one that may not
be read, and one that is not present; a page of no tier that it may use, an address that is not aligned, a region of others, a partition in a
hold, and a page of another chip where no link slot is left. -/
theorem wit_SharedAccesses_stops :
    (let s := (atLine 0).onBay 0 (fun b => { b with inflight := [⟨lsuR 0, 0, 320, true, none⟩] })
     Made (fromLim 0) s ∧ ¬ VaPortFree s (loadOp 0 false) (movedVal (fromLim 0) s).addr) ∧
    (let s := (atLine 0).onBay 0 (fun b => { b with window := { b.window with gstores := 1024 } })
     (storeOp 0 false).gated = true ∧ 1024 ≤ s.me.window.gstores) ∧
    (∀ x ∈ [(0x483B, 0x10000, Cause.range), (0x4833, 0, .privilege), (0x4839, 0, .translation)],
      ∃ i : Info, translate { partR 0 with tt := [⟨x.1, false, false, true, none⟩] } x.2.1 ⟨true, false, false⟩ false = .error (x.2.2, i)) ∧
    (∃ x : Xlat, translate { partR 0 with tt := [⟨0x783B, false, false, true, none⟩] } 0 ⟨true, false, false⟩ false = .ok x ∧ teStier x.raw = 7) ∧
    (0xFF81 : Addr).toNat % 2 ^ 64 % 8 ≠ 0 ∧ (0xFF80 : Addr).toNat % 2 ^ 64 % 8 = 0 ∧
    regionOk (partR 3) 0 .ldg 0xFF80 = false ∧ regionOk (partR 0) 0 .ldg 0xFF80 = true ∧
    slotCheck { partR 0 with holding := [1] } 0 ⟨0, 0x483B, .lpddr 0 0xFF80⟩ 0xFF80 0 = .error (.slot, 0xFF80) ∧
    (let s := withPart { partR 0 with fab := some fab2 } id
     (loadOp 0 false).gated = false ∧ s.remoteOk s.cur (.chip 1 0 0) = false ∧
       slotCheck (s.partAt s.cur) s.cur ⟨0, 0x5A3B, .chip 1 0 0⟩ 0xFF80 0 = .ok []) := by
  refine ⟨⟨⟨by decide, rfl⟩, fun h => absurd (h ⟨0, 0x483B, .lpddr 0 0xFF80⟩ (lsuR 0) rfl rfl) (by decide)⟩, by decide, ?_, ⟨_, rfl, rfl⟩, by decide⟩
  intro x hx
  fin_cases hx <;> exact ⟨_, rfl⟩

/-- A full bookkeeping table. -/
theorem wit_SharedAccesses_full :
    let s := (atLine 0).onBay 0 (fun b => { b with acc := List.replicate 8192 (access .ldg 0 8 none none) })
    s.half s.cur 8192 ≤ s.booked s.cur := by
  intro s
  have h : (s.bay s.cur).acc = List.replicate 8192 (access .ldg 0 8 none none) := rfl
  have hb : (access .ldg 0 8 none none).booked = true := rfl
  have hh : s.half s.cur 8192 = 8192 := by decide
  unfold State.booked
  simp only [h, List.filter_replicate, hb, if_true, List.length_replicate, hh]
  omega

/-- A control value beyond its bits, and a mode word that sets a reserved bit. -/
theorem wit_SharedAccesses_reserved :
    (let s := (atLine 0).onBay 0 (fun b => { b with ops := b.ops.set (opIdx (lsuA 0)).val 8 })
     8 ≤ (s.me.opW (lsuA 0)).toNat ∧ s.booked s.cur < s.half s.cur 8192 ∧ s.me.window.gstores < 1024) ∧
    VaPortFree (atLine 0) (loadOp 0 false) 0xFF80 ∧ VaPortFree (atLine 0) (loadOp 0 true) 0xFF80 ∧
    (∃ f : Cause × Info, handChk (atLine 0) 0xFF80 0x1000000000000 = some f) := by
  refine ⟨by decide, fun x p h hp => ?_, fun x p h hp => ?_, _, rfl⟩ <;> (cases h; cases hp; rfl)

/-! ## Witnesses: where the check of a command fails -/

/-- A command word in lim passes all but the checks of its rule. -/
def ready (s : State) (e : Engine) (op : Nat) (mask : BitVec 72) (mk : State → Cmd → Cmd) : Bool := issuesIn s e op mask mk (fun _ _ => none)

/-- Every bay of bent 0 on a physical bay that hosts two. -/
def halved (s : State) : State := { s with bents := s.bents.set 0 { s.bents.get 0 with remap := .replicate 24 0x80 } }

/-- The word and the shapes of a command. -/
def shaped (word : BitVec 72) (k : Fin 3) (sh : Vector Shape 4) : State := partLim part0 word (fun b => { b with active := b.active.set k sh })

/-- Selector 15 of a halved bay, and a format code that no read has. -/
theorem wit_EngineCommands_mxgo_fails :
    (let s := halved (shaped 0 0 #v[0, 0, BitVec.ofNat 256 (15 * 2 ^ 40), 0])
     ready s .mx 256 (fieldMask 25 47) mxgoCmd = true ∧ s.half s.cur 16 ≤ s.me.selIx 15) ∧
    (let s := partLim part0 0 (fun b => { b with fmt := b.fmt.set 0 2 })
     let m := issuedCmd (fromLim 6) s .mx 256 mxgoCmd
     ready s .mx 256 (fieldMask 25 47) mxgoCmd = true ∧ (∀ h ∈ m.levels, h.cnt = 1) ∧ m.fmt false = 2 ∧ m.fmt true = 2 ∧
       m.hbase < s.half s.cur 16) := by decide

/-- The output format that a drain captures. -/
def drainMk (t : State) (x : Cmd) : Cmd := { x with fo := t.me.fmtAt (t.me.selIx (bits x.sh3 44 7)) }

/-- A drain of one element, with a word, an output format and sh3. -/
def drainOf (word : BitVec 72) (f : BitVec 32) (n : Nat) : State :=
  (shaped word 0 #v[0, 0, 0, BitVec.ofNat 256 n]).onBay 0 (fun b => { b with fmt := b.fmt.set 0 f })

/-- A drain by selector 15 and by scale register 128 of a halved bay; a format 3, a field SPARSE of 3; a destination 3, a wide sum elsewhere
than in the scratchpad; handle 8 of a halved bay. -/
theorem wit_EngineCommands_mxdrain_fails :
    (let s := halved (drainOf 0 0 (15 * 2 ^ 44))
     ready s .mx 257 (fieldMask 30 42) drainMk = true ∧ s.half s.cur 16 ≤ s.me.selIx 15) ∧
    (let s := halved (drainOf 0 0x800 0)
     ready s .mx 257 (fieldMask 30 42) drainMk = true ∧ s.half s.cur 256 ≤ 128) ∧
    (∀ x ∈ [((3 : BitVec 32), 0), (0x3000, 0), (0, 3 * 2 ^ 42), (2, 0)], ready (drainOf 0 x.1 x.2) .mx 257 (fieldMask 30 42) drainMk = true) ∧
    (let s := halved (drainOf (BitVec.ofNat 72 (8 * 2 ^ 25)) 0 0)
     ready s .mx 257 (fieldMask 30 42) drainMk = true ∧ s.half s.cur 16 ≤ 8 ∧
       ready s .mx 258 (fieldMask 29 43) keepCmd = true) := by decide

/-- A drain of an empty range, and one whose scale register is of another format. -/
theorem wit_EngineCommands_mxdrain_range : ∀ h ∈ [Handle.empty, { Handle.empty with range := some (0, 1) }],
    let s := (drainOf 0 1 (2 ^ 129)).onBay 0 (fun b => { b with view := b.view.set 0 h })
    let m := issuedCmd (fromLim 6) s .mx 257 drainMk
    ready s .mx 257 (fieldMask 30 42) drainMk = true ∧ drainFormat m 0 = none ∧ drainRange m s = none ∧
      (s.me.viewOf m.handle).range = h.range ∧ (s.me.scAt 0).toNat / 2 ^ 16 % 16 ≠ 1 := by
  intro h hh
  simp only [List.mem_cons, List.not_mem_nil, or_false] at hh
  obtain rfl | rfl := hh <;> exact ⟨by decide, by decide, by decide, rfl, by decide⟩

/-- The shapes of a walk. -/
def walkOf (word : BitVec 72) (a b c : Nat) : State :=
  (shaped word 1 #v[BitVec.ofNat 256 a, BitVec.ofNat 256 b, BitVec.ofNat 256 c, 0]).onBay 0 (inGang id)

/-- A walk with a reserved bit; a base one beyond operand SRAM, as source and as destination; a base on no page; a row that its units do not
fill; a WALKM into a page, and one for no bay. -/
theorem wit_EngineCommands_walks_fail :
    let atEnd (s : State) (d : Bool) : Check := walkBaseChk (issuedCmd (fromLim 6) s .wk0 264 walkCmd) d s
    (∀ s ∈ [walkOf 0 (2 ^ 78) 0 127, walkOf 0 (0x10 + 524288 * 2 ^ 6) 0 127, walkOf 0 0 (0x10 + 524288 * 2 ^ 6) 127, walkOf 0 0x30 0 127,
      walkOf 0 0 0x30 127, walkOf 0 0 0 63], ready s .wk0 264 (fieldMask 25 47) walkCmd = true) ∧
    (∀ s ∈ [walkOf 0 0 0x30 127, walkOf 0 0 (0x10 + 524288 * 2 ^ 6) 127], atEnd s false = none ∧ (atEnd s true).isSome = true) ∧
    (let s := walkOf 0 0 0 63
     atEnd s false = none ∧ atEnd s true = none) := by decide

theorem wit_EngineCommands_walkm_fails :
    ready (walkOf 0 0 0 127) .wk0 265 (fieldMask 69 3) walkCmd = true ∧
    (let s := walkOf 0 0 0 127
     walkFormat (issuedCmd (fromLim 6) s .wk0 265 walkCmd) (s.partAt s.cur) = none) ∧
    (let s := partLim { part0 with tt := [entry0] } (1 <<< 49 ||| 1 <<< 25) (inGang (fun b => { b with active := b.active.set 1 #v[0, 0x30, 63, 0] }))
     ready s .wk0 265 (fieldMask 69 3) walkCmd = true ∧ walkFormat (issuedCmd (fromLim 6) s .wk0 265 walkCmd) (s.partAt s.cur) = none) := by
  decide

/-- A GATE of a reserved operation, at no page, and on a page of another chip. -/
theorem wit_EngineCommands_gate_fails :
    let tier5 : Part := { part0 with tt := [⟨0x5A3B, false, false, true, none⟩] }
    (∀ p ∈ [part0, tier5], ∀ k ∈ [0, 1, 2, 3], ready (partLim p (BitVec.ofNat 72 (k * 2 ^ 33)) id) .gate 280 (fieldMask 35 37) gateCmd = true) ∧
    translate part0 0 ⟨false, true, false⟩ false = .error (.range, 0) ∧
    translate tier5 0 ⟨false, true, false⟩ false = .ok ⟨0, 0x5A3B, .chip 0 0 0⟩ ∧ gatePlace tier5 0 = none := by decide

/-- A QPUT whose packet and whose result lie beyond the scratchpad of a halved bay, one at no page, one whose header is not aligned, and one in
no QUEUE region. -/
theorem wit_EngineCommands_qput_fails :
    (∀ w ∈ [16384 * 2 ^ 29, 131072 * 2 ^ 44],
      ready (halved (partLim (partR 4) (BitVec.ofNat 72 w) id)) .gate 281 (fieldMask 62 10) qputCmd = true) ∧
    (let s := halved (partLim (partR 4) 0 id)
     s.half s.cur 2097152 < 64 * 16384 + 64 ∧ s.half s.cur 2097152 < 8 * 131072 + 8) ∧
    (∀ x ∈ [(part0, (0 : Addr)), (partR 4, 8), (partR 0, 0)],
      let s := partLim x.1 0 (fun b => { b with regs := { b.regs with a := b.regs.a.set 0 x.2 } })
      ready s .gate 281 (fieldMask 62 10) qputCmd = true ∧ s.me.aSeen 0 = x.2) ∧
    translate part0 0 ⟨true, true, true⟩ false = .error (.range, 0) ∧
    translate (partR 4) 8 ⟨true, true, true⟩ false = .ok ⟨0, 0x483B, .lpddr 0 8⟩ ∧ teStier 0x483B = 4 ∧ (8 : Addr).toNat % 64 ≠ 0 ∧
    translate (partR 0) 0 ⟨true, true, true⟩ false = .ok ⟨0, 0x483B, .lpddr 0 0⟩ ∧ inQueue (partR 0) 0 = false := by decide

/-- A SEND to its own bay and to one of no gang, and one whose last line lies beyond the scratchpad of a halved bay. -/
theorem wit_EngineCommands_send_fails :
    (∀ w ∈ [0, 1 <<< 47, 1 <<< 47 ||| 8191 <<< 25 ||| 1 <<< 39], ∀ op ∈ [288, 289],
      ready (halved ((partLim part0 w (inGang id)).onBay 1 (inGang id))) .coll op (fieldMask 60 12) keepCmd = true) ∧
    (let s := (partLim part0 0 (inGang id)).onBay 1 (inGang id)
     0 = s.cur.val % 24 ∧ s.inGangOf s.cur 1 = true ∧ (partLim part0 0 (inGang id)).inGangOf 0 1 = false ∧
       (halved s).half 0 2097152 < 128 * 8191 + 128 * (1 + 1)) := by decide

/-- A contribution to a slot without a descriptor, to one of the other kind, and one whose bytes lie beyond the scratchpad of a halved bay; a
COMMIT to a descriptor that is none of a COMMIT's, at no page, at a selector that is not aligned, and whose list lies beyond. -/
theorem wit_EngineCommands_coll_fails :
    let desc256 (bc : Bool) : RDesc := { desc bc 0 with nel := 256 }
    let halves (l : List RDesc) (w : Nat) : State := halved (partLim { part0 with tt := [entry0], rds := l } (BitVec.ofNat 72 w) id)
    (∀ l ∈ [[], [desc256 false], [desc256 true]],
      ready (halves l (16383 * 2 ^ 43)) .coll 290 (fieldMask 58 14) credCmd = true ∧
        ready (halves l (16383 * 2 ^ 43)) .coll 291 (fieldMask 58 14) credCmd = true) ∧
    (∀ bc ∈ [false, true], (desc256 bc).bc = bc ∧ (desc256 bc).leaf 0 = 0 ∧
      (halves [] 0).half 0 2097152 < 64 * 16383 + (desc256 bc).bytes) ∧ part0.descOf 0 = none ∧
    (∀ x ∈ [([], (0 : Addr)), ([desc false 0], 0), ([desc false 5], 0x10000), ([desc false 5], 4), ([desc false 5], 0)],
      let s := halved (partLim { part0 with tt := [entry0], rds := x.1 } (BitVec.ofNat 72 (16383 * 2 ^ 43 + 17 * 2 ^ 58))
        (fun b => { b with regs := { b.regs with a := b.regs.a.set 0 x.2 } }))
      ready s .coll 292 (fieldMask 63 9) commitCmd = true ∧ s.me.aSeen 0 = x.2 ∧ s.half s.cur 2097152 < 64 * 16383 + 4 * 17) ∧
    (desc false 5).mode = 5 ∧ (desc false 5).w = 0 ∧ (desc false 5).nel = 1 ∧ (desc false 5).bc = false ∧ (desc false 0).mode ≠ 5 ∧
    (let p : Part := { part0 with tt := [entry0] }
     translate p 0x10000 ⟨false, true, false⟩ false = .error (.range, 0x10000) ∧
       translate p 4 ⟨false, true, false⟩ false = .ok ⟨0, 0x483B, .lpddr 0 4⟩ ∧ (4 : Addr).toNat % 8 ≠ 0 ∧
       selectorChk p 0 0 = .ok ⟨0, 0x483B, .lpddr 0 0⟩) := by decide

/-- A RESHARD of no page and of a region of others; a JIG that names a peg, one beyond the jig memory of a halved bay, and one without slots. -/
theorem wit_EngineCommands_rest_fails :
    (∀ p ∈ [part0, partR 3], ready (partLim p 0 id) .scarf 296 (fieldMask 30 42) reshardCmd = true) ∧
    translate part0 0 ⟨true, false, false⟩ false = .error (.range, 0) ∧ regionOk (partR 3) 0 .ldg 0 = false ∧
    (∀ w ∈ [1 <<< 61, 0xFFFFC0 ||| 1 <<< 61 ||| 1364 <<< 25 ||| 1 <<< 37, 0xFFFFC0],
      ready (halved (partLim part0 w (inGang id))) .jig 304 (fieldMask 69 3) keepCmd = true) ∧
    (halved (partLim part0 0 id)).sliced 0 = true := by decide

/-! ## Witnesses: clauses at the ends of their ranges -/

/-- The first and the last register that a halved bay has no use of, and ids that are not listed, at the ends of their ranges; a value with a bit
beyond the id. -/
theorem wit_SystemRegisters_faults : (halved (withPart part0 id)).sliced 0 = true ∧
    (∀ x ∈ [0x00, 0x01, 0x07, 0x0B, 0x0D, 0x0F, 0x18, 0x1F, 0x20, 0x37, 0x38, 0xFF, 0x180, 0x1FF, 0x200, 0x7FF, 0x800, 0xFFF],
      let s := halved (partLim part0 (BitVec.ofNat 72 x) id)
      Made (fromLim 7) s ∧ PortFree s .systemR 1 ∧ (movedVal (fromLim 7) s).addr.toNat = x ∧ s.me.scaleBusy (x - 0x100) s.myNow = false ∧
        s.commitNames s.cur (x - 0x100) = false) ∧
    (∀ x ∈ [2 ^ 12, 2 ^ 16], (movedVal (fromLim 7) (withLim (BitVec.ofNat 72 x) id)).addr.toNat = x) ∧
    (let s := withLim 0x1FF (fun b => { b with scaling := [⟨255, 0, none⟩] })
     s.me.scaleBusy 255 s.myNow = true ∧ s.sliced 0 = false) := by
  refine ⟨by decide, fun x hx => ?_, by decide, by decide⟩
  simp only [List.mem_cons, List.not_mem_nil, or_false] at hx
  obtain rfl | rfl | rfl | rfl | rfl | rfl | rfl | rfl | rfl | rfl | rfl | rfl | rfl | rfl | rfl | rfl | rfl | rfl := hx <;>
    exact ⟨⟨by decide, rfl⟩, rfl, by decide⟩

/-- A store that performs in the cycle of another one to a byte of its line, and a FETCHADD. -/
theorem wit_SharedPerforms_clash :
    let other : GWrite := ⟨5, 0xFF87, 1, 0, some 0, 0, .bytes (.lpddr 0 0xFF87) [1], [], 0, false⟩
    let own : GWrite := ⟨0, 0xFF80, 8, 0, none, 0, .bytes (.lpddr 0 0xFF80) (List.replicate 8 2), [], 0, false⟩
    (let a := access .stg 0xFF80 8 none (some (.lpddr 0 0xFF80))
     let s := withPart (partR 0) (fun b => { holdsAcc a b with gbuf := [other, own] })
     (s.bay 0).acc.find? (fun y => decide (y.id = 0)) = some a ∧ s.accDue 0 a = true ∧ lineChk (s.partAt 0) (s.bay 0) .stg a.addr = none ∧
       (s.bay 0).rewritesG a.id (s.poleTime 0) = true ∧ (s.bay 0).pending = none) ∧
    (let a := access .fetchAdd 0xFF80 8 (some .mem0R) (some (.lpddr 0 0xFF80))
     let s := withPart (partR 4) (fun b => { holdsAcc a b with gbuf := [other] })
     (s.bay 0).acc.find? (fun y => decide (y.id = 0)) = some a ∧ s.accDue 0 a = true ∧
       (s.bay 0).gatedClash (s.poleTime 0) (.bytes (.lpddr 0 0xFF80) (List.replicate 8 0)) = true) := by decide

/-- A phase of gates with one due; a gate whose remainder still reaches EXPECT. -/
theorem wit_GateEvents_again :
    (let s : State := { State.reset.setPart 0 { part0 with gatesDue := [0] } with phase := 1 }
     (s.part 0).half = 0 ∧ (0 : Addr) ∈ (s.part 0).gatesDue) ∧
    (let p : Part := { part0 with tt := [entry0], gatesDue := [0] }
     let s : State := { State.reset.setPart 0 p with lpddr := State.reset.lpddr.set 0 (Mem.writeN [] 0 [2, 0, 0, 0, 0, 0, 4]) }
     (s.part 0).mode ≠ .preempted ∧ gatePlace (s.part 0) 0 = some (.lpddr 0 0) ∧ gateExpect (s.gateAt (.lpddr 0 0)) = 2 ∧
       gateArrived (s.gateAt (.lpddr 0 0)) = 4) := by decide

/-- A claim beside a store to the last byte of WIDX in its cycle, and a packet beside one to its last byte. -/
theorem wit_QueuePuts_clash :
    let other (a : Nat) : GWrite := ⟨5, 0, 1, 0, some 0, 0, .bytes (.lpddr 0 a) [1], [], 0, false⟩
    (let g : QputRun := ⟨3, cmd5 281 0, 0, 0, .lpddr 0 0, 0, List.replicate 64 7, none, 0⟩
     let s := withPart (partR 4) (fun b => { b with qputs := [g], gbuf := [other 15] })
     (s.bay 0).gatedClash (s.poleTime 0) (.bytes (g.place.add 8) (List.replicate 8 0)) = true ∧ g.claimDue ≤ s.poleTime 0) ∧
    (let g : QputRun := ⟨3, cmd5 281 0, 0, 0, .lpddr 0 0, 0, List.replicate 64 7, some (some 1), 0⟩
     let s := withPart (partR 4) (fun b => { b with qputs := [g], gbuf := [other 63] })
     translate (s.partAt 0) (g.slotVa 1) ⟨false, true, false⟩ false = .ok ⟨0, 0x483B, .lpddr 0 0⟩ ∧
       (s.bay 0).gatedClash (s.poleTime 0)
         (.bytes (.lpddr 0 0) (g.packet.take 2 ++ leBytes 2 (1 % 65536) ++ g.packet.drop 4)) = true ∧ (s.bay 0).pending = none) := by
  decide

/-- A pod plan whose tables are here: the yard of the other chip has passed its checks, or not yet. -/
theorem wit_Frames_loaded : ∀ l ∈ [[], [1]],
    let s := State.reset.setPart 0 { part0 with mode := .waiting, fab := some fab2, tables := [(1, ⟨[], []⟩)], passed := l }
    (s.part 0).mode = .waiting ∧ (s.part 0).awaiting = [] ∧ ((∀ x ∈ (s.part 0).tables, x.1 ∈ (s.part 0).passed) ↔ l = [1]) := by decide

/-- A bent in self-refresh. -/
theorem wit_PagesAndRollback_retired :
    let s : State := { State.reset.setPart 0 { part0 with mode := .stopped } with
      bents := State.reset.bents.set 0 { State.reset.bents.get 0 with retired := true } }
    s.partOfChannel 0 = some 0 ∧ (s.bents.get (Fin.ofNat 8 ((0 : Fin 96).val / 12))).retired = true := by decide

/-- A pre-empted plan that may not be sliced, on halved bays, and one that may; a stop of a plan that keeps an area for its checkpoint. -/
theorem wit_Stops_sliced :
    (∀ h ∈ [false, true],
      let p : Part := { part0 with mode := .preempted, hdr := { part0.hdr with halffit := h, fexp := 12 } }
      let s : State := { halved (State.reset.setPart 0 p) with clock := 8191 }
      s.holders (s.part 0).hdr.bents = [] ∧ s.bentsHealthy (s.part 0).hdr.bents = true ∧ s.outranked (s.part 0) = false ∧
        (s.part 0).podCycle (s.clock + 1) % ((s.part 0).frameLen * s.rateOf (s.part 0) : Nat) = 0 ∧ s.rateOk (s.part 0) = h ∧
        s.rateOf (s.part 0) ≠ (s.part 0).k) ∧
    (let s := State.reset.setPart 0 { part0 with ckDue := true, ckArea := [(0, 0, 0)] }
     (s.part 0).ckDue = true ∧ (s.part 0).mode = .running ∧ s.preemptPoint 0 = true ∧ (s.part 0).ckArea ≠ []) ∧
    (∀ c ∈ [false, true],
      let s := State.reset.setPart 0 { part0 with mode := .checkpointed, ckParity := c }
      s.allStopped = true ∧ (s.part 0).mode = .checkpointed ∧ ((∃ q : PartId, (s.part q).ckParity = true) ↔ c = true)) := by
  refine ⟨by decide, by decide, ?_⟩
  decide

/-- Beside a drain that does nothing in this cycle, one that lands two runs at the ends of operand SRAM A, and one that completes with a scale
line; an addition beside a later one; runs of two commands that wait for the end of the cycle. -/
theorem wit_Matrix_runs :
    let runs : List (Nat × List Byte) := [(524286, [1, 2]), (0, [3])]
    let idle : DrainRun := ⟨cmd5 257 0, 40, 14, false, 254, 5, .scratch, [], []⟩
    (let d : DrainRun := ⟨cmd5 257 0, 0, 15, false, 255, 5, .opA, [(0, runs)], []⟩
     let s := withBay (fun b => { b with drains := [idle, d], lead := 2 })
     (s.bay 0).drains = [idle] ++ d :: [] ∧ d.rows.find? (fun p => decide (d.begun + p.1 + 2 = s.now 0)) = some (0, runs) ∧
       MayLand s 0 .opA runs false ∧ s.now 0 < idle.begun + 130) ∧
    (let d : DrainRun := ⟨cmd5 257 0, 0, 15, false, 255, 5, .opB, [], [(524287, [9])]⟩
     let s := withBay (fun b => { b with drains := [idle, d], lead := 130 })
     (s.bay 0).drains = [idle] ++ d :: [] ∧ d.begun + 130 ≤ s.now 0 ∧ MayLand s 0 .opB d.tail true ∧ s.now 0 < idle.begun + 130) ∧
    (let st : MxStep := ⟨0, 0, 15, 0, 0, 1, 0, 0, 0, [], [], true, none, false, []⟩
     let s := withBay (fun b => { b with adds := [{ st with due := 1 }, st] })
     (s.bay 0).adds.filter (fun x => decide (x.due ≤ s.now 0)) = [st]) ∧
    (let b : Bay := { Bay.reset with bankWrites := [(.opA, runs), (.opB, [(4, [5])])] }
     b.lost = [] ∧ ∀ k : BayStore, (b.store k).wf = true) := by
  refine ⟨⟨rfl, by decide, ⟨by decide, by decide, by decide, by decide⟩, by decide⟩, ⟨rfl, by decide, ⟨by decide, by decide, by decide, by decide⟩, by decide⟩, by decide, rfl, ?_⟩
  intro k
  cases k <;> decide

/-- A walk of one row from the last line of the page to the last line of the scratchpad. -/
def walkIn : Cmd := { cmd5 264 0 with sh := #v[0x30, 0, 63, 0], a0 := 0xFFC0, a1 := 2097088, unit := 64 }

/-- The same the other way. -/
def walkOut : Cmd := { cmd5 264 0 with sh := #v[0, 0x30, 63, 0], a0 := 2097088, a1 := 0xFFC0, unit := 64 }

/-- A WALKM of the last line of the scratchpad to operand SRAM A of bays 1 and 23. -/
def walkTo : Cmd := { cmd5 265 (2 ^ 26 ||| 2 ^ 48 ||| 2 ^ 49) with sh := #v[0, 0x10, 127, 0], a0 := 2097024, a1 := 524160, unit := 128 }

/-- A partition with the page at VA 0 and no region. -/
def partV : Part := { part0 with tt := [entry0] }

/-- A walk from a page, one to a page and a WALKM begin. -/
theorem wit_Walks_begin_far : ∀ c ∈ [walkIn, walkOut, walkTo],
    let s := withPart partV (queued .wk0 c)
    Begins s 0 .wk0 c [] ∧ (s.bay 0).walksOf 0 = [] ∧ (s.partAt 0).held = false ∧ c.forbidden (s.partAt 0) 0 = none ∧
      c.isAsync (s.partAt 0) = false ∧ MayTrigger s 0 c 0 := by
  intro c hc
  simp only [List.mem_cons, List.not_mem_nil, or_false] at hc
  obtain rfl | rfl | rfl := hc <;>
    exact ⟨⟨rfl, by decide, by decide⟩, by decide, by decide, by decide, by decide, ⟨by decide, by decide, by decide, by decide⟩⟩

/-- The read of a unit from the page, beside a walk that has ended. -/
theorem wit_Walks_read_far :
    let r : WalkUnit := ⟨0, 1, false, false, 0, none, [], 0⟩
    let w : WalkRun := ⟨walkIn, 0, 1, 1, [r], 0⟩
    let before : WalkRun := ⟨{ walk2 with id := 9 }, 0, 2, 2, [], 1⟩
    let s := withPart partV (fun b => { b with walks := b.walks.set 0 [before, w] })
    SoleUnit (s.bay 0) 0 [before] [] w [] [] r ∧ s.walkMoves 0 w.cmd = true ∧ (w.cmd.wend false).sp = 3 ∧
      0 < w.cmd.live (w.cmd.wu 0) ∧ r.readDue ≤ s.walkClock 0 w.cmd ∧
      unitVaChk s 0 false (w.cmd.wva false (w.cmd.wu 0)) = .ok ⟨0, 0x483B, .lpddr 0 0xFFC0⟩ :=
  ⟨⟨rfl, rfl, (fun v h => by cases h), (fun a h => by simp at h; subst h; decide)⟩, by decide, by decide, by decide, by decide, rfl⟩

/-- The landing of a unit in the receivers of a WALKM, and of one on the page, with a gate at VA 16. -/
theorem wit_Walks_land_far :
    (let r : WalkUnit := ⟨0, 1, false, false, 0, some 0, List.replicate 128 7, 0⟩
     let w : WalkRun := ⟨walkTo, 0, 1, 1, [r], 0⟩
     let s := withPart partV (fun b => { b with walks := b.walks.set 0 [w] })
     let u := w.cmd.wu 0
     let off := w.cmd.woff true u
     SoleUnit (s.bay 0) 0 [] [] w [] [] r ∧ s.walkMoves 0 w.cmd = true ∧ s.partOf 0 = some 0 ∧ (w.cmd.wend true).sp = 1 ∧
       off = 524160 ∧ off + r.data.length = s.storeSize 1 .opA ∧ w.cmd.landsIn 0 u = [1, 23] ∧
       ∀ x ∈ w.cmd.landsIn 0 u, MayLand s x .opA [(off.toNat, r.data)] false) ∧
    (let r : WalkUnit := ⟨0, 1, false, false, 0, some 0, List.replicate 64 7, 0⟩
     let w : WalkRun := ⟨walkOut, 0, 1, 1, [r], 0⟩
     let s := withPart partV (fun b => { b with walks := b.walks.set 0 [w] })
     let u := w.cmd.wu 0
     SoleUnit (s.bay 0) 0 [] [] w [] [] r ∧ (w.cmd.wend true).sp = 3 ∧ 0 < w.cmd.writes u ∧ w.cmd.isM = false ∧
       unitVaChk s 0 true (w.cmd.wva true u) = .ok ⟨0, 0x483B, .lpddr 0 0xFFC0⟩ ∧
       (s.bay 0).gatedClash (s.poleTime 0) (.bytes (.lpddr 0 0xFFC0) r.data) = false ∧ gatePlace (s.part 0) 16 = some (.lpddr 0 16)) := by
  refine ⟨⟨⟨rfl, rfl, (fun v h => by cases h), (fun a h => by cases h)⟩, by decide, by decide, by decide, by decide, by decide, by decide, ?_⟩,
    ⟨rfl, rfl, (fun v h => by cases h), (fun a h => by cases h)⟩, by decide⟩
  have h : walkTo.landsIn 0 (walkTo.wu 0) = [1, 23] := by decide
  intro x hx
  rw [show (WalkRun.mk walkTo 0 1 1 _ 0).cmd = walkTo from rfl, h] at hx
  simp only [List.mem_cons, List.not_mem_nil, or_false] at hx
  obtain rfl | rfl := hx <;> exact ⟨by decide, by decide, by decide, by decide⟩

/-- The second line of a SEND, which is its last or not. -/
theorem wit_Transfers_next : ∀ n ∈ [1, 2],
    let c := cmd5 288 (BitVec.ofNat 72 (n * 2 ^ 39 + 2 ^ 47))
    let r : XferRun := ⟨c, 0, 1⟩
    let s := withPart { part0 with polec := 1 } (fun b => { b with sends := [r] })
    (s.partAt 0).held = false ∧ (s.bay 0).sends.find? (fun x => decide (x.begun < s.poleTime 0)) = some r ∧ peerBay 0 c.xpeer = 1 ∧
      s.inFlightFull 0 = false ∧ s.inFlightFull 1 = false ∧ (r.pos + 1 = c.xlines ↔ n = 1) := by decide

/-- Two lines in one cycle, of which the RECV expects the second, into the last line of the scratchpad, and one line that it does not expect;
another RECV waits behind it. -/
theorem wit_Transfers_lines :
    let r : XferRun := ⟨cmd5 289 (BitVec.ofNat 72 (16383 * 2 ^ 25 + 2 ^ 47)), 24, 0⟩
    let behind : XferRun := ⟨{ r.cmd with id := 7 }, 24, 0⟩
    let l : SentLine := ⟨1, 0, 0, 24, 0, 0, 0, 0, List.replicate 128 7, []⟩
    let y : SentLine := { l with tag := 255 }
    (let s := withPart { part0 with polec := 24 } (fun b => { b with arriving := [y, l], recvs := [r, behind] })
     let here := (s.bay 0).arriving.filter (fun l => decide (l.due ≤ s.poleTime 0))
     (s.bay 0).recvs.head? = some r ∧ here.find? (lineMatches 0 r) = some l ∧ here.find? (fun l => !lineMatches 0 r l) = some y ∧
       MayLand s 0 .scratch [(128 * (r.cmd.xline + r.pos), l.data)] false ∧ (s.bay 0).pending = none) ∧
    (let s := withPart { part0 with polec := 24 } (fun b => { b with arriving := [y], recvs := [r] })
     ((s.bay 0).arriving.filter (fun l => decide (l.due ≤ s.poleTime 0))).find? (lineMatches 0 r) = none) := by
  refine ⟨⟨rfl, by decide, by decide, ⟨by decide, by decide, by decide, by decide⟩, rfl⟩, by decide⟩

/-- Records that a test of the check refuses: an older one, a reserved bit, a field of a record without a merge, a field of a dimension beyond
NDIM, an element type, a merge mode, a placement, no dimension and seven, a progress block and a staging area that are not aligned. -/
theorem wit_Scarf_codes :
    let bit (k : Nat) : BitVec 2048 := BitVec.ofNat 2048 (2 ^ k)
    (record4 - 1).toNat % 2 ^ 8 = 0 ∧ (record4 - bit 8).toNat / 2 ^ 8 % 2 ^ 8 < 4 ∧
    (record4 ||| bit 942).getLsbD 942 = true ∧ (record4 ||| bit 2047).getLsbD 2047 = true ∧ (record4 ||| bit 47).toNat / 2 ^ 34 % 2 ^ 14 ≠ 0 ∧
    (record4 ||| bit 63).getLsbD 23 = false ∧ (record4 ||| bit 63).toNat / 2 ^ 24 % 2 ^ 40 ≠ 0 ∧ recordM.getLsbD 23 = true ∧
    (record4 ||| bit 224).toNat / 2 ^ 20 % 2 ^ 3 ≤ 5 ∧ (record4 ||| bit 224).toNat / 2 ^ (64 + 32 * 5) % 2 ^ 32 ≠ 0 ∧
    3 < (record4 ||| bit 18).toNat / 2 ^ 16 % 2 ^ 4 ∧ 6 ≤ (recordM ||| bit 25 ||| bit 26).toNat / 2 ^ 24 % 2 ^ 4 ∧
    (record4 ||| bit 256 ||| bit 257).toNat / 2 ^ 256 % 2 ^ 2 = 3 ∧ (record4 - bit 20).toNat / 2 ^ 20 % 2 ^ 3 = 0 ∧
    6 < (record4 ||| bit 21 ||| bit 22).toNat / 2 ^ 20 % 2 ^ 3 ∧ (record4 ||| bit 672).toNat / 2 ^ 672 % 2 ^ 4 ≠ 0 ∧
    (recordM ||| bit 816).toNat / 2 ^ 816 % 2 ^ 3 ≠ 0 ∧ (recordM ||| bit 744).toNat / 2 ^ 744 % 2 ^ 6 ≠ 0 ∧ 0 < lyBytes record4 true ∧
    regionOk (partR 3) 0 .stg 0x2000 = false ∧ ¬ [0, 0].Nodup ∧ partP.lchip ∉ [1] := by decide

theorem wit_Scarf_range : ∃ e, translate partP 0x10000 ⟨true, false, false⟩ false = .error e := ⟨_, rfl⟩

/-- A merge table without a chip that begins, and one whose exponents differ; a sum of SHIFT in 32 bits. -/
theorem wit_Scarf_table :
    (1 : Word).toNat % 2 ^ 42 ≠ 0 ∧ (0x100000000000000 : Word).toNat / 2 ^ 56 ≠ 0 ∧
    (0x1000000000000 : Word).extractLsb' 48 8 ≠ (0 : Word).extractLsb' 48 8 ∧
    (let ctx : NodeCtx := ⟨.shift, 32, 0, 0⟩
     ctx.mode = .shift ∧ 0 < ctx.w) := by decide

/-- A transfer from another chip that this chip's table does not let the bay read; a flight that lands beside one that is not due. -/
theorem wit_Scarf_flights :
    let t : Transfer := ⟨0, 0, 0, 0, 2, 0, 0⟩
    let f : Flight := ⟨t, 0, none⟩
    let late : Flight := ⟨⟨1, 0, 2, 2, 2, 0, 0⟩, 9, none⟩
    let far : Transfer := ⟨0, 0, 0, 0, 4, 1, 0⟩
    let s := scarfState partP (fun c => { c with mode := .running, flights := [late, f], plan := [t, late.tr] })
    let c := s.scarfOf 0
    c.flights = [late] ++ f :: [] ∧ f.due ≤ (s.part 0).time ∧ (∀ x ∈ [late] ++ [], (s.part 0).time < x.due ∧ x.tr.index ≠ f.tr.index) ∧
      s.landsFull c.party = false ∧ s.piecesClash 0 c.party (pagePieces 0x2000 [0, 0]) = false ∧
      regionOk { partR 3 with fab := some fab2 } 0 .ldg (far.srcVa record4) = false ∧
      far.srcVa record4 ∈ pageEnds (far.srcVa record4) (elemSpan record4 0 4) := by decide

/-- A segment of a level pass of SHIFT, and of a combining pass of two nodes. -/
theorem wit_Scarf_merge : ∀ x ∈ [(2, false), (0, true)],
    let r : BitVec 2048 := recordM ||| BitVec.ofNat 2048 (x.1 * 2 ^ 24 + 2 * 2 ^ 888)
    let n0 : SNode := ⟨0, 0, 0, 0, none⟩
    let n1 : SNode := ⟨0, 1, 1, 0, none⟩
    let s := scarfState partP (fun c => { c with mode := .running, pass := 1, record := r, table := [0], nodes := [n0, n1] })
    let c := s.scarfOf 0
    c.mode = .running ∧ c.pass ≠ 0 ∧ (s.part 0).held = false ∧ c.orRound = none ∧ c.orWait = false ∧ c.segDue ≤ (s.part 0).time ∧
      c.landed = [] ∧ lyMn r = 2 ∧ ((lyMode r ≠ 2 ∨ c.writing = true) ↔ x.2 = true) ∧ lyMode r < 6 ∧ c.nodes = [n0, n1] ∧
      levelPairs c.nodes c.level = [(n0, n1)] ∧ s.landsFull c.party = false := by decide

/-- The next flit of a message that is not its last, one for the other chip, one that is; a flit asked for again, among other things that
wait for the reserved flit times. -/
theorem wit_Fabric_flits :
    let s := State.reset.setPart 0 { part0 with fab := some fab2 }
    let l := s.links.get (portIdx .xm)
    (0 : BitVec 16) = l.expect ∧ s.samePhys 0 = true ∧ s.samePhys 1 = false ∧ s.podHeader = some fab2 ∧
      fab2.firstPort (s.physOf fab2 fab2.lchip) (s.physOf fab2 1) = some .xp := by decide

/-- A parcel that alone may go, with its last flit time begun and before it; for each kind of parcel. -/
theorem wit_Fabric_departs : ∀ n ∈ [0, 1, 2], ∀ x ∈ [Parcel.retry 5, .again 7, .ptp .sync, .ptpAnswer 3, .flits 1 (.lost 0) 0 1, .flits 1 (.lost 0) 0 2],
    let w : Waiting := ⟨.yard, 0, 0, 0, n, x⟩
    let other : Waiting := ⟨.bulk, 0, 0, 0, 1, .retry 9⟩
    let f : Flit := ⟨1, .lost 0, 0, 1⟩
    let l : Link := { State.reset.links.get 0 with waiting := [other, w], replay := [(7, f)] }
    let s : State := { State.reset with links := State.reset.links.set 0 l }
    let may := fun (y : Waiting) => decide (y.use = .yard)
    w ∈ (s.links.get (portIdx .xp)).waiting ∧ may w = true ∧ (∀ y ∈ (s.links.get (portIdx .xp)).waiting, may y = true → y = w) ∧
      (7, f) ∈ (s.links.get (portIdx .xp)).replay ∧ ∀ y ∈ (s.links.get (portIdx .xp)).replay, y.1 = 7 → y.2 = f := by decide

/-- Tables of chip 1 that list chip 2, whose tables are still awaited; a tier 5 request whose chip places the VA in another mode. -/
theorem wit_Fabric_tables :
    (let d : RDesc := { desc false 1 with chips := [0, 1, 2] }
     let s := State.reset.setPart 0 { part0 with mode := .waiting, fab := some fab2, rds := [d], awaiting := [1, 2] }
     ∀ q : PartId, (1 ∈ (s.part q).awaiting ↔ q = 0) ∧ (1 ∈ (s.part q).awaiting → [d.pod] ≠ [] ∧ 1 ∈ (s.part q).listed ∧
       2 ∈ (s.part q).listed ∧ 2 ≠ (s.part q).lchip ∧ (s.part q).tables = [] ∧ s.yard.podTables = [])) ∧
    (let p := partR 2
     ∃ x : Nat × Region, regionAt p 0 = some x ∧ mwMode x.2.mode = 2 ∧ homeAllows p ⟨1, 0, some 3, 0, 0, 0, 0, 0, .read 8⟩ = false ∧
       homeAllows p ⟨1, 0, some 2, 0, 0, 0, 0, 0, .read 8⟩ = true) := by
  refine ⟨by decide, _, rfl, by decide⟩

/-- A queue of one slot at its own header, into which a packet is written whole. -/
theorem wit_HostAccess_slot :
    let s := State.reset.setPart 0 { partR 4 with queues := [(0, 0)] }
    let h : BitVec 512 := BitVec.ofNat 512 (leNat (s.getVa 0 0 64))
    (0 : Addr) ∈ (s.part 0).queues.map (fun x => x.2) ∧ vaNat (hdrSlotVa h) = 0 ∧ 0 < 2 ^ hdrLog2n h ∧ s.slotGates 0 0 64 = [hdrGateVa h] ∧
      s.hostMay 0 0 64 = true := by decide

/-- A page that a running plan holds, that one which has stopped holds, and a page of the host. -/
theorem wit_MailboxCommands_pages : ∀ x ∈ [(PartMode.running, 0x483B), (.stopped, 0x483B), (.running, (0x6C3B : BitVec 128))],
    let s := (asks 5 0 0 0).setPart 0 { partP with mode := x.1, tt := [⟨x.2, false, false, true, none⟩] }
    s.mappers 0 = [(0, 0, x.2)] ∧ ((∃ y ∈ s.mappers 0, teStier y.2.2 ≠ 6 ∧ (s.part y.1).running = true) ↔ x = (.running, 0x483B)) ∧
      (teStier x.2 = 6 ↔ x.2 = 0x6C3B) := by decide

/-- RETIRE_BENT of a bent of a stopped partition and of one that runs. -/
theorem wit_YardServices_retire : ∀ m ∈ [PartMode.stopped, .running],
    let s := (asks 6 0 0 0).setPart 0 { part0 with mode := m }
    s.partOfBent 0 = some 0 ∧ ((s.part 0).mode = .stopped ↔ m = .stopped) := by decide

end Sys2Proof.Tests
end

section
/-!
Every step keeps every memory in its canonical form (log 3).

One lemma per operation of the model, named after it, says that the operation keeps every memory canonical. Most
operations touch no memory: then the memories of the new state are those of the old one by definition, and the proof
is `h` (or `hb` of a bay, `hp` of a partition). The others write bytes into one memory, copy a range, or swap whole
memories with what a partition keeps; these use the lemmas of the first part. The proofs follow the definitions:
`.onBay` and `.onPart` for an update in place, `.ite` for a choice, `.foldl` for a fold.
-/

namespace Sys2Proof
open Machine Laws

variable {s : State} {b : Bay} {p : Part}

/-! ## What is kept, and the updates that keep it -/

/-- Every memory of a bay is canonical. -/
def BayWf (b : Bay) : Prop := ∀ m ∈ bayMems b, m.wf = true

/-- Every memory that a partition keeps is canonical: its backing data, what preemption saved and its checkpoint. -/
def PartWf (p : Part) : Prop := ∀ m ∈ keptMems p, m.wf = true

/-- A step that is made leaves every memory canonical. A fault or a refusal has no next state. -/
def StepWf (r : Step) : Prop := ∀ t, r = .next t → MemsWf t

/-- Every state that an option holds is canonical. -/
def OptWf (o : Option State) : Prop := ∀ t, o = some t → MemsWf t

/-- What a computation yields, if it does not fail, has a property. -/
def Yields {ε α : Type} (P : α → Prop) (e : Except ε α) : Prop := ∀ x, e = .ok x → P x

/-- What is saved of bays and ring segments is canonical. -/
def SavedWf (l : List SavedBay) (r : List (Nat × Mem)) : Prop := (∀ v ∈ l, BayWf v.kept) ∧ ∀ x ∈ r, x.2.wf = true

/-! ### Canonical memories in vectors and associations -/

theorem filter_wf {m : Mem} {f : Host.Cell → Bool} (h : m.wf = true) : Mem.wf (m.filter f) = true := by
  obtain ⟨hm, hz⟩ := (wf_iff m).mp h
  exact (wf_iff _).mpr ⟨hm.filter _, fun x hx => hz x (List.mem_of_mem_filter hx)⟩

theorem xorAll_wf {m : Mem} {a cells} (h : m.wf = true) : (Mem.xorAll m a cells).wf = true :=
  List.foldlRecOn (motive := fun m : Mem => m.wf = true) _ _ h (fun m hm _ _ => write_wf m _ _ hm)

theorem foldl_writeN_wf {m : Mem} {runs : List (Nat × List Byte)} (h : m.wf = true) :
    (runs.foldl (fun acc r => Mem.writeN acc r.1 r.2) m).wf = true :=
  List.foldlRecOn (motive := fun m : Mem => m.wf = true) _ _ h (fun m hm _ _ => writeN_wf m _ _ hm)

theorem get_wf {v : Vector Mem 8} (hv : ∀ m ∈ v.toList, m.wf = true) (t : Fin 8) : (v.get t).wf = true :=
  hv _ (by simp [Vector.get])

theorem set_wf {v : Vector Mem 8} (hv : ∀ m ∈ v.toList, m.wf = true) (t : Fin 8) {x : Mem} (hx : x.wf = true) :
    ∀ m ∈ (v.set t.val x t.isLt).toList, m.wf = true := by
  intro m hm
  rw [Vector.toList_set] at hm
  rcases List.mem_or_eq_of_mem_set hm with hm | rfl
  · exact hv m hm
  · exact hx

theorem setIfInBounds_wf {v : Vector Mem 8} (hv : ∀ m ∈ v.toList, m.wf = true) (n : Nat) {x : Mem}
    (hx : x.wf = true) : ∀ m ∈ (v.setIfInBounds n x).toList, m.wf = true := by
  intro m hm
  rw [Vector.toList_setIfInBounds] at hm
  rcases List.mem_or_eq_of_mem_set hm with hm | rfl
  · exact hv m hm
  · exact hx

theorem ofFn_wf {f : Fin 8 → Mem} (hf : ∀ t, (f t).wf = true) : ∀ m ∈ (Vector.ofFn f).toList, m.wf = true := by
  intro m hm
  obtain ⟨t, rfl⟩ := Vector.mem_ofFn.mp (Vector.mem_toList_iff.mp hm)
  exact hf t

theorem assocGet_of_forall {β : Type} {P : β → Prop} {d : β} (hd : P d) {l : List (Nat × β)} (hl : ∀ x ∈ l, P x.2)
    (k : Nat) : P (assocGet d l k) := by
  induction l with
  | nil => exact hd
  | cons x l ih =>
    obtain ⟨hx, hl⟩ := List.forall_mem_cons.mp hl
    unfold assocGet
    split
    · exact hx
    · exact ih hl

theorem assocSet_of_forall {β : Type} [DecidableEq β] {P : β → Prop} {d x : β} {l : List (Nat × β)}
    (hl : ∀ y ∈ l, P y.2) (hx : P x) (k : Nat) : ∀ y ∈ assocSet d l k x, P y.2 := by
  induction l with
  | nil => by_cases h : x = d <;> simp [assocSet, h, hx]
  | cons y l ih =>
    obtain ⟨hy, hl⟩ := List.forall_mem_cons.mp hl
    unfold assocSet
    split
    · exact List.forall_mem_cons.mpr ⟨hy, ih hl⟩
    · split <;> split
      · exact hl
      · exact List.forall_mem_cons.mpr ⟨hx, hl⟩
      · exact List.forall_mem_cons.mpr ⟨hy, hl⟩
      · exact List.forall_mem_cons.mpr ⟨hx, List.forall_mem_cons.mpr ⟨hy, hl⟩⟩

/-! ### Choices, folds and outcomes -/

theorem MemsWf.ite {c : Prop} [Decidable c] {t : State} (hs : MemsWf s) (ht : MemsWf t) :
    MemsWf (if c then s else t) := by
  split <;> assumption

theorem BayWf.ite {c : Prop} [Decidable c] {x y : Bay} (hx : BayWf x) (hy : BayWf y) :
    BayWf (if c then x else y) := by
  split <;> assumption

theorem PartWf.ite {c : Prop} [Decidable c] {x y : Part} (hx : PartWf x) (hy : PartWf y) :
    PartWf (if c then x else y) := by
  split <;> assumption

theorem OptWf.ite {c : Prop} [Decidable c] {x y : Option State} (hx : OptWf x) (hy : OptWf y) :
    OptWf (if c then x else y) := by
  split <;> assumption

theorem StepWf.ite {c : Prop} [Decidable c] {x y : Step} (hx : StepWf x) (hy : StepWf y) :
    StepWf (if c then x else y) := by
  split <;> assumption

theorem Yields.ite {ε α : Type} {P : α → Prop} {c : Prop} [Decidable c] {x y : Except ε α} (hx : Yields P x)
    (hy : Yields P y) : Yields P (if c then x else y) := by
  split <;> assumption

theorem MemsWf.foldl {α} {f : State → α → State} {l : List α} (hf : ∀ t x, MemsWf t → MemsWf (f t x)) (h : MemsWf s) :
    MemsWf (l.foldl f s) := by
  induction l generalizing s with
  | nil => exact h
  | cons x l ih => exact ih (hf _ _ h)

theorem BayWf.foldl {α : Type} {f : Bay → α → Bay} {l : List α} (hf : ∀ t x, BayWf t → BayWf (f t x)) (hb : BayWf b) :
    BayWf (l.foldl f b) :=
  List.foldlRecOn _ _ hb (fun _ hb _ _ => hf _ _ hb)

theorem OptWf.none : OptWf none := nofun

theorem OptWf.some (h : MemsWf s) : OptWf (some s) := fun _ ht => Option.some.inj ht ▸ h

theorem MemsWf.ofSome {o : Option State} (hs : o = some s) (h : OptWf o) : MemsWf s := h s hs

theorem OptWf.map {α : Type} {o : Option α} {f : α → State} (hf : ∀ a, MemsWf (f a)) : OptWf (o.map f) := by
  intro t ht
  obtain ⟨a, -, rfl⟩ := Option.map_eq_some_iff.mp ht
  exact hf a

theorem OptWf.mapWf {o : Option State} {f : State → State} (hf : ∀ t, MemsWf t → MemsWf (f t)) (ho : OptWf o) :
    OptWf (o.map f) := by
  intro t ht
  obtain ⟨u, hu, rfl⟩ := Option.map_eq_some_iff.mp ht
  exact hf u (ho u hu)

theorem Yields.error {ε α : Type} {P : α → Prop} {e : ε} : Yields P (.error e) := nofun

theorem Yields.ok {ε α : Type} {P : α → Prop} {x : α} (hx : P x) : Yields P (.ok x : Except ε α) :=
  fun _ h => Except.ok.inj h ▸ hx

theorem StepWf.next {t : State} (h : MemsWf t) : StepWf (.next t) := by
  rintro _ ⟨⟩
  exact h

/-! ### The memories of a bay -/

theorem bayWf_iff (b : Bay) :
    BayWf b ↔ b.scratch.wf = true ∧ b.opA.wf = true ∧ b.opB.wf = true ∧ b.imem.wf = true ∧ b.jigmem.wf = true := by
  simp [BayWf, bayMems]

theorem BayWf.reset : BayWf .reset := by
  simp [BayWf, bayMems, Bay.reset]
  rfl

theorem BayWf.store {k} (hb : BayWf b) : (b.store k).wf = true := by
  cases k <;> exact hb _ (by simp [bayMems, Bay.store])

theorem BayWf.setStore {k m} (hm : m.wf = true) (hb : BayWf b) : BayWf (b.setStore k m) := setStore_wf b k m hb hm

theorem BayWf.code (hb : BayWf b) : b.imem.wf = true ∧ b.jigmem.wf = true := by
  obtain ⟨-, -, -, hc⟩ := (bayWf_iff b).mp hb
  exact hc

theorem BayWf.setImem {m : Mem} (hm : m.wf = true) (hb : BayWf b) : BayWf { b with imem := m } := by
  obtain ⟨hs, ha, hB, -, hj⟩ := (bayWf_iff b).mp hb
  exact (bayWf_iff _).mpr ⟨hs, ha, hB, hm, hj⟩

theorem BayWf.setJigmem {m : Mem} (hm : m.wf = true) (hb : BayWf b) : BayWf { b with jigmem := m } := by
  obtain ⟨hs, ha, hB, hi, -⟩ := (bayWf_iff b).mp hb
  exact (bayWf_iff _).mpr ⟨hs, ha, hB, hi, hm⟩

theorem BayWf.withHandles {v} (hb : BayWf b) : BayWf { b with handles := v } := hb

theorem BayWf.withGbuf {l} (hb : BayWf b) : BayWf { b with gbuf := l } := hb

theorem BayWf.withBankWrites {w} (hb : BayWf b) : BayWf { b with bankWrites := w } := hb

theorem BayWf.withWindow {w} (hb : BayWf b) : BayWf { b with window := w } := hb

/-! ### The memories that a partition keeps -/

theorem partWf_iff (p : Part) :
    PartWf p ↔ p.backing.wf = true ∧ SavedWf p.saved p.savedRing ∧ ∀ c ∈ p.checkpoint, SavedWf c.bays c.ring := by
  simp only [PartWf, keptMems, SavedWf, BayWf, List.cons_append, List.forall_mem_cons, List.forall_mem_append,
    List.forall_mem_flatMap, List.forall_mem_map, Option.mem_toList, Option.mem_def]

theorem PartWf.reset : PartWf .reset := by
  simp [PartWf, keptMems, Part.reset]
  rfl

theorem SavedWf.nil : SavedWf [] [] := ⟨List.forall_mem_nil _, List.forall_mem_nil _⟩

theorem PartWf.saved (hp : PartWf p) : SavedWf p.saved p.savedRing := by
  obtain ⟨-, hs, -⟩ := (partWf_iff p).mp hp
  exact hs

theorem PartWf.setSaved {l r} (hs : SavedWf l r) (hp : PartWf p) : PartWf { p with saved := l, savedRing := r } := by
  obtain ⟨hb, -, hc⟩ := (partWf_iff p).mp hp
  exact (partWf_iff _).mpr ⟨hb, hs, hc⟩

theorem PartWf.clearSaved {mode area due} (hp : PartWf p) :
    PartWf { p with mode := mode, saved := [], savedRing := [], saveArea := area, remapDue := due } :=
  PartWf.setSaved (p := { p with mode := mode, saveArea := area, remapDue := due }) .nil hp

theorem PartWf.backing (hp : PartWf p) : p.backing.wf = true := by
  obtain ⟨hb, -⟩ := (partWf_iff p).mp hp
  exact hb

theorem PartWf.setBacking {m : Mem} (hm : m.wf = true) (hp : PartWf p) : PartWf { p with backing := m } := by
  obtain ⟨-, hs, hc⟩ := (partWf_iff p).mp hp
  exact (partWf_iff _).mpr ⟨hm, hs, hc⟩

theorem PartWf.checkpoint {c} (hp : PartWf p) (hc : p.checkpoint = some c) : SavedWf c.bays c.ring := by
  obtain ⟨-, -, hk⟩ := (partWf_iff p).mp hp
  exact hk c hc

theorem PartWf.setCheckpoint {c : Checkpoint} (hs : SavedWf c.bays c.ring) (hp : PartWf p) :
    PartWf { p with checkpoint := some c } := by
  obtain ⟨hb, hv, -⟩ := (partWf_iff p).mp hp
  exact (partWf_iff _).mpr ⟨hb, hv, fun d hd => Option.some.inj hd ▸ hs⟩

/-! ### The memories of the state: what they are, and what replacing one of them keeps -/

theorem BayWf.bay {b : BayId} (h : MemsWf s) : BayWf (s.bay b) := h.2.1 b

theorem PartWf.part {q : PartId} (h : MemsWf s) : PartWf (s.part q) := h.2.2.1 q

theorem MemsWf.setBay {b : BayId} {x : Bay} (hx : BayWf x) (h : MemsWf s) : MemsWf (s.setBay b x) := by
  obtain ⟨hd, hb, hp, hh, hm, hf, hr⟩ := h
  refine ⟨hd, fun c => ?_, hp, hh, hm, hf, hr⟩
  by_cases hc : c = b
  · subst hc
    rwa [State.bay_setBay]
  · rw [State.bay_setBay_ne s b c x hc]
    exact hb c

theorem MemsWf.setPart {q : PartId} {x : Part} (hx : PartWf x) (h : MemsWf s) : MemsWf (s.setPart q x) := by
  obtain ⟨hd, hb, hp, hh, hm, hf, hr⟩ := h
  refine ⟨hd, hb, fun r => ?_, hh, hm, hf, hr⟩
  by_cases hr : r = q
  · subst hr
    rwa [State.part_setPart]
  · rw [State.part_setPart_ne s q r x hr]
    exact hp r

theorem MemsWf.onBay {b : BayId} {f : Bay → Bay} (hf : ∀ x, BayWf x → BayWf (f x)) (h : MemsWf s) :
    MemsWf (s.onBay b f) :=
  .setBay (hf _ (.bay h)) h

theorem MemsWf.onPart {q : PartId} {f : Part → Part} (hf : ∀ x, PartWf x → PartWf (f x)) (h : MemsWf s) :
    MemsWf (s.onPart q f) :=
  .setPart (hf _ (.part h)) h

theorem MemsWf.setBays {v : Vector Bay 192} (hv : ∀ b : BayId, BayWf (v.get b)) (h : MemsWf s) :
    MemsWf { s with bays := v } := by
  obtain ⟨hd, -, hrest⟩ := h
  exact ⟨hd, hv, hrest⟩

theorem MemsWf.setParts {v : Vector Part 8} (hv : ∀ q : PartId, PartWf (v.get q)) (h : MemsWf s) :
    MemsWf { s with parts := v } := by
  obtain ⟨hd, hb, -, hrest⟩ := h
  exact ⟨hd, hb, hv, hrest⟩

theorem MemsWf.mapParts {f : Part → Part} (hf : ∀ p, PartWf p → PartWf (f p)) (h : MemsWf s) :
    MemsWf { s with parts := s.parts.map f } :=
  .setParts (fun q => by
    rw [Vector.get_eq_getElem, Vector.getElem_map]
    exact hf _ (.part h)) h

theorem MemsWf.ring (h : MemsWf s) : ∀ m ∈ s.ring.toList, m.wf = true := fun m hm => h.1 m (List.mem_append_left _ hm)

theorem MemsWf.setRing {v : Vector Mem 8} (hv : ∀ m ∈ v.toList, m.wf = true) (h : MemsWf s) :
    MemsWf { s with ring := v } := by
  obtain ⟨hd, hrest⟩ := h
  refine ⟨fun m hm => ?_, hrest⟩
  rcases List.mem_append.mp hm with hm | hm
  · exact hv m hm
  · exact hd m (List.mem_append_right _ hm)

theorem MemsWf.lpddr (h : MemsWf s) : ∀ m ∈ s.lpddr.toList, m.wf = true :=
  fun m hm => h.1 m (List.mem_append_right _ hm)

theorem MemsWf.setLpddr {v : Vector Mem 8} (hv : ∀ m ∈ v.toList, m.wf = true) (h : MemsWf s) :
    MemsWf { s with lpddr := v } := by
  obtain ⟨hd, hrest⟩ := h
  refine ⟨fun m hm => ?_, hrest⟩
  rcases List.mem_append.mp hm with hm | hm
  · exact hd m (List.mem_append_left _ hm)
  · exact hv m hm

theorem MemsWf.hostMem (h : MemsWf s) : s.hostMem.wf = true := by
  obtain ⟨-, -, -, hh, -⟩ := h
  exact hh

theorem MemsWf.setHostMem {m : Mem} (hm : m.wf = true) (h : MemsWf s) : MemsWf { s with hostMem := m } := by
  obtain ⟨hd, hb, hp, -, hrest⟩ := h
  exact ⟨hd, hb, hp, hm, hrest⟩

theorem MemsWf.mailbox (h : MemsWf s) : s.yard.mailbox.wf = true := by
  obtain ⟨-, -, -, -, hy, -⟩ := h
  exact hy

theorem MemsWf.setYard {y : Yard} (hy : y.mailbox.wf = true) (h : MemsWf s) : MemsWf { s with yard := y } := by
  obtain ⟨hd, hb, hp, hh, -, hrest⟩ := h
  exact ⟨hd, hb, hp, hh, hy, hrest⟩

theorem MemsWf.setMailbox {y : Yard} {m : Mem} (hm : m.wf = true) (h : MemsWf s) :
    MemsWf { s with yard := { y with mailbox := m } } :=
  .setYard hm h

theorem MemsWf.flashOf {pair} (h : MemsWf s) : (s.flashOf pair).wf = true := by
  obtain ⟨-, -, -, -, -, hf, -⟩ := h
  exact assocGet_of_forall (P := fun m : Mem => m.wf = true) rfl hf pair

theorem MemsWf.setFlash {pair} {m : Mem} (hm : m.wf = true) (h : MemsWf s) :
    MemsWf { s with flash := assocSet [] s.flash pair m } := by
  obtain ⟨hd, hb, hp, hh, hy, hf, hr⟩ := h
  exact ⟨hd, hb, hp, hh, hy, assocSet_of_forall (P := fun m : Mem => m.wf = true) hf hm pair, hr⟩

theorem MemsWf.rebuild (h : MemsWf s) : ∀ u ∈ s.rebuild, u.2.1.wf = true := by
  obtain ⟨-, -, -, -, -, -, hr⟩ := h
  exact hr

theorem MemsWf.setRebuild {l : List (Nat × Mem × Bool)} (hl : ∀ u ∈ l, u.2.1.wf = true) (h : MemsWf s) :
    MemsWf { s with rebuild := l } := by
  obtain ⟨hd, hb, hp, hh, hy, hf, -⟩ := h
  exact ⟨hd, hb, hp, hh, hy, hf, hl⟩

theorem MemsWf.withArrivals {l} (h : MemsWf s) : MemsWf { s with arrivals := l } := h

theorem MemsWf.withScarf {v} (h : MemsWf s) : MemsWf { s with scarf := v } := h

theorem MemsWf.withDirty {l} (h : MemsWf s) : MemsWf { s with dirty := l } := h

theorem MemsWf.withRouter {v w} (h : MemsWf s) : MemsWf { s with scarf := v, router := w } := h

theorem MemsWf.withLinks {l} (h : MemsWf s) : MemsWf { s with links := l } := h

theorem MemsWf.withoutRebuild {l} (h : MemsWf s) :
    MemsWf { s with rebuild := [], yard := { s.yard with lost := l } } :=
  .setYard (s := { s with rebuild := [] }) h.mailbox (.setRebuild (List.forall_mem_nil _) h)

/-! ## Results, logs and faults of a bay -/

theorem MemsWf.queueBurst {q code place bytes act} (h : MemsWf s) : MemsWf (s.queueBurst q code place bytes act) :=
  .onPart (fun _ hp => hp) h

theorem BayWf.writeRuns {k runs} (hb : BayWf b) : BayWf (b.writeRuns k runs) := by
  have hw : BayWf (b.setStore k (runs.foldl (fun acc r => Mem.writeN acc r.1 r.2) (b.store k))) :=
    .setStore (foldl_writeN_wf hb.store) hb
  unfold Bay.writeRuns
  split <;> exact hw

theorem BayWf.writeStore {k off data} (hb : BayWf b) : BayWf (b.writeStore k off data) := .writeRuns hb

theorem MemsWf.writePlace {pl data} (h : MemsWf s) : MemsWf (s.writePlace pl data) := by
  have hd := writePlace_wf s pl data h.1
  obtain ⟨-, hrest⟩ := h
  cases pl <;> exact ⟨hd, hrest⟩

theorem BayWf.push {r} (hb : BayWf b) : BayWf (b.push r) := hb

theorem BayWf.writeDst {now d v} (hb : BayWf b) : BayWf (b.writeDst now d v) := by
  unfold Bay.writeDst
  split
  · exact .ite hb hb
  all_goals exact hb

theorem BayWf.restoreWitness {w} (hb : BayWf b) : BayWf (b.restoreWitness w) := hb

theorem BayWf.rolledBack (hb : BayWf b) : BayWf b.rolledBack := by
  unfold Bay.rolledBack
  split
  · exact hb
  · exact .withGbuf (.restoreWitness (.foldl (fun _ _ hb => .withHandles hb)
      (.foldl (fun _ _ hb => .setStore (writeN_wf _ _ _ hb.store) hb) hb)))

theorem BayWf.closeWindow (hb : BayWf b) : BayWf b.closeWindow := hb

theorem BayWf.turnWindow {t} (hb : BayWf b) : BayWf (b.turnWindow t) := .ite hb hb

theorem BayWf.keepReplay {t v} (hb : BayWf b) : BayWf (b.keepReplay t v) := hb

theorem BayWf.keepResult {t v} (hb : BayWf b) : BayWf (b.keepResult t v) := hb

theorem MemsWf.log {e} (h : MemsWf s) : MemsWf (s.log e) := h

theorem MemsWf.logFault {b action cls code info} (h : MemsWf s) : MemsWf (s.logFault b action cls code info) := .log h

theorem MemsWf.retire {b action} (h : MemsWf s) : MemsWf (s.retire b action) :=
  .onBay (fun _ hb => .ite hb hb) (.logFault h)

theorem MemsWf.takeTrap {b f repeated cls tbundle} (h : MemsWf s) : MemsWf (s.takeTrap b f repeated cls tbundle) :=
  .ite (.retire (.onBay (fun _ hb => hb) h)) (.ite (.onBay (fun _ hb => hb) h) (.retire (.onBay (fun _ hb => hb) h)))

theorem MemsWf.takeFault {b f} (h : MemsWf s) : MemsWf (s.takeFault b f) := by
  unfold State.takeFault
  split
  · exact .retire (.onBay (fun _ hb => hb) h)
  · exact .onBay (fun _ hb => hb) h
  · exact .takeTrap h

theorem MemsWf.strayFault {b c info} (h : MemsWf s) : MemsWf (s.strayFault b c info) :=
  .onBay (fun _ hb => by split <;> exact hb) h

theorem MemsWf.strayRetry {b c info i} (h : MemsWf s) : MemsWf (s.strayRetry b c info i) :=
  .onBay (fun _ hb => by split <;> exact hb) h

theorem MemsWf.strayLate {b info i} (h : MemsWf s) : MemsWf (s.strayLate b info i) :=
  .onBay (fun _ hb => by split <;> exact hb) h

theorem MemsWf.raise {f} (h : MemsWf s) : MemsWf (s.raise f) := by
  unfold State.raise
  split
  · exact .onBay (fun _ hb => hb) h
  · exact .takeFault h

theorem MemsWf.move {c chk eff} (he : ∀ v t, MemsWf t → MemsWf (eff v t)) (h : MemsWf s) :
    MemsWf (s.move c chk eff) := by
  unfold State.move
  dsimp only
  split
  · split
    · exact .raise h
    · split
      · exact .raise h
      · exact he _ _ h
  · exact h

theorem MemsWf.onMe {f : Bay → Bay} (hf : ∀ x, BayWf x → BayWf (f x)) (h : MemsWf s) : MemsWf (s.onMe f) :=
  .onBay hf h

theorem MemsWf.trigger {c id p lat chk f} (h : MemsWf s) : MemsWf (s.trigger c id p lat chk f) :=
  .move (fun _ _ h => .onMe (fun _ hb => hb) h) h

theorem MemsWf.freeWord (h : MemsWf s) : MemsWf s.freeWord.2 := h

/-! ## Links and messages -/

theorem MemsWf.emit {o} (h : MemsWf s) : MemsWf (s.emit o) := h

theorem MemsWf.sendFlit {p x} (h : MemsWf s) : MemsWf (s.sendFlit p x) := h

theorem MemsWf.sendChip {f chip n m} (h : MemsWf s) : MemsWf (s.sendChip f chip n m) := by
  unfold State.sendChip
  split
  · exact .foldl (fun _ _ h => .sendFlit h) h
  · exact .ite h (.emit h)
  · exact .ite h (.emit h)

theorem MemsWf.enqueue {p use q ready x} (h : MemsWf s) : MemsWf (s.enqueue p use q ready x) := h

theorem MemsWf.sendBy {use q ready n f chip m} (h : MemsWf s) : MemsWf (s.sendBy use q ready n f chip m) := by
  unfold State.sendBy
  split
  · exact .enqueue h
  · exact .sendChip h

theorem MemsWf.remoteSend {q ready f chip m} (h : MemsWf s) : MemsWf (s.remoteSend q ready f chip m) := .sendBy h

theorem MemsWf.flashPut {pair off data} (h : MemsWf s) : MemsWf (s.flashPut pair off data) :=
  .setFlash (writeN_wf _ _ _ h.flashOf) h

theorem OptWf.hostPut {conn off data} (h : MemsWf s) : OptWf (s.hostPut conn off data) :=
  .map (fun _ => .setHostMem (writeN_wf _ _ _ h.hostMem) h)

theorem MemsWf.tier5Send {b id va pl k} (h : MemsWf s) : MemsWf (s.tier5Send b id va pl k) := by
  unfold State.tier5Send
  split
  · dsimp only
    split <;> exact .remoteSend h
  · exact h

/-! ## Accesses by virtual address -/

theorem PartWf.commitSample {r} (hp : PartWf p) : PartWf (p.commitSample r) := .ite hp hp

theorem MemsWf.sampleVa {b held typ va raw} (h : MemsWf s) : MemsWf (s.sampleVa b held typ va raw) := by
  unfold State.sampleVa
  dsimp only
  split
  · exact .ite (.onBay (fun _ hb => hb) (.onBay (fun _ hb => hb) h)) (.onPart (fun _ hp => .commitSample hp)
      (.onBay (fun _ hb => hb) h))
  · exact .onBay (fun _ hb => hb) h

theorem MemsWf.claim {b cl} (h : MemsWf s) : MemsWf (s.claim b cl) := by
  unfold State.claim
  split
  · exact h
  · exact .onPart (fun _ hp => hp) h

theorem MemsWf.vaStart {b o size signed va data x cl value g t5} (h : MemsWf s) :
    MemsWf (s.vaStart b o size signed va data x cl value g t5) := by
  have hlocal : MemsWf (s.vaStart b o size signed va data x cl value g none) := by
    refine .onBay (fun _ hb => ?_) ?_
    · dsimp only
      split
      · exact .push (by split <;> exact hb)
      · split <;> exact hb
    · split
      · exact .sampleVa (.claim h)
      · exact .claim h
  cases t5 with
  | none => exact hlocal
  | some k => exact .tier5Send hlocal

theorem MemsWf.vaGo {o size signed va data value g t5} (h : MemsWf s) :
    MemsWf (s.vaGo o size signed va data value g t5) := by
  unfold State.vaGo
  split
  · exact h
  · exact .vaStart h

/-! ## Loads and stores -/

theorem MemsWf.localStart {kind addr n signed data mask port lat} (h : MemsWf s) :
    MemsWf (s.localStart kind addr n signed data mask port lat) :=
  .onMe (fun _ hb => by
    dsimp only
    split <;> exact hb) h

theorem MemsWf.addrOp {c u k f} (h : MemsWf s) : MemsWf (Machine.addrOp c u k f s) := .trigger h

theorem MemsWf.loadVa {c u consume} (h : MemsWf s) : MemsWf (Machine.loadVa c u consume s) :=
  .move (fun _ _ h => .vaGo h) h

theorem MemsWf.storeVa {c u produce} (h : MemsWf s) : MemsWf (Machine.storeVa c u produce s) :=
  .move (fun _ _ h => .vaGo h) h

/-! ## Clocks and races -/

theorem MemsWf.join {y v} (h : MemsWf s) : MemsWf (s.join y v) := .ite h h

theorem MemsWf.joinLater {y v} (h : MemsWf s) : MemsWf (s.joinLater y v) := h

theorem MemsWf.makeLater (h : MemsWf s) : MemsWf s.makeLater :=
  .foldl (α := ℕ × List (ℕ × ℕ)) (f := fun acc x => acc.join x.1 x.2) (l := s.later) (fun _ _ h => .join h) h

theorem MemsWf.freshTag (h : MemsWf s) : MemsWf s.freshTag.2 := h

theorem MemsWf.race {q} (h : MemsWf s) : MemsWf (s.race q) := .onPart (fun _ hp => hp) h

theorem MemsWf.noteAt {q party tag key n write kind stamp v} (h : MemsWf s) :
    MemsWf (s.noteAt q party tag key n write kind stamp v) :=
  .ite h (.ite (.race h) h)

theorem MemsWf.noteBy {q party tag pl n write kind stamp v} (h : MemsWf s) :
    MemsWf (s.noteBy q party tag pl n write kind stamp v) := by
  unfold State.noteBy
  split
  · exact h
  · exact .noteAt h

theorem MemsWf.note {b pl n write kind stamp seen} (h : MemsWf s) : MemsWf (s.note b pl n write kind stamp seen) := by
  unfold State.note
  split
  · exact .noteBy h
  · exact h

theorem MemsWf.stickRaced (h : MemsWf s) : MemsWf s.stickRaced := .mapParts (fun _ hp => .ite hp hp) h

theorem MemsWf.useStore {b k off n write} (h : MemsWf s) : MemsWf (s.useStore b k off n write) := by
  unfold State.useStore
  split
  · exact h
  · exact .ite (.race h) h

theorem MemsWf.dropClocks {q} (h : MemsWf s) : MemsWf (s.dropClocks q) := h

theorem MemsWf.dropTouches {q} (h : MemsWf s) : MemsWf (s.dropTouches q) := .onPart (fun _ hp => hp) h

/-! ## Commands of the engines -/

theorem BayWf.swap {u w} (hb : BayWf b) : BayWf (b.swap u w) := .ite hb hb

theorem MemsWf.command {c e op mask leaves mk chk} {eff : Cmd → Bay → Bay} (h : MemsWf s)
    (he : ∀ c b, BayWf b → BayWf (eff c b) := by exact fun _ _ hb => hb) :
    MemsWf (s.command c e op mask leaves mk chk eff) :=
  .move (fun _ _ h => .onMe (fun b hb => he _ _ (by
    dsimp only
    split
    next u _ => exact BayWf.swap (u := u) hb
    · exact hb)) h) h

theorem BayWf.produce {c} (hb : BayWf b) : BayWf (b.produce c) := .ite hb hb

theorem StepWf.execPegclrBegin {b} (h : MemsWf s) : StepWf (Machine.execPegclrBegin b s) := by
  unfold Machine.execPegclrBegin
  split
  · exact .next h
  · exact .next (.onBay (fun _ hb => hb) h)

theorem BayWf.endPegs (hb : BayWf b) : BayWf b.endPegs.1 := hb

/-! ## Landings and banks -/

theorem BayWf.useBanks {grp write l} (hb : BayWf b) : BayWf (b.useBanks grp write l) := hb

theorem BayWf.landNow {k runs} (hb : BayWf b) : BayWf (b.landNow k runs) := .writeRuns (k := k) (runs := runs) hb

theorem BayWf.loseBanks {grp write l} (hb : BayWf b) : BayWf (b.loseBanks grp write l) := hb

theorem MemsWf.land {b k runs scale} (h : MemsWf s) : MemsWf (s.land b k runs scale) := by
  have h0 : MemsWf (runs.foldl (fun acc r => acc.useStore b k r.1 r.2.length true) s) := .foldl (fun _ _ h =>
    .useStore h) h
  have h1 : MemsWf ((runs.foldl (fun acc r => acc.useStore b k r.1 r.2.length true) s).onBay b
    (fun y => y.landNow k runs)) :=
    .onBay (fun _ hb => .landNow hb) h0
  unfold State.land
  dsimp only
  split
  · exact .strayFault h
  · split
    · split
      · exact .strayFault h
      · exact h1
    · split
      · exact h1
      · split
        · exact .strayFault (.onBay (fun _ hb => .withBankWrites (.useBanks (.loseBanks hb))) h0)
        · exact .onBay (fun _ hb => .withBankWrites (.useBanks (.loseBanks hb))) h0

theorem MemsWf.bankRead {b grp banks} (h : MemsWf s) : MemsWf (s.bankRead b grp banks) := by
  unfold State.bankRead
  split
  · exact .strayFault (.onBay (fun _ hb => hb) h)
  · exact .onBay (fun _ hb => hb) h

theorem BayWf.makeBankWrites {bank} (hb : BayWf b) : BayWf (b.makeBankWrites bank) :=
  BayWf.foldl (b := { b with bankWrites := [] }) (fun _ _ hb => .writeRuns hb) hb

theorem OptWf.touchHandle {b h'} (h : MemsWf s) : OptWf (s.touchHandle b h') :=
  .ite (.some h) (.ite .none (.some (.onBay (fun _ hb => hb) h)))

theorem MemsWf.writeHandle {b h' f} (h : MemsWf s) : MemsWf (s.writeHandle b h' f) := by
  unfold State.writeHandle
  split
  · exact .strayFault h
  next ht => exact .onBay (fun _ hb => hb) (.ofSome ht (.touchHandle h))

/-! ## Atomics, hands and tags -/

theorem MemsWf.atomicVa {c k op} (h : MemsWf s) : MemsWf (Machine.atomicVa c k op s) := .move (fun _ _ h => .vaGo h) h

theorem MemsWf.handGo {va w} (h : MemsWf s) : MemsWf (Machine.handGo va w s) := by
  unfold Machine.handGo
  split
  · exact h
  · exact .onMe (fun _ hb => hb) (.vaGo h)

theorem MemsWf.tagStart {op} (h : MemsWf s) : MemsWf (Machine.tagStart op s) := .onMe (fun _ hb => hb) h

/-! ## Accesses when they perform -/

theorem MemsWf.restoreBays {l : List SavedBay} (hl : ∀ v ∈ l, BayWf v.kept) (h : MemsWf s) :
    MemsWf (s.restoreBays l) :=
  List.foldlRecOn _ _ h (fun _ h v hv => .onBay (fun _ _ => hl v hv) h)

theorem MemsWf.restoreRing {l : List (Nat × Mem)} (hl : ∀ x ∈ l, x.2.wf = true) (h : MemsWf s) :
    MemsWf (s.restoreRing l) :=
  .setRing (List.foldlRecOn (motive := fun v : Vector Mem 8 => ∀ m ∈ v.toList, m.wf = true) _ _ h.ring
    (fun _ hv x hx => setIfInBounds_wf hv _ (hl x hx))) h

theorem MemsWf.saveBays {q : PartId} (h : MemsWf s) : ∀ v ∈ s.saveBays q, BayWf v.kept := by
  intro v hv
  obtain ⟨b, -, rfl⟩ := List.mem_map.mp hv
  exact .bay h

theorem MemsWf.saveRing {q : PartId} (h : MemsWf s) : ∀ x ∈ s.saveRing q, x.2.wf = true := by
  intro x hx
  obtain ⟨t, -, rfl⟩ := List.mem_map.mp hx
  exact get_wf h.ring t

theorem MemsWf.savedWf {q : PartId} (h : MemsWf s) : SavedWf (s.saveBays q) (s.saveRing q) := ⟨h.saveBays, h.saveRing⟩

theorem MemsWf.restore {l r} (hs : SavedWf l r) (h : MemsWf s) : MemsWf ((s.restoreBays l).restoreRing r) :=
  .restoreRing hs.2 (.restoreBays hs.1 h)

theorem MemsWf.within {q : PartId} {f : State → State} (hf : ∀ t, MemsWf t → MemsWf (f t)) (h : MemsWf s) :
    MemsWf (s.within q f) := by
  unfold State.within
  dsimp only
  split
  · have ht := hf _ (.restore (PartWf.saved (.part (q := q) h)) h)
    exact .onPart (fun _ hp => .setSaved ht.savedWf hp) (.restore h.savedWf ht)
  · exact hf _ h

theorem MemsWf.applyBytes {e} (h : MemsWf s) : MemsWf (s.applyBytes e) := by
  unfold State.applyBytes
  split
  · exact .writePlace h
  · exact .writePlace h
  · exact .writePlace h
  · exact h
  · exact h

theorem MemsWf.orderAccess {b va} (h : MemsWf s) : MemsWf (s.orderAccess b va) := by
  unfold State.orderAccess
  dsimp only
  split
  · exact h
  · exact .ite (.join (.join h)) (.join h)

theorem MemsWf.useRegion {q va party stamp seen} (h : MemsWf s) : MemsWf (s.useRegion q va party stamp seen) := by
  unfold State.useRegion
  split
  · exact h
  · exact .onPart (fun _ hp => hp) h

theorem MemsWf.noteRead {b va pl n} (h : MemsWf s) : MemsWf (s.noteRead b va pl n) := by
  unfold State.noteRead
  split
  · exact h
  · exact .useRegion (.note h)

theorem MemsWf.markPending {q x} (h : MemsWf s) : MemsWf (s.markPending q x) := .onPart (fun _ hp => hp) h

theorem MemsWf.markLate {q x} (h : MemsWf s) : MemsWf (s.markLate q x) := .onPart (fun _ hp => hp) h

theorem PartWf.markWritten (hp : PartWf p) : PartWf p.markWritten := .ite hp hp

theorem MemsWf.markAt {q va} (h : MemsWf s) : MemsWf (s.markAt q va) := by
  unfold State.markAt
  split
  · exact .markLate h
  · exact h

theorem MemsWf.onGate {q va f} (h : MemsWf s) : MemsWf (s.onGate q va f) := by
  unfold State.onGate
  split
  · exact h
  · exact .onPart (fun _ hp => .ite hp hp) (.markAt (.writePlace h))

theorem MemsWf.noteGate {q party va} (h : MemsWf s) : MemsWf (s.noteGate q party va) := by
  unfold State.noteGate
  split
  · exact h
  · exact .noteBy h

theorem MemsWf.arrive {q party va n cover} (h : MemsWf s) : MemsWf (s.arrive q party va n cover) :=
  .onPart (fun _ hp => hp) (.noteGate (.onGate h))

theorem MemsWf.arriveAt {q party va n cover} (h : MemsWf s) : MemsWf (s.arriveAt q party va n cover) :=
  .ite h (.arrive h)

theorem MemsWf.gateSet {q party va v} (h : MemsWf s) : MemsWf (s.gateSet q party va v) := .noteGate (.onGate h)

theorem BayWf.performLoad {a v} (hb : BayWf b) : BayWf (b.performLoad a v) := by
  unfold Bay.performLoad
  split <;> exact hb

theorem MemsWf.landStore {b off data m} (h : MemsWf s) : MemsWf (s.landStore b off data m) := by
  unfold State.landStore
  split <;> exact .land h

theorem MemsWf.lateAccess {b a} (h : MemsWf s) : MemsWf (s.lateAccess b a) := by
  unfold State.lateAccess
  split
  · exact .strayFault (.onBay (fun _ hb => hb) h)
  · exact .strayLate (by
      split
      · exact .onBay (fun _ hb => hb) h
      · exact .tier5Send (.onBay (fun _ hb => hb) h)
      · exact .onBay (fun _ hb => hb) h)

theorem MemsWf.performVaLoad {b a k} (h : MemsWf s) : MemsWf (s.performVaLoad b a k) := by
  unfold State.performVaLoad
  dsimp only
  split
  · exact .lateAccess h
  · split
    · exact .strayFault (.onBay (fun _ hb => hb) h)
    · refine .onBay (fun _ hb => ?_) (by split; exacts [.noteRead (.orderAccess h), .orderAccess h])
      cases a.port <;> cases k <;> exact hb

theorem MemsWf.performVaStore {b a k} (h : MemsWf s) : MemsWf (s.performVaStore b a k) := by
  unfold State.performVaStore
  split
  · exact .strayFault (.onBay (fun _ hb => hb) h)
  · exact .ite (.strayFault (.onBay (fun _ hb => hb) h)) (.onBay (fun _ hb => hb) (.orderAccess h))

theorem MemsWf.performFetch {b a} (h : MemsWf s) : MemsWf (s.performFetch b a) := by
  unfold State.performFetch
  dsimp only
  split
  · exact .lateAccess h
  · split
    · exact .strayFault (.onBay (fun _ hb => hb) h)
    · refine .onBay (fun _ hb => by cases a.port <;> exact hb) ?_
      split
      · refine .markLate ?_
        split
        exacts [h, .note (.writePlace h), h]
      · split
        exacts [h, .note (.writePlace h), h]

/-! ## Vector operations -/

theorem MemsWf.vecOp {c u k w lat f} (h : MemsWf s) : MemsWf (Machine.vecOp c u k w lat f s) := .trigger h

theorem MemsWf.vecMaskOp {c u k w f} (h : MemsWf s) : MemsWf (Machine.vecMaskOp c u k w f s) := .trigger h

theorem MemsWf.vecScalarOp {c u k w f} (h : MemsWf s) : MemsWf (Machine.vecScalarOp c u k w f s) := .trigger h

theorem MemsWf.vecShrs {c u w} (h : MemsWf s) : MemsWf (Machine.vecShrs c u w s) := .trigger h

theorem MemsWf.vecNarrow {c u w} (h : MemsWf s) : MemsWf (Machine.vecNarrow c u w s) :=
  .move (fun _ _ h => .onMe (fun _ hb => hb) h) h

theorem MemsWf.vecLdv {c u w} (h : MemsWf s) : MemsWf (Machine.vecLdv c u w s) := .move (fun _ _ h => .localStart h) h

theorem MemsWf.vecStv {c u} (h : MemsWf s) : MemsWf (Machine.vecStv c u s) := .move (fun _ _ h => .localStart h) h

/-! ## Products and quotients -/

theorem MemsWf.mulOp {c k f} (h : MemsWf s) : MemsWf (Machine.mulOp c k f s) := .trigger h

theorem MemsWf.divOp {c k lat f} (h : MemsWf s) : MemsWf (Machine.divOp c k lat f s) := .trigger h

/-! ## Vector functions -/

theorem MemsWf.vfnOp {c k f} (h : MemsWf s) : MemsWf (Machine.vfnOp c k f s) := .trigger h

theorem MemsWf.optOp {c k} (h : MemsWf s) : MemsWf (Machine.optOp c k s) :=
  .move (fun _ _ h => .onMe (fun _ hb => hb) (.localStart h)) h

/-! ## Vector reductions -/

theorem MemsWf.vredOp {c k w lat f} (h : MemsWf s) : MemsWf (Machine.vredOp c k w lat f s) := .trigger h

theorem MemsWf.redOp {c k mode w} (h : MemsWf s) : MemsWf (Machine.redOp c k mode w s) :=
  .move (fun _ _ h => .onMe (fun _ hb => hb) h) h

/-! ## The access that performs -/

theorem BayWf.cross {p} (hb : BayWf b) : BayWf (b.cross p) := .ite hb (.ite hb hb)

theorem StepWf.execResultReady {b p} (h : MemsWf s) : StepWf (Machine.execResultReady b p s) := by
  unfold Machine.execResultReady
  dsimp only
  split
  · exact .next h
  · exact .next (.onBay (fun _ hb => .cross (p := p) hb) h)

theorem MemsWf.performAccess {b a} (h : MemsWf s) : MemsWf (s.performAccess b a) := by
  unfold State.performAccess
  split
  · exact .onBay (fun _ hb => .performLoad hb) (.useStore h)
  · exact .onBay (fun _ hb => .performLoad hb) (.useStore h)
  · exact .landStore (.onBay (fun _ hb => hb) h)
  · exact .landStore (.onBay (fun _ hb => hb) h)
  · exact .onBay (fun _ hb => hb) (.useStore h)
  · exact .onBay (fun _ hb => hb) (.useStore h)
  · exact .performVaLoad h
  · exact .performVaLoad h
  · exact .performVaStore h
  · exact .performVaStore h
  · exact .performVaStore h
  · exact .performVaStore h
  · exact .performFetch h

theorem StepWf.execAccessPerform {b id} (h : MemsWf s) : StepWf (Machine.execAccessPerform b id s) := by
  unfold Machine.execAccessPerform
  split
  · exact .next h
  · exact .next (.ite (.performAccess h) h)

/-! ## The scalar unit -/

theorem MemsWf.aluOp {c u k f} (h : MemsWf s) : MemsWf (Machine.aluOp c u k f s) := .trigger h

/-! ## Transfers and collectives -/

theorem MemsWf.sendLine {b r} (h : MemsWf s) : MemsWf (s.sendLine b r) :=
  .ite (.strayFault (.onBay (fun _ hb => .ite (.produce hb) hb) h)) (.onBay (fun _ hb => .ite (.produce hb) hb)
    (.onBay (fun _ hb => hb) (.useStore h)))

theorem StepWf.execSendBegin {b} (h : MemsWf s) : StepWf (Machine.execSendBegin b s) := by
  unfold Machine.execSendBegin
  split
  · exact .next h
  · dsimp only
    split
    · exact .next (.sendLine h)
    · split
      · exact .next (.sendLine (.onBay (fun _ hb => hb) h))
      · exact .next h

theorem StepWf.execRecvBegin {b} (h : MemsWf s) : StepWf (Machine.execRecvBegin b s) := by
  unfold Machine.execRecvBegin
  split
  · exact .next h
  · split
    · exact .next (.onBay (fun _ hb => hb) h)
    · exact .next h

theorem BayWf.recvNext {r} (hb : BayWf b) : BayWf (b.recvNext r) := .ite (.produce hb) hb

theorem MemsWf.linkRecv {b} (h : MemsWf s) : MemsWf (s.linkRecv b) := by
  unfold State.linkRecv
  split
  · exact h
  · split
    · exact h
    · split
      · exact .join h
      · exact h

theorem StepWf.execRecvLineLanding {b} (h : MemsWf s) : StepWf (Machine.execRecvLineLanding b s) := by
  have h0 {f : Bay → List SentLine} : MemsWf (s.onBay b (fun y => { y with arriving := f y })) :=
    .onBay (fun _ hb => hb) h
  unfold Machine.execRecvLineLanding
  split
  · exact .next h
  · dsimp only
    split
    · refine .next (.onBay (fun _ hb => .recvNext hb) ?_)
      split
      on_goal 1 => refine .strayFault ?_
      all_goals
        split
        · exact .strayFault h0
        · exact .onBay (fun _ hb => hb) (.land h0)
    · split
      · exact .next (.strayFault h0)
      · exact .next h0

theorem StepWf.execCollBegin {b} (h : MemsWf s) : StepWf (Machine.execCollBegin b s) := by
  have h1 (c : Cmd) : MemsWf (s.onBay b (fun x => (x.dequeue .coll).consume c)) := .onBay (fun _ hb => hb) h
  unfold Machine.execCollBegin
  dsimp only
  split
  · exact .next h
  · split
    · exact .next h
    next c _ =>
      split
      · exact .next (.strayFault (h1 _))
      · split
        · exact .next (.strayFault (h1 _))
        · split
          · exact .next (.strayFault (h1 _))
          · have h2 {off n w f} (hf : ∀ y, BayWf y → BayWf (f y)) :
                MemsWf (((s.onBay b (fun x => (x.dequeue .coll).consume c)).useStore b .scratch off n w).onBay b f) :=
              .onBay hf (.useStore (h1 c))
            exact .ite (.next (h2 (fun _ hb => hb))) (.next (.withArrivals (h2 (fun _ hb => hb))))

/-! ## Control flow -/

theorem MemsWf.goto {addr} (h : MemsWf s) : MemsWf (s.goto addr) := .onMe (fun _ hb => hb) h

theorem MemsWf.linkNext (h : MemsWf s) : MemsWf s.linkNext := .onMe (fun _ hb => hb) h

theorem StepWf.execJigStart {b} (h : MemsWf s) : StepWf (Machine.execJigStart b s) := by
  unfold Machine.execJigStart
  dsimp only
  split
  · exact .next (.onBay (fun _ hb => hb) h)
  · exact .next h

theorem StepWf.execJigEnd {b j} (h : MemsWf s) : StepWf (Machine.execJigEnd b j s) := by
  unfold Machine.execJigEnd
  split
  · exact .next h
  · exact .ite (.next (.onBay (fun _ hb => hb) h)) (.next h)

/-! ## Gates and queues -/

theorem MemsWf.gateBegin {b c} (h : MemsWf s) : MemsWf (s.gateBegin b c) :=
  .ite (.strayFault h) (.onBay (fun _ hb => hb) h)

theorem MemsWf.qputBegin {b c} (h : MemsWf s) : MemsWf (s.qputBegin b c) := by
  unfold State.qputBegin
  dsimp only
  split
  · exact .strayFault h
  · exact .ite (.strayFault h) (.tier5Send (.onBay (fun _ hb => hb) (.useStore h)))

theorem StepWf.execGateBegin {b} (h : MemsWf s) : StepWf (Machine.execGateBegin b s) := by
  unfold Machine.execGateBegin
  split
  · exact .next h
  · split
    · exact .next h
    · exact .ite (.next (.strayRetry h)) (.next (.ite (.gateBegin (.onBay (fun _ hb => hb) h)) (.qputBegin
        (.onBay (fun _ hb => hb) h))))

theorem StepWf.execGatePerform {b id} (h : MemsWf s) : StepWf (Machine.execGatePerform b id s) := by
  unfold Machine.execGatePerform
  split
  · exact .ite (.next h) (.next (.onBay (fun _ hb => .keepResult (.produce hb)) (.ite (.gateSet h) (.arrive h))))
  · exact .next h

theorem MemsWf.claimSlot {pl} (h : MemsWf s) : MemsWf (s.claimSlot pl).2 := by
  unfold State.claimSlot
  dsimp only
  split
  · exact .writePlace h
  · exact h

theorem StepWf.execQputClaim {b id} (h : MemsWf s) : StepWf (Machine.execQputClaim b id s) := by
  unfold Machine.execQputClaim
  split
  · exact .next h
  · dsimp only
    split
    · exact .next h
    · split
      · exact .next (.strayFault (.onBay (fun _ hb => .produce hb) h))
      · split
        · exact .next h
        all_goals
          refine .next (.onBay (fun _ hb => hb) (.note ?_))
          split
          exacts [.markLate (.claimSlot h), .claimSlot h]

theorem MemsWf.qputPacket {b g w} (h : MemsWf s) : MemsWf (s.qputPacket b g w) := by
  unfold State.qputPacket
  dsimp only
  split
  · exact .strayFault h
  · exact .ite (.strayFault h) (.onBay (fun _ hb => hb) h)

theorem StepWf.execQputLanding {b id} (h : MemsWf s) : StepWf (Machine.execQputLanding b id s) := by
  unfold Machine.execQputLanding
  split
  · exact .next h
  · split
    · exact .next h
    · split
      · exact .next (.strayRetry h)
      · split
        · exact .ite (.next (.strayFault (.onBay (fun _ hb => .produce hb) h))) (.next (.strayLate h))
        · exact .next (.onBay (fun _ hb => .produce hb) (by
            split
            · exact .qputPacket (.land (.onBay (fun _ hb => hb) h))
            · exact .land (.onBay (fun _ hb => hb) h)))

/-! ## Slips -/

theorem MemsWf.putVa {q va data} (h : MemsWf s) : MemsWf (s.putVa q va data) := by
  unfold State.putVa
  split
  · exact h
  · exact .markPending (.writePlace h)

theorem MemsWf.putBy {q party tag va data} (h : MemsWf s) : MemsWf (s.putBy q party tag va data) := by
  unfold State.putBy
  split
  · exact h
  · exact .noteBy (.putVa h)

theorem MemsWf.queueBytes {q va data} (h : MemsWf s) : MemsWf (s.queueBytes q va data) := by
  unfold State.queueBytes
  split
  · exact h
  · exact .queueBurst (.freshTag h)

theorem MemsWf.putSlip {q r} (h : MemsWf s) : MemsWf (s.putSlip q r) := .onPart (fun _ hp => hp) (.queueBytes h)

theorem MemsWf.putSlips {q l} (h : MemsWf s) : MemsWf (s.putSlips q l) := .foldl (fun _ _ h => .putSlip h) h

theorem PartWf.endStop {clock} (hp : PartWf p) : PartWf (p.endStop clock) := by
  unfold Part.endStop
  split <;> exact hp

theorem MemsWf.endStop {q} (h : MemsWf s) : MemsWf (s.endStop q) := .onPart (fun _ hp => .endStop hp) h

theorem MemsWf.sendAll {q f m} (h : MemsWf s) : MemsWf (s.sendAll q f m) := .foldl (fun _ _ h => .sendBy h) h

theorem MemsWf.frameSpawn {b frame index args} (h : MemsWf s) : MemsWf (s.frameSpawn b frame index args) :=
  .onBay (fun _ hb => hb) h

/-! ## The system unit -/

theorem StepWf.execWheel {c} (h : MemsWf s) : StepWf (Machine.execWheel c s) :=
  .next (.move (fun _ _ h => .onMe (fun _ hb => hb) (.useStore (by
    split
    · exact .ite h (.onPart (fun _ hp => hp) h)
    · exact h))) h)

theorem MemsWf.orderGang {l} (h : MemsWf s) : MemsWf (s.orderGang l) := .foldl (fun _ _ h => .joinLater h) h

theorem MemsWf.stopPart {b} (h : MemsWf s) : MemsWf (s.stopPart b) := by
  unfold State.stopPart
  split
  · exact .onPart (fun _ hp => hp) h
  · exact h

theorem BayWf.sysWrite {id v} (hb : BayWf b) : BayWf (b.sysWrite id v) := .ite hb (.ite hb (.ite hb hb))

theorem StepWf.execTtclr {c} (h : MemsWf s) : StepWf (Machine.execTtclr c s) :=
  .next (.move (fun _ _ h => by
    split
    · exact h
    · exact .onPart (fun _ hp => hp) h) h)

/-! ## The walkers -/

theorem BayWf.startUnit {k c id dst} (hb : BayWf b) : BayWf (b.startUnit k c id dst) := hb

theorem BayWf.walkOver {k c} (hb : BayWf b) : BayWf (b.walkOver k c) := by
  unfold Bay.walkOver
  split
  · exact hb
  · exact .ite (.produce hb) hb

theorem BayWf.unitGone {k c w} (hb : BayWf b) : BayWf (b.unitGone k c w) := .walkOver hb

theorem MemsWf.dropUnit {b k c id} (h : MemsWf s) : MemsWf (s.dropUnit b k c id) :=
  .onBay (fun _ hb => .walkOver hb) h

theorem MemsWf.unitTrigger {b k w} (h : MemsWf s) : MemsWf (s.unitTrigger b k w) :=
  .ite (.strayFault (.onBay (fun _ hb => .unitGone hb) h)) (.ite (.strayFault (.onBay (fun _ hb => .unitGone hb) h))
    (.onBay (fun _ hb => .ite (.startUnit (.ite hb hb)) (.ite hb hb)) h))

theorem MemsWf.makeStart {b x} (h : MemsWf s) : MemsWf (s.makeStart b x) := by
  unfold State.makeStart
  split
  · exact h
  · split
    · exact h
    · dsimp only
      split
      · exact .strayFault (.dropUnit h)
      · split
        · exact h
        · exact .ite (.ite (.sampleVa (.claim h)) (.claim h)) (.tier5Send (.ite (.sampleVa (.claim h)) (.claim h)))

theorem MemsWf.makeStarts {b} (h : MemsWf s) : MemsWf (s.makeStarts b) :=
  .ite h (.foldl (fun _ _ h => .makeStart h) (.onBay (fun _ hb => hb) h))

theorem Yields.unitLocalRead {b c u} (h : MemsWf s) : Yields (fun x => MemsWf x.1) (s.unitLocalRead b c u) :=
  .ite (.ok h) (.ite .error (.ite (.ok (.useStore h)) (.ok (.bankRead (.useStore h)))))

theorem Yields.unitVaRead {b c r u} (h : MemsWf s) : Yields (fun x => MemsWf x.1) (s.unitVaRead b c r u) := by
  refine .ite (.ok h) ?_
  split
  · exact .error
  · split
    · exact .ite (.ok h) .error
    · exact .ok (.noteRead (.orderAccess h))
    · exact .ok (.noteRead (.orderAccess h))

theorem MemsWf.lateUnit {b k c r u} (h : MemsWf s) : MemsWf (s.lateUnit b k c r u) :=
  .strayLate (by
    split
    · exact .tier5Send (.onBay (fun _ hb => hb) h)
    · exact .onBay (fun _ hb => hb) h)

theorem MemsWf.unitRead {b k w r} (h : MemsWf s) : MemsWf (s.unitRead b k w r) := by
  unfold State.unitRead
  dsimp only
  split
  · exact .ite (.lateUnit h) (.ite (.strayRetry h) (.strayFault (.dropUnit h)))
  next ht =>
    refine .onBay (fun _ hb => .ite (.ite hb hb) (.ite hb hb)) ?_
    split at ht
    · exact Yields.unitLocalRead h _ ht
    · exact Yields.unitVaRead h _ ht

theorem MemsWf.dropLostUnits {b} (h : MemsWf s) : MemsWf (s.dropLostUnits b) := .ite (.onBay (fun _ hb => hb) h) h

theorem MemsWf.walkReads {b k w} (h : MemsWf s) : MemsWf (s.walkReads b k w) :=
  .ite (.foldl (fun _ _ h => .unitRead h) h) h

theorem MemsWf.unitLandLocal {b t c u data} (h : MemsWf s) : MemsWf (s.unitLandLocal b t c u data) :=
  .ite h (.ite (.strayFault h) (.ite (.land h) (.onBay (fun _ hb => hb) (.land h))))

theorem MemsWf.unitLandVa {b c r u tag} (h : MemsWf s) : MemsWf (s.unitLandVa b c r u tag) := by
  unfold State.unitLandVa
  dsimp only
  split
  · exact h
  · split
    · exact .strayFault h
    · exact .ite (.strayFault h) (.onBay (fun _ hb => hb) (.orderAccess h))

theorem MemsWf.unitLand {b k w r} (h : MemsWf s) : MemsWf (s.unitLand b k w r) := by
  have hg : MemsWf (if w.cmd.gva = 0 then ((0 : Nat), s) else s.freshTag).2 := by
    split
    exacts [h, .freshTag h]
  have hl {t : State} {tag} (ht : MemsWf t) :
      MemsWf (if (w.cmd.wend true).sp = 3
        then t.unitLandVa b w.cmd r (w.cmd.wu r.i) tag
        else (w.cmd.landsIn b (w.cmd.wu r.i)).foldl
          (fun acc k => acc.unitLandLocal b k w.cmd (w.cmd.wu r.i) r.data) t) :=
    .ite (.unitLandVa ht) (.foldl (fun _ _ h => .unitLandLocal h) ht)
  refine .ite (.strayRetry h) (.dropUnit ?_)
  split
  · exact .ite (.arriveAt (hl hg)) (hl hg)
  · exact hl hg

theorem OptWf.asyncWrite {q b x va off data tag seen} (h : MemsWf s) :
    OptWf (s.asyncWrite q b x va off data tag seen) := by
  refine .mapWf (fun _ h => .markPending h) ?_
  split
  · split
    · exact .some (.remoteSend h)
    · exact .none
  · exact .hostPut h
  · exact .none
  · exact .some (.noteBy (.writePlace h))

theorem OptWf.asyncLocal {q b x c u data tag seen} (h : MemsWf s) : OptWf (s.asyncLocal q b x c u data tag seen) :=
  .ite (.some h) (.ite .none (.some (.noteAt (.onBay (fun _ hb => .ite (.withWindow (.writeStore hb))
    (.writeStore hb)) h))))

theorem OptWf.asyncDest {q b c u data tag seen} (h : MemsWf s) : OptWf (s.asyncDest q b c u data tag seen) := by
  refine .ite (.some h) (.ite ?_ ?_)
  · refine List.foldlRecOn _ _ (OptWf.some h) (fun o ho _ _ => ?_)
    split
    · exact .asyncLocal (ho _ rfl)
    · exact .none
  · refine List.foldlRecOn _ _ (OptWf.some h) (fun o ho _ _ => ?_)
    split
    · exact .ite (.some (ho _ rfl)) (.asyncWrite (ho _ rfl))
    · exact .none

theorem MemsWf.noteSource {q b c u tag seen} (h : MemsWf s) : MemsWf (s.noteSource q b c u tag seen) := by
  unfold State.noteSource
  split
  · exact .noteAt h
  · exact .foldl (fun _ _ h => by
      split
      · exact .ite (.noteBy h) h
      · exact h) h

theorem MemsWf.askFlash {q id n} (h : MemsWf s) : MemsWf (s.askFlash q id n) := by
  induction n generalizing s with
  | zero => exact h
  | succ n ih =>
    unfold State.askFlash
    dsimp only
    split
    · exact h
    · split
      · exact h
      · split
        · exact ih (.onPart (fun _ hp => hp) h)
        · exact .ite h (ih (.onPart (fun _ hp => hp) (.emit h)))

theorem MemsWf.askAll (h : MemsWf s) : MemsWf s.askAll := .foldl (fun _ _ h => .foldl (fun _ _ h => .askFlash h) h) h

theorem MemsWf.writeBlock {q w pair off} (h : MemsWf s) : MemsWf (s.writeBlock q w pair off) :=
  .ite (.onPart (fun _ hp => hp) h) (.arriveAt (.markAt (.flashPut (.emit (.onPart (fun _ hp => hp) h)))))

theorem MemsWf.landMoved {q w} (h : MemsWf s) : MemsWf (s.landMoved q w) := by
  refine .foldl (fun t x h => ?_) h
  dsimp only
  split
  next hu => exact .arriveAt (.ofSome hu (.asyncDest (.onPart (fun _ hp => hp) (.freshTag h))))
  · exact .log (.onPart (fun _ hp => hp) (.onPart (fun _ hp => hp) (.freshTag h)))

theorem MemsWf.writeFlash {q id n} (h : MemsWf s) : MemsWf (s.writeFlash q id n) := by
  induction n generalizing s with
  | zero => exact h
  | succ n ih =>
    unfold State.writeFlash
    dsimp only
    split
    · exact h
    · split
      · exact h
      · split
        · exact ih (.onPart (fun _ hp => hp) (.landMoved h))
        · exact .ite (ih (.writeBlock h)) h

theorem MemsWf.asyncNext {q w} (h : MemsWf s) : MemsWf (s.asyncNext q w) :=
  .onPart (fun _ hp => hp) (.askAll (.writeFlash h))

theorem MemsWf.asyncFail {q w i} (h : MemsWf s) : MemsWf (s.asyncFail q w i) :=
  .asyncNext (.log (.onPart (fun _ hp => hp) h))

theorem MemsWf.asyncCount {q b c u} (h : MemsWf s) : MemsWf (s.asyncCount q b c u) :=
  .foldl (fun _ _ h => .ite (.foldl (fun _ _ h => by
    dsimp only
    split
    · exact .ite h (.sampleVa h)
    · exact h) h) h) h

theorem MemsWf.asyncLand {q w i came} (h : MemsWf s) : MemsWf (s.asyncLand q w i came) := by
  unfold State.asyncLand
  dsimp only
  split
  · exact .asyncFail (.asyncCount h)
  · have h1 {b c u tag seen} : MemsWf ((s.asyncCount q b c u).freshTag.2.noteSource q b c u tag seen) :=
      .noteSource (.freshTag (.asyncCount h))
    split
    · exact .ite (.asyncFail (.asyncCount h)) (.asyncNext (.onPart (fun _ hp => hp) (.onPart (fun _ hp => hp) h1)))
    · split
      next ht => exact .asyncNext (.arriveAt (.onPart (fun _ hp => hp) (.ofSome ht (.asyncDest h1))))
      · exact .asyncFail (.foldl (fun _ _ h => .strayFault h) (.asyncCount h))

theorem MemsWf.queueAll {q code act l} (h : MemsWf s) : MemsWf (s.queueAll q code act l) := by
  induction l generalizing s with
  | nil => exact .queueBurst h
  | cons x l ih =>
    cases l with
    | nil => exact .queueBurst h
    | cons y l => exact ih (.queueBurst h)

theorem StepWf.execAsyncUnitLanding {q walk i data} (h : MemsWf s) :
    StepWf (Machine.execAsyncUnitLanding q walk i data s) := by
  unfold Machine.execAsyncUnitLanding
  split
  · exact .next h
  · split
    · exact .next h
    · split
      · exact .next (.asyncFail h)
      · exact .next (.queueAll h)

theorem StepWf.execWalkBegin {b k} (h : MemsWf s) : StepWf (Machine.execWalkBegin b k s) := by
  unfold Machine.execWalkBegin
  dsimp only
  split
  · exact .next h
  · split
    · exact .next h
    · split
      · exact .next (.strayFault (.onBay (fun _ hb => hb) h))
      · split
        · split
          · exact .next (.onBay (fun _ hb => hb) h)
          · exact .next (.askFlash (.onPart (fun _ hp => hp) (.onBay (fun _ hb => hb) h)))
        · exact .next (.foldl (fun _ _ h => .ite (.walkReads h) h) (.unitTrigger (.onBay (fun _ hb => hb)
            (.onBay (fun _ hb => hb) h))))

/-! ## Frames and pages -/

theorem MemsWf.podFrame {q f} (h : MemsWf s) : MemsWf (s.podFrame q f) := by
  unfold State.podFrame
  dsimp only
  split
  · exact h
  · exact .sendAll (.onPart (fun _ hp => hp) h)

theorem MemsWf.rebuildTables {bents} (h : MemsWf s) : MemsWf (s.rebuildTables bents) := h

theorem MemsWf.stopFor {q rule} (h : MemsWf s) : MemsWf (s.stopFor q rule) := .onPart (fun _ hp => hp) (.log h)

theorem MemsWf.standStill {q} (h : MemsWf s) : MemsWf (s.standStill q) :=
  .ite h (.onPart (fun _ hp => hp) (.endStop h))

theorem MemsWf.halt {q} (h : MemsWf s) : MemsWf (s.halt q) := .onPart (fun _ hp => hp) (.standStill h)

theorem MemsWf.haltPod (h : MemsWf s) : MemsWf s.haltPod := .foldl (fun _ _ h => .ite (.halt h) h) h

theorem MemsWf.chipLost {chip} (h : MemsWf s) : MemsWf (s.chipLost chip) := .ite h (.haltPod (.log h))

theorem MemsWf.selfLost {q} (h : MemsWf s) : MemsWf (s.selfLost q) := by
  unfold State.selfLost
  split
  · exact .sendAll (.chipLost h)
  · exact h

theorem MemsWf.applyRemap {q} (h : MemsWf s) : MemsWf (s.applyRemap q) :=
  .ite (.ite (.selfLost (.stopFor (.onPart (fun _ hp => hp) (.rebuildTables h))))
    (.ite (.stopFor (.onPart (fun _ hp => hp) (.rebuildTables h))) (.onPart (fun _ hp => hp) (.rebuildTables h)))) h

theorem MemsWf.copyPage {q c} (h : MemsWf s) : MemsWf (s.copyPage q c) := by
  have fill {m : Mem} {a n} (hm : m.wf = true) :
      MemsWf { s with lpddr := s.lpddr.set c.bent.val (Mem.copyRange m a n (s.lpddr.get c.bent)
        (c.frame * 65536)) c.bent.isLt } :=
    .setLpddr (set_wf h.lpddr _ (copyRange_wf _ _ _ _ _ hm (get_wf h.lpddr _))) h
  unfold State.copyPage
  split
  · exact h
  · dsimp only
    split
    · split
      · exact h
      · exact fill h.hostMem
    · exact .ite (fill h.flashOf) h

theorem MemsWf.copyStep {q f c} (h : MemsWf s) : MemsWf (s.copyStep q f c) := by
  unfold State.copyStep
  split
  · exact h
  · exact .ite (.onPart (fun _ hp => hp) h) (.ite (.onPart (fun _ hp => hp) h) h)

theorem MemsWf.pageToHost {q x e h'} (h : MemsWf s) : MemsWf (s.pageToHost q x e h') := by
  unfold State.pageToHost
  dsimp only
  split
  · split
    · exact h
    · exact .onPart (fun _ hp => hp)
        (.setHostMem (s := s.emit _) (copyRange_wf _ _ _ _ _ (get_wf h.lpddr _) h.hostMem) h)
  · exact h
  · exact h

theorem MemsWf.grantHost {q f x} (h : MemsWf s) : MemsWf (s.grantHost q f x) := by
  unfold State.grantHost
  dsimp only
  split
  · exact h
  · split
    · exact .onPart (fun _ hp => hp) h
    · split
      · exact h
      · split
        · exact .ite (.queueBurst h) h
        · exact h

theorem MemsWf.movePages {q} (h : MemsWf s) : MemsWf (s.movePages q) :=
  .onPart (fun _ hp => hp) (.foldl (fun _ _ h => by
    split
    · split
      · exact .pageToHost h
      · exact h
    · exact h) h)

theorem MemsWf.homeGrants {q f} (h : MemsWf s) : MemsWf (s.homeGrants q f) :=
  .onPart (fun _ hp => hp) (.foldl (fun _ _ h => .grantHost h) h)

theorem MemsWf.updatePort {q} (h : MemsWf s) : MemsWf (s.updatePort q) := .onPart (fun _ hp => hp) h

theorem MemsWf.gatedDue {q f} (h : MemsWf s) : MemsWf (s.gatedDue q f) := .onPart (fun _ hp => hp) (.putSlips h)

theorem MemsWf.wheelMove {q f w} (h : MemsWf s) : MemsWf (s.wheelMove q f w) :=
  .ite (.onPart (fun _ hp => hp) h) (.frameSpawn h)

theorem MemsWf.wheelMoves {q f} (h : MemsWf s) : MemsWf (s.wheelMoves q f) :=
  .foldl (fun _ _ h => .wheelMove h) (.onPart (fun _ hp => hp) h)

theorem MemsWf.putHeader {q va h'} (h : MemsWf s) : MemsWf (s.putHeader q va h') := by
  unfold State.putHeader
  split
  · exact h
  · exact .queueBurst h

theorem MemsWf.queueRead {q va} (h : MemsWf s) : MemsWf (s.queueRead q va) := by
  unfold State.queueRead
  split
  · exact h
  · exact .queueBurst h

theorem MemsWf.readQueue {q f va n} (h : MemsWf s) : MemsWf (s.readQueue q f va n) := by
  induction n generalizing s with
  | zero => exact h
  | succ n ih =>
    have hq {slot} : MemsWf (s.queueRead q slot) := .queueRead h
    unfold State.readQueue
    exact .ite hq (.ite (ih (.putHeader hq)) (.ite hq (ih (.onPart (fun _ hp => hp) (.putHeader (.frameSpawn hq))))))

theorem MemsWf.queueReader {q f} (h : MemsWf s) : MemsWf (s.queueReader q f) :=
  .onPart (fun _ hp => hp) (.putSlips (.foldl (fun _ _ h => .readQueue (.queueRead h)) h))

theorem MemsWf.comparator {q f} (h : MemsWf s) : MemsWf (s.comparator q f) := .ite (.onPart (fun _ hp => hp) h) h

theorem MemsWf.monitors {q} (h : MemsWf s) : MemsWf (s.monitors q) :=
  .ite (.stopFor (.foldl (fun _ _ h => .ite (.log h) h) h)) (.onPart (fun _ hp => hp) (.foldl (fun _ _ h => .ite
    (.log h) h) h))

theorem MemsWf.beginFrame {q f} (h : MemsWf s) : MemsWf (s.beginFrame q f) :=
  .ite (.applyRemap (.podFrame (.onPart (fun _ hp => hp) h))) (.monitors (q := q) (.onPart (fun _ hp => hp)
    (.comparator (.queueReader (.wheelMoves (.gatedDue (.updatePort (.foldl (fun _ _ h => .copyStep h) (.homeGrants
    (.movePages (.onPart (fun _ hp => hp) (.putSlips (.applyRemap
    (.podFrame (.onPart (fun _ hp => hp) h)))))))))))))))

theorem MemsWf.startOrWait {q f} (h : MemsWf s) : MemsWf (s.startOrWait q f) :=
  .ite (.beginFrame (.onPart (fun _ hp => hp) h)) (.onPart (fun _ hp => hp) (.onPart (fun _ hp => hp) h))

theorem StepWf.execFrameStart {q} (h : MemsWf s) : StepWf (Machine.execFrameStart q s) := by
  unfold Machine.execFrameStart
  dsimp only
  split
  · exact .ite (.next (.beginFrame (.onPart (fun _ hp => hp) (.endStop h)))) (.next h)
  · exact .ite (.next h) (.ite (.next (.onPart (fun _ hp => hp) h)) (.next (.startOrWait h)))
  · exact .ite (.ite (.next (.beginFrame (.endStop h))) (.next (.onPart (fun _ hp => hp) (.endStop h)))) (.next h)
  · exact .ite (.next (.beginFrame (.endStop h))) (.next h)
  · exact .next h
  · exact .next h
  · exact .next h
  · exact .next h
  · exact .next h

theorem PartWf.hear {chip frame offset clock} (hp : PartWf p) : PartWf (p.hear chip frame offset clock) := by
  unfold Part.hear
  split <;> exact hp

theorem StepWf.execOffsetReport {chip frame offset} (h : MemsWf s) :
    StepWf (Machine.execOffsetReport chip frame offset s) :=
  .next (.mapParts (fun _ hp => .hear hp) h)

theorem MemsWf.allLost {chip} (h : MemsWf s) : MemsWf (s.allLost chip) :=
  .foldl (fun _ _ h => by
    split
    · exact .sendAll h
    · exact h) (.chipLost h)

theorem StepWf.execUnresponsive {chip} (h : MemsWf s) : StepWf (Machine.execUnresponsive chip s) :=
  .ite (.next (.emit (.allLost (.mapParts (fun _ hp => hp) h)))) (.next h)

theorem MemsWf.nominalReport {q} (h : MemsWf s) : MemsWf (s.nominalReport q) := by
  unfold State.nominalReport
  dsimp only
  split
  · exact .sendAll (.onPart (fun _ hp => hp) h)
  · exact h

theorem MemsWf.tickAt {q b r} (h : MemsWf s) : MemsWf (s.tickAt q b r) :=
  .ite h (.ite (.onPart (fun _ hp => hp) (.onBay (fun _ hb => hb) h)) (.onBay (fun _ hb => hb) h))

theorem MemsWf.rearm {q b idx} (h : MemsWf s) : MemsWf (s.rearm q b idx) := by
  unfold State.rearm
  split
  · exact h
  · exact .onPart (fun _ hp => hp) h

theorem StepWf.execStoryRelease {b k idx} (h : MemsWf s) : StepWf (Machine.execStoryRelease b k idx s) := by
  unfold Machine.execStoryRelease
  split
  · exact .next h
  · split
    · exact .next h
    · exact .next (.ite (.rearm (.tickAt h)) (.tickAt h))

theorem BayWf.startTask {e spawned args t} (hb : BayWf b) : BayWf (b.startTask e spawned args t) := by
  simpa only [BayWf, bayMems, Bay.startTask] using hb

theorem BayWf.takeRelease {r} (hb : BayWf b) : BayWf (b.takeRelease r) := .ite hb hb

theorem MemsWf.overrunBySpawn {q b} (h : MemsWf s) : MemsWf (s.overrunBySpawn q b) :=
  .ite (.onPart (fun _ hp => hp) h) h

theorem StepWf.execTaskStart {b} (h : MemsWf s) : StepWf (Machine.execTaskStart b s) := by
  unfold Machine.execTaskStart
  split
  · exact .next h
  next q _ =>
    have h1 {f n l} (hf : ∀ y, BayWf y → BayWf (f y)) : MemsWf (((s.onBay b f).join n l).overrunBySpawn q b) :=
      .overrunBySpawn (.join (.onBay hf h))
    dsimp only
    split
    · exact .next h
    · split
      · exact .next h
      · refine .ite (.next ?_) (.next h)
        split
        · exact .onPart (fun _ hp => hp) (h1 fun _ hb => .withWindow (.startTask (.takeRelease hb)))
        · exact h1 fun _ hb => .withWindow (.startTask (.takeRelease hb))

theorem MemsWf.completeGate {q gate} (h : MemsWf s) : MemsWf (s.completeGate q gate) := by
  unfold State.completeGate
  split
  · exact .onPart (fun _ hp => hp) h
  · exact .ite (.onPart (fun _ hp => hp) h) (.onPart (fun _ hp => hp) (.markAt (.writePlace h)))

theorem StepWf.execGateCompletion {q gate} (h : MemsWf s) : StepWf (Machine.execGateCompletion q gate s) :=
  .ite (.next (.within (fun _ h => .completeGate h) h)) (.next h)

theorem StepWf.execRetiredBayIdle {b} (h : MemsWf s) : StepWf (Machine.execRetiredBayIdle b s) :=
  .ite (.next (.onBay (fun _ hb => hb) h)) (.next h)

theorem MemsWf.refreshNow {ch} (h : MemsWf s) : MemsWf (s.refreshNow ch) := h

theorem StepWf.execRefreshCommand {ch} (h : MemsWf s) : StepWf (Machine.execRefreshCommand ch s) := by
  unfold Machine.execRefreshCommand
  split
  · exact .next h
  · exact .ite (.next (.refreshNow h)) (.next h)

theorem StepWf.execHoldRefresh {ch} (h : MemsWf s) : StepWf (Machine.execHoldRefresh ch s) := by
  unfold Machine.execHoldRefresh
  split
  · exact .next h
  · exact .ite (.next (.refreshNow h)) (.next h)

theorem MemsWf.sendCopy {q c n} (h : MemsWf s) : MemsWf (s.sendCopy q c n) := .onPart (fun _ hp => hp) (.queueBurst h)

theorem MemsWf.endCopy {q x} (h : MemsWf s) : MemsWf (s.endCopy q x) := by
  unfold State.endCopy
  split
  · exact h
  · exact .onPart (fun _ hp => hp) (.copyPage h)

theorem StepWf.execMigrationCopy {q x} (h : MemsWf s) : StepWf (Machine.execMigrationCopy q x s) := by
  unfold Machine.execMigrationCopy
  dsimp only
  split
  · exact .next (.ite h (.sendCopy h))
  · split
    · split
      · exact .next h
      · exact .next (.sendCopy (.onPart (fun _ hp => hp) h))
    · exact .next h
  · exact .next h

/-! ## The scarf engine -/

theorem MemsWf.onScarf {q f} (h : MemsWf s) : MemsWf (s.onScarf q f) := h

theorem MemsWf.scarfProgress {q result} (h : MemsWf s) : MemsWf (s.scarfProgress q result) := by
  unfold State.scarfProgress
  dsimp only
  split
  · exact h
  · split
    · exact .markPending (.writePlace h)
    · exact .writePlace (.markPending (.writePlace h))

theorem MemsWf.scarfRelease {q t} (h : MemsWf s) : MemsWf (s.scarfRelease q t) := by
  unfold State.scarfRelease
  dsimp only
  split
  · exact h
  · exact .ite h (.onScarf (.ite (.scarfProgress h) h))

theorem MemsWf.scarfLeave {q} (h : MemsWf s) : MemsWf (s.scarfLeave q) := by
  unfold State.scarfLeave
  dsimp only
  split
  · exact h
  · exact .onScarf (.onBay (fun _ hb => .produce hb) h)

theorem MemsWf.scarfStop {q code} (h : MemsWf s) : MemsWf (s.scarfStop q code) :=
  .scarfLeave (.scarfProgress (.onScarf h))

theorem MemsWf.scarfDone {q} (h : MemsWf s) : MemsWf (s.scarfDone q) := .scarfLeave (.scarfProgress (.onScarf h))

theorem MemsWf.scarfNote {q b va n} (h : MemsWf s) : MemsWf (s.scarfNote q b va n) :=
  .foldl (fun _ _ h => by
    split
    · exact h
    · exact .noteRead (.orderAccess h)) h

theorem StepWf.execReshardBegin {q} (h : MemsWf s) : StepWf (Machine.execReshardBegin q s) := by
  unfold Machine.execReshardBegin
  dsimp only
  split
  · exact .next h
  · split
    · exact .next h
    · exact .next (.ite (.onScarf (.freshTag (.scarfNote (.onBay (fun _ hb => hb) h)))) (.scarfStop
        (.onScarf (.freshTag (.scarfNote (.onBay (fun _ hb => hb) h))))))

theorem MemsWf.scarfGathered {q} (h : MemsWf s) : MemsWf (s.scarfGathered q) :=
  .ite (.ite (.onScarf h) (.scarfDone h)) h

theorem StepWf.execReshardCheckEnd {q} (h : MemsWf s) : StepWf (Machine.execReshardCheckEnd q s) := by
  unfold Machine.execReshardCheckEnd
  dsimp only
  split
  · refine .ite (.next h) (.ite (.next (.scarfStop h)) ?_)
    split
    · exact .next (.scarfStop h)
    · exact .next (.scarfGathered (.onScarf (.foldl (fun _ _ h => .scarfNote h) h)))
  · exact .next h

theorem MemsWf.scarfFly {q t due} (h : MemsWf s) : MemsWf (s.scarfFly q t due) := .onScarf h

theorem StepWf.execScarfRequest {q} (h : MemsWf s) : StepWf (Machine.execScarfRequest q s) := by
  unfold Machine.execScarfRequest
  dsimp only
  split
  · exact .next h
  · split
    · exact .next h
    · split
      · split
        · exact .next (.scarfStop h)
        · exact .next (.queueBurst (.scarfFly h))
      · split
        · exact .next h
        · exact .ite (.next (.scarfStop h)) (.ite (.next (.sendChip (.scarfFly h))) (.next h))

theorem Yields.scarfPiece {q b va data} (h : MemsWf s) : Yields MemsWf (s.scarfPiece q b va data) := by
  unfold State.scarfPiece
  dsimp only
  split
  · exact .error
  · exact .ite .error (.ok (.queueBurst (.onBay (fun _ hb => hb) (.orderAccess h))))

theorem MemsWf.scarfLanded {q b k} (h : MemsWf s) : MemsWf (s.scarfLanded q b k) :=
  .onScarf (.onBay (fun _ hb => hb) h)

theorem Yields.scarfPieces {q b l} (h : MemsWf s) : Yields MemsWf (s.scarfPieces q b l) := by
  induction l generalizing s with
  | nil => exact .ok h
  | cons x l ih =>
    unfold State.scarfPieces
    split
    · exact .error
    next hu => exact ih (Yields.scarfPiece h _ hu)

theorem MemsWf.scarfLand {q t data} (h : MemsWf s) : MemsWf (s.scarfLand q t data) := by
  unfold State.scarfLand
  dsimp only
  generalize (if lyMerge (s.scarfOf q).record then _ else _ : List (Addr × List Byte)) = pieces
  split
  · exact .strayFault h
  · split
    · exact .scarfStop h
    next hu => exact .onScarf (.scarfLanded (Yields.scarfPieces h _ hu))

theorem MemsWf.flightLand {q f} (h : MemsWf s) : MemsWf (s.flightLand q f) := by
  unfold State.flightLand
  dsimp only
  split
  · exact h
  · split
    · exact h
    · exact .scarfStop h
    · exact .scarfLand (.ite (.scarfNote h) h)

theorem StepWf.execScarfLanding {q} (h : MemsWf s) : StepWf (Machine.execScarfLanding q s) :=
  .ite (.next h) (.next (.scarfGathered (.foldl (fun _ _ h => .flightLand h) h)))

theorem StepWf.execTimeout {q} (h : MemsWf s) : StepWf (Machine.execTimeout q s) :=
  .ite (.next (.scarfStop h)) (.next h)

theorem StepWf.execScarfErrorFlit {q code} (h : MemsWf s) : StepWf (Machine.execScarfErrorFlit q code s) :=
  .ite (.next (.scarfStop h)) (.next h)

theorem MemsWf.serveScarf {r} (h : MemsWf s) : MemsWf (s.serveScarf r) := by
  unfold State.serveScarf
  split
  · exact h
  · exact .sendBy h

theorem StepWf.execSourceRead {r} (h : MemsWf s) : StepWf (Machine.execSourceRead r s) := by
  unfold Machine.execSourceRead
  dsimp only
  split
  · exact .next (.serveScarf h)
  · exact .next (.queueBurst h)

theorem MemsWf.noteStaged {q c es} (h : MemsWf s) : MemsWf (s.noteStaged q c es) := by
  unfold State.noteStaged
  split
  · exact .foldl (fun _ _ h => .scarfNote h) h
  · exact h

theorem MemsWf.writeRoots {q c k vals sat} (h : MemsWf s) : MemsWf (s.writeRoots q c k vals sat) := by
  unfold State.writeRoots
  dsimp only
  split
  · exact .strayFault h
  · split
    · exact .scarfStop h
    next hu => exact .onScarf (.scarfLanded (.noteStaged (Yields.scarfPieces h _ hu)))

theorem MemsWf.levelSegment {q c k} (h : MemsWf s) : MemsWf (s.levelSegment q c k) := by
  unfold State.levelSegment
  dsimp only
  split
  · exact .strayFault h
  · split
    · exact .scarfStop h
    next hu => exact .onScarf (.scarfLanded (.noteStaged (Yields.scarfPieces h _ hu)))

theorem MemsWf.passEnd {q} (h : MemsWf s) : MemsWf (s.passEnd q) := .ite (.scarfDone h) (.onScarf h)

theorem MemsWf.scarfContribute {q} (h : MemsWf s) : MemsWf (s.scarfContribute q) := by
  unfold State.scarfContribute
  dsimp only
  split
  · exact .scarfStop h
  · exact .ite h h

theorem MemsWf.shiftNode {q n} (h : MemsWf s) : MemsWf (s.shiftNode q n) := .onScarf h

theorem MemsWf.scarfVerdict {q v} (h : MemsWf s) : MemsWf (s.scarfVerdict q v) :=
  .ite (.ite (.scarfStop h) (.ite (.onScarf h) (.onScarf (.foldl (fun _ _ h => .shiftNode h) h)))) h

theorem StepWf.execMergePass {q} (h : MemsWf s) : StepWf (Machine.execMergePass q s) :=
  have h1 {d : Prop} [Decidable d] {c k r l} : MemsWf (if d then s.levelSegment q c k else s.writeRoots q c k r l) :=
    .ite (.levelSegment h) (.writeRoots h)
  .ite (.next h) (.ite (.next (.scarfContribute h)) (.ite (.next h) (.ite (.next h1)
    (.next (.ite (.passEnd (.onScarf h1)) (.onScarf h1))))))

/-! ## Loading a plan -/

theorem MemsWf.respond {n status arg0} (h : MemsWf s) : MemsWf (s.respond n status arg0) := by
  unfold State.respond
  refine .setYard ?_ h
  dsimp only
  exact writeN_wf _ _ _ (writeN_wf _ _ _ h.mailbox)

theorem MemsWf.refuse {n status rule} (h : MemsWf s) : MemsWf (s.refuse n status rule) := .respond (.log h)

theorem MemsWf.askPreempt {l} (h : MemsWf s) : MemsWf (s.askPreempt l) :=
  .foldl (fun _ _ h => .onPart (fun _ hp => hp) h) h

theorem MemsWf.askWaiting (h : MemsWf s) : MemsWf s.askWaiting :=
  .setParts (fun q => by
    rw [Vector.get_eq_getElem, Vector.getElem_ofFn]
    exact PartWf.part h) h

theorem MemsWf.quietBays {bents} (h : MemsWf s) : MemsWf (s.quietBays bents) :=
  .setBays (fun b => by
    rw [Vector.get_eq_getElem, Vector.getElem_ofFn]
    exact .ite .reset (.bay h)) h

theorem MemsWf.dropLinks {q} (h : MemsWf s) : MemsWf (s.dropLinks q) := h

theorem MemsWf.dissolve {q} (h : MemsWf s) : MemsWf (s.dissolve q) :=
  .withScarf (.setPart .reset (.quietBays (.dropLinks (.dropTouches h))))

theorem OptWf.loadChunk {q a data} (h : MemsWf s) : OptWf (s.loadChunk q a data) := by
  unfold State.loadChunk
  split
  · exact .none
  · refine .ite .none (.ite (.some (.onPart (fun _ hp => .setBacking (writeN_wf _ _ _ hp.backing) hp) h)) ?_)
    split
    · exact .some (.remoteSend h)
    · exact .some (.writePlace h)

theorem OptWf.loadChunks {q l} (h : MemsWf s) : OptWf (s.loadChunks q l) := by
  induction l generalizing s with
  | nil => exact .some h
  | cons x l ih =>
    unfold State.loadChunks
    split
    · exact .none
    next hu => exact ih (.ofSome hu (.loadChunk h))

theorem OptWf.loadData {q img l} (h : MemsWf s) : OptWf (s.loadData q img l) := by
  induction l generalizing s with
  | nil => exact .some h
  | cons x l ih =>
    unfold State.loadData
    refine .ite .none ?_
    split
    · exact .none
    next hu => exact ih (.ofSome hu (.loadChunks h))

theorem MemsWf.loadCode {img before l} (h : MemsWf s) : MemsWf (s.loadCode img before l) := by
  induction l generalizing s before with
  | nil => exact h
  | cons r l ih =>
    exact ih (.onBay (fun _ hb => .ite (.setJigmem (writeN_wf _ _ _ hb.code.2) hb)
      (.setImem (writeN_wf _ _ _ hb.code.1) hb)) h)

theorem MemsWf.regroup {q} (h : MemsWf s) : MemsWf (s.regroup q) :=
  have h1 {f : Part → Part} (hf : ∀ p, PartWf p → PartWf (f p)) : MemsWf (s.onPart q f) := .onPart hf h
  .setYard h.mailbox (h1 fun _ hp => hp)

theorem Yields.partOfImage {img} : Yields PartWf (Machine.partOfImage s img) := by
  refine .ite .error ?_
  split
  · exact .error
  · exact .ite .error (.ite .error (.ite .error (.ok .reset)))

theorem Yields.readPlan {q img p} (hp : PartWf p) (h : MemsWf s) :
    Yields (fun x => MemsWf x.1) (s.readPlan q img p) := by
  unfold State.readPlan
  generalize hu : (s.setPart q p).loadData q img ((imgData img).map dataRec) = o
  cases o with
  | none => exact .error
  | some u =>
    have h1 : MemsWf u := .ofSome hu (.loadData (.setPart hp h))
    have hq : PartWf (u.part q) := .part h1
    refine .ite .error (.ite .error (.ite .error (.ite .error (.ite .error ?_))))
    generalize imgFabric img = o
    cases o with
    | none => exact .ok (.setPart hq (.withDirty h1))
    | some f => exact .ite .error (.ite .error (.ite .error (.ok (.setPart hq (.withDirty h1)))))

theorem MemsWf.takePlan {q img links} (h : MemsWf s) : MemsWf (s.takePlan q img links) :=
  .onPart (fun _ hp => hp) (.regroup (.onPart (fun _ hp => hp) (.loadCode (img := img) (before := [])
    (l := List.map codeRec (imgCode img)) (.quietBays (.dropTouches h)))))

theorem MemsWf.sendTables {q} (h : MemsWf s) : MemsWf (s.sendTables q) := by
  unfold State.sendTables
  split
  · exact .sendAll h
  · exact h

theorem MemsWf.sendCheck {q ok} (h : MemsWf s) : MemsWf (s.sendCheck q ok) := by
  unfold State.sendCheck
  split
  · exact .onPart (fun _ hp => hp) (.sendAll h)
  · exact h

theorem Yields.loadPlan {img} (h : MemsWf s) : Yields (fun x => MemsWf x.2) (s.loadPlan img) := by
  unfold State.loadPlan
  dsimp only
  split
  · exact .error
  next p hp =>
    refine .ite .error ?_
    split
    · exact .error
    next u l hu =>
      have h1 {q} : MemsWf ((u.takePlan q img l).sendTables q) :=
        .sendTables (.takePlan (Yields.readPlan (Yields.partOfImage _ hp) h _ hu))
      exact .ite (.ok h1) (.ite .error (.ok (.sendCheck h1)))

theorem MemsWf.refusePod {img} (h : MemsWf s) : MemsWf (s.refusePod img) := by
  unfold State.refusePod
  split
  · exact h
  · exact .ite (.sendAll h) h

/-! ## Parity units -/

theorem MemsWf.sendUnit {q f chip m} (h : MemsWf s) : MemsWf (s.sendUnit q f chip m) := .sendBy h

theorem MemsWf.clearReserve (h : MemsWf s) : MemsWf s.clearReserve := by
  refine .setLpddr (ofFn_wf fun t => ?_) h
  split
  · exact filter_wf (get_wf h.lpddr t)
  · exact get_wf h.lpddr t

theorem MemsWf.sendParity (h : MemsWf s) : MemsWf s.sendParity := by
  unfold State.sendParity
  split
  · exact .foldl (fun _ _ h => .sendUnit h) h
  · exact h

theorem MemsWf.sendRebuild {before lost} (h : MemsWf s) : MemsWf (s.sendRebuild before lost) := by
  unfold State.sendRebuild
  split
  · exact .ite h (.foldl (fun _ _ h => .sendUnit h) (.foldl (fun _ _ h => .ite h (.sendUnit h)) h))
  · exact h

theorem MemsWf.takeUnit {parity u cells dirty} (h : MemsWf s) : MemsWf (s.takeUnit parity u cells dirty) := by
  unfold State.takeUnit
  dsimp only
  split
  · split
    · exact .setLpddr (set_wf h.lpddr _ (xorAll_wf (get_wf h.lpddr _))) h
    · exact h
  · have former : (assocGet (([], false) : Mem × Bool) s.rebuild u).1.wf = true :=
      assocGet_of_forall (P := fun x : Mem × Bool => x.1.wf = true) rfl h.rebuild u
    exact .setRebuild (List.forall_mem_cons.mpr ⟨xorAll_wf former, fun x hx => h.rebuild x
      (List.mem_of_mem_filter hx)⟩) h

theorem MemsWf.putUnits {f} (h : MemsWf s) : MemsWf (s.putUnits f) := by
  refine .setLpddr (List.foldlRecOn (motive := fun v : Vector Mem 8 => ∀ m ∈ v.toList, m.wf = true) _ _ ?_
    (fun v hv x hx => ?_)) h
  · intro m hm
    rw [Vector.toList_replicate] at hm
    exact List.eq_of_mem_replicate hm ▸ rfl
  · split
    · exact set_wf hv _ (copyRange_wf _ _ _ _ _ (h.rebuild x (List.mem_of_mem_filter hx)) (get_wf hv _))
    · exact hv

theorem MemsWf.rebuildOwn {f} (h : MemsWf s) : MemsWf (s.rebuildOwn f) :=
  .mapParts (s := s.putUnits f) (fun _ hp => .ite hp hp) (.putUnits h)

/-! ## Rollback, preemption and recovery -/

theorem MemsWf.beginStall {q b n} (h : MemsWf s) : MemsWf (s.beginStall q b n) := .onPart (fun _ hp => hp) h

theorem MemsWf.trapAfter {b p repeated cls} (h : MemsWf s) : MemsWf (s.trapAfter b p repeated cls) := by
  unfold State.trapAfter
  split
  · exact .ite (.logFault h) (.ite (.logFault (.onBay (fun _ hb => hb) (.takeTrap h))) (.onBay (fun _ hb => hb)
      (.takeTrap h)))
  · have hw := h.freeWord
    exact .ite (.logFault hw) (.ite (.logFault (.onBay (fun _ hb => hb) (.takeTrap hw))) (.onBay (fun _ hb => hb)
      (.takeTrap hw)))

theorem MemsWf.settled {b} (h : MemsWf s) : MemsWf (s.settled b) := .onBay (fun _ hb => hb) h

theorem MemsWf.escalate {q b p} (h : MemsWf s) : MemsWf (s.escalate q b p) :=
  .onPart (fun _ hp => hp) (.settled (.trapAfter (.beginStall h)))

theorem MemsWf.askPage {q b p} (h : MemsWf s) : MemsWf (s.askPage q b p) := by
  unfold State.askPage
  dsimp only
  split
  · exact .escalate h
  · exact .ite (.escalate h) (.onPart (fun _ hp => hp) (.beginStall h))

theorem MemsWf.rerun {q b n} (h : MemsWf s) : MemsWf (s.rerun q b n) := .onPart (fun _ hp => hp) (.beginStall h)

theorem MemsWf.softRollback {q b p} (h : MemsWf s) : MemsWf (s.softRollback q b p) :=
  .ite (.askPage h) (.ite (.rerun h) (.settled (.trapAfter (.beginStall h))))

theorem MemsWf.onPhys {i f} (h : MemsWf s) : MemsWf (s.onPhys i f) := h

theorem MemsWf.retireColumn {i c} (h : MemsWf s) : MemsWf (s.retireColumn i c) := .log (.onPhys h)

theorem MemsWf.restart {q} (h : MemsWf s) : MemsWf (s.restart q) := by
  unfold State.restart
  dsimp only
  split
  next ht => exact .onPart (fun _ hp => hp) (Yields.loadPlan (.dissolve h) _ ht)
  · exact .onPart (fun _ hp => hp) (.log h)

theorem MemsWf.rollBack {q b} (h : MemsWf s) : MemsWf (s.rollBack q b) :=
  .onScarf (.onBay (fun _ hb => .rolledBack hb) h)

theorem MemsWf.retirePhys {q b code info} (h : MemsWf s) : MemsWf (s.retirePhys q b code info) :=
  .ite (.restart (.onPart (fun _ hp => hp) (.halt (.logFault (.onPhys (.rollBack h)))))) (.onPart (fun _ hp => hp)
    (.halt (.logFault (.onPhys (.rollBack h)))))

theorem MemsWf.transient {b code info} (h : MemsWf s) : MemsWf (s.transient b code info) := .logFault h

theorem MemsWf.lostData {q b action code info} (h : MemsWf s) : MemsWf (s.lostData q b action code info) :=
  .ite (.selfLost (.halt (.logFault (.rollBack h)))) (.halt (.logFault (.rollBack h)))

theorem MemsWf.markChannel {ch} (h : MemsWf s) : MemsWf (s.markChannel ch) := .log h

theorem MemsWf.takeColumn {b c} (h : MemsWf s) : MemsWf (s.takeColumn b c).1 := .ite (.retireColumn h) h

theorem MemsWf.endReruns {q b hw n l} (h : MemsWf s) : MemsWf (s.endReruns q b hw n l) := by
  induction l generalizing s n with
  | nil => exact .settled (.transient (.beginStall h))
  | cons r l ih =>
    unfold State.endReruns
    dsimp only
    split
    · exact .settled (.transient (.beginStall h))
    · exact .ite (.beginStall h) (.settled (.trapAfter (.beginStall h)))
    · exact .lostData (.ite (.markChannel h) h)
    · exact .ite (.beginStall h) (.askPage (.onBay (fun _ hb => hb) h))
    · exact .ite (.retirePhys (.takeColumn h)) (ih (.takeColumn h))
    · exact .retirePhys h
    · exact .lostData h

theorem MemsWf.hardRollback {q b hw} (h : MemsWf s) : MemsWf (s.hardRollback q b hw) := by
  have h1 : MemsWf (if hw.cause = .residue then s.takeColumn b (bits hw.info 0 8) else (s, false)).1 := by
    split
    · exact .takeColumn h
    · exact h
  exact .ite (.retirePhys h1) (.endReruns h1)

theorem StepWf.execRollback {b hw} (h : MemsWf s) : StepWf (Machine.execRollback b hw s) := by
  unfold Machine.execRollback
  split
  · exact .next h
  · split
    · exact .next (.ite (.hardRollback h) h)
    · split
      · exact .next h
      · exact .next (.ite h (by
          split
          · exact .endReruns h
          · exact .softRollback h))

theorem MemsWf.placePage {q e} {page : Mem} (hp : page.wf = true) (h : MemsWf s) : MemsWf (s.placePage q e page) := by
  unfold State.placePage
  dsimp only
  split
  · split
    · exact .setHostMem (s := s.emit _) (copyRange_wf _ _ _ _ _ hp h.hostMem) h
    · exact h
  · exact .setFlash (s := s.emit _) (copyRange_wf _ _ _ _ _ hp h.flashOf) h
  · exact .setRing (set_wf h.ring _ (copyRange_wf _ _ _ _ _ hp (get_wf h.ring _))) h
  · exact .setLpddr (set_wf h.lpddr _ (copyRange_wf _ _ _ _ _ hp (get_wf h.lpddr _))) h
  · split
    · exact .foldl (fun _ _ h => .remoteSend h) h
    · exact h

theorem MemsWf.bringPage {q x e cells} (h : MemsWf s) : MemsWf (s.bringPage q x e cells) :=
  .onPart (fun _ hp => hp)
    (.placePage (writeAll_wf _ _ (copyRange_wf _ _ _ _ _ (PartWf.backing (.part h)) rfl)) h)

theorem StepWf.execPageBring {q x page} (h : MemsWf s) : StepWf (Machine.execPageBring q x page s) := by
  unfold Machine.execPageBring
  dsimp only
  split
  · exact .next h
  · exact .next h
  · split
    · exact .next (.foldl (fun _ _ h => .escalate h) (.onPart (fun _ hp => hp) h))
    · exact .next (.foldl (fun _ _ h => .onPart (fun _ hp => hp) (.rerun h)) (.bringPage
        (.onPart (fun _ hp => hp) h)))

theorem MemsWf.keepPart {q} (h : MemsWf s) : MemsWf (s.keepPart q) := .onPart (fun _ hp => .setSaved h.savedWf hp) h

theorem MemsWf.keepCheckpoint {q} (h : MemsWf s) : MemsWf (s.keepCheckpoint q) :=
  .onPart (fun p hp => PartWf.setCheckpoint (p := p) (c := ⟨s.snap q, s.saveBays q, s.saveRing q⟩) h.savedWf hp) h

theorem StepWf.execPreemption {q} (h : MemsWf s) : StepWf (Machine.execPreemption q s) :=
  .ite (.next (.quietBays (.dropTouches (.onPart (fun _ hp => hp) (.keepPart h))))) (.next h)

theorem PartWf.atRate {k ptp} (hp : PartWf p) : PartWf (p.atRate k ptp) := hp

theorem StepWf.execPreemptionResume {q} (h : MemsWf s) : StepWf (Machine.execPreemptionResume q s) := by
  obtain ⟨hv, hr⟩ := PartWf.saved (.part (q := q) h)
  exact .ite (.ite (.next (.stopFor h)) (.next (.onPart (fun _ hp => .clearSaved (.atRate (.endStop hp)))
    (.restoreRing hr (.loadCode (.restoreBays hv (.quietBays (.dropClocks h)))))))) (.next h)

theorem MemsWf.checkpointPart {q} (h : MemsWf s) : MemsWf (s.checkpointPart q) := .ite (.keepCheckpoint h) h

theorem MemsWf.resumePart {q} (h : MemsWf s) : MemsWf (s.resumePart q) :=
  .ite (.onPart (fun _ hp => .endStop (clock := s.clock + 1) hp) h) h

theorem StepWf.execCheckpointResume (h : MemsWf s) : StepWf (Machine.execCheckpointResume s) :=
  .ite (.next (.mapParts (s := { s with dirty := _ }) (fun _ hp => .ite hp hp) h)) (.next h)

theorem MemsWf.remapChip {f lost taker} (h : MemsWf s) : MemsWf (s.remapChip f lost taker) := h

theorem MemsWf.fromCheckpoint {q c} (hc : SavedWf c.bays c.ring) (h : MemsWf s) : MemsWf (s.fromCheckpoint q c) :=
  .onPart (fun _ hp => hp) (.dropTouches (.withRouter (.restore hc (.quietBays (.standStill h)))))

theorem MemsWf.savedFromCheckpoint {q c} (hc : SavedWf c.bays c.ring) (h : MemsWf s) :
    MemsWf (s.savedFromCheckpoint q c) :=
  .onPart (fun p hp => PartWf.setSaved (p := p) hc hp) h

theorem MemsWf.recoverPart {q r} (h : MemsWf s) : MemsWf (s.recoverPart q r) := by
  unfold State.recoverPart
  dsimp only
  split
  · exact h
  · split
    · exact h
    next hc => exact .savedFromCheckpoint (PartWf.checkpoint (.part h) hc) h
    · exact h
    · refine .ite (.stopFor h) (.ite (.stopFor h) ?_)
      split
      next hc => exact .fromCheckpoint (PartWf.checkpoint (.part h) hc) h
      · exact .restart h

theorem StepWf.execPodRecovery {r} (h : MemsWf s) : StepWf (Machine.execPodRecovery r s) := by
  unfold Machine.execPodRecovery
  split
  · exact .next h
  next f _ =>
    have h0 : MemsWf { s with arrivals := [], links := s.links.map (fun l => { l with waiting := [] }) } := h
    have every {t : State} (ht : MemsWf t) : MemsWf ((List.finRange 8).foldl (fun acc q => acc.recoverPart q r) t) :=
      .foldl (fun _ _ h => .recoverPart h) ht
    refine .ite ?_ (.next (every h0))
    split
    · exact .next (.foldl (fun _ _ h => .ite (.stopFor h) h) h0)
    · exact .next (.withoutRebuild (every (.ite (.remapChip (.rebuildOwn h0)) (.sendRebuild (.remapChip h0)))))

/-! ## The fabric -/

theorem MemsWf.onRouter {slot f} (h : MemsWf s) : MemsWf (s.onRouter slot f) := h

theorem MemsWf.enqueueValue {port dest v} (h : MemsWf s) : MemsWf (s.enqueueValue port dest v) := by
  unfold State.enqueueValue
  split
  · exact .enqueue h
  · exact .log h

theorem MemsWf.routeValue {q d n v} (h : MemsWf s) : MemsWf (s.routeValue q d n v) := by
  induction n generalizing s v with
  | zero => exact h
  | succ n ih =>
    unfold State.routeValue
    split
    · exact h
    · dsimp only
      split
      · exact .enqueueValue h
      · exact .ite (.onRouter h) (.ite (.onRouter h) (.ite (.onRouter h) (.ite (.onRouter h) (ih (.onRouter h)))))

theorem MemsWf.takeValue {dest m} (h : MemsWf s) : MemsWf (s.takeValue dest m) := by
  unfold State.takeValue
  split
  · exact .emit h
  · exact .routeValue h

theorem StepWf.execRouterArrival {m} (h : MemsWf s) : StepWf (Machine.execRouterArrival m s) := by
  unfold Machine.execRouterArrival
  split
  · exact .next h
  · exact .next (.takeValue h)

theorem StepWf.execRoundDecision {q slot} (h : MemsWf s) : StepWf (Machine.execRoundDecision q slot s) := by
  unfold Machine.execRoundDecision
  dsimp only
  split
  · exact .ite (.ite (.next (.foldl (fun _ _ h => .sendChip h) (.onRouter h))) (.next (.onRouter h))) (.next h)
  · exact .next h

theorem BayWf.commitScales {lim l} (hb : BayWf b) : BayWf (Machine.commitScales lim b l) :=
  .foldl (fun _ _ hb => .ite hb hb) hb

theorem MemsWf.commitRun {q b r} (h : MemsWf s) : MemsWf (s.commitRun q b r) := by
  unfold State.commitRun
  dsimp only
  split
  on_goal 1 => refine .strayFault ?_
  all_goals
    refine .onBay (fun _ hb => .commitScales (lim := s.half b 256) (l := r.list) hb) ?_
    split
    · exact h
    · exact .useRegion (.note (.markPending (.writePlace h)))

theorem MemsWf.collOver {q v b r} (h : MemsWf s) : MemsWf (s.collOver q v b r) :=
  .ite (.commitRun (.onBay (fun _ hb => .keepReplay (.produce hb)) h)) (.onBay (fun _ hb => .keepReplay
    (.produce hb)) h)

theorem MemsWf.orderRound {q d v} (h : MemsWf s) : MemsWf (s.orderRound q d v) := .foldl (fun _ _ h => .joinLater h) h

theorem StepWf.execRoundDelivery {q slot} (h : MemsWf s) : StepWf (Machine.execRoundDelivery q slot s) := by
  unfold Machine.execRoundDelivery
  dsimp only
  split
  · exact .next h
  · split
    · exact .next h
    · split
      · exact .next h
      · have h2 {f y clk party tag va data} :
            MemsWf (((s.onRouter slot f).join y clk).freshTag.2.putBy q party tag va data) :=
          .putBy (.freshTag (.join (.onRouter h)))
        exact .next (.scarfVerdict (.arriveAt (.ite
          (.orderRound (.foldl (fun _ _ h => .collOver h) (.ite (.putBy h2) h2)))
          (.foldl (fun _ _ h => .joinLater h) (.foldl (fun _ _ h => .collOver h) (.ite (.putBy h2) h2))))))

theorem MemsWf.markFrame {q t frame} (h : MemsWf s) : MemsWf (s.markFrame q t frame) := .onPart (fun _ hp => hp) h

theorem BayWf.takeAnswer {x : Bay} {t id data} (hb : BayWf x) : BayWf (x.takeAnswer t id data) := .ite hb hb

theorem MemsWf.takeAnswer {bay id data} (h : MemsWf s) : MemsWf (s.takeAnswer bay id data) := by
  refine .ite (.mapParts (fun p hp => .ite ?_ hp) h) (.onBay (fun _ hb => .takeAnswer hb) h)
  obtain ⟨hs, hr⟩ := hp.saved
  refine .setSaved ⟨fun v hv => ?_, hr⟩ hp
  obtain ⟨w, hw, rfl⟩ := List.mem_map.mp hv
  split
  · exact .takeAnswer (hs w hw)
  · exact hs w hw

theorem MemsWf.serveTier5 {q r} (h : MemsWf s) : MemsWf (s.serveTier5 q r).1 := by
  unfold State.serveTier5
  dsimp only
  split
  · exact h
  · exact .markFrame (.writePlace h)
  · exact .markFrame (.applyBytes h)
  · exact .markFrame (.writePlace h)
  · exact .markFrame (.claimSlot h)

theorem MemsWf.noteHome {q r} (h : MemsWf s) : MemsWf (s.noteHome q r) := by
  unfold State.noteHome
  dsimp only
  split <;> exact .useRegion (.noteBy h)

theorem StepWf.execTier5Request {r} (h : MemsWf s) : StepWf (Machine.execTier5Request r s) := by
  unfold Machine.execTier5Request
  split
  · exact .next h
  · exact .ite (.next (.log h)) (.next (.queueBurst h))

theorem MemsWf.answerPod {q ok} (h : MemsWf s) : MemsWf (s.answerPod q ok) := by
  unfold State.answerPod
  dsimp only
  split
  · exact .ite h (.dissolve (.log h))
  · exact .onPart (fun _ hp => hp) (.respond (.ite h (.dissolve (.log h))))

theorem MemsWf.checksDone {q} (h : MemsWf s) : MemsWf (s.checksDone q) :=
  .ite (.ite (.answerPod (.sendCheck h)) (.sendCheck h)) (.answerPod (.sendCheck h))

theorem MemsWf.hearTables {q chip t} (h : MemsWf s) : MemsWf (s.hearTables q chip t) :=
  .ite (.ite (.checksDone (.regroup (.onPart (fun _ hp => hp) h))) (.regroup (.onPart (fun _ hp => hp) h))) h

theorem MemsWf.hearCheck {q chip ok} (h : MemsWf s) : MemsWf (s.hearCheck q chip ok) :=
  .ite (.ite (.ite (.answerPod (.onPart (fun _ hp => hp) h)) (.onPart (fun _ hp => hp) h)) (.ite (.answerPod h) h)) h

theorem StepWf.execPodWideChecks {chip tables} (h : MemsWf s) : StepWf (Machine.execPodWideChecks chip tables s) :=
  .ite (.next (.foldl (fun _ _ h => .hearTables h) h)) (.next h)

theorem MemsWf.scarfAnswer {q run index data} (h : MemsWf s) : MemsWf (s.scarfAnswer q run index data) := .onScarf h

theorem MemsWf.sendPtp {port x o} (h : MemsWf s) : MemsWf (s.sendPtp port x o) := by
  unfold State.sendPtp
  split
  · exact .enqueue h
  · exact .emit h

theorem StepWf.execPtpEventMessage {m} (h : MemsWf s) : StepWf (Machine.execPtpEventMessage m s) :=
  .ite (.next (.ite (.sendPtp (.emit h)) (.emit h))) (.next (.ite (.emit (.sendPtp h)) (.sendPtp h)))

theorem MemsWf.takeVerdict {v} (h : MemsWf s) : MemsWf (s.takeVerdict v) := .onRouter h

theorem StepWf.receive {port m} (h : MemsWf s) : StepWf (s.receive port m) := by
  unfold State.receive
  split
  · exact .next (.takeValue h)
  · exact .next (.takeVerdict h)
  · exact .execTier5Request h
  · exact .next (.takeAnswer h)
  · exact .execSourceRead h
  · exact .next (.scarfAnswer h)
  · exact .ite (.execScarfErrorFlit h) (.next h)
  · exact .execOffsetReport h
  · exact .execPodWideChecks h
  · exact .next (.foldl (fun _ _ h => .hearCheck h) h)
  · exact .execPtpEventMessage h
  · exact .next (.chipLost h)
  · exact .next (.takeUnit h)

theorem StepWf.accept {port dest m} (h : MemsWf s) : StepWf (s.accept port dest m) := by
  unfold State.accept
  split
  · exact .receive h
  · exact .next (.takeValue h)
  · exact .ite (.receive h) (.next (.emit h))

theorem MemsWf.forward {x} (h : MemsWf s) : MemsWf (s.forward x) := by
  unfold State.forward
  split
  · split
    · exact .ite (.enqueueValue h) h
    · exact .sendFlit h
    · exact h
  · exact h

theorem StepWf.execLinkFlit {port seq intact dest m} (h : MemsWf s) :
    StepWf (Machine.execLinkFlit port seq intact dest m s) :=
  .ite (.ite (.ite (.accept h) (.next h)) (.next (.forward h))) (.ite (.next h) (.next (.enqueue h)))

theorem MemsWf.depart {port x} (h : MemsWf s) : MemsWf (s.depart port x).1 := by
  unfold State.depart
  split
  · exact .sendFlit h
  · dsimp only
    split
    · exact .emit h
    · exact h
  · exact .emit h
  · exact .emit (.emit h)
  · exact .emit (.emit h)

theorem MemsWf.takeFlit {port may} (h : MemsWf s) : MemsWf (s.takeFlit port may) := by
  unfold State.takeFlit
  dsimp only
  split
  · exact h
  · exact .ite (.withLinks (.depart h)) (.withLinks h)

theorem MemsWf.portFlits {q port} (h : MemsWf s) : MemsWf (s.portFlits q port) :=
  .foldl (fun _ _ h => by
    split
    · exact .takeFlit h
    · exact h) h

theorem MemsWf.departures (h : MemsWf s) : MemsWf s.departures :=
  .foldl (fun _ _ h => .ite h (.foldl (fun _ _ h => .takeFlit h) (.foldl (fun _ _ h => .portFlits h) h))) h

/-! ## The matrix unit -/

theorem BayWf.emptyView {h'} (hb : BayWf b) : BayWf (b.emptyView h') := hb

theorem StepWf.execMxdrain {c} (h : MemsWf s) : StepWf (Machine.execMxdrain c s) :=
  .next (.command h (fun _ _ hb => .ite (.emptyView hb) hb))

theorem MemsWf.readItems {b c isB base sc} (h : MemsWf s) : MemsWf (s.readItems b c isB base sc).1 :=
  List.foldlRecOn (motive := fun a : State × Items => MemsWf a.1) _ _ h
    (fun _ h _ _ => .bankRead (.foldl (fun _ _ h => .useStore h) h))

theorem MemsWf.useScales {b c r} (h : MemsWf s) : MemsWf (s.useScales b c r) :=
  .foldl (fun _ _ h => .useStore h) (.foldl (fun _ _ h => .useStore h) h)

theorem MemsWf.nestCycle {b r} (h : MemsWf s) : MemsWf (s.nestCycle b r) :=
  .onBay (fun _ hb => .ite (.ite hb hb) (.ite (.ite hb hb) (.ite hb hb)))
    (.readItems (.readItems (.foldl (fun _ _ h => .useStore h) (.ite (.useScales h) h))))

theorem StepWf.execMxgoBegin {b} (h : MemsWf s) : StepWf (Machine.execMxgoBegin b s) := by
  unfold Machine.execMxgoBegin
  split
  · exact .next (.nestCycle h)
  · split
    · exact .next h
    · exact .next (.nestCycle (.onBay (fun _ hb => hb) h))

theorem MemsWf.addMx {b st} (h : MemsWf s) : MemsWf (s.addMx b st) := by
  unfold State.addMx
  dsimp only
  split
  · exact .strayFault h
  · exact .ite h (.ite (.ite (.strayFault h) h) (.writeHandle h))

theorem StepWf.execMxdrainBegin {b} (h : MemsWf s) : StepWf (Machine.execMxdrainBegin b s) := by
  unfold Machine.execMxdrainBegin
  split
  · exact .next h
  · exact .ite (.next (.strayFault (.onBay (fun _ hb => hb) h))) (.next (.onBay (fun _ hb => hb) h))

theorem StepWf.execDrainRowLanding {b} (h : MemsWf s) : StepWf (Machine.execDrainRowLanding b s) := by
  refine .next (.foldl (fun t d h => ?_) h)
  have h1 : MemsWf (match d.rows.find? (fun p => decide (d.begun + p.1 + 2 = s.now b)) with
      | some p => t.land b d.store p.2 false
      | none => t) := by
    split
    · exact .land h
    · exact h
  exact .ite (.writeHandle h1) h1

theorem StepWf.execMxclrBegin {b} (h : MemsWf s) : StepWf (Machine.execMxclrBegin b s) := by
  unfold Machine.execMxclrBegin
  split
  · exact .next h
  · exact .next (.writeHandle (.onBay (fun _ hb => .produce hb) h))

/-! ## Moves and tables -/

theorem BayWf.writeShadow {unit v} (hb : BayWf b) : BayWf (b.writeShadow unit v) := by
  unfold Bay.writeShadow
  split <;> exact hb

theorem MemsWf.shapeWrite {c unit} (h : MemsWf s) : MemsWf (Machine.shapeWrite c unit s) :=
  .move (fun _ _ h => .onMe (fun _ hb => .writeShadow hb) h) h

/-! ## The yard and the host -/

theorem MemsWf.tryBoot (h : MemsWf s) : MemsWf s.tryBoot := .ite h (.ite h h)

theorem StepWf.execBoot (h : MemsWf s) : StepWf (Machine.execBoot s) := .ite (.next (.tryBoot h)) (.next h)

theorem StepWf.execBootRetry (h : MemsWf s) : StepWf (Machine.execBootRetry s) := by
  unfold Machine.execBootRetry
  split
  · exact .next (.ite (.tryBoot h) h)
  · exact .next h

theorem StepWf.execRoceConnect (h : MemsWf s) : StepWf (Machine.execRoceConnect s) := by
  unfold Machine.execRoceConnect
  split
  · exact .next (.emit h)
  · exact .next h

theorem MemsWf.rdmaRefused (h : MemsWf s) : MemsWf s.rdmaRefused := .emit (.log h)

theorem MemsWf.writeVaBy {q party tag va data} (h : MemsWf s) : MemsWf (s.writeVaBy q party tag va data) :=
  .foldl (fun _ _ h => .putBy h) h

theorem MemsWf.mailboxWrite {conn off data} (h : MemsWf s) : MemsWf (s.mailboxWrite conn off data) := by
  have h1 : MemsWf { s with yard := { s.yard with mailbox := Mem.writeN s.yard.mailbox off data } } :=
    .setMailbox (writeN_wf _ _ _ h.mailbox) h
  exact .ite h1 h1

theorem MemsWf.queueHost {q va n act} (h : MemsWf s) : MemsWf (s.queueHost q va n act) :=
  .foldl (fun _ _ h => .queueBurst h) h

theorem StepWf.execRdmaWrite {t data} (h : MemsWf s) : StepWf (Machine.execRdmaWrite t data s) := by
  unfold Machine.execRdmaWrite
  split
  · exact .next h
  · split
    · exact .ite (.next (.foldl (fun _ _ h => .queueBurst h) (.queueHost (.freshTag h)))) (.next (.rdmaRefused h))
    · exact .ite (.next (.mailboxWrite h)) (.next (.rdmaRefused h))

theorem StepWf.execRdmaRead {t n} (h : MemsWf s) : StepWf (Machine.execRdmaRead t n s) := by
  unfold Machine.execRdmaRead
  split
  · exact .next h
  · split
    · exact .ite (.next (.queueHost h)) (.next (.rdmaRefused h))
    · exact .ite (.next (.emit h)) (.next (.rdmaRefused h))

theorem StepWf.execAtomicFetchAndAdd {t v} (h : MemsWf s) : StepWf (Machine.execAtomicFetchAndAdd t v s) := by
  unfold Machine.execAtomicFetchAndAdd
  split
  · exact .next h
  · split
    · exact .ite (.next (.queueHost h)) (.next (.rdmaRefused h))
    · exact .ite (.next (.emit (.setMailbox (writeN_wf _ _ _ h.mailbox) h))) (.next (.rdmaRefused h))

theorem StepWf.serve {n cmd f} (hf : ∀ r t, MemsWf t → MemsWf (f r t)) (h : MemsWf s) : StepWf (s.serve n cmd f) :=
  .ite (.ite (.next (.respond h)) (.ite (.next (.respond h)) (.next (hf _ _ h)))) (.next h)

theorem MemsWf.answerLoad {n img r} (hr : ∀ q t, r = .ok (q, t) → MemsWf t) (h : MemsWf s) :
    MemsWf (s.answerLoad n img r) := by
  unfold State.answerLoad
  split
  · exact .refuse (.refusePod h)
  next q t =>
    have ht := hr q t rfl
    exact .ite (.respond ht) (.onPart (fun _ hp => hp) ht)

theorem MemsWf.load {n img} (h : MemsWf s) : MemsWf (s.load n img) := by
  unfold State.load
  split
  · exact .refuse (.refusePod h)
  · exact .answerLoad (fun _ _ ht => Yields.loadPlan h _ ht) h
  · exact .respond (.setYard (MemsWf.mailbox (.askPreempt h)) (.askPreempt h))

theorem StepWf.execLoad {n} (h : MemsWf s) : StepWf (Machine.execLoad n s) :=
  .serve (fun _ _ h => by
    split
    · exact .refuse h
    · exact .ite (.refuse h) (.load h)) h

theorem StepWf.execPlanDispatch (h : MemsWf s) : StepWf (Machine.execPlanDispatch s) := by
  unfold Machine.execPlanDispatch
  split
  · exact .next h
  next w _ =>
    have h1 : MemsWf { s with yard := { s.yard with planq := s.yard.planq.erase w } } := h
    dsimp only
    split
    · split
      next ht => exact .next (Yields.loadPlan h1 _ ht)
      · exact .next (.log (.refusePod h1))
    · exact .next (.log h1)
    · exact .next h

theorem StepWf.execStop {n} (h : MemsWf s) : StepWf (Machine.execStop n s) :=
  .serve (fun _ _ h => .ite (.respond (.dissolve h)) (.refuse h)) h

theorem StepWf.execLogread {n} (h : MemsWf s) : StepWf (Machine.execLogread n s) :=
  .serve (fun _ _ h => by
    dsimp only
    split
    · exact .refuse h
    next ht => exact .respond (.ofSome ht (.hostPut h))) h

theorem StepWf.execSlotread {n} (h : MemsWf s) : StepWf (Machine.execSlotread n s) :=
  .serve (fun _ _ h => .ite (.respond h) (.refuse h)) h

theorem StepWf.execPagereq {n} (h : MemsWf s) : StepWf (Machine.execPagereq n s) :=
  .serve (fun _ _ h => .ite (.respond h) (by
    split
    · exact .refuse h
    · exact .respond h)) h

theorem StepWf.execFwstage {n} (h : MemsWf s) : StepWf (Machine.execFwstage n s) :=
  .serve (fun _ t h => by
    split
    · exact .refuse h
    · refine .respond (.setYard ?_ h)
      split
      · exact h.mailbox
      · exact h.mailbox) h

theorem StepWf.execFwswitch {n} (h : MemsWf s) : StepWf (Machine.execFwswitch n s) :=
  .serve (fun _ _ h => .ite (.respond h) (.respond h)) h

theorem StepWf.execFirmwareActivation (h : MemsWf s) : StepWf (Machine.execFirmwareActivation s) := by
  unfold Machine.execFirmwareActivation
  split
  · exact .next h
  · exact .ite (.next h) (.next h)

theorem StepWf.execQuote {n} (h : MemsWf s) : StepWf (Machine.execQuote n s) :=
  .serve (fun _ _ h => .respond (.setMailbox (writeN_wf _ _ _ h.mailbox) h)) h

theorem StepWf.execMonread {n} (h : MemsWf s) : StepWf (Machine.execMonread n s) :=
  .serve (fun _ _ h => by
    split
    · exact .respond h
    · exact .refuse h) h

theorem StepWf.execHostreg {n} (h : MemsWf s) : StepWf (Machine.execHostreg n s) :=
  .serve (fun _ _ h => .ite (.respond h) (.respond h)) h

theorem StepWf.execCert {n} (h : MemsWf s) : StepWf (Machine.execCert n s) :=
  .serve (fun _ _ h => by
    split
    · exact .refuse h
    next ht => exact .respond (.ofSome ht (.hostPut h))) h

theorem StepWf.execBadcmd {n} (h : MemsWf s) : StepWf (Machine.execBadcmd n s) :=
  .serve (fun _ _ h => .ite (.refuse h) (.respond h)) h

theorem StepWf.service {n k f} (hf : ∀ x t, MemsWf t → MemsWf (f x t)) (h : MemsWf s) : StepWf (s.service n k f) :=
  .serve (fun _ _ h => hf _ _ h) h

theorem MemsWf.onBent {t f} (h : MemsWf s) : MemsWf (s.onBent t f) := h

theorem StepWf.execRetireBent {n} (h : MemsWf s) : StepWf (Machine.execRetireBent n s) :=
  .service (fun _ _ h => .ite (.respond (.onBent h)) (.refuse h)) h

theorem MemsWf.withPhys {v} (h : MemsWf s) : MemsWf { s with phys := v } := h

theorem MemsWf.clearShims {t} (h : MemsWf s) : MemsWf (s.clearShims t) := .withPhys h

theorem StepWf.execReadmitBent {n} (h : MemsWf s) : StepWf (Machine.execReadmitBent n s) :=
  .service (fun _ _ h => .ite (.respond (.onBent (.clearShims (.freeWord h)))) (.refuse (.freeWord h))) h

theorem StepWf.execReloadPartition {n} (h : MemsWf s) : StepWf (Machine.execReloadPartition n s) :=
  .service (fun _ t h => by
    refine .ite ?_ (.refuse h)
    dsimp only
    split
    · exact .answerLoad (fun _ _ ht => Yields.loadPlan (.dissolve h) _ ht) (.dissolve h)
    · exact .refuse (.dissolve h)
    · exact .load (.dissolve h)) h

theorem StepWf.execRetireChannel {n} (h : MemsWf s) : StepWf (Machine.execRetireChannel n s) :=
  .service (fun _ _ h => .ite (.respond (.onBent h)) (.refuse h)) h

theorem StepWf.execDegradeLanes {n} (h : MemsWf s) : StepWf (Machine.execDegradeLanes n s) :=
  .service (fun _ _ h => by
    split
    · exact .respond h
    · exact .refuse h) h

theorem StepWf.execRecalibrateMonitors {n} (h : MemsWf s) : StepWf (Machine.execRecalibrateMonitors n s) :=
  .service (fun _ _ h => .respond h) h

theorem StepWf.serveMailbox (h : MemsWf s) : StepWf s.serveMailbox := by
  unfold State.serveMailbox
  dsimp only
  split
  · exact .execLoad h
  · exact .execStop h
  · exact .execLogread h
  · exact .execSlotread h
  · exact .execPagereq h
  · split
    · exact .execRetireBent h
    · exact .execReadmitBent h
    · exact .execReloadPartition h
    · exact .execRetireChannel h
    · exact .execDegradeLanes h
    · exact .execRecalibrateMonitors h
    · exact .execBadcmd h
  · exact .execFwstage h
  · exact .execFwswitch h
  · exact .execQuote h
  · exact .execMonread h
  · exact .execHostreg h
  · exact .execCert h
  · exact .execBadcmd h

/-! ## Every instruction -/

theorem StepWf.exec {i} (h : MemsWf s) : StepWf (exec i s) := by
  cases i with
  | vec0Add | vec1Add | vec0Sub | vec1Sub | vec0Adds | vec1Adds | vec0Subs | vec1Subs | vec0And
    | vec1And | vec0Or | vec1Or | vec0Xor | vec1Xor | vec0Andn | vec1Andn | vec0Shl | vec1Shl
    | vec0Shr | vec1Shr | vec0Sar | vec1Sar | vec0Min | vec1Min | vec0Max | vec1Max | vec0Abs
    | vec1Abs | vec0Sel | vec1Sel | vec0Mulw | vec1Mulw | vec0Mulq | vec1Mulq | vec0Macw | vec1Macw
    | vec0Widen | vec1Widen | vec0Bcast | vec1Bcast | vec0Swapp | vec1Swapp | vec0Laneset
    | vec1Laneset => exact .next (.vecOp h)
  | add | sub | adds | subs | and | or | xor | andn | shl | shr | sar | rotl | min | max | minu
    | maxu | abs | clz | cls | popc | ext | ins | sel | cmpeq | cmpne | cmplt | cmple | cmpltu
    | cmpleu | pand | por | pxor | pnot => exact .next (.aluOp h)
  | vec0Cmpeq | vec1Cmpeq | vec0Cmpne | vec1Cmpne | vec0Cmplt | vec1Cmplt | vec0Cmple | vec1Cmple
    | vec0Cmpltu | vec1Cmpltu | vec0Cmpleu | vec1Cmpleu | vec0Pand | vec1Pand | vec0Por | vec1Por
    | vec0Pxor | vec1Pxor | vec0Pnot | vec1Pnot => exact .next (.vecMaskOp h)
  | mxgo | mxclr | wk0Walk | wk0Walkm | wk1Walk | wk1Walkm | gate | qput | send | recv | cred
    | cbcast | commit | reshard | jig | pegclr => exact .next (.command h)
  | exp2q | log2q | rcpq | rsqq | sinq | cosq => exact .next (.vfnOp h)
  | div | divu | rem | divq | sqrtq => exact .next (.divOp h)
  | perm | lanerot | lut | dec4 | enc4 => exact .next (.vredOp h)
  | mul | mulh | mulhu | mulq => exact .next (.mulOp h)
  | atadd | atmax | atmin | ator => exact .next (.atomicVa h)
  | tlook | census | rsstat | ttld => exact .next (.trigger h)
  | vec0Mcount | vec1Mcount | vec0Laneget | vec1Laneget => exact .next (.vecScalarOp h)
  | padC | padJ | padE | connectionClose => exact .next h
  | mxShw | wk0Shw | wk1Shw => exact .next (.shapeWrite h)
  | redadd | redmax | redmin => exact .next (.redOp h)
  | optm | optv | optw => exact .next (.optOp h)
  | br | ret | jmpi => exact .next (.move (fun _ _ h => .goto h) h)
  | endTask | witness | sysr => exact .next (.move (fun _ _ h => .onMe (fun _ hb => hb) h) h)
  | adda | suba => exact .next (.addrOp h)
  | ld | st => exact .next (.move (fun _ _ h => .localStart h) h)
  | ldg | ldc => exact .next (.loadVa h)
  | stg | stp => exact .next (.storeVa h)
  | tfill | tevict => exact .next (.move (fun _ _ h => .tagStart h) h)
  | vec0Shrs | vec1Shrs => exact .next (.vecShrs h)
  | vec0Narrow | vec1Narrow => exact .next (.vecNarrow h)
  | vec0Ldv | vec1Ldv => exact .next (.vecLdv h)
  | vec0Stv | vec1Stv => exact .next (.vecStv h)
  | call | calli => exact .next (.move (fun _ _ h => .linkNext (.goto h)) h)
  | move => exact .next (.move (fun _ _ h => .onMe (fun _ hb => .writeDst hb) h) h)
  | limm => exact .next (.onMe (fun _ hb => hb) h)
  | fetchadd => exact .next (.move (fun _ _ h => .vaGo h) h)
  | hand => exact .next (.move (fun _ _ h => .handGo h) h)
  | hlook => exact .next (.move (fun _ _ h => .onMe (fun _ hb => hb) (.localStart h)) h)
  | mxdrain => exact .execMxdrain h
  | brm => exact .next (.move (fun _ _ h => .ite (.goto h) h) h)
  | loop => exact .next (.move (fun _ _ h => .ite (.goto h) (.onMe (fun _ hb => hb) h)) h)
  | spawn =>
    exact .next (.move (fun _ _ h => .onMe (fun _ hb => hb) (.useStore (.ite h (.onBay (fun _ hb => hb) h)))) h)
  | gsync => exact .next (.move (fun _ _ h => .orderGang h) h)
  | trap => exact .next (.move (fun _ _ h => .stopPart (.logFault h)) h)
  | resume => exact .next (.move (fun _ _ h => .onMe (fun _ hb => hb) (.goto h)) h)
  | retire => exact .next (.move (fun _ _ h => .retire h) h)
  | sysw => exact .next (.move (fun _ _ h => .onMe (fun _ hb => .sysWrite hb) h) h)
  | ttclr => exact .execTtclr h
  | wheel => exact .execWheel h
  | jigStart => exact .execJigStart h
  | jigEnd => exact .execJigEnd h
  | resultReady => exact .execResultReady h
  | accessPerform => exact .execAccessPerform h
  | frameStart => exact .execFrameStart h
  | offsetReport => exact .execOffsetReport h
  | unresponsive => exact .execUnresponsive h
  | storyRelease => exact .execStoryRelease h
  | taskStart => exact .execTaskStart h
  | gateCompletion => exact .execGateCompletion h
  | holdRefresh => exact .execHoldRefresh h
  | refreshCommand => exact .execRefreshCommand h
  | rollback => exact .execRollback h
  | pageBring => exact .execPageBring h
  | retiredBayIdle => exact .execRetiredBayIdle h
  | preemption => exact .execPreemption h
  | preemptionResume => exact .execPreemptionResume h
  | planDispatch => exact .execPlanDispatch h
  | mxgoBegin => exact .execMxgoBegin h
  | mxAddition => exact .next (.foldl (fun _ _ h => .addMx h) (.onBay (fun _ hb => hb) h))
  | mxgoComplete => exact .next (.onBay (fun _ hb => .foldl (fun _ _ hb => .produce hb) hb) h)
  | mxdrainBegin => exact .execMxdrainBegin h
  | drainRowLanding => exact .execDrainRowLanding h
  | mxdrainComplete =>
    exact .next (.foldl (fun _ _ h => .onBay (fun _ hb => .produce hb) (.ite h (.land h)))
      (.onBay (fun _ hb => hb) h))
  | mxclrBegin => exact .execMxclrBegin h
  | walkBegin => exact .execWalkBegin h
  | walkUnitRead =>
    exact .next (.foldl (fun _ _ h => .walkReads h) (.foldl (fun _ _ h => .ite (.unitTrigger h) h) h))
  | walkUnitLanding => exact .next (.foldl (fun _ _ h => .ite (.foldl (fun _ _ h => .unitLand h) h) h) h)
  | asyncUnitLanding => exact .execAsyncUnitLanding h
  | sendBegin => exact .execSendBegin h
  | recvBegin => exact .execRecvBegin h
  | recvLineLanding => exact .execRecvLineLanding h
  | gateBegin => exact .execGateBegin h
  | gatePerform => exact .execGatePerform h
  | qputClaim => exact .execQputClaim h
  | qputLanding => exact .execQputLanding h
  | pegclrBegin => exact .execPegclrBegin h
  | collBegin => exact .execCollBegin h
  | routerArrival => exact .execRouterArrival h
  | roundDecision => exact .execRoundDecision h
  | roundDelivery => exact .execRoundDelivery h
  | reshardBegin => exact .execReshardBegin h
  | reshardCheckEnd => exact .execReshardCheckEnd h
  | scarfRequest => exact .execScarfRequest h
  | sourceRead => exact .execSourceRead h
  | scarfLanding => exact .execScarfLanding h
  | scarfErrorFlit => exact .execScarfErrorFlit h
  | timeout => exact .execTimeout h
  | mergePass => exact .execMergePass h
  | tier5Request => exact .execTier5Request h
  | linkFlit => exact .execLinkFlit h
  | replay => exact .next (.foldl (fun _ _ h => .enqueue h) h)
  | ptpEventMessage => exact .execPtpEventMessage h
  | checkpoint =>
    exact .next (.ite (.clearReserve (.foldl (fun _ _ h => .checkpointPart h) h))
      (.foldl (fun _ _ h => .checkpointPart h) h))
  | checkpointResume => exact .execCheckpointResume h
  | podRecovery => exact .execPodRecovery h
  | migrationCopy => exact .execMigrationCopy h
  | roceConnect => exact .execRoceConnect h
  | rdmaWrite => exact .execRdmaWrite h
  | rdmaRead => exact .execRdmaRead h
  | atomicFetchAndAdd => exact .execAtomicFetchAndAdd h
  | load => exact .execLoad h
  | stop => exact .execStop h
  | logread => exact .execLogread h
  | slotread => exact .execSlotread h
  | pagereq => exact .execPagereq h
  | fwstage => exact .execFwstage h
  | fwswitch => exact .execFwswitch h
  | firmwareActivation => exact .execFirmwareActivation h
  | quote => exact .execQuote h
  | monread => exact .execMonread h
  | hostreg => exact .execHostreg h
  | cert => exact .execCert h
  | badcmd => exact .execBadcmd h
  | retireBent => exact .execRetireBent h
  | readmitBent => exact .execReadmitBent h
  | reloadPartition => exact .execReloadPartition h
  | retireChannel => exact .execRetireChannel h
  | degradeLanes => exact .execDegradeLanes h
  | recalibrateMonitors => exact .execRecalibrateMonitors h
  | boot => exact .execBoot h
  | bootRetry => exact .execBootRetry h
  | nominalFrameStart => exact .next (.foldl (fun _ _ h => .nominalReport h) h)
  | podWideChecks => exact .execPodWideChecks h

/-! ## Issue of a bundle -/

theorem MemsWf.nextOr {r} (h : MemsWf s) (hr : StepWf r) : MemsWf (Machine.nextOr s r) := by
  unfold Machine.nextOr
  split
  · exact hr _ rfl
  · exact h
  · exact h

theorem MemsWf.runSlot {i} (h : MemsWf s) : MemsWf (Machine.runSlot s i) := .nextOr h (.exec h)

theorem MemsWf.runStage {k l} (h : MemsWf s) : MemsWf (Machine.runStage s k l) := .foldl (fun _ _ h => .runSlot h) h

theorem MemsWf.runBundle {l} (h : MemsWf s) : MemsWf (Machine.runBundle s l) :=
  .runStage (.runStage (.runStage (.onMe (fun _ hb => hb) (.runStage h))))

theorem BayWf.endIssue (hb : BayWf b) : BayWf b.endIssue := hb

theorem BayWf.endTask {now} (hb : BayWf b) : BayWf (b.endTask now) := hb

theorem BayWf.finish {now jigs limm} (hb : BayWf b) : BayWf (b.finish now jigs limm) := by
  unfold Bay.finish
  split
  · exact hb
  · exact hb
  all_goals
    refine .endIssue ?_
    split
    · exact .closeWindow (.ite hb hb)
    · exact .endTask (.ite hb hb)
    all_goals exact .ite hb hb

theorem MemsWf.issue {b} (h : MemsWf s) : MemsWf (s.issue b) := by
  unfold State.issue
  dsimp only
  split
  · exact .onBay (fun _ hb => hb) (.takeFault h)
  · exact .onBay (fun _ hb => .finish hb) (.runBundle (.onBay (fun _ hb => hb) h))

/-! ## Memory traffic -/

theorem MemsWf.writeHeader {q va h'} (h : MemsWf s) : MemsWf (s.writeHeader q va h') := .putBy (.putBy (.freshTag h))

theorem MemsWf.writeHot {q} (h : MemsWf s) : MemsWf (s.writeHot q) := by
  unfold State.writeHot
  dsimp only
  split
  · exact h
  · exact .queueBytes (.onPart (fun _ hp => hp) (.putBy (.freshTag h)))

theorem MemsWf.homeServe {q r} (h : MemsWf s) : MemsWf (s.homeServe q r) := by
  have h1 : MemsWf ((s.noteHome q r).serveTier5 q r).1 := .serveTier5 (.noteHome h)
  unfold State.homeServe
  dsimp only
  split
  · exact .ite (.takeAnswer h1) (.remoteSend h1)
  · exact h1

theorem MemsWf.performBurst {q x} (h : MemsWf s) : MemsWf (s.performBurst q x) := by
  unfold State.performBurst
  split
  · exact .within (fun _ h => .writeVaBy h) h
  · exact .within (fun _ h => .arriveAt h) h
  · exact .within (fun _ h => .writeHeader h) h
  · exact .within (fun _ h => .emit h) h
  · exact .within (fun _ h => .emit (.putVa (by
      split
      · exact .noteBy h
      · exact h))) h
  · exact .within (fun _ h => by
      split
      · exact .ite h (.asyncLand h)
      · exact h) h
  · exact .within (fun _ h => .writeHot h) h
  · exact .endCopy h
  · exact .onPart (fun _ hp => hp) h
  · exact .homeServe h
  · exact .within (fun _ h => .serveScarf h) h
  · exact h

theorem MemsWf.endBurst {q x} (h : MemsWf s) : MemsWf (s.endBurst q x) := .performBurst (.onPart (fun _ hp => hp) h)

theorem MemsWf.serveCode {q code n u} (h : MemsWf s) : MemsWf (s.serveCode q code n u) := by
  induction n generalizing s u with
  | zero => exact h
  | succ n ih =>
    unfold State.serveCode
    dsimp only
    split
    · exact h
    · split
      · exact h
      · exact .ite (ih (.endBurst h)) h
      · exact ih (.endBurst h)
      · refine .ite (ih (.endBurst h)) ?_
        split
        · exact h
        · exact .ite (ih (.endBurst h)) (ih (.onPart (fun _ hp => hp) h))

theorem MemsWf.askHot {q} (h : MemsWf s) : MemsWf (s.askHot q) := by
  unfold State.askHot
  dsimp only
  split
  · exact h
  · split
    · exact .queueBurst h
    · exact h

theorem MemsWf.serveTraffic {q} (h : MemsWf s) : MemsWf (s.serveTraffic q) := .serveCode (.serveCode (.askHot h))

theorem MemsWf.allTraffic (h : MemsWf s) : MemsWf s.allTraffic := .foldl (fun _ _ h => .serveTraffic h) h

/-! ## The phases of a clock cycle -/

theorem MemsWf.startTicks (h : MemsWf s) : MemsWf s.startTicks := .foldl (fun _ _ h => .onBay (fun _ hb => hb) h) h

theorem MemsWf.endHold {q} (h : MemsWf s) : MemsWf (s.endHold q) :=
  .ite (.onPart (fun _ hp => hp) (.foldl (fun _ _ h => .onBay (fun _ hb => .ite hb hb) h) h)) h

theorem MemsWf.endHolds (h : MemsWf s) : MemsWf s.endHolds := .foldl (fun _ _ h => .endHold h) h

theorem MemsWf.updateScales (h : MemsWf s) : MemsWf s.updateScales :=
  .foldl (fun _ _ h => .onBay (fun _ hb => hb) h) h

theorem MemsWf.prepareIssue (h : MemsWf s) : MemsWf s.prepareIssue :=
  .foldl (fun _ _ h => .onBay (fun _ hb => hb) h) h

theorem MemsWf.makeAllStarts (h : MemsWf s) : MemsWf s.makeAllStarts := .foldl (fun _ _ h => .makeStarts h) h

theorem MemsWf.clearReruns (h : MemsWf s) : MemsWf s.clearReruns := .foldl (fun _ _ h => .ite h (.settled h)) h

theorem MemsWf.handBusy {q b w} (h : MemsWf s) : MemsWf (s.handBusy q b w) := by
  unfold State.handBusy
  split
  · exact h
  · exact .ite (.strayFault (.onBay (fun _ hb => hb) h)) h

theorem MemsWf.endPegs {b} (h : MemsWf s) : MemsWf (s.endPegs b) := by
  unfold State.endPegs
  dsimp only
  split
  · exact .strayFault (.setBay (.endPegs (.bay h)) h)
  · exact .setBay (.endPegs (.bay h)) h

theorem MemsWf.endChecks {q} (h : MemsWf s) : MemsWf (s.endChecks q) :=
  .ite (.foldl (fun _ _ h => .endPegs h) h) (.foldl (fun _ _ h => .foldl (fun _ _ h => .handBusy h) h)
    (.foldl (fun _ _ h => .endPegs h) h))

theorem MemsWf.allChecks (h : MemsWf s) : MemsWf s.allChecks := .foldl (fun _ _ h => .endChecks h) h

theorem MemsWf.dropFaults (h : MemsWf s) : MemsWf s.dropFaults := h

theorem MemsWf.showWrite {q b t w} (h : MemsWf s) : MemsWf (s.showWrite q b t w) := by
  unfold State.showWrite
  split
  · split
    · exact .onPart (fun _ hp => hp) (.markPending (.tier5Send h))
    · exact .useRegion (.noteBy (.markPending (.applyBytes h)))
    · exact .useRegion (.noteBy (.markPending (.applyBytes h)))
  · split
    · exact .onPart (fun _ hp => hp) (.markPending (.tier5Send h))
    · exact .useRegion (.noteBy (.markPending (.applyBytes h)))
    · exact .useRegion (.noteBy (.markPending (.applyBytes h)))
  · exact .onPart (fun _ hp => hp) (.onPart (fun _ hp => hp) h)
  · exact .onPart (fun _ hp => hp) (.onPart (fun _ hp => hp) (.useRegion (.noteBy (.markPending (.applyBytes h)))))
  · exact .onPart (fun _ hp => hp) (.onPart (fun _ hp => hp) h)

theorem MemsWf.showWrites {q} (h : MemsWf s) : MemsWf (s.showWrites q) :=
  .foldl (fun _ _ h => .showWrite (.onBay (fun _ hb => hb) h)) h

theorem MemsWf.endTag {b} (h : MemsWf s) : MemsWf (s.endTag b) := by
  unfold State.endTag
  dsimp only
  split
  · exact h
  · exact .onBay (fun _ hb => hb) h

theorem MemsWf.endBanks {b} (h : MemsWf s) : MemsWf (s.endBanks b) :=
  .onBay (fun _ hb => .makeBankWrites hb) (.dropLostUnits h)

theorem PartWf.advance (hp : PartWf p) : PartWf p.advance := .ite hp hp

theorem MemsWf.turnBay {q b} (h : MemsWf s) : MemsWf (s.turnBay q b) := by
  have h1 {f} (hf : ∀ x, BayWf x → BayWf (f x)) :
      MemsWf ((s.onPart q (fun p => (s.bay b).window.samples.foldl Part.commitSample p)).onBay b f) :=
    .onBay hf (.onPart (fun _ hp => List.foldlRecOn _ _ hp (fun _ hp _ _ => .commitSample hp)) h)
  exact .ite (.ite (.onScarf (h1 fun _ hb => .withWindow (.turnWindow hb))) (h1 fun _ hb => .withWindow
    (.turnWindow hb))) h

theorem MemsWf.endPole {q} (h : MemsWf s) : MemsWf (s.endPole q) :=
  .onPart (fun _ hp => hp) (.foldl (fun _ _ h => .onBay (fun _ hb => hb) (.turnBay h)) (.scarfRelease (.showWrites
    (.foldl (fun _ _ h => .endBanks (.endTag h)) h))))

theorem MemsWf.endHeld {q} (h : MemsWf s) : MemsWf (s.endHeld q) := by
  have h1 {made ticked : List BayId} : MemsWf (ticked.foldl
      (fun acc b => acc.onBay b (fun x => { x with ticks := false }))
      (made.foldl (fun acc b => (((acc.endTag b).endBanks b).turnBay q b).onBay b
        (fun x => { x.endCycle with lead := x.lead + 1 })) s)) :=
    .foldl (fun _ _ h => .onBay (fun _ hb => hb) h)
      (.foldl (fun _ _ h => .onBay (fun _ hb => hb) (.turnBay (.endBanks (.endTag h)))) h)
  exact .ite (.onPart (fun _ hp => hp) h1) h1

theorem MemsWf.endPart {q} (h : MemsWf s) : MemsWf (s.endPart q) :=
  .ite h (.ite (.endHeld h) (.ite (.endPole h) (.foldl (fun _ _ h => .onBay (fun _ hb => hb) h) h)))

theorem MemsWf.endCycles (h : MemsWf s) : MemsWf s.endCycles := .foldl (fun _ _ h => .endPart h) h

theorem MemsWf.takeInput {i} (h : MemsWf s) : MemsWf (s.takeInput i) := by
  unfold State.takeInput
  split
  · exact h
  · exact .setHostMem (writeN_wf _ _ _ h.hostMem) h
  · exact .flashPut h
  · exact .log h
  · exact h
  · exact h
  · exact h
  · split
    · exact .setLpddr (set_wf h.lpddr _ (writeAll_wf _ _ (get_wf h.lpddr _))) h
    · exact h
  · exact .ite (.sendParity h) h
  · exact .onPart (fun _ hp => .ite hp hp) h
  · exact h

theorem MemsWf.takeInputs (h : MemsWf s) : MemsWf s.takeInputs := .foldl (fun _ _ h => .takeInput h) h

theorem MemsWf.dropInputs (h : MemsWf s) : MemsWf s.dropInputs := h

theorem MemsWf.resumeSaved (h : MemsWf s) : MemsWf s.resumeSaved :=
  .foldl (fun _ _ h => .nextOr h (.execPreemptionResume h)) h

theorem MemsWf.resumeChecked (h : MemsWf s) : MemsWf s.resumeChecked := .foldl (fun _ _ h => .resumePart h) h

theorem MemsWf.serveNext (h : MemsWf s) : MemsWf s.serveNext := .ite (.nextOr h (.serveMailbox h)) h

theorem PartWf.stallTick {clock} (hp : PartWf p) : PartWf (p.stallTick clock) := .ite (.ite hp hp) hp

theorem PartWf.tick {clock} (hp : PartWf p) : PartWf (p.tick clock) :=
  .stallTick (.ite (.advance (by split <;> exact hp)) (by split <;> exact hp))

theorem MemsWf.tick (h : MemsWf s) : MemsWf s.tick :=
  .mapParts (s := { s with clock := _, ptp := _, ptpSixths := _ }) (fun _ hp => .tick hp) h

theorem MemsWf.linkRecvs (h : MemsWf s) : MemsWf s.linkRecvs := .foldl (fun _ _ h => .linkRecv h) h

theorem MemsWf.enter (h : MemsWf s) : MemsWf s.enter := by
  unfold State.enter
  split
  · exact .endHolds h
  · exact .linkRecvs (.startTicks h)
  · exact .updateScales h
  · exact .prepareIssue h
  · exact .makeAllStarts h
  · exact .allChecks h
  · exact .endCycles (.mapParts (fun _ hp => .markWritten hp) (.makeLater h))
  · exact .takeInputs h
  · exact .departures h
  · exact .allTraffic (.askWaiting h)
  · exact .tick (.stickRaced (.resumeChecked (.resumeSaved (.serveNext h))))
  · exact h

theorem MemsWf.leave (h : MemsWf s) : MemsWf s.leave := by
  unfold State.leave
  split
  · exact .clearReruns h
  · exact .dropFaults h
  · exact .dropInputs h
  · exact h

theorem MemsWf.turn (h : MemsWf s) : MemsWf s.turn := .leave (.enter h)

theorem StepWf.step (h : MemsWf s) : StepWf (Machine.step s) := by
  unfold Machine.step
  split
  · exact .next (.issue h)
  · exact .exec h
  · exact .next (.turn h)

/-- Settles O60: an instruction, a bay's issue and every phase of a clock cycle keep the memories canonical. -/
theorem memoriesKept : Obligations.MemoriesKept := fun _ t h ht => StepWf.step h t ht

end Sys2Proof
end

section
/-!
Every step keeps the clocks in their bounds, and only the last phase moves time on (R21, R22; log 5, log 9).

One frame lemma per operation of the model, named after it, says that the operation leaves the chip's clock, the phase and
the sixths of a nanosecond as they are (clocks); of a meaning of an instruction, that the step it makes leaves them so
(KeepsClocks). The lemmas are a simp set: a proof opens one operation, splits its cases, and cites the lemmas of what
the operation calls. A proof is written (rfl) where the operation is folded over a list: a lemma that holds by rfl alone
is not used under the binder of clocks_foldl.
-/

namespace Sys2Proof
open Machine Laws

variable {s : State}

/-! ## The clocks, and what leaves them -/

/-- The chip's time: clock cycle, phase of the cycle, and sixths of a nanosecond of PTP time. -/
def clocks (s : State) : Nat × Nat × Nat := (s.clock, s.phase, s.ptpSixths)

/-- A step that is made leaves the clocks. A fault or a refusal has no next state. -/
def KeepsClocks (s : State) (r : Step) : Prop := ∀ t, r = .next t → clocks t = clocks s

theorem clocks_eq_iff {t : State} :
    clocks t = clocks s ↔ t.clock = s.clock ∧ t.phase = s.phase ∧ t.ptpSixths = s.ptpSixths := by
  simp [clocks]

/-- Every field but the three may be replaced. -/
@[simp] theorem clocks_with {ptp bays parts phys bents ring lpddr refresh chipmap linkTab links router arrivals scarf yard
    hostMem flash queuePairs dirty rebuild inputs outs todo cur free vclocks touches nextTag later} :
    clocks { s with
      ptp, bays, parts, phys, bents, ring, lpddr, refresh, chipmap, linkTab, links, router, arrivals, scarf, yard, hostMem,
      flash, queuePairs, dirty, rebuild, inputs, outs, todo, cur, free, vclocks, touches, nextTag, later } = clocks s := rfl

@[simp] theorem clocks_ite {c : Prop} [Decidable c] {x y : State} :
    clocks (if c then x else y) = if c then clocks x else clocks y :=
  apply_ite clocks c x y

@[simp] theorem clocks_foldl {α : Type} {f : State → α → State} {l : List α} (hf : ∀ t x, clocks (f t x) = clocks t) :
    clocks (l.foldl f s) = clocks s := by
  induction l generalizing s with
  | nil => rfl
  | cons x l ih => exact ih.trans (hf s x)

theorem KeepsClocks.of_clocks {t : State} {r : Step} (h : KeepsClocks t r) (ht : clocks t = clocks s) :
    KeepsClocks s r :=
  fun u hu => (h u hu).trans ht

@[simp] theorem keepsClocks_next {t : State} : KeepsClocks s (.next t) ↔ clocks t = clocks s := by
  simp [KeepsClocks]

@[simp] theorem keepsClocks_ite {c : Prop} [Decidable c] {x y : Step} :
    KeepsClocks s (if c then x else y) ↔ (c → KeepsClocks s x) ∧ (¬c → KeepsClocks s y) := by
  split <;> simp [*]

/-! ## Bays, partitions, logs, faults and moves -/

@[simp] theorem clocks_setBay {b x} : clocks (s.setBay b x) = clocks s := rfl

@[simp] theorem clocks_onBay {b f} : clocks (s.onBay b f) = clocks s := (rfl)

@[simp] theorem clocks_setPart {p x} : clocks (s.setPart p x) = clocks s := rfl

@[simp] theorem clocks_onPart {p f} : clocks (s.onPart p f) = clocks s := (rfl)

@[simp] theorem clocks_queueBurst {q code place bytes act} :
    clocks (s.queueBurst q code place bytes act) = clocks s := (rfl)

@[simp] theorem clocks_writePlace {pl data} : clocks (s.writePlace pl data) = clocks s := by
  cases pl <;> rfl

@[simp] theorem clocks_log {e} : clocks (s.log e) = clocks s := rfl

@[simp] theorem clocks_logFault {b action cls code info} : clocks (s.logFault b action cls code info) = clocks s := rfl

@[simp] theorem clocks_retire {b action} : clocks (s.retire b action) = clocks s := rfl

@[simp] theorem clocks_takeTrap {b f repeated cls tbundle} : clocks (s.takeTrap b f repeated cls tbundle) = clocks s := by
  simp [State.takeTrap]

@[simp] theorem clocks_takeFault {b f} : clocks (s.takeFault b f) = clocks s := by
  unfold State.takeFault
  split <;> simp

@[simp] theorem clocks_strayFault {b c info} : clocks (s.strayFault b c info) = clocks s := (rfl)

@[simp] theorem clocks_strayRetry {b c info i} : clocks (s.strayRetry b c info i) = clocks s := rfl

@[simp] theorem clocks_strayLate {b info i} : clocks (s.strayLate b info i) = clocks s := rfl

@[simp] theorem clocks_raise {f} : clocks (s.raise f) = clocks s := by
  unfold State.raise
  split <;> simp

theorem clocks_move {c chk eff} (he : ∀ v t, clocks (eff v t) = clocks t) : clocks (s.move c chk eff) = clocks s := by
  unfold State.move
  dsimp only
  split
  · split
    · simp
    · split <;> simp [he]
  · rfl

@[simp] theorem clocks_onMe {f} : clocks (s.onMe f) = clocks s := rfl

@[simp] theorem clocks_trigger {c id p lat chk f} : clocks (s.trigger c id p lat chk f) = clocks s :=
  clocks_move fun _ _ => rfl

@[simp] theorem clocks_freeWord : clocks s.freeWord.2 = clocks s := rfl

/-! ## Links and messages -/

@[simp] theorem clocks_emit {o} : clocks (s.emit o) = clocks s := rfl

@[simp] theorem clocks_sendFlit {p x} : clocks (s.sendFlit p x) = clocks s := rfl

@[simp] theorem clocks_sendChip {f chip n m} : clocks (s.sendChip f chip n m) = clocks s := by
  unfold State.sendChip
  split
  · exact clocks_foldl fun _ _ => rfl
  · split <;> rfl
  · split <;> rfl

@[simp] theorem clocks_enqueue {p use q ready x} : clocks (s.enqueue p use q ready x) = clocks s := rfl

@[simp] theorem clocks_sendBy {use q ready n f chip m} : clocks (s.sendBy use q ready n f chip m) = clocks s := by
  unfold State.sendBy
  split <;> simp

@[simp] theorem clocks_remoteSend {q ready f chip m} : clocks (s.remoteSend q ready f chip m) = clocks s := by
  simp [State.remoteSend]

@[simp] theorem clocks_flashPut {pair off data} : clocks (s.flashPut pair off data) = clocks s := rfl

theorem clocks_hostPut {conn off data} : ∀ t ∈ s.hostPut conn off data, clocks t = clocks s := by
  simp [State.hostPut]

@[simp] theorem clocks_tier5Send {b id va pl k} : clocks (s.tier5Send b id va pl k) = clocks s := by
  unfold State.tier5Send
  split
  · split <;> simp
  · rfl

/-! ## Accesses by virtual address -/

@[simp] theorem clocks_sampleVa {b held typ va raw} : clocks (s.sampleVa b held typ va raw) = clocks s := by
  unfold State.sampleVa
  dsimp only
  split <;> simp

@[simp] theorem clocks_claim {b cl} : clocks (s.claim b cl) = clocks s := by
  unfold State.claim
  split <;> simp

@[simp] theorem clocks_vaStart {b o size signed va data x cl value g t5} :
    clocks (s.vaStart b o size signed va data x cl value g t5) = clocks s := by
  have hlocal : clocks (s.vaStart b o size signed va data x cl value g none) = clocks s := by
    unfold State.vaStart
    dsimp only
    rw [clocks_onBay]
    split <;> simp
  cases t5 with
  | none => exact hlocal
  | some k => exact clocks_tier5Send.trans hlocal

@[simp] theorem clocks_vaGo {o size signed va data value g t5} :
    clocks (s.vaGo o size signed va data value g t5) = clocks s := by
  unfold State.vaGo
  split <;> simp

/-! ## Loads and stores -/

@[simp] theorem clocks_localStart {kind addr n signed data mask port lat} :
    clocks (s.localStart kind addr n signed data mask port lat) = clocks s := rfl

@[simp] theorem clocks_loadVa {c u consume} : clocks (loadVa c u consume s) = clocks s := by
  unfold loadVa
  exact clocks_move fun _ _ => clocks_vaGo

@[simp] theorem clocks_storeVa {c u produce} : clocks (storeVa c u produce s) = clocks s := by
  unfold storeVa
  exact clocks_move fun _ _ => clocks_vaGo

/-! ## Clocks of parties and races -/

@[simp] theorem clocks_join {y v} : clocks (s.join y v) = clocks s := by simp [State.join]

@[simp] theorem clocks_joinLater {y v} : clocks (s.joinLater y v) = clocks s := (rfl)

@[simp] theorem clocks_makeLater : clocks s.makeLater = clocks s := by simp [State.makeLater]

@[simp] theorem clocks_freshTag : clocks s.freshTag.2 = clocks s := rfl

@[simp] theorem clocks_race {q} : clocks (s.race q) = clocks s := rfl

@[simp] theorem clocks_noteAt {q party tag key n write kind stamp v} :
    clocks (s.noteAt q party tag key n write kind stamp v) = clocks s := by simp [State.noteAt]

@[simp] theorem clocks_noteBy {q party tag pl n write kind stamp v} :
    clocks (s.noteBy q party tag pl n write kind stamp v) = clocks s := by
  unfold State.noteBy
  split <;> simp

@[simp] theorem clocks_note {b pl n write kind stamp seen} : clocks (s.note b pl n write kind stamp seen) = clocks s := by
  unfold State.note
  split <;> simp

@[simp] theorem clocks_stickRaced : clocks s.stickRaced = clocks s := rfl

@[simp] theorem clocks_useStore {b k off n write} : clocks (s.useStore b k off n write) = clocks s := by
  unfold State.useStore
  split <;> simp

@[simp] theorem clocks_dropClocks {q} : clocks (s.dropClocks q) = clocks s := rfl

@[simp] theorem clocks_dropTouches {q} : clocks (s.dropTouches q) = clocks s := rfl

/-! ## Commands of the engines -/

@[simp] theorem clocks_command {c e op mask leaves mk chk eff} :
    clocks (s.command c e op mask leaves mk chk eff) = clocks s :=
  clocks_move fun _ _ => rfl

@[simp] theorem keepsClocks_execPegclrBegin {b} : KeepsClocks s (execPegclrBegin b s) := by
  unfold execPegclrBegin
  split <;> simp

/-! ## Landings and banks -/

@[simp] theorem clocks_land {b k runs scale} : clocks (s.land b k runs scale) = clocks s := by
  unfold State.land
  dsimp only
  split
  · simp
  · split
    · split <;> simp
    · split
      · simp
      · split <;> simp

@[simp] theorem clocks_bankRead {b grp banks} : clocks (s.bankRead b grp banks) = clocks s := by
  unfold State.bankRead
  split <;> simp

theorem clocks_touchHandle {b h} : ∀ t ∈ s.touchHandle b h, clocks t = clocks s := by
  unfold State.touchHandle
  dsimp only
  split
  · simp
  · split <;> simp

@[simp] theorem clocks_writeHandle {b h f} : clocks (s.writeHandle b h f) = clocks s := by
  unfold State.writeHandle
  split
  · simp
  next t ht => exact clocks_touchHandle t ht

/-! ## Atomics, hands and tags -/

@[simp] theorem clocks_atomicVa {c k op} : clocks (atomicVa c k op s) = clocks s := by
  unfold atomicVa
  exact clocks_move fun _ _ => clocks_vaGo

@[simp] theorem clocks_handGo {va w} : clocks (handGo va w s) = clocks s := by
  unfold handGo
  split <;> simp

@[simp] theorem clocks_tagStart {op} : clocks (tagStart op s) = clocks s := rfl

/-! ## Accesses when they perform -/

@[simp] theorem clocks_restoreBays {l} : clocks (s.restoreBays l) = clocks s := by simp [State.restoreBays]

@[simp] theorem clocks_restoreRing {l} : clocks (s.restoreRing l) = clocks s := rfl

theorem clocks_within {q f} (hf : ∀ t, clocks (f t) = clocks t) : clocks (s.within q f) = clocks s := by
  unfold State.within
  dsimp only
  split <;> simp [hf]

@[simp] theorem clocks_applyBytes {e} : clocks (s.applyBytes e) = clocks s := by
  unfold State.applyBytes
  split <;> simp

@[simp] theorem clocks_orderAccess {b va} : clocks (s.orderAccess b va) = clocks s := by
  unfold State.orderAccess
  dsimp only
  split <;> simp

@[simp] theorem clocks_useRegion {q va party stamp seen} : clocks (s.useRegion q va party stamp seen) = clocks s := by
  unfold State.useRegion
  split <;> simp

@[simp] theorem clocks_noteRead {b va pl n} : clocks (s.noteRead b va pl n) = clocks s := by
  unfold State.noteRead
  split <;> simp

@[simp] theorem clocks_markPending {q x} : clocks (s.markPending q x) = clocks s := rfl

@[simp] theorem clocks_markLate {q x} : clocks (s.markLate q x) = clocks s := rfl

@[simp] theorem clocks_markAt {q va} : clocks (s.markAt q va) = clocks s := by
  unfold State.markAt
  split <;> simp

@[simp] theorem clocks_onGate {q va f} : clocks (s.onGate q va f) = clocks s := by
  unfold State.onGate
  split <;> simp

@[simp] theorem clocks_noteGate {q party va} : clocks (s.noteGate q party va) = clocks s := by
  unfold State.noteGate
  split <;> simp

@[simp] theorem clocks_arrive {q party va n cover} : clocks (s.arrive q party va n cover) = clocks s := by
  simp [State.arrive]

@[simp] theorem clocks_arriveAt {q party va n cover} : clocks (s.arriveAt q party va n cover) = clocks s := by
  simp [State.arriveAt]

@[simp] theorem clocks_gateSet {q party va v} : clocks (s.gateSet q party va v) = clocks s := by simp [State.gateSet]

@[simp] theorem clocks_landStore {b off data m} : clocks (s.landStore b off data m) = clocks s := by
  unfold State.landStore
  split <;> simp

@[simp] theorem clocks_lateAccess {b a} : clocks (s.lateAccess b a) = clocks s := by
  unfold State.lateAccess
  split
  · simp
  · split <;> simp

@[simp] theorem clocks_performVaLoad {b a k} : clocks (s.performVaLoad b a k) = clocks s := by
  unfold State.performVaLoad
  split
  · simp
  · split
    · simp
    · split <;> simp

@[simp] theorem clocks_performVaStore {b a k} : clocks (s.performVaStore b a k) = clocks s := by
  unfold State.performVaStore
  split <;> simp

@[simp] theorem clocks_performFetch {b a} : clocks (s.performFetch b a) = clocks s := by
  unfold State.performFetch
  split
  · simp
  · split
    · split <;> simp
    · split <;> simp
    · split <;> simp

/-! ## Vector units -/

@[simp] theorem clocks_vecNarrow {c u w} : clocks (vecNarrow c u w s) = clocks s :=
  clocks_move fun _ _ => rfl

@[simp] theorem clocks_vecLdv {c u w} : clocks (vecLdv c u w s) = clocks s :=
  clocks_move fun _ _ => rfl

@[simp] theorem clocks_vecStv {c u} : clocks (vecStv c u s) = clocks s :=
  clocks_move fun _ _ => rfl

/-! ## Vector functions -/

@[simp] theorem clocks_optOp {c k} : clocks (optOp c k s) = clocks s :=
  clocks_move fun _ _ => rfl

/-! ## Vector reductions -/

@[simp] theorem clocks_redOp {c k mode w} : clocks (redOp c k mode w s) = clocks s := by
  unfold redOp
  exact clocks_move fun _ _ => clocks_onMe

/-! ## Results and accesses -/

@[simp] theorem keepsClocks_execResultReady {b p} : KeepsClocks s (execResultReady b p s) := by
  unfold execResultReady
  dsimp only
  split <;> simp

@[simp] theorem clocks_performAccess {b a} : clocks (s.performAccess b a) = clocks s := by
  unfold State.performAccess
  split <;> simp

@[simp] theorem keepsClocks_execAccessPerform {b id} : KeepsClocks s (execAccessPerform b id s) := by
  unfold execAccessPerform
  split <;> simp

/-! ## Transfers and collectives -/

@[simp] theorem clocks_sendLine {b r} : clocks (s.sendLine b r) = clocks s := by simp [State.sendLine]

@[simp] theorem keepsClocks_execSendBegin {b} : KeepsClocks s (execSendBegin b s) := by
  unfold execSendBegin
  dsimp only
  split
  · simp
  · split
    · simp
    · split <;> simp

@[simp] theorem keepsClocks_execRecvBegin {b} : KeepsClocks s (execRecvBegin b s) := by
  unfold execRecvBegin
  split
  · simp
  · split <;> simp

@[simp] theorem clocks_linkRecv {b} : clocks (s.linkRecv b) = clocks s := by
  unfold State.linkRecv
  split
  · rfl
  · split
    · rfl
    · split <;> simp

@[simp] theorem keepsClocks_execRecvLineLanding {b} : KeepsClocks s (execRecvLineLanding b s) := by
  unfold execRecvLineLanding
  dsimp only
  split
  · simp
  · split
    · split
      · split <;> simp
      · split <;> simp
    · split <;> simp

@[simp] theorem keepsClocks_execCollBegin {b} : KeepsClocks s (execCollBegin b s) := by
  unfold execCollBegin
  dsimp only
  split
  · simp
  · split
    · simp
    · split
      · simp
      · split <;> simp

/-! ## Control flow -/

@[simp] theorem clocks_goto {addr} : clocks (s.goto addr) = clocks s := rfl

@[simp] theorem clocks_linkNext : clocks s.linkNext = clocks s := rfl

@[simp] theorem keepsClocks_execJigStart {b} : KeepsClocks s (execJigStart b s) := by
  unfold execJigStart
  dsimp only
  split <;> simp

@[simp] theorem keepsClocks_execJigEnd {b j} : KeepsClocks s (execJigEnd b j s) := by
  unfold execJigEnd
  split <;> simp

/-! ## Gates and queues -/

@[simp] theorem clocks_gateBegin {b c} : clocks (s.gateBegin b c) = clocks s := by simp [State.gateBegin]

@[simp] theorem clocks_qputBegin {b c} : clocks (s.qputBegin b c) = clocks s := by
  unfold State.qputBegin
  dsimp only
  split
  · simp
  · split
    · simp
    · exact clocks_tier5Send.trans (clocks_onBay.trans clocks_useStore)

@[simp] theorem keepsClocks_execGateBegin {b} : KeepsClocks s (execGateBegin b s) := by
  unfold execGateBegin
  split
  · simp
  · split <;> simp

@[simp] theorem keepsClocks_execGatePerform {b id} : KeepsClocks s (execGatePerform b id s) := by
  unfold execGatePerform
  split <;> simp

@[simp] theorem clocks_claimSlot {pl} : clocks (s.claimSlot pl).2 = clocks s := by
  unfold State.claimSlot
  dsimp only
  split <;> simp

@[simp] theorem keepsClocks_execQputClaim {b id} : KeepsClocks s (execQputClaim b id s) := by
  unfold execQputClaim
  dsimp only
  split
  · simp
  · split
    · simp
    · split
      · simp
      · split
        · simp
        · split <;> simp
        · split <;> simp

@[simp] theorem clocks_qputPacket {b g w} : clocks (s.qputPacket b g w) = clocks s := by
  unfold State.qputPacket
  dsimp only
  split <;> simp

@[simp] theorem keepsClocks_execQputLanding {b id} : KeepsClocks s (execQputLanding b id s) := by
  unfold execQputLanding
  split
  · simp
  · split
    · simp
    · split
      · simp
      · split
        · simp
        · split <;> simp

/-! ## Slips -/

@[simp] theorem clocks_putVa {q va data} : clocks (s.putVa q va data) = clocks s := by
  unfold State.putVa
  split <;> simp

@[simp] theorem clocks_putBy {q party tag va data} : clocks (s.putBy q party tag va data) = clocks s := by
  unfold State.putBy
  split <;> simp

@[simp] theorem clocks_queueBytes {q va data} : clocks (s.queueBytes q va data) = clocks s := by
  unfold State.queueBytes
  split <;> simp

@[simp] theorem clocks_putSlip {q r} : clocks (s.putSlip q r) = clocks s := by simp [State.putSlip]

@[simp] theorem clocks_putSlips {q l} : clocks (s.putSlips q l) = clocks s := by simp [State.putSlips]

@[simp] theorem clocks_endStop {q} : clocks (s.endStop q) = clocks s := rfl

@[simp] theorem clocks_sendAll {q f m} : clocks (s.sendAll q f m) = clocks s := by simp [State.sendAll]

@[simp] theorem clocks_frameSpawn {b frame index args} : clocks (s.frameSpawn b frame index args) = clocks s := rfl

/-! ## The system unit -/

@[simp] theorem keepsClocks_execWheel {c} : KeepsClocks s (execWheel c s) := by
  refine keepsClocks_next.mpr (clocks_move fun v t => ?_)
  dsimp only
  split <;> simp

@[simp] theorem clocks_orderGang {l} : clocks (s.orderGang l) = clocks s := by simp [State.orderGang]

@[simp] theorem clocks_stopPart {b} : clocks (s.stopPart b) = clocks s := by
  unfold State.stopPart
  split <;> simp

@[simp] theorem keepsClocks_execTtclr {c} : KeepsClocks s (execTtclr c s) := by
  refine keepsClocks_next.mpr (clocks_move fun v t => ?_)
  split <;> rfl

/-! ## The walkers -/

@[simp] theorem clocks_dropUnit {b k c id} : clocks (s.dropUnit b k c id) = clocks s := rfl

@[simp] theorem clocks_unitTrigger {b k w} : clocks (s.unitTrigger b k w) = clocks s := by simp [State.unitTrigger]

@[simp] theorem clocks_makeStart {b x} : clocks (s.makeStart b x) = clocks s := by
  unfold State.makeStart
  dsimp only
  split
  · rfl
  · split
    · rfl
    · split
      · simp
      · split <;> simp

@[simp] theorem clocks_makeStarts {b} : clocks (s.makeStarts b) = clocks s := by simp [State.makeStarts]

theorem clocks_unitLocalRead {b c u} : Yields (fun x => clocks x.1 = clocks s) (s.unitLocalRead b c u) :=
  .ite (.ok rfl) (.ite .error (.ite (.ok clocks_useStore) (.ok (by simp))))

theorem clocks_unitVaRead {b c r u} : Yields (fun x => clocks x.1 = clocks s) (s.unitVaRead b c r u) := by
  refine .ite (.ok rfl) ?_
  split
  · exact .error
  · split
    · exact .ite (.ok rfl) .error
    · exact .ok (by simp)
    · exact .ok (by simp)

@[simp] theorem clocks_lateUnit {b k c r u} : clocks (s.lateUnit b k c r u) = clocks s := by
  unfold State.lateUnit
  dsimp only
  split <;> simp

@[simp] theorem clocks_unitRead {b k w r} : clocks (s.unitRead b k w r) = clocks s := by
  unfold State.unitRead
  dsimp only
  split
  · simp
  next ht =>
    rw [clocks_onBay]
    split at ht
    · exact clocks_unitLocalRead _ ht
    · exact clocks_unitVaRead _ ht

@[simp] theorem clocks_dropLostUnits {b} : clocks (s.dropLostUnits b) = clocks s := by simp [State.dropLostUnits]

@[simp] theorem clocks_walkReads {b k w} : clocks (s.walkReads b k w) = clocks s := by simp [State.walkReads]

@[simp] theorem keepsClocks_execWalkUnitRead {b k} : KeepsClocks s (execWalkUnitRead b k s) := by
  simp [execWalkUnitRead]

@[simp] theorem clocks_unitLandLocal {b t c u data} : clocks (s.unitLandLocal b t c u data) = clocks s := by
  simp [State.unitLandLocal]

@[simp] theorem clocks_unitLandVa {b c r u tag} : clocks (s.unitLandVa b c r u tag) = clocks s := by
  unfold State.unitLandVa
  dsimp only
  split
  · rfl
  · split <;> simp

@[simp] theorem clocks_unitLand {b k w r} : clocks (s.unitLand b k w r) = clocks s := by
  have hg : clocks (if w.cmd.gva = 0#72 then (0, s) else s.freshTag).2 = clocks s := by split <;> simp
  unfold State.unitLand
  dsimp only
  split
  · simp
  · rw [clocks_dropUnit]
    split <;> simp [hg]

@[simp] theorem keepsClocks_execWalkUnitLanding {b k} : KeepsClocks s (execWalkUnitLanding b k s) := by
  simp [execWalkUnitLanding]

theorem clocks_asyncWrite {q b x va off data tag seen} :
    ∀ t ∈ s.asyncWrite q b x va off data tag seen, clocks t = clocks s := by
  unfold State.asyncWrite
  split
  · split <;> simp
  · simpa using clocks_hostPut
  · simp
  · simp

theorem clocks_asyncLocal {q b x c u data tag seen} :
    ∀ t ∈ s.asyncLocal q b x c u data tag seen, clocks t = clocks s := by
  unfold State.asyncLocal
  dsimp only
  split
  · simp
  · split <;> simp

theorem clocks_asyncDest {q b c u data tag seen} : ∀ t ∈ s.asyncDest q b c u data tag seen, clocks t = clocks s := by
  have hs : ∀ t ∈ some s, clocks t = clocks s := by simp
  unfold State.asyncDest
  split
  · exact hs
  · split
    · refine List.foldlRecOn (motive := fun o : Option State => ∀ t ∈ o, clocks t = clocks s) _ _ hs fun o ho _ _ => ?_
      split
      next x => exact fun t ht => (clocks_asyncLocal t ht).trans (ho x rfl)
      · simp
    · refine List.foldlRecOn (motive := fun o : Option State => ∀ t ∈ o, clocks t = clocks s) _ _ hs fun o ho _ _ => ?_
      split
      next y _ _ =>
        split
        · exact ho
        · exact fun t ht => (clocks_asyncWrite t ht).trans (ho y rfl)
      · simp

@[simp] theorem clocks_noteSource {q b c u tag seen} : clocks (s.noteSource q b c u tag seen) = clocks s := by
  unfold State.noteSource
  split
  · simp
  · exact clocks_foldl fun _ _ => by split <;> simp

@[simp] theorem clocks_askFlash {q id n} : clocks (s.askFlash q id n) = clocks s := by
  induction n generalizing s with
  | zero => rfl
  | succ n ih =>
    unfold State.askFlash
    dsimp only
    split
    · rfl
    · split
      · rfl
      · split <;> simp [ih]

@[simp] theorem clocks_askAll : clocks s.askAll = clocks s := by simp [State.askAll]

@[simp] theorem clocks_writeBlock {q w pair off} : clocks (s.writeBlock q w pair off) = clocks s := by
  simp [State.writeBlock]

@[simp] theorem clocks_landMoved {q w} : clocks (s.landMoved q w) = clocks s := by
  refine clocks_foldl fun t x => ?_
  dsimp only
  split
  next u hu => simp [clocks_asyncDest u hu]
  · simp

@[simp] theorem clocks_writeFlash {q id n} : clocks (s.writeFlash q id n) = clocks s := by
  induction n generalizing s with
  | zero => rfl
  | succ n ih =>
    unfold State.writeFlash
    dsimp only
    split
    · rfl
    · split
      · rfl
      · split <;> simp [ih]

@[simp] theorem clocks_asyncNext {q w} : clocks (s.asyncNext q w) = clocks s := by simp [State.asyncNext]

@[simp] theorem clocks_asyncFail {q w i} : clocks (s.asyncFail q w i) = clocks s := by simp [State.asyncFail]

@[simp] theorem clocks_asyncCount {q b c u} : clocks (s.asyncCount q b c u) = clocks s := by
  refine clocks_foldl fun t d => ?_
  split
  · refine clocks_foldl fun _ _ => ?_
    dsimp only
    split <;> simp
  · rfl

@[simp] theorem clocks_asyncLand {q w i came} : clocks (s.asyncLand q w i came) = clocks s := by
  unfold State.asyncLand
  dsimp only
  split
  · simp
  · split
    · simp
    · split
      next u _ hu => simp [clocks_asyncDest u hu]
      · simp

@[simp] theorem clocks_queueAll {q code act l} : clocks (s.queueAll q code act l) = clocks s := by
  induction l generalizing s with
  | nil => rfl
  | cons x l ih =>
    cases l with
    | nil => rfl
    | cons y l => exact ih

@[simp] theorem keepsClocks_execAsyncUnitLanding {q walk i data} :
    KeepsClocks s (execAsyncUnitLanding q walk i data s) := by
  unfold execAsyncUnitLanding
  split
  · simp
  · split
    · simp
    · split <;> simp

@[simp] theorem keepsClocks_execWalkBegin {b k} : KeepsClocks s (execWalkBegin b k s) := by
  unfold execWalkBegin
  dsimp only
  split
  · simp
  · split
    · simp
    · split
      · simp
      · split
        · split <;> simp
        · simp

/-! ## Frames and pages -/

@[simp] theorem clocks_podFrame {q f} : clocks (s.podFrame q f) = clocks s := by
  unfold State.podFrame
  dsimp only
  split <;> simp

@[simp] theorem clocks_rebuildTables {bents} : clocks (s.rebuildTables bents) = clocks s := rfl

@[simp] theorem clocks_stopFor {q rule} : clocks (s.stopFor q rule) = clocks s := rfl

@[simp] theorem clocks_standStill {q} : clocks (s.standStill q) = clocks s := by simp [State.standStill]

@[simp] theorem clocks_halt {q} : clocks (s.halt q) = clocks s := by simp [State.halt]

@[simp] theorem clocks_haltPod : clocks s.haltPod = clocks s := by simp [State.haltPod]

@[simp] theorem clocks_chipLost {chip} : clocks (s.chipLost chip) = clocks s := by simp [State.chipLost]

@[simp] theorem clocks_selfLost {q} : clocks (s.selfLost q) = clocks s := by
  unfold State.selfLost
  split <;> simp

@[simp] theorem clocks_applyRemap {q} : clocks (s.applyRemap q) = clocks s := by simp [State.applyRemap]

@[simp] theorem clocks_copyPage {q c} : clocks (s.copyPage q c) = clocks s := by
  unfold State.copyPage
  dsimp only
  split
  · rfl
  · split
    · split <;> simp
    · simp

@[simp] theorem clocks_copyStep {q f c} : clocks (s.copyStep q f c) = clocks s := by
  unfold State.copyStep
  split <;> simp

@[simp] theorem clocks_pageToHost {q x e h} : clocks (s.pageToHost q x e h) = clocks s := by
  unfold State.pageToHost
  dsimp only
  split
  · split <;> simp
  · rfl
  · rfl

@[simp] theorem clocks_grantHost {q f x} : clocks (s.grantHost q f x) = clocks s := by
  unfold State.grantHost
  dsimp only
  split
  · rfl
  · split
    · simp
    · split
      · simp
      · split <;> simp

@[simp] theorem clocks_movePages {q} : clocks (s.movePages q) = clocks s := by
  refine (clocks_onPart).trans (clocks_foldl fun _ _ => ?_)
  split
  · split <;> simp
  · rfl

@[simp] theorem clocks_homeGrants {q f} : clocks (s.homeGrants q f) = clocks s := by simp [State.homeGrants]

@[simp] theorem clocks_updatePort {q} : clocks (s.updatePort q) = clocks s := rfl

@[simp] theorem clocks_gatedDue {q f} : clocks (s.gatedDue q f) = clocks s := by simp [State.gatedDue]

@[simp] theorem clocks_wheelMove {q f w} : clocks (s.wheelMove q f w) = clocks s := by simp [State.wheelMove]

@[simp] theorem clocks_wheelMoves {q f} : clocks (s.wheelMoves q f) = clocks s := by simp [State.wheelMoves]

@[simp] theorem clocks_putHeader {q va h} : clocks (s.putHeader q va h) = clocks s := by
  unfold State.putHeader
  split <;> simp

@[simp] theorem clocks_queueRead {q va} : clocks (s.queueRead q va) = clocks s := by
  unfold State.queueRead
  split <;> simp

@[simp] theorem clocks_readQueue {q f va n} : clocks (s.readQueue q f va n) = clocks s := by
  induction n generalizing s with
  | zero => rfl
  | succ n ih => simp [State.readQueue, ih]

@[simp] theorem clocks_queueReader {q f} : clocks (s.queueReader q f) = clocks s := by simp [State.queueReader]

@[simp] theorem clocks_comparator {q f} : clocks (s.comparator q f) = clocks s := by simp [State.comparator]

@[simp] theorem clocks_monitors {q} : clocks (s.monitors q) = clocks s := by simp [State.monitors]

@[simp] theorem clocks_beginFrame {q f} : clocks (s.beginFrame q f) = clocks s := by simp [State.beginFrame]

@[simp] theorem clocks_startOrWait {q f} : clocks (s.startOrWait q f) = clocks s := by simp [State.startOrWait]

@[simp] theorem keepsClocks_execFrameStart {q} : KeepsClocks s (execFrameStart q s) := by
  unfold execFrameStart
  dsimp only
  split <;> simp

@[simp] theorem keepsClocks_execOffsetReport {chip frame offset} :
    KeepsClocks s (execOffsetReport chip frame offset s) := by simp [execOffsetReport]

@[simp] theorem clocks_allLost {chip} : clocks (s.allLost chip) = clocks s := by
  refine (clocks_foldl fun _ _ => ?_).trans clocks_chipLost
  split <;> simp

@[simp] theorem keepsClocks_execUnresponsive {chip} : KeepsClocks s (execUnresponsive chip s) := by
  simp [execUnresponsive]

@[simp] theorem clocks_nominalReport {q} : clocks (s.nominalReport q) = clocks s := by
  unfold State.nominalReport
  dsimp only
  split <;> simp

@[simp] theorem keepsClocks_execNominalFrameStart : KeepsClocks s (execNominalFrameStart s) := by
  simp [execNominalFrameStart]

@[simp] theorem clocks_tickAt {q b r} : clocks (s.tickAt q b r) = clocks s := by simp [State.tickAt]

@[simp] theorem clocks_rearm {q b idx} : clocks (s.rearm q b idx) = clocks s := by
  unfold State.rearm
  split <;> simp

@[simp] theorem keepsClocks_execStoryRelease {b k idx} : KeepsClocks s (execStoryRelease b k idx s) := by
  unfold execStoryRelease
  split
  · simp
  · split <;> simp

@[simp] theorem clocks_overrunBySpawn {q b} : clocks (s.overrunBySpawn q b) = clocks s := by simp [State.overrunBySpawn]

@[simp] theorem keepsClocks_execTaskStart {b} : KeepsClocks s (execTaskStart b s) := by
  unfold execTaskStart
  dsimp only
  split
  · simp
  · split
    · simp
    · split
      · simp
      · split
        · split <;> simp
        · simp

@[simp] theorem clocks_completeGate {q gate} : clocks (s.completeGate q gate) = clocks s := by
  unfold State.completeGate
  split <;> simp

@[simp] theorem keepsClocks_execGateCompletion {q gate} : KeepsClocks s (execGateCompletion q gate s) := by
  simp [execGateCompletion, clocks_within]

@[simp] theorem keepsClocks_execRetiredBayIdle {b} : KeepsClocks s (execRetiredBayIdle b s) := by
  simp [execRetiredBayIdle]

@[simp] theorem clocks_refreshNow {ch} : clocks (s.refreshNow ch) = clocks s := rfl

@[simp] theorem keepsClocks_execRefreshCommand {ch} : KeepsClocks s (execRefreshCommand ch s) := by
  unfold execRefreshCommand
  split <;> simp

@[simp] theorem keepsClocks_execHoldRefresh {ch} : KeepsClocks s (execHoldRefresh ch s) := by
  unfold execHoldRefresh
  split <;> simp

@[simp] theorem clocks_sendCopy {q c n} : clocks (s.sendCopy q c n) = clocks s := rfl

@[simp] theorem clocks_endCopy {q x} : clocks (s.endCopy q x) = clocks s := by
  unfold State.endCopy
  split <;> simp

@[simp] theorem keepsClocks_execMigrationCopy {q x} : KeepsClocks s (execMigrationCopy q x s) := by
  unfold execMigrationCopy
  dsimp only
  split
  · simp
  · split
    · split <;> simp
    · simp
  · simp

/-! ## The scarf engine -/

@[simp] theorem clocks_onScarf {q f} : clocks (s.onScarf q f) = clocks s := rfl

@[simp] theorem clocks_scarfProgress {q result} : clocks (s.scarfProgress q result) = clocks s := by
  unfold State.scarfProgress
  dsimp only
  split
  · rfl
  · split <;> simp

@[simp] theorem clocks_scarfRelease {q t} : clocks (s.scarfRelease q t) = clocks s := by
  unfold State.scarfRelease
  dsimp only
  split <;> simp

@[simp] theorem clocks_scarfLeave {q} : clocks (s.scarfLeave q) = clocks s := by
  unfold State.scarfLeave
  dsimp only
  split <;> simp

@[simp] theorem clocks_scarfStop {q code} : clocks (s.scarfStop q code) = clocks s := by simp [State.scarfStop]

@[simp] theorem clocks_scarfDone {q} : clocks (s.scarfDone q) = clocks s := by simp [State.scarfDone]

@[simp] theorem clocks_scarfNote {q b va n} : clocks (s.scarfNote q b va n) = clocks s := by
  refine clocks_foldl fun _ _ => ?_
  split <;> simp

@[simp] theorem keepsClocks_execReshardBegin {q} : KeepsClocks s (execReshardBegin q s) := by
  unfold execReshardBegin
  split <;> simp

@[simp] theorem clocks_scarfGathered {q} : clocks (s.scarfGathered q) = clocks s := by simp [State.scarfGathered]

@[simp] theorem keepsClocks_execReshardCheckEnd {q} : KeepsClocks s (execReshardCheckEnd q s) := by
  unfold execReshardCheckEnd
  dsimp only
  split
  · refine keepsClocks_ite.mpr ⟨fun _ => keepsClocks_next.mpr rfl, fun _ => keepsClocks_ite.mpr
      ⟨fun _ => keepsClocks_next.mpr clocks_scarfStop, fun _ => ?_⟩⟩
    split
    · exact keepsClocks_next.mpr clocks_scarfStop
    · exact keepsClocks_next.mpr (clocks_scarfGathered.trans
        (clocks_onScarf.trans (clocks_foldl fun _ _ => clocks_scarfNote)))
  · exact keepsClocks_next.mpr rfl

@[simp] theorem clocks_scarfFly {q t due} : clocks (s.scarfFly q t due) = clocks s := rfl

@[simp] theorem keepsClocks_execScarfRequest {q} : KeepsClocks s (execScarfRequest q s) := by
  unfold execScarfRequest
  dsimp only
  split
  · simp
  · split
    · simp
    · split
      · split <;> simp
      · split <;> simp

theorem clocks_scarfPiece {q b va data} : Yields (fun t => clocks t = clocks s) (s.scarfPiece q b va data) := by
  unfold State.scarfPiece
  dsimp only
  split
  · exact .error
  · exact .ite .error (.ok (by simp))

@[simp] theorem clocks_scarfLanded {q b k} : clocks (s.scarfLanded q b k) = clocks s := rfl

theorem clocks_scarfPieces {q b l} : Yields (fun t => clocks t = clocks s) (s.scarfPieces q b l) := by
  induction l generalizing s with
  | nil => exact .ok rfl
  | cons x l ih =>
    unfold State.scarfPieces
    split
    · exact .error
    next hu => exact fun t ht => (ih t ht).trans (clocks_scarfPiece _ hu)

@[simp] theorem clocks_scarfLand {q t data} : clocks (s.scarfLand q t data) = clocks s := by
  unfold State.scarfLand
  dsimp only
  generalize (if lyMerge (s.scarfOf q).record then _ else _ : List (Addr × List Byte)) = pieces
  split
  · simp
  · split
    · simp
    next hu => simp [clocks_scarfPieces _ hu]

@[simp] theorem clocks_flightLand {q f} : clocks (s.flightLand q f) = clocks s := by
  unfold State.flightLand
  dsimp only
  split
  · rfl
  · split <;> simp

@[simp] theorem keepsClocks_execScarfLanding {q} : KeepsClocks s (execScarfLanding q s) := by
  simp [execScarfLanding]

@[simp] theorem keepsClocks_execTimeout {q} : KeepsClocks s (execTimeout q s) := by simp [execTimeout]

@[simp] theorem keepsClocks_execScarfErrorFlit {q code} : KeepsClocks s (execScarfErrorFlit q code s) := by
  simp [execScarfErrorFlit]

@[simp] theorem clocks_serveScarf {r} : clocks (s.serveScarf r) = clocks s := by
  unfold State.serveScarf
  split <;> simp

@[simp] theorem keepsClocks_execSourceRead {r} : KeepsClocks s (execSourceRead r s) := by
  unfold execSourceRead
  dsimp only
  split <;> simp

@[simp] theorem clocks_noteStaged {q c es} : clocks (s.noteStaged q c es) = clocks s := by
  unfold State.noteStaged
  split <;> simp

@[simp] theorem clocks_writeRoots {q c k vals sat} : clocks (s.writeRoots q c k vals sat) = clocks s := by
  unfold State.writeRoots
  dsimp only
  split
  · simp
  · split
    · simp
    next hu => simp [clocks_scarfPieces _ hu]

@[simp] theorem clocks_levelSegment {q c k} : clocks (s.levelSegment q c k) = clocks s := by
  unfold State.levelSegment
  dsimp only
  split
  · simp
  · split
    · simp
    next hu => simp [clocks_scarfPieces _ hu]

@[simp] theorem clocks_passEnd {q} : clocks (s.passEnd q) = clocks s := by simp [State.passEnd]

@[simp] theorem clocks_scarfContribute {q} : clocks (s.scarfContribute q) = clocks s := by
  unfold State.scarfContribute
  dsimp only
  split <;> simp

@[simp] theorem clocks_shiftNode {q n} : clocks (s.shiftNode q n) = clocks s := (rfl)

@[simp] theorem clocks_scarfVerdict {q v} : clocks (s.scarfVerdict q v) = clocks s := by simp [State.scarfVerdict]

@[simp] theorem keepsClocks_execMergePass {q} : KeepsClocks s (execMergePass q s) := by simp [execMergePass]

/-! ## Loading a plan -/

@[simp] theorem clocks_respond {n status arg0} : clocks (s.respond n status arg0) = clocks s := by simp [State.respond]

@[simp] theorem clocks_refuse {n status rule} : clocks (s.refuse n status rule) = clocks s := by simp [State.refuse]

@[simp] theorem clocks_askPreempt {l} : clocks (s.askPreempt l) = clocks s := by simp [State.askPreempt]

@[simp] theorem clocks_askWaiting : clocks s.askWaiting = clocks s := rfl

@[simp] theorem clocks_quietBays {bents} : clocks (s.quietBays bents) = clocks s := by simp [State.quietBays]

@[simp] theorem clocks_dropLinks {q} : clocks (s.dropLinks q) = clocks s := rfl

@[simp] theorem clocks_dissolve {q} : clocks (s.dissolve q) = clocks s := by simp [State.dissolve]

theorem clocks_loadChunk {q a data} : ∀ t ∈ s.loadChunk q a data, clocks t = clocks s := by
  unfold State.loadChunk
  split
  · simp
  · dsimp only
    split
    · simp
    · split
      · simp
      · split <;> simp

theorem clocks_loadChunks {q l} : ∀ t ∈ s.loadChunks q l, clocks t = clocks s := by
  induction l generalizing s with
  | nil => simp [State.loadChunks]
  | cons x l ih =>
    unfold State.loadChunks
    split
    · simp
    next hu => exact fun t ht => (ih t ht).trans (clocks_loadChunk _ hu)

theorem clocks_loadData {q img l} : ∀ t ∈ s.loadData q img l, clocks t = clocks s := by
  induction l generalizing s with
  | nil => simp [State.loadData]
  | cons x l ih =>
    unfold State.loadData
    split
    · simp
    · split
      · simp
      next hu => exact fun t ht => (ih t ht).trans (clocks_loadChunks _ hu)

@[simp] theorem clocks_loadCode {img before l} : clocks (s.loadCode img before l) = clocks s := by
  induction l generalizing s before with
  | nil => rfl
  | cons r l ih => exact ih

@[simp] theorem clocks_regroup {q} : clocks (s.regroup q) = clocks s := rfl

theorem clocks_readPlan {q img p} : Yields (fun x => clocks x.1 = clocks s) (s.readPlan q img p) := by
  unfold State.readPlan
  generalize hu : (s.setPart q p).loadData q img ((imgData img).map dataRec) = o
  cases o with
  | none => exact .error
  | some u =>
    have h1 : clocks u = clocks s := clocks_loadData (s := s.setPart q p) u hu
    refine .ite .error (.ite .error (.ite .error (.ite .error (.ite .error ?_))))
    generalize imgFabric img = o
    cases o with
    | none => exact .ok h1
    | some f => exact .ite .error (.ite .error (.ite .error (.ok h1)))

@[simp] theorem clocks_takePlan {q img links} : clocks (s.takePlan q img links) = clocks s := by simp [State.takePlan]

@[simp] theorem clocks_sendTables {q} : clocks (s.sendTables q) = clocks s := by
  unfold State.sendTables
  split <;> simp

@[simp] theorem clocks_sendCheck {q ok} : clocks (s.sendCheck q ok) = clocks s := by
  unfold State.sendCheck
  split <;> simp

theorem clocks_loadPlan {img} : Yields (fun x => clocks x.2 = clocks s) (s.loadPlan img) := by
  unfold State.loadPlan
  dsimp only
  split
  · exact .error
  · refine .ite .error ?_
    split
    · exact .error
    next u l hu =>
      have h1 : clocks u = clocks s := clocks_readPlan _ hu
      exact .ite (.ok (by simp [h1])) (.ite .error (.ok (by simp [h1])))

@[simp] theorem clocks_refusePod {img} : clocks (s.refusePod img) = clocks s := by
  unfold State.refusePod
  split <;> simp

/-! ## Parity units -/

@[simp] theorem clocks_sendUnit {q f chip m} : clocks (s.sendUnit q f chip m) = clocks s := by simp [State.sendUnit]

@[simp] theorem clocks_clearReserve : clocks s.clearReserve = clocks s := rfl

@[simp] theorem clocks_sendParity : clocks s.sendParity = clocks s := by
  unfold State.sendParity
  split <;> simp

@[simp] theorem clocks_sendRebuild {before lost} : clocks (s.sendRebuild before lost) = clocks s := by
  unfold State.sendRebuild
  split <;> simp

@[simp] theorem clocks_takeUnit {parity u cells dirty} : clocks (s.takeUnit parity u cells dirty) = clocks s := by
  unfold State.takeUnit
  split
  · split <;> simp
  · simp

@[simp] theorem clocks_putUnits {f} : clocks (s.putUnits f) = clocks s := rfl

@[simp] theorem clocks_rebuildOwn {f} : clocks (s.rebuildOwn f) = clocks s := rfl

/-! ## Rollback, preemption and recovery -/

@[simp] theorem clocks_beginStall {q b n} : clocks (s.beginStall q b n) = clocks s := rfl

@[simp] theorem clocks_trapAfter {b p repeated cls} : clocks (s.trapAfter b p repeated cls) = clocks s := by
  unfold State.trapAfter
  dsimp only
  split <;> simp

@[simp] theorem clocks_settled {b} : clocks (s.settled b) = clocks s := rfl

@[simp] theorem clocks_escalate {q b p} : clocks (s.escalate q b p) = clocks s := by simp [State.escalate]

@[simp] theorem clocks_askPage {q b p} : clocks (s.askPage q b p) = clocks s := by
  unfold State.askPage
  dsimp only
  split <;> simp

@[simp] theorem clocks_rerun {q b n} : clocks (s.rerun q b n) = clocks s := rfl

@[simp] theorem clocks_softRollback {q b p} : clocks (s.softRollback q b p) = clocks s := by simp [State.softRollback]

@[simp] theorem clocks_onPhys {i f} : clocks (s.onPhys i f) = clocks s := rfl

@[simp] theorem clocks_retireColumn {i c} : clocks (s.retireColumn i c) = clocks s := rfl

@[simp] theorem clocks_restart {q} : clocks (s.restart q) = clocks s := by
  unfold State.restart
  dsimp only
  split
  next ht => simp [clocks_loadPlan _ ht]
  · simp

@[simp] theorem clocks_rollBack {q b} : clocks (s.rollBack q b) = clocks s := rfl

@[simp] theorem clocks_retirePhys {q b code info} : clocks (s.retirePhys q b code info) = clocks s := by
  simp [State.retirePhys]

@[simp] theorem clocks_transient {b code info} : clocks (s.transient b code info) = clocks s := rfl

@[simp] theorem clocks_lostData {q b action code info} : clocks (s.lostData q b action code info) = clocks s := by
  simp [State.lostData]

@[simp] theorem clocks_markChannel {ch} : clocks (s.markChannel ch) = clocks s := rfl

@[simp] theorem clocks_takeColumn {b c} : clocks (s.takeColumn b c).1 = clocks s := by
  simp [State.takeColumn]

@[simp] theorem clocks_endReruns {q b h n l} : clocks (s.endReruns q b h n l) = clocks s := by
  induction l generalizing s n with
  | nil => simp [State.endReruns]
  | cons r l ih =>
    unfold State.endReruns
    dsimp only
    split <;> simp [ih]

@[simp] theorem clocks_hardRollback {q b h} : clocks (s.hardRollback q b h) = clocks s := by
  have ht : clocks (if h.cause = .residue then s.takeColumn b (bits h.info 0 8) else (s, false)).1 = clocks s := by
    split <;> simp
  simp [State.hardRollback, ht]

@[simp] theorem keepsClocks_execRollback {b hw} : KeepsClocks s (execRollback b hw s) := by
  unfold execRollback
  split
  · simp
  · split
    · simp
    · split
      · simp
      next p _ => cases p.hw <;> simp

@[simp] theorem clocks_placePage {q e page} : clocks (s.placePage q e page) = clocks s := by
  unfold State.placePage
  dsimp only
  split
  · split <;> simp
  · simp
  · simp
  · simp
  · split <;> simp

@[simp] theorem clocks_bringPage {q x e cells} : clocks (s.bringPage q x e cells) = clocks s := by
  simp [State.bringPage]

@[simp] theorem keepsClocks_execPageBring {q x page} : KeepsClocks s (execPageBring q x page s) := by
  unfold execPageBring
  dsimp only
  split
  · simp
  · simp
  · split <;> simp

@[simp] theorem clocks_keepPart {q} : clocks (s.keepPart q) = clocks s := rfl

@[simp] theorem clocks_keepCheckpoint {q} : clocks (s.keepCheckpoint q) = clocks s := rfl

@[simp] theorem keepsClocks_execPreemption {q} : KeepsClocks s (execPreemption q s) := by simp [execPreemption]

@[simp] theorem keepsClocks_execPreemptionResume {q} : KeepsClocks s (execPreemptionResume q s) := by
  simp [execPreemptionResume]

@[simp] theorem clocks_checkpointPart {q} : clocks (s.checkpointPart q) = clocks s := by simp [State.checkpointPart]

@[simp] theorem keepsClocks_execCheckpoint : KeepsClocks s (execCheckpoint s) := by simp [execCheckpoint]

@[simp] theorem clocks_resumePart {q} : clocks (s.resumePart q) = clocks s := by simp [State.resumePart]

@[simp] theorem keepsClocks_execCheckpointResume : KeepsClocks s (execCheckpointResume s) := by
  simp [execCheckpointResume]

@[simp] theorem clocks_remapChip {f lost taker} : clocks (s.remapChip f lost taker) = clocks s := rfl

@[simp] theorem clocks_fromCheckpoint {q c} : clocks (s.fromCheckpoint q c) = clocks s := by simp [State.fromCheckpoint]

@[simp] theorem clocks_savedFromCheckpoint {q c} : clocks (s.savedFromCheckpoint q c) = clocks s := rfl

@[simp] theorem clocks_recoverPart {q r} : clocks (s.recoverPart q r) = clocks s := by
  unfold State.recoverPart
  dsimp only
  split
  · rfl
  · split
    · rfl
    · simp
    · rfl
    · split
      · simp
      · split
        · simp
        · split <;> simp

@[simp] theorem keepsClocks_execPodRecovery {r} : KeepsClocks s (execPodRecovery r s) := by
  unfold execPodRecovery
  split
  · simp
  · split
    · split <;> simp
    · simp

/-! ## The fabric -/

@[simp] theorem clocks_onRouter {slot f} : clocks (s.onRouter slot f) = clocks s := rfl

@[simp] theorem clocks_enqueueValue {port dest v} : clocks (s.enqueueValue port dest v) = clocks s := by
  unfold State.enqueueValue
  split <;> simp

@[simp] theorem clocks_routeValue {q d n v} : clocks (s.routeValue q d n v) = clocks s := by
  induction n generalizing s v with
  | zero => rfl
  | succ n ih =>
    unfold State.routeValue
    split
    · rfl
    · dsimp only
      split <;> simp [ih]

@[simp] theorem clocks_takeValue {dest m} : clocks (s.takeValue dest m) = clocks s := by
  unfold State.takeValue
  split <;> simp

@[simp] theorem keepsClocks_execRouterArrival {m} : KeepsClocks s (execRouterArrival m s) := by
  unfold execRouterArrival
  split <;> simp

@[simp] theorem keepsClocks_execRoundDecision {q slot} : KeepsClocks s (execRoundDecision q slot s) := by
  unfold execRoundDecision
  dsimp only
  split <;> simp

@[simp] theorem clocks_commitRun {q b r} : clocks (s.commitRun q b r) = clocks s := by
  unfold State.commitRun
  dsimp only
  split
  · split <;> simp
  · split <;> simp

@[simp] theorem clocks_collOver {q v b r} : clocks (s.collOver q v b r) = clocks s := by simp [State.collOver]

@[simp] theorem clocks_orderRound {q d v} : clocks (s.orderRound q d v) = clocks s := by simp [State.orderRound]

@[simp] theorem keepsClocks_execRoundDelivery {q slot} : KeepsClocks s (execRoundDelivery q slot s) := by
  unfold execRoundDelivery
  dsimp only
  split
  · simp
  · split
    · simp
    · split <;> simp

@[simp] theorem clocks_markFrame {q t frame} : clocks (s.markFrame q t frame) = clocks s := rfl

@[simp] theorem clocks_takeAnswer {bay id data} : clocks (s.takeAnswer bay id data) = clocks s := by
  simp [State.takeAnswer]

@[simp] theorem clocks_serveTier5 {q r} : clocks (s.serveTier5 q r).1 = clocks s := by
  unfold State.serveTier5
  dsimp only
  split <;> simp

@[simp] theorem clocks_noteHome {q r} : clocks (s.noteHome q r) = clocks s := by
  unfold State.noteHome
  split
  · split <;> simp
  · split <;> simp

@[simp] theorem keepsClocks_execTier5Request {r} : KeepsClocks s (execTier5Request r s) := by
  unfold execTier5Request
  split <;> simp

@[simp] theorem clocks_answerPod {q ok} : clocks (s.answerPod q ok) = clocks s := by
  unfold State.answerPod
  dsimp only
  split <;> simp

@[simp] theorem clocks_checksDone {q} : clocks (s.checksDone q) = clocks s := by simp [State.checksDone]

@[simp] theorem clocks_hearTables {q chip t} : clocks (s.hearTables q chip t) = clocks s := by simp [State.hearTables]

@[simp] theorem clocks_hearCheck {q chip ok} : clocks (s.hearCheck q chip ok) = clocks s := by simp [State.hearCheck]

@[simp] theorem keepsClocks_execPodWideChecks {chip tables} :
    KeepsClocks s (execPodWideChecks chip tables s) := by simp [execPodWideChecks]

@[simp] theorem clocks_scarfAnswer {q run index data} : clocks (s.scarfAnswer q run index data) = clocks s := rfl

@[simp] theorem clocks_sendPtp {port x o} : clocks (s.sendPtp port x o) = clocks s := by
  unfold State.sendPtp
  split <;> simp

@[simp] theorem keepsClocks_execPtpEventMessage {m} : KeepsClocks s (execPtpEventMessage m s) := by
  simp [execPtpEventMessage]

@[simp] theorem clocks_takeVerdict {v} : clocks (s.takeVerdict v) = clocks s := rfl

@[simp] theorem keepsClocks_receive {port m} : KeepsClocks s (s.receive port m) := by
  unfold State.receive
  split <;> simp

@[simp] theorem keepsClocks_accept {port dest m} : KeepsClocks s (s.accept port dest m) := by
  unfold State.accept
  split <;> simp

@[simp] theorem clocks_forward {x} : clocks (s.forward x) = clocks s := by
  unfold State.forward
  split
  · split
    · split <;> simp
    · simp
    · rfl
  · rfl

@[simp] theorem keepsClocks_execLinkFlit {port seq intact dest m} :
    KeepsClocks s (execLinkFlit port seq intact dest m s) := by
  have ha {l} : KeepsClocks s (State.accept { s with links := l } port dest m.msg) := keepsClocks_accept.of_clocks rfl
  unfold execLinkFlit
  simp [ha]

@[simp] theorem keepsClocks_execReplay {port next} : KeepsClocks s (execReplay port next s) :=
  keepsClocks_next.mpr (clocks_foldl fun _ _ => rfl)

@[simp] theorem clocks_depart {port x} : clocks (s.depart port x).1 = clocks s := by
  unfold State.depart
  split
  · rfl
  · dsimp only
    split <;> rfl
  all_goals rfl

@[simp] theorem clocks_takeFlit {port may} : clocks (s.takeFlit port may) = clocks s := by
  unfold State.takeFlit
  dsimp only
  split <;> simp

@[simp] theorem clocks_portFlits {q port} : clocks (s.portFlits q port) = clocks s := by
  refine clocks_foldl fun _ _ => ?_
  split <;> simp

@[simp] theorem clocks_departures : clocks s.departures = clocks s := by simp [State.departures]

/-! ## The matrix unit -/

@[simp] theorem clocks_readItems {b c isB base sc} : clocks (s.readItems b c isB base sc).1 = clocks s :=
  List.foldlRecOn (motive := fun a : State × Items => clocks a.1 = clocks s) _ _ rfl fun _ h _ _ => by simpa using h

@[simp] theorem clocks_useScales {b c r} : clocks (s.useScales b c r) = clocks s := by simp [State.useScales]

@[simp] theorem clocks_nestCycle {b r} : clocks (s.nestCycle b r) = clocks s := by simp [State.nestCycle]

@[simp] theorem keepsClocks_execMxgoBegin {b} : KeepsClocks s (execMxgoBegin b s) := by
  unfold execMxgoBegin
  split
  · simp
  · split <;> simp

@[simp] theorem clocks_addMx {b st} : clocks (s.addMx b st) = clocks s := by
  unfold State.addMx
  split <;> simp

@[simp] theorem keepsClocks_execMxAddition {b} : KeepsClocks s (execMxAddition b s) := by simp [execMxAddition]

@[simp] theorem keepsClocks_execMxgoComplete {b} : KeepsClocks s (execMxgoComplete b s) := by
  simp [execMxgoComplete]

@[simp] theorem keepsClocks_execMxdrainBegin {b} : KeepsClocks s (execMxdrainBegin b s) := by
  unfold execMxdrainBegin
  split <;> simp

@[simp] theorem keepsClocks_execDrainRowLanding {b} : KeepsClocks s (execDrainRowLanding b s) := by
  refine keepsClocks_next.mpr (clocks_foldl fun t d => ?_)
  dsimp only
  rw [clocks_ite, clocks_writeHandle, ite_self]
  split <;> simp

@[simp] theorem keepsClocks_execMxdrainComplete {b} : KeepsClocks s (execMxdrainComplete b s) := by
  simp [execMxdrainComplete]

@[simp] theorem keepsClocks_execMxclrBegin {b} : KeepsClocks s (execMxclrBegin b s) := by
  unfold execMxclrBegin
  split <;> simp

/-! ## Shape writes -/

@[simp] theorem clocks_shapeWrite {c unit} : clocks (shapeWrite c unit s) = clocks s :=
  clocks_move fun _ _ => rfl

/-! ## The yard and the host -/

@[simp] theorem clocks_tryBoot : clocks s.tryBoot = clocks s := by simp [State.tryBoot]

@[simp] theorem keepsClocks_execBoot : KeepsClocks s (execBoot s) := by simp [execBoot]

@[simp] theorem keepsClocks_execBootRetry : KeepsClocks s (execBootRetry s) := by
  unfold execBootRetry
  split <;> simp

@[simp] theorem keepsClocks_execRoceConnect : KeepsClocks s (execRoceConnect s) := by
  unfold execRoceConnect
  split <;> simp

@[simp] theorem keepsClocks_execConnectionClose {conn} : KeepsClocks s (execConnectionClose conn s) := by
  simp [execConnectionClose]

@[simp] theorem clocks_rdmaRefused : clocks s.rdmaRefused = clocks s := rfl

@[simp] theorem clocks_writeVaBy {q party tag va data} : clocks (s.writeVaBy q party tag va data) = clocks s := by
  simp [State.writeVaBy]

@[simp] theorem clocks_mailboxWrite {conn off data} : clocks (s.mailboxWrite conn off data) = clocks s := by
  simp [State.mailboxWrite]

@[simp] theorem clocks_queueHost {q va n act} : clocks (s.queueHost q va n act) = clocks s := by simp [State.queueHost]

@[simp] theorem keepsClocks_execRdmaWrite {t data} : KeepsClocks s (execRdmaWrite t data s) := by
  unfold execRdmaWrite
  split
  · simp
  · split <;> simp

@[simp] theorem keepsClocks_execRdmaRead {t n} : KeepsClocks s (execRdmaRead t n s) := by
  unfold execRdmaRead
  split
  · simp
  · split <;> simp

@[simp] theorem keepsClocks_execAtomicFetchAndAdd {t v} : KeepsClocks s (execAtomicFetchAndAdd t v s) := by
  unfold execAtomicFetchAndAdd
  split
  · simp
  · split <;> simp

@[simp] theorem keepsClocks_serve {n cmd f} (hf : ∀ r t, clocks (f r t) = clocks t) :
    KeepsClocks s (s.serve n cmd f) := by
  unfold State.serve
  simp [hf]

theorem clocks_answerLoad {n img r} (hr : Yields (fun x => clocks x.2 = clocks s) r) :
    clocks (s.answerLoad n img r) = clocks s := by
  unfold State.answerLoad
  split
  · simp
  next q t => simp [hr (q, t) rfl]

@[simp] theorem clocks_load {n img} : clocks (s.load n img) = clocks s := by
  unfold State.load
  split
  · simp
  · exact clocks_answerLoad clocks_loadPlan
  · simp

@[simp] theorem keepsClocks_execLoad {n} : KeepsClocks s (execLoad n s) := by
  refine keepsClocks_serve fun _ _ => ?_
  split <;> simp

@[simp] theorem keepsClocks_execPlanDispatch : KeepsClocks s (execPlanDispatch s) := by
  unfold execPlanDispatch
  split
  · simp
  · dsimp only
    split
    · split
      next ht => exact keepsClocks_next.mpr (clocks_loadPlan _ ht)
      · simp
    · simp
    · simp

@[simp] theorem keepsClocks_execStop {n} : KeepsClocks s (execStop n s) := by simp [execStop]

@[simp] theorem keepsClocks_execLogread {n} : KeepsClocks s (execLogread n s) := by
  refine keepsClocks_serve fun _ _ => ?_
  dsimp only
  split
  · simp
  next ht => simp [clocks_hostPut _ ht]

@[simp] theorem keepsClocks_execSlotread {n} : KeepsClocks s (execSlotread n s) := by simp [execSlotread]

@[simp] theorem keepsClocks_execPagereq {n} : KeepsClocks s (execPagereq n s) := by
  refine keepsClocks_serve fun _ _ => ?_
  dsimp only
  split
  · simp
  · split <;> simp

@[simp] theorem keepsClocks_execFwstage {n} : KeepsClocks s (execFwstage n s) := by
  refine keepsClocks_serve fun _ _ => ?_
  split <;> simp

@[simp] theorem keepsClocks_execFwswitch {n} : KeepsClocks s (execFwswitch n s) := by simp [execFwswitch]

@[simp] theorem keepsClocks_execFirmwareActivation : KeepsClocks s (execFirmwareActivation s) := by
  unfold execFirmwareActivation
  split <;> simp

@[simp] theorem keepsClocks_execQuote {n} : KeepsClocks s (execQuote n s) := by simp [execQuote]

@[simp] theorem keepsClocks_execMonread {n} : KeepsClocks s (execMonread n s) := by
  refine keepsClocks_serve fun _ _ => ?_
  split <;> simp

@[simp] theorem keepsClocks_execHostreg {n} : KeepsClocks s (execHostreg n s) := by simp [execHostreg]

@[simp] theorem keepsClocks_execCert {n} : KeepsClocks s (execCert n s) := by
  refine keepsClocks_serve fun _ _ => ?_
  split
  · simp
  next ht => simp [clocks_hostPut _ ht]

@[simp] theorem keepsClocks_execBadcmd {n} : KeepsClocks s (execBadcmd n s) := by simp [execBadcmd]

@[simp] theorem keepsClocks_service {n k f} (hf : ∀ u t, clocks (f u t) = clocks t) : KeepsClocks s (s.service n k f) :=
  keepsClocks_serve fun _ _ => hf _ _

@[simp] theorem clocks_onBent {t f} : clocks (s.onBent t f) = clocks s := rfl

@[simp] theorem keepsClocks_execRetireBent {n} : KeepsClocks s (execRetireBent n s) := by simp [execRetireBent]

@[simp] theorem clocks_clearShims {t} : clocks (s.clearShims t) = clocks s := by simp [State.clearShims]

@[simp] theorem keepsClocks_execReadmitBent {n} : KeepsClocks s (execReadmitBent n s) := by
  simp [execReadmitBent]

@[simp] theorem keepsClocks_execReloadPartition {n} : KeepsClocks s (execReloadPartition n s) := by
  refine keepsClocks_service fun _ _ => ?_
  dsimp only
  split
  · split
    · simp [clocks_answerLoad clocks_loadPlan]
    · simp
    · simp
  · simp

@[simp] theorem keepsClocks_execRetireChannel {n} : KeepsClocks s (execRetireChannel n s) := by
  simp [execRetireChannel]

@[simp] theorem keepsClocks_execDegradeLanes {n} : KeepsClocks s (execDegradeLanes n s) := by
  refine keepsClocks_service fun _ _ => ?_
  split <;> simp

@[simp] theorem keepsClocks_execRecalibrateMonitors {n} : KeepsClocks s (execRecalibrateMonitors n s) := by
  simp [execRecalibrateMonitors]

@[simp] theorem keepsClocks_serveMailbox : KeepsClocks s s.serveMailbox := by
  unfold State.serveMailbox
  dsimp only
  split
  on_goal 6 => split
  all_goals simp

/-! ## Every instruction -/

theorem keepsClocks_exec {i} : KeepsClocks s (exec i s) := by
  cases i with
  | vec0Add | vec1Add | vec0Sub | vec1Sub | vec0Adds | vec1Adds | vec0Subs | vec1Subs | vec0And
    | vec1And | vec0Or | vec1Or | vec0Xor | vec1Xor | vec0Andn | vec1Andn | vec0Shl | vec1Shl
    | vec0Shr | vec1Shr | vec0Sar | vec1Sar | vec0Min | vec1Min | vec0Max | vec1Max | vec0Abs
    | vec1Abs | vec0Sel | vec1Sel | vec0Mulw | vec1Mulw | vec0Mulq | vec1Mulq | vec0Macw | vec1Macw
    | vec0Widen | vec1Widen | vec0Bcast | vec1Bcast | vec0Swapp | vec1Swapp | vec0Laneset
    | vec1Laneset | add | sub | adds | subs | and | or | xor | andn | shl | shr | sar | rotl | min | max | minu
    | maxu | abs | clz | cls | popc | ext | ins | sel | cmpeq | cmpne | cmplt | cmple | cmpltu
    | cmpleu | pand | por | pxor | pnot | vec0Cmpeq | vec1Cmpeq | vec0Cmpne | vec1Cmpne | vec0Cmplt
    | vec1Cmplt | vec0Cmple | vec1Cmple | vec0Cmpltu | vec1Cmpltu | vec0Cmpleu | vec1Cmpleu | vec0Pand
    | vec1Pand | vec0Por | vec1Por | vec0Pxor | vec1Pxor | vec0Pnot | vec1Pnot | exp2q | log2q | rcpq
    | rsqq | sinq | cosq | div | divu | rem | divq | sqrtq | perm | lanerot | lut | dec4 | enc4 | mul | mulh
    | mulhu | mulq | tlook | census | rsstat | ttld | vec0Mcount | vec1Mcount | vec0Laneget | vec1Laneget
    | adda | suba | vec0Shrs | vec1Shrs => exact keepsClocks_next.mpr clocks_trigger
  | mxgo | mxclr | mxdrain | wk0Walk | wk0Walkm | wk1Walk | wk1Walkm | gate | qput | send | recv | cred
    | cbcast | commit | reshard | jig | pegclr => exact keepsClocks_next.mpr clocks_command
  | move | endTask | witness | sysr | sysw | br | ret | jmpi | call | calli | resume | ld | st | hlook | tfill
    | tevict => exact keepsClocks_next.mpr (clocks_move fun _ _ => rfl)
  | limm | padC | padJ | padE | connectionClose => exact keepsClocks_next.mpr rfl
  | mxShw | wk0Shw | wk1Shw => exact keepsClocks_next.mpr clocks_shapeWrite
  | redadd | redmax | redmin => exact keepsClocks_next.mpr clocks_redOp
  | optm | optv | optw => exact keepsClocks_next.mpr clocks_optOp
  | atadd | atmax | atmin | ator => exact keepsClocks_next.mpr clocks_atomicVa
  | ldg | ldc => exact keepsClocks_next.mpr clocks_loadVa
  | stg | stp => exact keepsClocks_next.mpr clocks_storeVa
  | vec0Narrow | vec1Narrow => exact keepsClocks_next.mpr clocks_vecNarrow
  | vec0Ldv | vec1Ldv => exact keepsClocks_next.mpr clocks_vecLdv
  | vec0Stv | vec1Stv => exact keepsClocks_next.mpr clocks_vecStv
  | fetchadd => exact keepsClocks_next.mpr (clocks_move fun _ _ => clocks_vaGo)
  | hand => exact keepsClocks_next.mpr (clocks_move fun _ _ => clocks_handGo)
  | gsync => exact keepsClocks_next.mpr (clocks_move fun _ _ => clocks_orderGang)
  | retire => exact keepsClocks_next.mpr (clocks_move fun _ _ => clocks_retire)
  | trap => exact keepsClocks_next.mpr (clocks_move fun _ _ => clocks_stopPart)
  | brm | loop | spawn => exact keepsClocks_next.mpr (clocks_move fun _ _ => by simp)
  | ttclr => exact keepsClocks_execTtclr
  | wheel => exact keepsClocks_execWheel
  | jigStart => exact keepsClocks_execJigStart
  | jigEnd => exact keepsClocks_execJigEnd
  | resultReady => exact keepsClocks_execResultReady
  | accessPerform => exact keepsClocks_execAccessPerform
  | frameStart => exact keepsClocks_execFrameStart
  | offsetReport => exact keepsClocks_execOffsetReport
  | unresponsive => exact keepsClocks_execUnresponsive
  | storyRelease => exact keepsClocks_execStoryRelease
  | taskStart => exact keepsClocks_execTaskStart
  | gateCompletion => exact keepsClocks_execGateCompletion
  | holdRefresh => exact keepsClocks_execHoldRefresh
  | refreshCommand => exact keepsClocks_execRefreshCommand
  | rollback => exact keepsClocks_execRollback
  | pageBring => exact keepsClocks_execPageBring
  | retiredBayIdle => exact keepsClocks_execRetiredBayIdle
  | preemption => exact keepsClocks_execPreemption
  | preemptionResume => exact keepsClocks_execPreemptionResume
  | planDispatch => exact keepsClocks_execPlanDispatch
  | mxgoBegin => exact keepsClocks_execMxgoBegin
  | mxAddition => exact keepsClocks_execMxAddition
  | mxgoComplete => exact keepsClocks_execMxgoComplete
  | mxdrainBegin => exact keepsClocks_execMxdrainBegin
  | drainRowLanding => exact keepsClocks_execDrainRowLanding
  | mxdrainComplete => exact keepsClocks_execMxdrainComplete
  | mxclrBegin => exact keepsClocks_execMxclrBegin
  | walkBegin => exact keepsClocks_execWalkBegin
  | walkUnitRead => exact keepsClocks_execWalkUnitRead
  | walkUnitLanding => exact keepsClocks_execWalkUnitLanding
  | asyncUnitLanding => exact keepsClocks_execAsyncUnitLanding
  | sendBegin => exact keepsClocks_execSendBegin
  | recvBegin => exact keepsClocks_execRecvBegin
  | recvLineLanding => exact keepsClocks_execRecvLineLanding
  | gateBegin => exact keepsClocks_execGateBegin
  | gatePerform => exact keepsClocks_execGatePerform
  | qputClaim => exact keepsClocks_execQputClaim
  | qputLanding => exact keepsClocks_execQputLanding
  | pegclrBegin => exact keepsClocks_execPegclrBegin
  | collBegin => exact keepsClocks_execCollBegin
  | routerArrival => exact keepsClocks_execRouterArrival
  | roundDecision => exact keepsClocks_execRoundDecision
  | roundDelivery => exact keepsClocks_execRoundDelivery
  | reshardBegin => exact keepsClocks_execReshardBegin
  | reshardCheckEnd => exact keepsClocks_execReshardCheckEnd
  | scarfRequest => exact keepsClocks_execScarfRequest
  | sourceRead => exact keepsClocks_execSourceRead
  | scarfLanding => exact keepsClocks_execScarfLanding
  | scarfErrorFlit => exact keepsClocks_execScarfErrorFlit
  | timeout => exact keepsClocks_execTimeout
  | mergePass => exact keepsClocks_execMergePass
  | tier5Request => exact keepsClocks_execTier5Request
  | linkFlit => exact keepsClocks_execLinkFlit
  | replay => exact keepsClocks_execReplay
  | ptpEventMessage => exact keepsClocks_execPtpEventMessage
  | checkpoint => exact keepsClocks_execCheckpoint
  | checkpointResume => exact keepsClocks_execCheckpointResume
  | podRecovery => exact keepsClocks_execPodRecovery
  | migrationCopy => exact keepsClocks_execMigrationCopy
  | roceConnect => exact keepsClocks_execRoceConnect
  | rdmaWrite => exact keepsClocks_execRdmaWrite
  | rdmaRead => exact keepsClocks_execRdmaRead
  | atomicFetchAndAdd => exact keepsClocks_execAtomicFetchAndAdd
  | load => exact keepsClocks_execLoad
  | stop => exact keepsClocks_execStop
  | logread => exact keepsClocks_execLogread
  | slotread => exact keepsClocks_execSlotread
  | pagereq => exact keepsClocks_execPagereq
  | fwstage => exact keepsClocks_execFwstage
  | fwswitch => exact keepsClocks_execFwswitch
  | firmwareActivation => exact keepsClocks_execFirmwareActivation
  | quote => exact keepsClocks_execQuote
  | monread => exact keepsClocks_execMonread
  | hostreg => exact keepsClocks_execHostreg
  | cert => exact keepsClocks_execCert
  | badcmd => exact keepsClocks_execBadcmd
  | retireBent => exact keepsClocks_execRetireBent
  | readmitBent => exact keepsClocks_execReadmitBent
  | reloadPartition => exact keepsClocks_execReloadPartition
  | retireChannel => exact keepsClocks_execRetireChannel
  | degradeLanes => exact keepsClocks_execDegradeLanes
  | recalibrateMonitors => exact keepsClocks_execRecalibrateMonitors
  | boot => exact keepsClocks_execBoot
  | bootRetry => exact keepsClocks_execBootRetry
  | nominalFrameStart => exact keepsClocks_execNominalFrameStart
  | podWideChecks => exact keepsClocks_execPodWideChecks

/-! ## Issue of a bundle -/

theorem clocks_nextOr {r} (h : KeepsClocks s r) : clocks (nextOr s r) = clocks s := by
  unfold nextOr
  split
  · exact h _ rfl
  · rfl
  · rfl

@[simp] theorem clocks_runSlot {i} : clocks (runSlot s i) = clocks s := clocks_nextOr keepsClocks_exec

@[simp] theorem clocks_runStage {k l} : clocks (runStage s k l) = clocks s :=
  clocks_foldl fun _ _ => clocks_runSlot

@[simp] theorem clocks_runBundle {l} : clocks (runBundle s l) = clocks s := by
  simp [runBundle]

@[simp] theorem clocks_issue {b} : clocks (s.issue b) = clocks s := by
  unfold State.issue
  dsimp only
  split <;> simp

/-! ## Memory traffic -/

@[simp] theorem clocks_writeHeader {q va h} : clocks (s.writeHeader q va h) = clocks s := by
  simp [State.writeHeader]

@[simp] theorem clocks_writeHot {q} : clocks (s.writeHot q) = clocks s := by
  unfold State.writeHot
  dsimp only
  split <;> simp

@[simp] theorem clocks_homeServe {q r} : clocks (s.homeServe q r) = clocks s := by
  unfold State.homeServe
  dsimp only
  split <;> simp

@[simp] theorem clocks_performBurst {q x} : clocks (s.performBurst q x) = clocks s := by
  unfold State.performBurst
  split
  · exact clocks_within fun _ => clocks_writeVaBy
  · exact clocks_within fun _ => clocks_arriveAt
  · exact clocks_within fun _ => clocks_writeHeader
  · exact clocks_within fun _ => rfl
  · refine clocks_within fun _ => ?_
    dsimp only
    split <;> simp
  · refine clocks_within fun _ => ?_
    split <;> simp
  · exact clocks_within fun _ => clocks_writeHot
  · simp
  · simp
  · simp
  · exact clocks_within fun _ => clocks_serveScarf
  · rfl

@[simp] theorem clocks_endBurst {q x} : clocks (s.endBurst q x) = clocks s := by simp [State.endBurst]

@[simp] theorem clocks_serveCode {q code n u} : clocks (s.serveCode q code n u) = clocks s := by
  induction n generalizing s u with
  | zero => rfl
  | succ n ih =>
    unfold State.serveCode
    dsimp only
    split
    · rfl
    · split
      · rfl
      · simp [ih]
      · simp [ih]
      · split
        · simp [ih]
        · split <;> simp [ih]

@[simp] theorem clocks_askHot {q} : clocks (s.askHot q) = clocks s := by
  unfold State.askHot
  dsimp only
  split
  · rfl
  · split <;> simp

@[simp] theorem clocks_serveTraffic {q} : clocks (s.serveTraffic q) = clocks s := by simp [State.serveTraffic]

@[simp] theorem clocks_allTraffic : clocks s.allTraffic = clocks s := by simp [State.allTraffic]

/-! ## The phases of a clock cycle -/

@[simp] theorem clocks_startTicks : clocks s.startTicks = clocks s := by simp [State.startTicks]

@[simp] theorem clocks_endHold {q} : clocks (s.endHold q) = clocks s := by simp [State.endHold]

@[simp] theorem clocks_endHolds : clocks s.endHolds = clocks s := by simp [State.endHolds]

@[simp] theorem clocks_updateScales : clocks s.updateScales = clocks s := by simp [State.updateScales]

@[simp] theorem clocks_prepareIssue : clocks s.prepareIssue = clocks s := by simp [State.prepareIssue]

@[simp] theorem clocks_makeAllStarts : clocks s.makeAllStarts = clocks s := by simp [State.makeAllStarts]

@[simp] theorem clocks_clearReruns : clocks s.clearReruns = clocks s := by simp [State.clearReruns]

@[simp] theorem clocks_handBusy {q b w} : clocks (s.handBusy q b w) = clocks s := by
  unfold State.handBusy
  split <;> simp

@[simp] theorem clocks_endPegs {b} : clocks (s.endPegs b) = clocks s := by
  unfold State.endPegs
  dsimp only
  split <;> simp

@[simp] theorem clocks_endChecks {q} : clocks (s.endChecks q) = clocks s := by simp [State.endChecks]

@[simp] theorem clocks_allChecks : clocks s.allChecks = clocks s := by simp [State.allChecks]

@[simp] theorem clocks_dropFaults : clocks s.dropFaults = clocks s := rfl

@[simp] theorem clocks_showWrite {q b t w} : clocks (s.showWrite q b t w) = clocks s := by
  unfold State.showWrite
  split
  · split <;> simp
  · split <;> simp
  · simp
  · simp
  · simp

@[simp] theorem clocks_showWrites {q} : clocks (s.showWrites q) = clocks s := by simp [State.showWrites]

@[simp] theorem clocks_endTag {b} : clocks (s.endTag b) = clocks s := by
  unfold State.endTag
  dsimp only
  split <;> simp

@[simp] theorem clocks_endBanks {b} : clocks (s.endBanks b) = clocks s := by simp [State.endBanks]

@[simp] theorem clocks_turnBay {q b} : clocks (s.turnBay q b) = clocks s := by simp [State.turnBay]

@[simp] theorem clocks_endPole {q} : clocks (s.endPole q) = clocks s := by simp [State.endPole]

@[simp] theorem clocks_endHeld {q} : clocks (s.endHeld q) = clocks s := by simp [State.endHeld]

@[simp] theorem clocks_endPart {q} : clocks (s.endPart q) = clocks s := by simp [State.endPart]

@[simp] theorem clocks_endCycles : clocks s.endCycles = clocks s := by simp [State.endCycles]

@[simp] theorem clocks_takeInput {i} : clocks (s.takeInput i) = clocks s := by
  unfold State.takeInput
  split
  case h_8 => split <;> simp
  all_goals simp

@[simp] theorem clocks_takeInputs : clocks s.takeInputs = clocks s := by simp [State.takeInputs]

@[simp] theorem clocks_dropInputs : clocks s.dropInputs = clocks s := rfl

@[simp] theorem clocks_resumeSaved : clocks s.resumeSaved = clocks s :=
  clocks_foldl fun _ _ => clocks_nextOr keepsClocks_execPreemptionResume

@[simp] theorem clocks_resumeChecked : clocks s.resumeChecked = clocks s := by simp [State.resumeChecked]

@[simp] theorem clocks_serveNext : clocks s.serveNext = clocks s := by
  unfold State.serveNext
  split
  · exact clocks_nextOr keepsClocks_serveMailbox
  · rfl

@[simp] theorem clocks_linkRecvs : clocks s.linkRecvs = clocks s := by simp [State.linkRecvs]

/-- The clocks when a cycle is over: 5/6 ns have passed (R21, R22). -/
def tickClocks : Nat × Nat × Nat → Nat × Nat × Nat := fun (c, p, x) => (c + 1, p, (x + 5) % 6)

@[simp] theorem clocks_tick : clocks s.tick = tickClocks (clocks s) := rfl

/-- A phase but the last begins without moving the clocks. -/
theorem clocks_enter_of_ne (h : s.phase ≠ 17) : clocks s.enter = clocks s := by
  unfold State.enter
  split
  case h_11 hlast => exact absurd hlast h
  all_goals simp

theorem clocks_enter_last (h : s.phase = 17) : clocks s.enter = tickClocks (clocks s) := by
  simp [State.enter, h]

@[simp] theorem clocks_leave : clocks s.leave = clocks s := by
  unfold State.leave
  split <;> simp

theorem clocks_turn : clocks s.turn = ((clocks s.enter).1, (s.phase + 1) % phases, (clocks s.enter).2.2) := by
  rw [← clocks_leave (s := s.enter)]
  rfl

/-! ## One step -/

theorem keepsClocks_step_of_todo (h : s.todo ≠ []) : KeepsClocks s (step s) := by
  unfold step
  split
  · exact keepsClocks_next.mpr clocks_issue
  · exact keepsClocks_exec.of_clocks rfl
  next hn => exact absurd hn h

theorem clocks_step_of_ne {t : State} (htodo : s.todo = []) (h : s.phase ≠ 17) (ht : step s = .next t) :
    clocks t = (s.clock, (s.phase + 1) % phases, s.ptpSixths) := by
  obtain rfl : s.turn = t := by simpa [step, htodo] using ht
  rw [clocks_turn, clocks_enter_of_ne h]
  rfl

theorem clocks_step_last {t : State} (htodo : s.todo = []) (h : s.phase = 17) (ht : step s = .next t) :
    clocks t = (s.clock + 1, (s.phase + 1) % phases, (s.ptpSixths + 5) % 6) := by
  obtain rfl : s.turn = t := by simpa [step, htodo] using ht
  rw [clocks_turn, clocks_enter_last h]
  rfl

/-- Settles O59: a step that was due leaves the clocks; with none due the phase turns, and time moves on in the last. -/
theorem timeKept : Obligations.TimeKept := by
  rintro s t ⟨hphase, hptp⟩ ht
  have hlt : (s.phase + 1) % phases < phases := Nat.mod_lt _ (by decide)
  by_cases htodo : s.todo = []
  · by_cases hlast : s.phase = 17
    · have hc := clocks_step_last htodo hlast ht
      simp only [clocks, Prod.mk.injEq] at hc
      obtain ⟨hclock, hp, hx⟩ := hc
      exact ⟨⟨hp ▸ hlt, hx ▸ Nat.mod_lt _ (by decide)⟩, fun h => absurd htodo h,
        fun _ => ⟨hp, by rw [hclock, if_pos hlast]⟩⟩
    · have hc := clocks_step_of_ne htodo hlast ht
      simp only [clocks, Prod.mk.injEq] at hc
      obtain ⟨hclock, hp, hx⟩ := hc
      exact ⟨⟨hp ▸ hlt, hx ▸ hptp⟩, fun h => absurd htodo h, fun _ => ⟨hp, by rw [hclock, if_neg hlast]⟩⟩
  · obtain ⟨hclock, hp, hx⟩ := clocks_eq_iff.mp (keepsClocks_step_of_todo htodo t ht)
    exact ⟨⟨hp ▸ hphase, hx ▸ hptp⟩, fun _ => ⟨hclock, hp⟩, fun h => absurd h htodo⟩

end Sys2Proof
end

section
/-! Reset (R15, R51, R335; log 1, log 3, log 7). -/

namespace Sys2Proof
open Machine Laws

@[simp] theorem bay_reset (b : BayId) : State.reset.bay b = .reset := by
  simp [State.bay, State.reset, Vector.get_eq_getElem]

@[simp] theorem part_reset (q : PartId) : State.reset.part q = .reset := by
  simp [State.part, State.reset, Vector.get_eq_getElem]

@[simp] theorem bent_reset (t : Fin 8) : State.reset.bents.get t = .reset := by
  simp [State.reset, Vector.get_eq_getElem]

/-- Entry p of a remap table names physical bay p: the table's bytes hold every number below 24. -/
theorem remap_reset (p : Fin 24) : (Bent.reset.remap.get p).toNat = p.val := by
  have hp : p.val < 256 := by omega
  simpa [Bent.reset, Vector.get_eq_getElem] using hp

/-- Memory that lists nothing reads zero (log 3). -/
@[simp] theorem read_nil (a : Nat) : Mem.read [] a = 0 := rfl

theorem bayMems_reset : ∀ m ∈ bayMems .reset, m = [] := by
  simp [bayMems, Bay.reset]

theorem deviceMems_reset : ∀ m ∈ deviceMems .reset, m = [] := by
  simp [deviceMems, State.reset]

/-- Settles O58: every field of the reset state has the value that the rules and the log give it. -/
theorem resetValues : Obligations.ResetValues := by
  unfold Obligations.ResetValues
  refine ⟨rfl, fun q => by simp [Part.reset], fun b => by simp [Bay.reset], rfl, fun t p => by simp [remap_reset],
    fun t => by simp [Bent.reset], ⟨by decide, by decide⟩, reset_mems, fun b => ?_, fun m hm a => ?_⟩
  · rw [bay_reset]
    exact ⟨rfl, fun m hm a => by rw [bayMems_reset m hm, read_nil]⟩
  · rw [deviceMems_reset m hm, read_nil]

end Sys2Proof
end

section
/-!
Connections and host RDMA (R24, R205, R255, R259, R261, R329 to R331; log 16, log 24, log 50).
-/

namespace Sys2Proof
open Machine Laws

variable {s t u : State} {q : PartId}

/-! ## Addresses, and runs of bytes within one page -/

theorem vaNat_eq (va : Addr) : vaNat va = va.toNat % 2 ^ 64 := by
  simp [vaNat, bits]

/-- The VA of an address of any partition names the same byte. -/
@[simp] theorem vaNat_vaAt (p : Part) (va : Addr) : vaNat (p.vaAt (vaNat va)) = vaNat va := by
  have hlow : (p.mem.asid ++ BitVec.ofNat 64 (vaNat va)).extractLsb' 0 64 = BitVec.ofNat 64 (vaNat va) :=
    BitVec.extractLsb'_append_eq_right
  have hlt : vaNat va < 2 ^ 64 := BitVec.isLt _
  exact (congrArg BitVec.toNat hlow).trans (Nat.mod_eq_of_lt hlt)

@[simp] theorem vaPlace_vaAt (p r : Part) (va : Addr) : p.vaPlace (r.vaAt (vaNat va)) = p.vaPlace va := by
  simp only [Part.vaPlace, vaNat_vaAt]

@[simp] theorem placeAt_vaAt (p r : Part) (va : Addr) :
    p.placeAt (r.vaAt (vaNat va)) = (p.vaPlace va).map (fun x => x.2) := by
  simp only [Part.placeAt, vaPlace_vaAt]

@[simp] theorem hostPieces_zero (fuel a : Nat) : hostPieces fuel a 0 = [] := by
  cases fuel <;> rfl

/-- Bytes that lie within one page are one piece. -/
theorem hostPieces_single {fuel a n : Nat} (h0 : n ≠ 0) (h : n ≤ 65536 - a % 65536) :
    hostPieces (fuel + 1) a n = [(a, n)] := by
  simp [hostPieces, h0, Nat.min_eq_left h]

@[simp] theorem pageChunks_nil (fuel a : Nat) : pageChunks fuel a [] = [] := by
  cases fuel <;> rfl

/-- Data that lies within one page is one chunk. -/
theorem pageChunks_single {fuel a : Nat} {data : List Byte} (h0 : data ≠ []) (h : data.length ≤ 65536 - a % 65536) :
    pageChunks (fuel + 1) a data = [(a, data)] := by
  simp [pageChunks, h0, List.take_of_length_le h, List.drop_of_length_le h]

/-- The entry that a VA's place names is one of the table. -/
theorem lt_of_findEntry {tt : List TTEntry} {a x : Nat} {e : BitVec 128} (h : findEntry tt a = some (x, e)) :
    x < tt.length := by
  obtain ⟨y, hy, hyx⟩ := Option.map_eq_some_iff.mp h
  obtain ⟨rfl, -⟩ := Prod.mk.inj hyx
  exact (List.mem_zipIdx' (List.mem_of_find?_eq_some hy)).1

theorem lt_of_vaPlace {p : Part} {va : Addr} {x : Nat} {pl : Place} (h : p.vaPlace va = some (x, pl)) :
    x < p.tt.length := by
  unfold Part.vaPlace at h
  split at h
  · cases h
  next y e he =>
    split at h
    · cases h
      exact lt_of_findEntry he
    · cases h

/-! ## What a write of device memory leaves -/

@[simp] theorem writePlace_bays {pl data} : (s.writePlace pl data).bays = s.bays := by
  cases pl <;> rfl

@[simp] theorem writePlace_part {pl data} : (s.writePlace pl data).part q = s.part q := by
  cases pl <;> rfl

@[simp] theorem writePlace_outs {pl data} : (s.writePlace pl data).outs = s.outs := by
  cases pl <;> rfl

@[simp] theorem writePlace_hostMem {pl data} : (s.writePlace pl data).hostMem = s.hostMem := by
  cases pl <;> rfl

/-- States that agree on device memory, the host's memory, the bays and the answers. -/
structure SameDevices (s t : State) : Prop where
  ring : t.ring = s.ring
  lpddr : t.lpddr = s.lpddr
  hostMem : t.hostMem = s.hostMem
  bays : t.bays = s.bays
  outs : t.outs = s.outs

theorem SameDevices.refl (s : State) : SameDevices s s := ⟨rfl, rfl, rfl, rfl, rfl⟩

theorem SameDevices.trans (h : SameDevices s t) (h' : SameDevices t u) : SameDevices s u :=
  ⟨h'.ring.trans h.ring, h'.lpddr.trans h.lpddr, h'.hostMem.trans h.hostMem, h'.bays.trans h.bays, h'.outs.trans h.outs⟩

theorem sameDevices_onPart {f} : SameDevices s (s.onPart q f) := ⟨rfl, rfl, rfl, rfl, rfl⟩

theorem SameDevices.sameMemory (h : SameDevices s t) : SameMemory s t :=
  ⟨h.ring, h.lpddr, h.hostMem, fun b => by rw [State.bay, h.bays, State.bay]⟩

/-- What happens after a write, and leaves device memory, is a write. -/
theorem SameDevices.writesPlace {pl data} (h : SameDevices (s.writePlace pl data) t) : WritesPlace s t pl data :=
  ⟨h.ring, h.lpddr, h.hostMem.trans writePlace_hostMem⟩

/-- A write after what leaves device memory is a write. -/
theorem SameDevices.writePlace {pl data} (h : SameDevices s t) :
    SameDevices (s.writePlace pl data) (t.writePlace pl data) := by
  refine ⟨?_, ?_, ?_, ?_, ?_⟩
  · cases pl <;> simp [State.writePlace, h.ring]
  · cases pl <;> simp [State.writePlace, h.lpddr]
  · simpa using h.hostMem
  · simpa using h.bays
  · simpa using h.outs

/-! ## What the notes of an access leave (R217, R218) -/

/-- States that differ at most in the races found and in what is kept to find them. -/
structure NotesOnly (s t : State) : Prop extends SameDevices s t where
  part : ∀ q, ∃ r, t.part q = { s.part q with racing := r }

theorem NotesOnly.refl (s : State) : NotesOnly s s := ⟨.refl s, fun q => ⟨(s.part q).racing, rfl⟩⟩

theorem notesOnly_race : NotesOnly s (s.race q) := by
  refine ⟨sameDevices_onPart, fun r => ?_⟩
  by_cases h : r = q
  · subst h
    exact ⟨true, State.part_onPart ..⟩
  · exact ⟨(s.part r).racing, State.part_onPart_ne s q r _ h⟩

theorem notesOnly_noteAt {party tag key n write kind stamp v} :
    NotesOnly s (s.noteAt q party tag key n write kind stamp v) := by
  unfold State.noteAt
  dsimp only
  split
  · exact .refl s
  · split
    · exact { notesOnly_race (s := s) (q := q) with }
    · exact { NotesOnly.refl s with }

theorem notesOnly_noteBy {party tag pl n write kind stamp v} :
    NotesOnly s (s.noteBy q party tag pl n write kind stamp v) := by
  unfold State.noteBy
  split
  · exact .refl s
  · exact notesOnly_noteAt

theorem notesOnly_noteGate {party va} : NotesOnly s (s.noteGate q party va) := by
  unfold State.noteGate
  split
  · exact .refl s
  · exact notesOnly_noteBy

theorem NotesOnly.vaPlace (h : NotesOnly s t) (va : Addr) : (t.part q).vaPlace va = (s.part q).vaPlace va := by
  obtain ⟨r, hr⟩ := h.part q
  rw [hr]
  rfl

theorem NotesOnly.tt (h : NotesOnly s t) : (t.part q).tt = (s.part q).tt := by
  obtain ⟨r, hr⟩ := h.part q
  rw [hr]

theorem NotesOnly.gatesDue (h : NotesOnly s t) : (t.part q).gatesDue = (s.part q).gatesDue := by
  obtain ⟨r, hr⟩ := h.part q
  rw [hr]

/-! ## Fields of a bit vector -/

/-- Bit i of a vector in which a field was set. -/
theorem getLsbD_setBits {w lo n v i : Nat} {x : BitVec w} (hi : i < w) :
    (setBits x lo n v).getLsbD i = if lo ≤ i ∧ i < lo + n then v.testBit (i - lo) else x.getLsbD i := by
  have hsub : i - lo < w := by omega
  simp only [setBits, BitVec.getLsbD_or, BitVec.getLsbD_and, BitVec.getLsbD_not, BitVec.getLsbD_shiftLeft,
    BitVec.getLsbD_ofNat, Nat.testBit_two_pow_sub_one, Nat.testBit_mod_two_pow, hi, hsub, decide_true, Bool.true_and]
  by_cases h1 : i < lo
  · simp [h1, Nat.not_le.mpr h1]
  · have hle : lo ≤ i := Nat.not_lt.mp h1
    have hlt : i < lo + n ↔ i - lo < n := by omega
    by_cases h2 : i - lo < n <;> simp [h1, h2, hle, hlt]

/-- The field that was set reads back. -/
theorem bits_setBits_self {w lo n v : Nat} {x : BitVec w} (h : lo + n ≤ w) :
    bits (setBits x lo n v) lo n = v % 2 ^ n := by
  have he : (setBits x lo n v).extractLsb' lo n = BitVec.ofNat n v := by
    refine BitVec.eq_of_getLsbD_eq fun i hi => ?_
    simp only [BitVec.getLsbD_extractLsb', getLsbD_setBits (show lo + i < w by omega), BitVec.getLsbD_ofNat]
    simp [hi]
  simp [bits, he]

/-- A field beside the one that was set stays. -/
theorem bits_setBits_of_disjoint {w lo n v lo' n' : Nat} {x : BitVec w} (h : lo' + n' ≤ w)
    (hd : lo' + n' ≤ lo ∨ lo + n ≤ lo') : bits (setBits x lo n v) lo' n' = bits x lo' n' := by
  have he : (setBits x lo n v).extractLsb' lo' n' = x.extractLsb' lo' n' := by
    refine BitVec.eq_of_getLsbD_eq fun i hi => ?_
    have hout : ¬(lo ≤ lo' + i ∧ lo' + i < lo + n) := by omega
    simp only [BitVec.getLsbD_extractLsb', hi, getLsbD_setBits (show lo' + i < w by omega), if_neg hout]
  simp [bits, he]

theorem div_eq_bits {w lo : Nat} {x : BitVec w} (h : lo ≤ w) : x.toNat / 2 ^ lo = bits x lo (w - lo) := by
  have hlt : x.toNat / 2 ^ lo < 2 ^ (w - lo) := by
    rw [Nat.div_lt_iff_lt_mul (by positivity), ← pow_add, Nat.sub_add_cancel h]
    exact x.isLt
  rw [bits, BitVec.extractLsb'_toNat, Nat.shiftRight_eq_div_pow, Nat.mod_eq_of_lt hlt]
/-! ## Arrivals at a gate (R246, R255) -/

/-- A gate's cell with its count of arrivals raised. -/
theorem gateArrived_setBits (g : BitVec 128) (n : Nat) :
    gateArrived (setBits g 48 48 (min (2 ^ 48 - 1) n)) = min (2 ^ 48 - 1) n := by
  rw [gateArrived, bits_setBits_self (by norm_num)]
  exact Nat.mod_eq_of_lt (by omega)

theorem gateExpect_setBits (g : BitVec 128) (n : Nat) : gateExpect (setBits g 48 48 n) = gateExpect g :=
  bits_setBits_of_disjoint (by norm_num) (.inl (by norm_num))

theorem phase_setBits (g : BitVec 128) (n : Nat) : (setBits g 48 48 n).toNat / 2 ^ 96 = g.toNat / 2 ^ 96 := by
  rw [div_eq_bits (by norm_num), div_eq_bits (by norm_num), bits_setBits_of_disjoint (by norm_num) (.inr (by norm_num))]

theorem sameDevices_markAt {va} : SameDevices s (s.markAt q va) := by
  unfold State.markAt
  split
  · exact sameDevices_onPart
  · exact .refl s

/-- A gate that a VA names is written, and is looked at when the cycle ends. -/
theorem onGate_of_place {va pl f} (h : gatePlace (s.part q) va = some pl) :
    SameDevices (s.writePlace pl (leBytes 16 (f (s.gateAt pl)).toNat)) (s.onGate q va f) ∧
      va ∈ ((s.onGate q va f).part q).gatesDue := by
  have he : s.onGate q va f = ((s.writePlace pl (leBytes 16 (f (s.gateAt pl)).toNat)).markAt q va).onPart q (fun p =>
      if p.gatesDue.contains va then p else { p with gatesDue := p.gatesDue ++ [va] }) := by
    simp only [State.onGate, h]
  rw [he]
  refine ⟨sameDevices_markAt.trans sameDevices_onPart, ?_⟩
  rw [State.part_onPart]
  split
  next hc => exact List.contains_iff_mem.mp hc
  · simp

theorem onGate_bays {va f} : (s.onGate q va f).bays = s.bays := by
  cases h : gatePlace (s.part q) va with
  | none => simp only [State.onGate, h]
  | some pl => exact (onGate_of_place h).1.bays.trans writePlace_bays

/-- What the arrival does after the gate's cell is written. -/
theorem arrive_after_onGate {party va n cover} :
    let w := s.onGate q va (fun g => setBits g 48 48 (min (2 ^ 48 - 1) (gateArrived g + n)))
    SameDevices w (s.arrive q party va n cover) ∧
      ((s.arrive q party va n cover).part q).gatesDue = (w.part q).gatesDue := by
  refine ⟨notesOnly_noteGate.toSameDevices.trans sameDevices_onPart, ?_⟩
  rw [State.arrive, State.part_onPart]
  exact notesOnly_noteGate.gatesDue

theorem countsAt_arriveAt {party gate n cover} : CountsAt s (s.arriveAt q party gate n cover) q gate n := by
  by_cases h0 : gate = 0
  · rw [State.arriveAt, if_pos h0]
    exact ⟨fun _ => ⟨rfl, rfl, rfl⟩, fun _ h => absurd h0 h⟩
  · rw [State.arriveAt, if_neg h0]
    refine ⟨fun h => absurd h h0, fun pl _ hpl => ?_⟩
    obtain ⟨hdev, hdue⟩ := arrive_after_onGate (s := s) (q := q) (party := party) (va := gate) (n := n) (cover := cover)
    obtain ⟨hw, hmem⟩ := onGate_of_place (f := fun g => setBits g 48 48 (min (2 ^ 48 - 1) (gateArrived g + n))) hpl
    exact ⟨_, (hw.trans hdev).writesPlace, gateExpect_setBits _ _, gateArrived_setBits _ _,
      phase_setBits _ _, hdue ▸ hmem⟩

theorem arriveAt_bays {party gate n cover} : (s.arriveAt q party gate n cover).bays = s.bays := by
  unfold State.arriveAt
  split
  · rfl
  · exact arrive_after_onGate.1.bays.trans onGate_bays

/-! ## Transfers that wait for their slots (R24) -/

/-- Only answers of tier 5 requests go before others that wait. -/
theorem putBurst_eq_append {l : List Burst} {x : Burst} (hx : ∀ r, x.act ≠ .tier5 r) : putBurst l x = l ++ [x] := by
  induction l with
  | nil => rfl
  | cons y l ih =>
    unfold putBurst
    dsimp only
    rw [if_neg, ih]
    · rfl
    · split
      next hr _ => exact absurd hr (hx _)
      · simp

/-- Transfers l of partition q have joined those that wait; other partitions, memory, bays and answers are as before. -/
structure Queued (s t : State) (q : PartId) (l : List Burst) : Prop extends SameDevices s t where
  others : ∀ r, r ≠ q → t.part r = s.part r
  traffic : (t.part q).traffic = (s.part q).traffic ++ l
  clock : t.clock = s.clock

theorem queued_freshTag : Queued s s.freshTag.2 q [] := 
  ⟨⟨rfl, rfl, rfl, rfl, rfl⟩, fun _ _ => rfl, (List.append_nil _).symm, rfl⟩

theorem queued_refl (s : State) (q : PartId) : Queued s s q [] := 
  ⟨.refl s, fun _ _ => rfl, (List.append_nil _).symm, rfl⟩

theorem Queued.queueBurst {l code place bytes act} (h : Queued s t q l) (hact : ∀ r, act ≠ .tier5 r) :
    Queued s (t.queueBurst q code place bytes act) q (l ++ [⟨code, place, bytes, 0, act, s.clock⟩]) := by
  refine ⟨h.toSameDevices.trans sameDevices_onPart, fun r hr => ?_, ?_, h.clock⟩
  · exact (State.part_onPart_ne t q r _ hr).trans (h.others r hr)
  · rw [State.queueBurst, State.part_onPart, putBurst_eq_append hact, h.traffic, h.clock, List.append_assoc]

theorem Queued.arrivals {l party tag} (h : Queued s t q l) (gates : List Addr) :
    Queued s (gates.foldl (fun acc g => acc.queueBurst q 0xF0 none 0 (.arrive party tag g 64)) t) q
      (l ++ gates.map (fun g => ⟨0xF0, none, 0, 0, .arrive party tag g 64, s.clock⟩)) := by
  induction gates generalizing t l with
  | nil => simpa using h
  | cons g gates ih => simpa using ih (h.queueBurst (by simp))

/-- A transfer of the host within one page is one burst. -/
theorem Queued.queueHost {l va n act} (h : Queued s t q l) (hp : t.part q = s.part q) (h0 : n ≠ 0)
    (hn : n ≤ 65536 - va.toNat % 2 ^ 64 % 65536) (hact : ∀ r, act ≠ .tier5 r) :
    Queued s (t.queueHost q va n act) q
      (l ++ [⟨0xF0, ((s.part q).vaPlace va).map (fun x => x.2), n, 0, act, s.clock⟩]) := by
  rw [← vaNat_eq] at hn
  have hb := h.queueBurst (code := 0xF0) (place := ((s.part q).vaPlace va).map (fun x => x.2)) (bytes := n) hact
  simpa [State.queueHost, hostPieces_single h0 hn, hp] using hb

theorem Queued.waits {l i} (h : Queued s t q l) (he : exec i s = .next t) :
    ∃ t : State, exec i s = .next t ∧ SameMemory s t ∧ t.bays = s.bays ∧ t.outs = s.outs ∧
      (∀ q' : PartId, q' ≠ q → t.part q' = s.part q') ∧ (t.part q).traffic = (s.part q).traffic ++ l :=
  ⟨t, he, h.sameMemory, h.bays, h.outs, h.others, h.traffic⟩

theorem ne_zero_of_hostMay {va n} (h : s.hostMay q va n = true) : n ≠ 0 := by
  simp only [State.hostMay, Bool.and_eq_true, decide_eq_true_eq] at h
  exact h.1.2

/-! ## Transfers that are over -/

theorem within_of_ne {f} (h : (s.part q).mode ≠ .preempted) : s.within q f = f s := by
  simp [State.within, h]

theorem putVa_of_place {va data x pl} (h : (s.part q).vaPlace va = some (x, pl)) :
    s.putVa q va data = (s.writePlace pl data).markPending q x := by
  simp only [State.putVa, h]

theorem sameDevices_markPending {x : Nat} : SameDevices s (s.markPending q x) := sameDevices_onPart

/-- PENDING of a page that was written (R205). -/
theorem markPending_pending {x : Nat} (h : x < (s.part q).tt.length) :
    ∃ e, ((s.markPending q x).part q).tt[x]? = some e ∧ e.pending = true := by
  simp [State.markPending, h]

/-- Bytes of the host within one page are written, and the page is PENDING. -/
theorem writeVaBy_of_place {party tag va data x pl} (h0 : 0 < data.length)
    (hn : data.length ≤ 65536 - va.toNat % 2 ^ 64 % 65536) (h : (s.part q).vaPlace va = some (x, pl)) :
    SameDevices (s.writePlace pl data) (s.writeVaBy q party tag va data) ∧
      ∃ e, ((s.writeVaBy q party tag va data).part q).tt[x]? = some e ∧ e.pending = true := by
  rw [← vaNat_eq] at hn
  have hva : (s.part q).vaPlace ((s.part q).vaAt (vaNat va)) = some (x, pl) := (vaPlace_vaAt ..).trans h
  rw [State.writeVaBy, pageChunks_single (List.ne_nil_of_length_pos h0) hn, List.foldl_cons, List.foldl_nil,
    State.putBy, hva]
  dsimp only
  rw [putVa_of_place hva]
  refine ⟨sameDevices_markPending.trans notesOnly_noteBy.toSameDevices, ?_⟩
  rw [notesOnly_noteBy.tt]
  exact markPending_pending (by rw [writePlace_part]; exact lt_of_vaPlace h)

theorem getVa_of_place {va n x pl} (h : (s.part q).vaPlace va = some (x, pl)) : s.getVa q va n = s.readPlaceN pl n := by
  simp only [State.getVa, h]

/-- The gates of the queues in a slot of which a packet of 64 bytes lands (R259; log 50). -/
theorem mem_slotGates {hva va : Addr} {k : Nat} (hq : hva ∈ (s.part q).queues.map (fun x => x.2))
    (hk : k < 2 ^ hdrLog2n (BitVec.ofNat 512 (leNat (s.getVa q hva 64))))
    (ha : vaNat va = vaNat (hdrSlotVa (BitVec.ofNat 512 (leNat (s.getVa q hva 64)))) + 64 * k) :
    hdrGateVa (BitVec.ofNat 512 (leNat (s.getVa q hva 64))) ∈ s.slotGates q va 64 := by
  obtain ⟨x, hx, rfl⟩ := List.mem_map.mp hq
  refine List.mem_filterMap.mpr ⟨_, List.mem_map.mpr ⟨x, hx, rfl⟩, ?_⟩
  simp [ha, hk]

theorem slotGates_of_ne {va : Addr} {m : Nat} (h : m ≠ 64) : s.slotGates q va m = [] := by
  simp [State.slotGates, h]

/-! ## Host RDMA to memory -/

section
variable {peer n : Nat} {va : Addr} {data : List Byte} {v : Word} (hrun : s.yard.boot = .running)
include hrun

theorem exec_rdmaWrite_refused (h : s.hostMay q va data.length = false) :
    exec (.rdmaWrite (.memory peer q va) data) s = .next s.rdmaRefused := by
  simp [exec, execRdmaWrite, hrun, h]

theorem exec_rdmaRead_refused (h : s.hostMay q va n = false) :
    exec (.rdmaRead (.memory peer q va) n) s = .next s.rdmaRefused := by
  simp [exec, execRdmaRead, hrun, h]

theorem exec_atomicFetchAndAdd_refused (h : s.hostMay q va 8 = false ∨ va.toNat % 2 ^ 64 % 8 ≠ 0) :
    exec (.atomicFetchAndAdd (.memory peer q va) v) s = .next s.rdmaRefused := by
  rw [← vaNat_eq] at h
  have hn : ¬(s.hostMay q va 8 = true ∧ vaNat va % 8 = 0) := by
    rintro ⟨hm, ha⟩
    rcases h with h | h
    · exact absurd hm (by simp [h])
    · exact h ha
  simp only [exec, execAtomicFetchAndAdd, hrun, ne_eq, not_true_eq_false, if_false, if_neg hn]

theorem exec_rdmaWrite (h : s.hostMay q va data.length = true) :
    exec (.rdmaWrite (.memory peer q va) data) s =
      .next ((s.slotGates q va data.length).foldl
        (fun acc g => acc.queueBurst q 0xF0 none 0 (.arrive (hostParty peer) s.nextTag g 64))
        (s.freshTag.2.queueHost q va data.length (.bytes (hostParty peer) s.nextTag va data))) := by
  simp only [exec, execRdmaWrite, hrun, ne_eq, not_true_eq_false, if_false, h, if_true]
  rfl

theorem exec_rdmaRead (h : s.hostMay q va n = true) :
    exec (.rdmaRead (.memory peer q va) n) s = .next (s.queueHost q va n (.hostRead va n)) := by
  simp [exec, execRdmaRead, hrun, h]

theorem exec_atomicFetchAndAdd (h : s.hostMay q va 8 = true) (ha : va.toNat % 2 ^ 64 % 8 = 0) :
    exec (.atomicFetchAndAdd (.memory peer q va) v) s = .next (s.queueHost q va 8 (.hostAdd (hostParty peer) va v)) := by
  rw [← vaNat_eq] at ha
  simp only [exec, execAtomicFetchAndAdd, hrun, ne_eq, not_true_eq_false, if_false, h, ha, and_self, if_true]

end

/-! ## Host RDMA to the mailbox (R330) -/

section
variable {conn off n : Nat} {data : List Byte} {v : Word} (hrun : s.yard.boot = .running)
include hrun

theorem exec_rdmaWrite_mailbox (hc : ∃ c ∈ s.yard.conns, c.num = conn) (hlo : 0x1000 ≤ off)
    (hhi : off + data.length ≤ 0x2000) :
    exec (.rdmaWrite (.mailbox conn off) data) s = .next (s.mailboxWrite conn off data) := by
  have hany : s.yard.conns.any (fun c => decide (c.num = conn)) = true := by simpa using hc
  simp only [exec, execRdmaWrite, hrun, ne_eq, not_true_eq_false, if_false, hany, hlo, hhi, and_self, if_true]

theorem exec_rdmaWrite_mailbox_refused
    (h : (∀ c ∈ s.yard.conns, c.num ≠ conn) ∨ off < 0x1000 ∨ 0x2000 < off + data.length) :
    exec (.rdmaWrite (.mailbox conn off) data) s = .next s.rdmaRefused := by
  have hn : ¬(s.yard.conns.any (fun c => decide (c.num = conn)) = true ∧
      0x1000 ≤ off ∧ off + data.length ≤ 0x2000) := by
    rintro ⟨hany, hlo, hhi⟩
    obtain ⟨c, hc, hcn⟩ := List.any_eq_true.mp hany
    rcases h with h | h
    · exact h c hc (of_decide_eq_true hcn)
    · omega
  simp only [exec, execRdmaWrite, hrun, ne_eq, not_true_eq_false, if_false, if_neg hn]

theorem exec_rdmaRead_mailbox (h : off + n ≤ 16 ∨ (0x1000 ≤ off ∧ off + n ≤ 0x3400)) :
    exec (.rdmaRead (.mailbox conn off) n) s = .next (s.emit (.rdmaAnswer (Mem.readN s.yard.mailbox off n))) := by
  simp [exec, execRdmaRead, hrun, mailboxMay, h]

theorem exec_rdmaRead_mailbox_refused (h16 : 16 < off + n) (h : off < 0x1000 ∨ 0x3400 < off + n) :
    exec (.rdmaRead (.mailbox conn off) n) s = .next s.rdmaRefused := by
  have hn : mailboxMay off n = false := by
    simp only [mailboxMay, Bool.or_eq_false_iff, Bool.and_eq_false_iff, decide_eq_false_iff_not]
    omega
  simp [exec, execRdmaRead, hrun, hn]

theorem exec_atomicFetchAndAdd_mailbox :
    exec (.atomicFetchAndAdd (.mailbox conn 0) v) s = .next (State.emit { s with yard := { s.yard with
      mailbox := Mem.writeN s.yard.mailbox 0 (leBytes 8 ((s.reqIndex + v.toNat) % 2 ^ 64)) } }
        (.atomicAnswer (BitVec.ofNat 64 s.reqIndex))) := by
  simp [exec, execAtomicFetchAndAdd, hrun, BitVec.toNat_add]

theorem exec_atomicFetchAndAdd_mailbox_refused (h : off ≠ 0) :
    exec (.atomicFetchAndAdd (.mailbox conn off) v) s = .next s.rdmaRefused := by
  simp [exec, execAtomicFetchAndAdd, hrun, h]

end

/-- A write to the request ring lands at once; one that covers a slot makes the connection the slot's requester. -/
theorem mailboxWrite_lands {conn off : Nat} {data : List Byte} :
    SameDevices s (s.mailboxWrite conn off data) ∧
      (s.mailboxWrite conn off data).yard.mailbox = Mem.writeN s.yard.mailbox off data ∧
      (off % 64 = 0 → data.length = 64 →
        ((off - 0x1000) / 64, conn) ∈ (s.mailboxWrite conn off data).yard.requester) := by
  unfold State.mailboxWrite
  dsimp only
  split
  · exact ⟨⟨rfl, rfl, rfl, rfl, rfl⟩, rfl, fun _ _ => by simp⟩
  next h => exact ⟨⟨rfl, rfl, rfl, rfl, rfl⟩, rfl, fun ho hl => absurd ⟨ho, hl⟩ h⟩

/-! ## A transfer of the host that is over -/

section
variable {peer tag n : Nat} {va gate : Addr} {data : List Byte} {v : Word} {y : Burst}
  (hm : (s.part q).mode ≠ .preempted)
include hm

theorem performBurst_hostRead (hy : y.act = .hostRead va n) :
    s.performBurst q y = s.emit (.rdmaAnswer (s.hostReadVa q va n)) := by
  simp only [State.performBurst, hy, within_of_ne hm]

theorem performBurst_arrive (hy : y.act = .arrive peer tag gate n) :
    s.performBurst q y = s.arriveAt q peer gate n (tagClock tag) := by
  simp only [State.performBurst, hy, within_of_ne hm]

theorem performBurst_bytes (hy : y.act = .bytes peer tag va data) :
    s.performBurst q y = s.writeVaBy q peer tag va data := by
  simp only [State.performBurst, hy, within_of_ne hm]

/-- An atomic of the host writes the sum and answers the former word (R261). -/
theorem performBurst_hostAdd {x : Nat} {pl : Place} (hy : y.act = .hostAdd peer va v)
    (h : (s.part q).vaPlace va = some (x, pl)) :
    let old := leNat (s.readPlaceN pl 8)
    WritesPlace s (s.performBurst q y) pl (leBytes 8 ((old + v.toNat) % 2 ^ 64)) ∧ (s.performBurst q y).bays = s.bays ∧
      (s.performBurst q y).outs = s.outs ++ [.atomicAnswer (BitVec.ofNat 64 old)] := by
  intro old
  have hn : NotesOnly s (s.noteBy q peer 0 pl 8 true 2 0 (s.seenBy peer)) := notesOnly_noteBy
  have hsum : (BitVec.ofNat 64 old + v).toNat = (old + v.toNat) % 2 ^ 64 := by simp [BitVec.toNat_add]
  simp only [State.performBurst, hy, within_of_ne hm, h, getVa_of_place h]
  rw [putVa_of_place ((hn.vaPlace va).trans h), hsum]
  have hw := (hn.toSameDevices.writePlace (pl := pl) (data := leBytes 8 ((old + v.toNat) % 2 ^ 64))).trans
    (sameDevices_markPending (q := q) (x := x))
  exact ⟨hw.writesPlace, hw.bays.trans writePlace_bays, congrArg (· ++ _) (hw.outs.trans writePlace_outs)⟩

end

/-! ## The obligation -/

/-- Settles O50: what RDMA does when it is made, and what a transfer that waited does when its slots have been. -/
theorem hostAccess : Obligations.HostAccess := by
  intro s
  refine ⟨fun k hb hk => ?_, fun _ => rfl, fun hrun => ⟨fun peer q va data v n =>
    ⟨exec_rdmaWrite_refused hrun, exec_rdmaRead_refused hrun, exec_atomicFetchAndAdd_refused hrun,
      fun h hn => ?_, fun h hn => ?_, fun hva base k hq hbase hk ha => ?_, fun h ha => ?_, fun y hm => ?_⟩,
    fun conn off n data v => ⟨fun hc hlo hhi => ?_, fun h => exec_rdmaWrite_mailbox_refused hrun (.inr h),
      exec_rdmaRead_mailbox hrun, ?_, exec_atomicFetchAndAdd_mailbox_refused hrun,
      fun h => exec_rdmaWrite_mailbox_refused hrun (.inl h), exec_rdmaRead_mailbox_refused hrun⟩⟩⟩
  · simp [exec, execRoceConnect, hb, hk, State.emit]
  · exact ((queued_refl s q).queueHost rfl (ne_zero_of_hostMay h) hn (by simp)).waits (exec_rdmaRead hrun h)
  · exact ((queued_freshTag.queueHost rfl (ne_zero_of_hostMay h) hn (by simp)).arrivals _).waits (exec_rdmaWrite hrun h)
  · subst hbase
    exact ⟨mem_slotGates hq hk ((vaNat_eq va).trans ha), fun m => slotGates_of_ne⟩
  · exact ((queued_refl s q).queueHost rfl (by decide) (by omega) (by simp)).waits (exec_atomicFetchAndAdd hrun h ha)
  · refine ⟨performBurst_hostRead hm, fun tag gate k hy => ?_, fun tag x pl hy h0 hn h => ?_, fun x pl hy h =>
      performBurst_hostAdd hm hy h⟩
    · rw [performBurst_arrive hm hy]
      exact ⟨countsAt_arriveAt, arriveAt_bays⟩
    · obtain ⟨hw, hp⟩ := writeVaBy_of_place (party := hostParty peer) (tag := tag) h0 hn h
      rw [performBurst_bytes hm hy]
      exact ⟨hw.writesPlace, hw.bays.trans writePlace_bays, hw.outs.trans writePlace_outs, hp⟩
  · obtain ⟨hdev, hmail, hreq⟩ := mailboxWrite_lands (s := s) (conn := conn) (off := off) (data := data)
    exact ⟨_, exec_rdmaWrite_mailbox hrun hc hlo hhi, hdev.sameMemory, hdev.bays, hdev.outs, hmail, hreq⟩
  · rintro rfl
    exact ⟨_, exec_atomicFetchAndAdd_mailbox hrun, ⟨rfl, rfl, rfl, fun _ => rfl⟩, rfl, rfl⟩

end Sys2Proof
end

section
/-!
Requests of the mailbox: what serving one does, and what each command answers (R28, R58, R123, R211, R302, R321, R330 to R333, R336;
log 42, log 46, log 54, log 67, log 68).
-/

namespace Sys2Proof
open Machine Laws

variable {s t : State} {q : PartId} {n k : Nat}

/-! ## Fields of a request -/

theorem bits_eq {w : Nat} (x : BitVec w) (lo n : Nat) : bits x lo n = x.toNat / 2 ^ lo % 2 ^ n := by
  rw [bits, BitVec.extractLsb'_toNat, Nat.shiftRight_eq_div_pow]

theorem reqArg_eq (r : BitVec 512) (k : Nat) : reqArg r k = r.toNat / 2 ^ (64 + 64 * k) % 2 ^ 64 := bits_eq ..

/-! ## Serving and answering a request (R123, R330) -/

/-- A request that passes every check of R123 and R330 is served. -/
theorem Serves.serve (h : Serves s n k) {cmd : Nat → Bool} (hc : cmd k = true) (f : BitVec 512 → State → State) :
    s.serve n cmd f = .next (f (s.request n) s) := by
  obtain ⟨hboot, hnext, hasked, hhere, hcmd, hfresh, hstatus, hidle⟩ := h
  have hdue : s.requestDue n = true := by simp [State.requestDue, hboot, ← hnext, hasked, hhere]
  have hparts : s.parts.toList.all (fun p => decide (p.request ≠ some n)) = true := by
    refine List.all_eq_true.mpr fun p hp => decide_eq_true ?_
    obtain ⟨i, hi, rfl⟩ := Vector.mem_iff_getElem.mp (Vector.mem_toList_iff.mp hp)
    exact hfresh ⟨i, hi⟩
  simp only [State.serve, hdue, hcmd, hc, hparts, hstatus, hidle, Bool.and_self, if_true, ne_eq, not_true_eq_false,
    if_false, Bool.false_eq_true]

theorem Serves.service (h : Serves s n 6) (f : Nat → State → State) (k : Nat) :
    s.service n k f = if Config.serviceCode (reqArg (s.request n) 0) = k then .next (f (reqArg (s.request n) 1) s) else .next s := by
  split
  next hk => exact h.serve (by simp [hk]) _
  next hk => simp [State.service, State.serve, hk]

/-- An answer changes the mailbox and who asked, and nothing else. -/
theorem respond_eq {status arg0 : Nat} : ∃ (m : Mem) (l : List (Nat × Nat)),
    s.respond n status arg0 = { s with yard := { s.yard with mailbox := m, requester := l } } := ⟨_, _, rfl⟩

@[simp] theorem respond_part {status arg0 : Nat} : (s.respond n status arg0).part q = s.part q := by
  obtain ⟨m, l, he⟩ := respond_eq (s := s) (n := n) (status := status) (arg0 := arg0)
  rw [he]
  rfl

@[simp] theorem respond_bay {status arg0 : Nat} {b : BayId} : (s.respond n status arg0).bay b = s.bay b := by
  obtain ⟨m, l, he⟩ := respond_eq (s := s) (n := n) (status := status) (arg0 := arg0)
  rw [he]
  rfl

theorem sameDevices_setYard {y : Yard} : SameDevices s { s with yard := y } := ⟨rfl, rfl, rfl, rfl, rfl⟩

theorem sameDevices_respond {status arg0 : Nat} : SameDevices s (s.respond n status arg0) := by
  obtain ⟨m, l, he⟩ := respond_eq (s := s) (n := n) (status := status) (arg0 := arg0)
  rw [he]
  exact sameDevices_setYard

/-! ## LOAD (R28, R58, R332, R333) -/

theorem part_askPreempt {l : List PartId} :
    (s.askPreempt l).part q = { s.part q with preempt := (s.part q).preempt || l.contains q } := by
  induction l generalizing s with
  | nil => simp [State.askPreempt]
  | cons a l ih =>
    have hcons : s.askPreempt (a :: l) = (s.onPart a (fun p => { p with preempt := true })).askPreempt l := rfl
    rw [hcons, ih]
    by_cases h : q = a
    · subst h
      simp
    · simp [State.part_onPart_ne s a q _ h, h]

theorem sameDevices_askPreempt {l : List PartId} : SameDevices s (s.askPreempt l) :=
  List.foldlRecOn (motive := SameDevices s) _ _ (.refl s) (fun _ h _ _ => h.trans sameDevices_onPart)

section
variable {img : List Byte} (h : Serves s n 1)
include h

theorem exec_load_none (hg : s.hostGet (reqArg (s.request n) 2) (reqArg (s.request n) 0) (reqArg (s.request n) 1) = none) :
    exec (.load n) s = .next (s.refuse n 9 331) := by
  simp [exec, execLoad, h.serve (cmd := isCmd 1) rfl, hg]

theorem exec_load_length
    (hg : s.hostGet (reqArg (s.request n) 2) (reqArg (s.request n) 0) (reqArg (s.request n) 1) = some img)
    (hl : (imgHeader img).toNat / 2 ^ 32 % 2 ^ 32 ≠ reqArg (s.request n) 1) :
    exec (.load n) s = .next (s.refuse n 4 332) := by
  rw [← bits_eq] at hl
  simp [exec, execLoad, h.serve (cmd := isCmd 1) rfl, hg, hl]

theorem exec_load_image
    (hg : s.hostGet (reqArg (s.request n) 2) (reqArg (s.request n) 0) (reqArg (s.request n) 1) = some img)
    (hl : (imgHeader img).toNat / 2 ^ 32 % 2 ^ 32 = reqArg (s.request n) 1) :
    exec (.load n) s = .next (s.load n img) := by
  rw [← bits_eq] at hl
  simp [exec, execLoad, h.serve (cmd := isCmd 1) rfl, hg, hl]

end

theorem load_refused {img : List Byte} {rule : Nat} (h : s.forming img = .refused rule) :
    s.load n img = (s.refusePod img).refuse n 4 rule := by
  simp only [State.load, h]

theorem load_now {img : List Byte} (h : s.forming img = .now) : s.load n img = s.answerLoad n img (s.loadPlan img) := by
  simp only [State.load, h]

/-- A plan that waits is queued, and asks for its pre-emptions (R58). -/
theorem load_waits {img : List Byte} {l : List PartId} (h : s.forming img = .waits l) :
    SameDevices s (s.load n img) ∧
      (s.load n img).yard.planq = s.yard.planq ++ [⟨storyPrio (storyHeader img), img⟩] ∧
      ∀ q : PartId, ((s.load n img).part q).preempt = ((s.part q).preempt || l.contains q) := by
  have hyard : (s.askPreempt l).yard = s.yard :=
    List.foldlRecOn (motive := fun t : State => t.yard = s.yard) _ _ rfl (fun _ h _ _ => h)
  simp only [State.load, h]
  refine ⟨(sameDevices_askPreempt.trans sameDevices_setYard).trans sameDevices_respond, ?_, fun q => ?_⟩
  · simp only [State.respond, hyard]
  · rw [respond_part]
    exact congrArg Part.preempt part_askPreempt

/-! ## STOP (R332; log 54, log 68) -/

theorem dropTouches_part_ne {r : PartId} (h : r ≠ q) : (s.dropTouches q).part r = s.part r :=
  State.part_onPart_ne _ q r _ h

theorem dissolve_parts : (s.dissolve q).parts = ((s.dropTouches q).setPart q .reset).parts := by
  unfold State.dissolve
  rfl

theorem part_dissolve_self : (s.dissolve q).part q = .reset := by
  rw [State.part, dissolve_parts]
  exact State.part_setPart ..

theorem part_dissolve_ne {r : PartId} (h : r ≠ q) : (s.dissolve q).part r = s.part r := by
  rw [State.part, dissolve_parts]
  exact (State.part_setPart_ne _ q r _ h).trans (dropTouches_part_ne h)

/-- The data of a plan that is dissolved stays in device memory (log 54). -/
theorem dissolve_devices : (s.dissolve q).ring = s.ring ∧ (s.dissolve q).lpddr = s.lpddr ∧ (s.dissolve q).hostMem = s.hostMem := by
  simp [State.dissolve, State.quietBays, State.dropLinks, State.dropTouches, State.dropClocks]

theorem dissolve_bays :
    (s.dissolve q).bays = (s.quietBays (if (s.part q).formed then (s.part q).hdr.bents else 0)).bays := by
  unfold State.dissolve
  rfl

@[simp] theorem quietBays_bay {bents : BitVec 8} {b : BayId} :
    (s.quietBays bents).bay b = if bents.getLsbD (b.val / 24) = true then .reset else s.bay b := by
  simp [State.quietBays, State.bay, Vector.get_eq_getElem]

theorem bay_dissolve {b : BayId} : (s.dissolve q).bay b =
    if (s.part q).formed = true ∧ (s.part q).hdr.bents.getLsbD (b.val / 24) = true then .reset else s.bay b := by
  have hbits (c : Bool) (v : BitVec 8) : (if c then v else 0).getLsbD (b.val / 24) = (c && v.getLsbD (b.val / 24)) := by
    cases c <;> simp
  rw [State.bay, dissolve_bays]
  refine quietBays_bay.trans ?_
  simp only [hbits, Bool.and_eq_true]

theorem exec_stop (h : Serves s n 2) (hq : q.val = reqArg (s.request n) 0) (hm : (s.part q).mode ≠ .unformed) :
    exec (.stop n) s = .next ((s.dissolve q).respond n 0 0) := by
  have hid : Fin.ofNat 8 (reqArg (s.request n) 0) = q := by rw [← hq, Fin.ofNat_val_eq_self]
  have hlt : reqArg (s.request n) 0 < 8 := by omega
  simp only [exec, execStop, h.serve (cmd := isCmd 2) rfl, hid, hlt, hm, ne_eq, not_false_eq_true, and_self, if_true]

theorem exec_stop_refused (h : Serves s n 2)
    (ha : 8 ≤ reqArg (s.request n) 0 ∨ ∃ q : PartId, q.val = reqArg (s.request n) 0 ∧ (s.part q).mode = .unformed) :
    exec (.stop n) s = .next (s.refuse n 4 332) := by
  have hno : ¬(reqArg (s.request n) 0 < 8 ∧ (s.part (Fin.ofNat 8 (reqArg (s.request n) 0))).mode ≠ .unformed) := by
    rintro ⟨hlt, hm⟩
    rcases ha with ha | ⟨q, hq, hu⟩
    · omega
    · rw [← hq] at hm
      exact hm (by simpa using hu)
  simp only [exec, execStop, h.serve (cmd := isCmd 2) rfl, if_neg hno]

/-! ## LOGREAD and SLOTREAD (R302, R321) -/

theorem exec_logread (h : Serves s n 3) {l : List (BitVec 256)} (hl : s.yard.records.drop (reqArg (s.request n) 1) = l) :
    (∀ u, s.hostPut (s.requester' n) (reqArg (s.request n) 0) (l.flatMap (fun x => leBytes 32 x.toNat)) = some u →
      exec (.logread n) s = .next (u.respond n 0 l.length)) ∧
    (s.hostPut (s.requester' n) (reqArg (s.request n) 0) (l.flatMap (fun x => leBytes 32 x.toNat)) = none →
      exec (.logread n) s = .next (s.refuse n 9 331)) := by
  subst hl
  constructor
  · intro u hu
    simp only [exec, execLogread, h.serve (cmd := isCmd 3) rfl, hu]
  · intro hu
    simp only [exec, execLogread, h.serve (cmd := isCmd 3) rfl, hu]

theorem exec_slotread (h : Serves s n 4) {k : Fin 64} (hk : reqArg (s.request n) 0 = k.val) :
    exec (.slotread n) s = .next (s.respond n 0 (s.router.get k).status.toNat) := by
  simp [exec, execSlotread, h.serve (cmd := isCmd 4) rfl, hk]

theorem exec_slotread_refused (h : Serves s n 4) (hk : 64 ≤ reqArg (s.request n) 0) :
    exec (.slotread n) s = .next (s.refuse n 4 332) := by
  simp [exec, execSlotread, h.serve (cmd := isCmd 4) rfl, Nat.not_lt.mpr hk]

/-! ## PAGEREQ (R211; log 46) -/

/-- A partition in a running plan holds the page of a VA in memory of a chip. -/
def PageHeld (s : State) (a : Nat) : Prop := ∃ x ∈ s.mappers a, teStier x.2.2 ≠ 6 ∧ (s.part x.1).running = true

theorem pageHeld_iff {a : Nat} :
    (s.mappers a).any (fun x => decide (teStier x.2.2 ≠ 6) && (s.part x.1).running) = true ↔ PageHeld s a := by
  simp [PageHeld]

section
variable (h : Serves s n 5)
include h

theorem exec_pagereq_held (hh : PageHeld s (reqArg (s.request n) 0)) : exec (.pagereq n) s = .next (s.respond n 6 0) := by
  simp only [exec, execPagereq, h.serve (cmd := isCmd 5) rfl, pageHeld_iff.mpr hh, if_true]

theorem exec_pagereq_refused (hh : ¬PageHeld s (reqArg (s.request n) 0))
    (hl : ∀ x ∈ s.mappers (reqArg (s.request n) 0), teStier x.2.2 ≠ 6) :
    exec (.pagereq n) s = .next (s.refuse n 4 211) := by
  have hnone : (s.mappers (reqArg (s.request n) 0)).filter (fun x => decide (teStier x.2.2 = 6)) = [] := by simpa using hl
  simp only [exec, execPagereq, h.serve (cmd := isCmd 5) rfl, if_neg (mt pageHeld_iff.mp hh), hnone]

/-- The first partition whose table maps the page to the host asks for it. -/
theorem exec_pagereq_asked {x : Nat × BitVec 128} {before more : List (PartId × Nat × BitVec 128)}
    (hl : s.mappers (reqArg (s.request n) 0) = before ++ (q, x) :: more) (hh : ¬PageHeld s (reqArg (s.request n) 0))
    (hx : teStier x.2 = 6) (hb : ∀ y ∈ before, teStier y.2.2 ≠ 6) :
    exec (.pagereq n) s =
      .next (({ s with yard := { s.yard with hostWants := s.yard.hostWants ++ [(q.val, x.1)] } } : State).respond n 0 0) := by
  have hnone : before.filter (fun x => decide (teStier x.2.2 = 6)) = [] := by simpa using hb
  have hfirst : (s.mappers (reqArg (s.request n) 0)).filter (fun x => decide (teStier x.2.2 = 6)) =
      (q, x) :: more.filter (fun x => decide (teStier x.2.2 = 6)) := by
    simp [hl, hnone, hx]
  simp only [exec, execPagereq, h.serve (cmd := isCmd 5) rfl, if_neg (mt pageHeld_iff.mp hh), hfirst]

end

/-! ## HOSTREG, CERT and BADCMD (R331, R332, R336; log 68) -/

theorem exec_hostreg (h : Serves s n 11) (ha : reqArg (s.request n) 2 = 0) :
    exec (.hostreg n) s = .next (({ s with yard := { s.yard with conns := s.yard.conns.map (fun c => if c.num = s.requester' n then
      { c with region := some (BitVec.ofNat 64 (reqArg (s.request n) 0), BitVec.ofNat 32 (reqArg (s.request n) 1),
        reqArg (s.request n) 1 / 2 ^ 32) } else c) } } : State).respond n 0 0) := by
  simp [exec, execHostreg, h.serve (cmd := isCmd 11) rfl, ha]

theorem exec_hostreg_refused (h : Serves s n 11) (ha : reqArg (s.request n) 2 ≠ 0) :
    exec (.hostreg n) s = .next (s.respond n 3 0) := by
  simp [exec, execHostreg, h.serve (cmd := isCmd 11) rfl, ha]

theorem exec_badcmd (h : Serves s n k) (hk : k = 0 ∨ 12 < k) : exec (.badcmd n) s = .next (s.respond n 8 0) := by
  have h6 : reqCmd (s.request n) ≠ 6 := by
    rw [h.cmd]
    omega
  rw [exec, execBadcmd, h.serve]
  · rw [if_neg h6]
  · simp [hk]

/-! ## The obligation -/

/-- Settles O51: what each command of the mailbox does where it is served. -/
theorem mailboxCommands : Obligations.MailboxCommands := by
  intro n s r arg conn
  have harg : arg = reqArg r := funext fun k => (reqArg_eq r k).symm
  clear_value arg
  subst harg
  refine ⟨fun h => ⟨exec_load_none h, fun img hg => ⟨exec_load_length h hg, fun hl => ⟨fun rule hf => ?_, fun hf => ?_, fun l hf => ?_⟩⟩⟩,
    fun h => ⟨exec_stop_refused h, fun q hq hm => ?_⟩, fun h => exec_logread h rfl,
    fun h => ⟨fun k => exec_slotread h, exec_slotread_refused h⟩,
    fun h => ⟨exec_pagereq_held h, exec_pagereq_refused h, fun q x before more hl hh hx hb => exec_pagereq_asked h hl hh hx hb⟩,
    fun h ha => ⟨_, exec_hostreg h ha, (sameDevices_setYard.trans sameDevices_respond).sameMemory, by simp only [State.respond]; rfl⟩,
    fun h ha => exec_hostreg_refused h ha, fun h => ?_, fun k h hk => exec_badcmd h hk⟩
  · rw [exec_load_image h hg hl, load_refused hf]
  · rw [exec_load_image h hg hl, load_now hf]
    cases s.loadPlan img <;> rfl
  · obtain ⟨hdev, hq, hp⟩ := load_waits (n := n) hf
    exact ⟨_, exec_load_image h hg hl, hdev.bays, hdev.sameMemory, hq, hp⟩
  · obtain ⟨hring, hlpddr, hhost⟩ := dissolve_devices (s := s) (q := q)
    exact ⟨_, exec_stop h hq hm, respond_part.trans part_dissolve_self,
      fun q' hq' => respond_part.trans (part_dissolve_ne hq'), sameDevices_respond.ring.trans hring,
      sameDevices_respond.lpddr.trans hlpddr, sameDevices_respond.hostMem.trans hhost, fun b => respond_bay.trans bay_dissolve⟩
  · simp only [exec, execCert, h.serve (cmd := isCmd 12) rfl]
    cases s.hostPut conn (reqArg r 0) (Config.certificate.take 2048) <;> rfl

end Sys2Proof
end

section
/-!
The yard: boot, firmware, attestation, monitors and servicing (R52, R335 to R339; log 61, log 68, log 69, log 101).
-/

namespace Sys2Proof
open Machine Laws

variable {s : State} {n : Nat}

/-! ## Boot and the firmware slots (R335, R339; log 101) -/

/-- What the ROM makes of an image that TFTP has returned. -/
theorem tryBoot_eq (h : s.yard.fetched ≠ []) : s.tryBoot =
    if firmwarePasses s.yard.fetched = true then
      { s with yard := { s.yard with boot := .running, fwA := s.yard.fetched, activeB := false, fetched := [] } }
    else { s with yard := { s.yard with boot := .rom (s.clock + 12000000000), fetched := [] } } := by
  rw [State.tryBoot, if_neg h]
  rfl

theorem exec_boot (h : s.yard.boot = .rom 0) : exec .boot s = .next s.tryBoot := by
  simp only [exec, execBoot, h, if_true]

theorem exec_bootRetry {due : Nat} (h : s.yard.boot = .rom due) (h0 : due ≠ 0) (hd : due ≤ s.clock) :
    exec .bootRetry s = .next s.tryBoot := by
  simp only [exec, execBootRetry, h, ne_eq, h0, not_false_eq_true, hd, and_self, if_true]

theorem exec_fwstage (h : Serves s n 7) {fw : List Byte}
    (hg : s.hostGet (s.requester' n) (reqArg (s.request n) 0) (reqArg (s.request n) 1) = some fw) :
    ∃ t, exec (.fwstage n) s = .next t ∧ SameMemory s t ∧ t.yard.staged = firmwarePasses fw ∧
      t.yard.fwA = (if s.yard.activeB = true then fw else s.yard.fwA) ∧
      t.yard.fwB = (if s.yard.activeB = true then s.yard.fwB else fw) := by
  simp only [exec, execFwstage, h.serve (cmd := isCmd 7) rfl, hg]
  refine ⟨_, rfl, (sameDevices_setYard.trans sameDevices_respond).sameMemory, ?_⟩
  cases s.yard.activeB <;> simp [State.respond]

theorem exec_fwswitch_unstaged (h : Serves s n 8) (hs : s.yard.staged = false) :
    exec (.fwswitch n) s = .next (s.respond n 7 0) := by
  simp only [exec, execFwswitch, h.serve (cmd := isCmd 8) rfl, hs, Bool.false_eq_true, if_false]

theorem exec_fwswitch_staged (h : Serves s n 8) (hs : s.yard.staged = true) : exec (.fwswitch n) s =
    .next (({ s with yard := { s.yard with switching := some s.runningIds } } : State).respond n 0 0) := by
  simp only [exec, execFwswitch, h.serve (cmd := isCmd 8) rfl, hs, if_true]

theorem exec_firmwareActivation {l : List Nat} (h : s.yard.switching = some l) (hl : ∀ q ∈ l, q ∉ s.runningIds) :
    exec .firmwareActivation s =
      .next { s with yard := { s.yard with activeB := !s.yard.activeB, staged := false, switching := none } } := by
  have hall : l.all (fun q => !s.runningIds.contains q) = true := by simpa using hl
  simp only [exec, execFirmwareActivation, h, hall, if_true]

/-! ## Servicing (R338; log 61) -/

theorem exec_retireBent_refused (h : Serves s n 6)
    (hr : 8 ≤ reqArg (s.request n) 1 ∨ ∃ (b : Fin 8) (q : PartId), reqArg (s.request n) 1 = b.val ∧ s.partOfBent b = some q ∧
      (s.part q).mode ≠ .stopped) :
    exec (.retireBent n) s = .next (if Config.serviceCode (reqArg (s.request n) 0) = 0 then s.refuse n 4 338 else s) := by
  rw [exec, execRetireBent, h.service]
  split
  · rcases hr with hr | ⟨b, q, hb, hq, hm⟩
    · rw [if_neg (by omega)]
    · simp only [hb, Fin.ofNat_val_eq_self, hq, hm, decide_false, Bool.false_eq_true, and_false, if_false]
  · rfl

theorem exec_retireBent (h : Serves s n 6) {b : Fin 8} (hb : reqArg (s.request n) 1 = b.val)
    (hq : ∀ q, s.partOfBent b = some q → (s.part q).mode = .stopped) :
    exec (.retireBent n) s = .next (if Config.serviceCode (reqArg (s.request n) 0) = 0 then
      (s.onBent b (fun x => { x with retired := true })).respond n 0 0 else s) := by
  rw [exec, execRetireBent, h.service]
  split
  · simp only [hb, Fin.ofNat_val_eq_self]
    cases ho : s.partOfBent b with
    | none => simp only [b.isLt, and_self, if_true]
    | some q => simp only [b.isLt, hq q ho, decide_true, and_self, if_true]
  · rfl

@[simp] theorem onBent_self {b : Fin 8} {f : Bent → Bent} : (s.onBent b f).bents.get b = f (s.bents.get b) := by
  simp [State.onBent, Vector.get_eq_getElem]

theorem respond_bents {status arg0 : Nat} : (s.respond n status arg0).bents = s.bents := by
  obtain ⟨m, l, he⟩ := respond_eq (s := s) (n := n) (status := status) (arg0 := arg0)
  rw [he]

theorem sameDevices_refuse {status rule : Nat} : SameDevices s (s.refuse n status rule) :=
  SameDevices.trans (t := s.log (.note rule n)) ⟨rfl, rfl, rfl, rfl, rfl⟩ sameDevices_respond

theorem sameDevices_freeWord : SameDevices s s.freeWord.2 := ⟨rfl, rfl, rfl, rfl, rfl⟩

theorem sameDevices_onBent {b : Fin 8} {f : Bent → Bent} : SameDevices s (s.onBent b f) := ⟨rfl, rfl, rfl, rfl, rfl⟩

theorem sameDevices_clearShims {b : Fin 8} : SameDevices s (s.clearShims b) := by
  simp only [State.clearShims]
  exact ⟨rfl, rfl, rfl, rfl, rfl⟩

/-- A retired bent that passes recalibration is no longer retired (log 69). -/
theorem exec_readmitBent (h : Serves s n 6) {b : Fin 8} (hb : reqArg (s.request n) 1 = b.val)
    (hr : (s.bents.get b).retired = true) :
    ∃ t, exec (.readmitBent n) s = .next t ∧ t.ring = s.ring ∧ t.lpddr = s.lpddr ∧ (t.bents.get b).retired =
      (if Config.serviceCode (reqArg (s.request n) 0) = 1 then !(s.freeWord.1.getLsbD 0) else true) := by
  rw [exec, execReadmitBent, h.service]
  split
  · simp only [hb, Fin.ofNat_val_eq_self, hr, b.isLt, true_and]
    cases hw : s.freeWord.1.getLsbD 0 with
    | false =>
      have hdev := (sameDevices_freeWord (s := s)).trans (sameDevices_refuse (n := n) (status := 4) (rule := 338))
      refine ⟨_, rfl, hdev.ring, hdev.lpddr, ?_⟩
      rw [if_neg (by simp), State.refuse, respond_bents]
      exact hr
    | true =>
      have hdev := ((sameDevices_freeWord (s := s)).trans (sameDevices_clearShims (b := b))).trans (sameDevices_onBent (b := b)
        (f := fun x => { x with retired := false, badChannels := [], marked := [] }))
      have hall := hdev.trans (sameDevices_respond (n := n) (status := 0) (arg0 := 0))
      refine ⟨_, rfl, hall.ring, hall.lpddr, ?_⟩
      rw [if_pos rfl, respond_bents, onBent_self]
      rfl
  · exact ⟨s, rfl, rfl, rfl, hr⟩

theorem exec_reloadPartition (h : Serves s n 6) {q : PartId} (hq : reqArg (s.request n) 1 = q.val)
    (hm : (s.part q).mode ≠ .unformed) (hf : (s.dissolve q).forming (s.part q).image = .now) :
    exec (.reloadPartition n) s = .next (if Config.serviceCode (reqArg (s.request n) 0) = 2 then
      (s.dissolve q).answerLoad n (s.part q).image ((s.dissolve q).loadPlan (s.part q).image) else s) := by
  rw [exec, execReloadPartition, h.service]
  split
  · rw [hq, Fin.ofNat_val_eq_self, if_pos ⟨q.isLt, hm⟩]
    simp only [hf]
  · rfl

theorem exec_retireChannel (h : Serves s n 6) {b : Fin 8} (hb : reqArg (s.request n) 1 / 12 = b.val)
    (hr : (s.bents.get b).retired = true) :
    ∃ t, exec (.retireChannel n) s = .next t ∧ ∀ c, c ∈ (t.bents.get b).badChannels ↔
      c ∈ (s.bents.get b).badChannels ∨ (Config.serviceCode (reqArg (s.request n) 0) = 3 ∧ c = reqArg (s.request n) 1) := by
  have hlt : reqArg (s.request n) 1 < 96 := by omega
  rw [exec, execRetireChannel, h.service]
  split
  next hk =>
    rw [hb, Fin.ofNat_val_eq_self, if_pos ⟨hlt, hr⟩]
    refine ⟨_, rfl, fun c => ?_⟩
    rw [respond_bents, onBent_self]
    simp [hk, or_comm]
  next hk => exact ⟨s, rfl, fun c => by simp [hk]⟩

theorem exec_degradeLanes (h : Serves s n 6) {p : Fin 6} (hp : reqArg (s.request n) 1 = p.val) :
    ∃ t, exec (.degradeLanes n) s = .next t ∧
      (t.links.get p).lanes = (if Config.serviceCode (reqArg (s.request n) 0) = 4 then 12 else (s.links.get p).lanes) ∧
      (t.links.get p).width = (s.links.get p).width := by
  rw [exec, execDegradeLanes, h.service]
  split
  · simp only [hp, p.isLt, dif_pos]
    exact ⟨_, rfl, by simp [State.respond, Vector.get_eq_getElem], by simp [State.respond, Vector.get_eq_getElem]⟩
  · exact ⟨s, rfl, rfl, rfl⟩

theorem exec_recalibrateMonitors (h : Serves s n 6) :
    ∃ t, exec (.recalibrateMonitors n) s = .next t ∧ SameMemory s t ∧ t.yard.recalibrate =
      (if Config.serviceCode (reqArg (s.request n) 0) = 5 then decide (s.runningIds ≠ []) else s.yard.recalibrate) := by
  rw [exec, execRecalibrateMonitors, h.service]
  split
  · exact ⟨_, rfl, (sameDevices_setYard.trans sameDevices_respond).sameMemory, by simp [State.respond]⟩
  · exact ⟨s, rfl, (SameDevices.refl s).sameMemory, rfl⟩

/-- A code of no operation is refused as a servicing request is. -/
theorem exec_badcmd_service (h : Serves s n 6) : exec (.badcmd n) s =
    .next (if 6 ≤ Config.serviceCode (reqArg (s.request n) 0) then s.refuse n 4 338 else s) := by
  rw [exec, execBadcmd]
  split
  next hk =>
    rw [h.serve, if_pos h.cmd]
    simp [hk]
  next hk => simp [State.serve, h.cmd, hk]

/-! ## The obligation -/

/-- Settles O52: what boots, is staged, switched to, signed and read, and what each servicing operation does. -/
theorem yardServices : Obligations.YardServices := by
  intro n s r arg img booted code unit serviced
  have harg : arg = reqArg r := funext fun k => (reqArg_eq r k).symm
  clear_value arg
  subst harg
  refine ⟨fun hb hi => ?_, fun due hb h0 hd hi => ?_, fun h fw => exec_fwstage h, exec_fwswitch_unstaged,
    fun h hs => ⟨_, exec_fwswitch_staged h hs, (sameDevices_setYard.trans sameDevices_respond).sameMemory, ?_, ?_⟩,
    fun l hl => exec_firmwareActivation hl, fun h => ?_, fun h => ?_, fun h => ⟨fun b q hb hq hm => ?_, fun b hb => exec_retireBent h hb,
      fun hu => exec_retireBent_refused h (.inl hu), fun b => exec_readmitBent h, fun q hq hm hf => ?_, fun b => exec_retireChannel h,
      fun p => exec_degradeLanes h, exec_recalibrateMonitors h, exec_badcmd_service h⟩⟩
  · rw [exec_boot hb, tryBoot_eq hi]
  · rw [exec_bootRetry hb h0 hd, tryBoot_eq hi]
  · simp only [State.respond]
  · simp only [State.respond]
  · simp only [exec, execQuote, h.serve (cmd := isCmd 9) rfl]
    rfl
  · simp only [exec, execMonread, h.serve (cmd := isCmd 10) rfl]
    cases s.reading (monitorId (reqArg (s.request n) 0)) <;> rfl
  · exact exec_retireBent_refused h (.inr ⟨b, q, hb, hq, hm⟩)
  · refine (exec_reloadPartition h hq hm hf).trans ?_
    cases (s.dissolve q).loadPlan (s.part q).image <;> rfl

end Sys2Proof
end

section
/-!
SPAWN and WHEEL (R47 to R50, R425, R426, R439), and the access of a bay to its own stores that they make (R23, R221, R248).
-/

namespace Sys2Proof
open Machine Laws

variable {s : State} {q : PartId} {b : BayId}

/-! ## The partition of a bay -/

theorem partAt_of_partOf (h : s.partOf b = some q) : s.partAt b = s.part q := by
  simp only [State.partAt, h]

/-! ## Accesses of a bay to its own stores (R221, R248) -/

section
variable {k : BayStore} {off n : Nat} {write : Bool}

theorem useStore_cases : s.useStore b k off n write = s ∨
    ∃ q, s.partOf b = some q ∧ s.useStore b k off n write = s.race q := by
  unfold State.useStore
  split
  · exact .inl rfl
  next q hq =>
    dsimp only
    split
    · exact .inr ⟨q, hq, rfl⟩
    · exact .inl rfl

/-- Where no mark lies in a store of a bay and no walk is under way, an access to a store races with nothing. -/
theorem useStore_of_quiet (ht : ∀ a ∈ s.touches, a.key.1 < 32) (ha : ∀ q, s.partOf b = some q → (s.part q).asyncs = []) :
    s.useStore b k off n write = s := by
  unfold State.useStore
  split
  · rfl
  next q hq =>
    refine if_neg ?_
    simp only [ha q hq, List.any_nil, Bool.or_false, List.any_eq_true, not_exists, not_and, Bool.not_eq_true]
    intro a hmem
    have hkey : a.key.1 ≠ (storeKey b k off).1 := by
      have := ht a hmem
      simp only [storeKey]
      omega
    simp [Touch.clashes, hkey]

theorem raceNoted_useStore : RaceNoted b s (s.useStore b k off n write) :=
  ⟨useStore_cases, useStore_of_quiet⟩

theorem notesOnly_useStore : NotesOnly s (s.useStore b k off n write) := by
  rcases useStore_cases (s := s) (b := b) (k := k) (off := off) (n := n) (write := write) with h | ⟨q, -, h⟩
  · rw [h]
    exact .refl s
  · rw [h]
    exact notesOnly_race

@[simp] theorem useStore_cur : (s.useStore b k off n write).cur = s.cur := by
  rcases useStore_cases (s := s) (b := b) (k := k) (off := off) (n := n) (write := write) with h | ⟨q, -, h⟩ <;> rw [h]
  rfl

@[simp] theorem useStore_bay {c : BayId} : (s.useStore b k off n write).bay c = s.bay c := by
  rw [State.bay, notesOnly_useStore.bays, State.bay]

theorem useStore_part_ne {r : PartId} (h : s.partOf b = some q) (hr : r ≠ q) :
    (s.useStore b k off n write).part r = s.part r := by
  rcases useStore_cases (s := s) (b := b) (k := k) (off := off) (n := n) (write := write) with he | ⟨q', hq', he⟩
  · rw [he]
  · obtain rfl : q' = q := Option.some.inj (hq'.symm.trans h)
    rw [he]
    exact State.part_onPart_ne s q' r _ hr

/-- What a bay holds has no part in whether an access to its stores races. -/
theorem useStore_onBay_parts {c : BayId} {f : Bay → Bay} :
    ((s.onBay c f).useStore b k off n write).parts = (s.useStore b k off n write).parts := by
  unfold State.useStore
  rw [State.partOf_onBay]
  cases s.partOf b with
  | none => rfl
  | some q =>
    dsimp only
    rw [apply_ite State.parts, apply_ite State.parts]
    rfl

end

/-! ## The outcome told in a predicate (R47, R289) -/

theorem setPred_get {x : Bay} {n k : Fin 7} {v : Bool} :
    (x.setPred (n.val + 1) v).regs.p.get k = if k = n then v else x.regs.p.get k := by
  have hkn : n.val = k.val ↔ k = n := by rw [Fin.ext_iff, eq_comm]
  simp [Bay.setPred, Vector.get_eq_getElem, Vector.getElem_setIfInBounds, hkn]

/-- The bay in issue has read its argument block, and its predicate n holds the outcome v, kept for a rerun. -/
def replied (s : State) (off : Nat) (n : Fin 7) (v : Bool) (t r : Nat) : State :=
  (s.useStore s.cur .scratch off 64 false).onMe (fun b => (b.setPred (n.val + 1) v).keepResult t r)

section
variable {off t r : Nat} {n : Fin 7} {v : Bool}

@[simp] theorem replied_cur : (replied s off n v t r).cur = s.cur := by
  simp [replied]

theorem replied_bay_cur : (replied s off n v t r).bay s.cur = (s.me.setPred (n.val + 1) v).keepResult t r := by
  simp [replied, State.me, State.onMe]

theorem replied_bay_ne (h : b ≠ s.cur) : (replied s off n v t r).bay b = s.bay b := by
  rw [replied, State.onMe, useStore_cur, State.bay_onBay_ne _ _ _ _ h, useStore_bay]

theorem replied_pred {k : Fin 7} : (replied s off n v t r).me.regs.p.get k = if k = n then v else s.me.regs.p.get k := by
  rw [State.me, replied_cur, replied_bay_cur]
  exact setPred_get

theorem replied_parts : (replied s off n v t r).parts = (s.useStore s.cur .scratch off 64 false).parts := rfl

theorem replied_part_ne {r' : PartId} (h : s.partOf s.cur = some q) (hr : r' ≠ q) :
    (replied s off n v t r).part r' = s.part r' :=
  useStore_part_ne h hr

theorem replied_part : ∃ race, (replied s off n v t r).part q = { s.part q with racing := race } :=
  notesOnly_useStore.part q

theorem replied_wheel : ((replied s off n v t r).part q).wheel = (s.part q).wheel := by
  obtain ⟨race, h⟩ := replied_part (s := s) (q := q) (off := off) (n := n) (v := v) (t := t) (r := r)
  rw [h]

theorem replied_entries : ((replied s off n v t r).part q).entries = (s.part q).entries := by
  obtain ⟨race, h⟩ := replied_part (s := s) (q := q) (off := off) (n := n) (v := v) (t := t) (r := r)
  rw [h]

theorem replied_spawnq : ((replied s off n v t r).bay b).spawnq = (s.bay b).spawnq := by
  by_cases h : b = s.cur
  · rw [h, replied_bay_cur]
    rfl
  · rw [replied_bay_ne h]

theorem replied_sameMemory : SameMemory s (replied s off n v t r) := by
  refine ⟨notesOnly_useStore.ring, notesOnly_useStore.lpddr, notesOnly_useStore.hostMem, fun b => ?_⟩
  by_cases h : b = s.cur
  · rw [h, replied_bay_cur]
    rfl
  · rw [replied_bay_ne h]

end

/-! ## SPAWN and WHEEL (R425, R426, R439) -/

/-- A trigger with a predicate, a template of a bay of the partition, its arguments in the scratchpad and no hold passes. -/
theorem spawnChk_passes {id lo : Nat} {v : Val} (hq : s.partOf s.cur = some q) (hw : v.addr.toNat < 2 ^ lo) (hlo : lo ≤ 72)
    (hp : spawnPred v ≠ 0) (hb : (s.part q).hasBay (spawnBay v) = true)
    (ht : ((s.part q).template (spawnBay v) (spawnIndex v)).isSome = true) (ho : spawnArgs v + 64 ≤ s.half s.cur 2097152)
    (hh : (s.part q).held = false) : spawnChk id lo v s = none := by
  have hz : bits v.addr lo (72 - lo) = 0 := by rw [← div_eq_bits hlo, Nat.div_eq_of_lt hw]
  have hsize : ¬s.storeSize s.cur .scratch < spawnArgs v + 64 := Nat.not_lt.mpr ho
  simp only [spawnChk, partAt_of_partOf hq, hz, hp, ne_eq, not_true_eq_false, or_self, if_false, hb, Bool.true_eq_false,
    Option.isNone_eq_false_iff.mpr ht, Bool.false_eq_true, hsize, hh]

/-- The spawn queue of the target bay with an entry of the bay in issue. -/
def spawnInto (s : State) (target : BayId) (e : Spawn) : State :=
  if (s.bay target).spawnFull then s else s.onBay target (fun x => { x with spawnq := x.spawnq ++ [e] })

section
variable {target : BayId} {e : Spawn}

theorem spawnInto_cur : (spawnInto s target e).cur = s.cur := by
  unfold spawnInto
  split <;> rfl

theorem spawnInto_bay_ne (h : b ≠ target) : (spawnInto s target e).bay b = s.bay b := by
  unfold spawnInto
  split
  · rfl
  · exact State.bay_onBay_ne s target b _ h

theorem spawnInto_spawnq : ((spawnInto s target e).bay target).spawnq =
    if (s.bay target).spawnFull then (s.bay target).spawnq else (s.bay target).spawnq ++ [e] := by
  unfold spawnInto
  split
  · rfl
  · rw [State.bay_onBay]

theorem spawnInto_pred {k : Fin 7} : (spawnInto s target e).me.regs.p.get k = s.me.regs.p.get k := by
  rw [State.me, spawnInto_cur]
  by_cases h : s.cur = target
  · unfold spawnInto
    split
    · rfl
    · rw [h, State.bay_onBay, State.me, h]
  · rw [spawnInto_bay_ne h, State.me]

theorem spawnInto_sameMemory : SameMemory s (spawnInto s target e) := by
  unfold spawnInto
  split
  · exact ⟨rfl, rfl, rfl, fun _ => rfl⟩
  · refine ⟨rfl, rfl, rfl, fun b => ?_⟩
    by_cases h : b = target
    · rw [h, State.bay_onBay]
      rfl
    · rw [State.bay_onBay_ne _ _ _ _ h]

theorem spawnInto_useStore_parts {k : BayStore} {off n : Nat} {write : Bool} :
    ((spawnInto s target e).useStore b k off n write).parts = (s.useStore b k off n write).parts := by
  unfold spawnInto
  split
  · rfl
  · exact useStore_onBay_parts

end

theorem exec_spawn {c : Ctl} {n : Fin 7} (hm : Made c s) (hchk : spawnChk 288 42 (movedVal c s) s = none)
    (hp : spawnPred (movedVal c s) = n.val + 1) :
    let v := movedVal c s
    let p := s.partAt s.cur
    let target : BayId := Fin.ofNat 192 (spawnBay v)
    let full := (s.bay target).spawnFull
    exec (.spawn c) s = .next (replied
      (spawnInto s target ⟨p.framec, p.polec, s.cur.val, spawnIndex v, argWords s.me.scratch (spawnArgs v)⟩)
      (spawnArgs v) n (!full) p.time (if full then 0 else 1)) := by
  simp only [exec, execSpawn, move_made hm hchk, hp, replied, spawnInto_cur]
  rfl

/-- The timer wheel of a partition with an entry. -/
def wheelInto (s : State) (q : PartId) (w : WheelEnt) : State :=
  if 256 ≤ (s.part q).wheel.length then s else s.onPart q (fun x => { x with wheel := x.wheel ++ [w] })

section
variable {w : WheelEnt}

theorem wheelInto_bays : (wheelInto s q w).bays = s.bays := by
  unfold wheelInto
  split <;> rfl

theorem wheelInto_cur : (wheelInto s q w).cur = s.cur := by
  unfold wheelInto
  split <;> rfl

theorem wheelInto_part_ne {r : PartId} (h : r ≠ q) : (wheelInto s q w).part r = s.part r := by
  unfold wheelInto
  split
  · rfl
  · exact State.part_onPart_ne s q r _ h

theorem wheelInto_part : (wheelInto s q w).part q = { s.part q with
    wheel := if 256 ≤ (s.part q).wheel.length then (s.part q).wheel else (s.part q).wheel ++ [w] } := by
  unfold wheelInto
  split
  · rfl
  · rw [State.part_onPart]

theorem wheelInto_partOf : (wheelInto s q w).partOf b = s.partOf b := by
  have hpart (r : PartId) : ((wheelInto s q w).part r).formed = (s.part r).formed ∧ ((wheelInto s q w).part r).hdr = (s.part r).hdr := by
    by_cases h : r = q
    · subst h
      rw [wheelInto_part]
      exact ⟨rfl, rfl⟩
    · rw [wheelInto_part_ne h]
      exact ⟨rfl, rfl⟩
  simp only [State.partOf, State.partOfBent, (hpart _).1, (hpart _).2]

theorem wheelInto_sameMemory : SameMemory s (wheelInto s q w) := by
  unfold wheelInto
  split <;> exact ⟨rfl, rfl, rfl, fun _ => rfl⟩

end

theorem exec_wheel {c : Ctl} {n : Fin 7} (hm : Made c s) (hq : s.partOf s.cur = some q)
    (hchk : spawnChk 298 46 (movedVal c s) s = none) (hp : spawnPred (movedVal c s) = n.val + 1) :
    let v := movedVal c s
    let p := s.part q
    let full := decide (256 ≤ p.wheel.length)
    exec (.wheel c) s = .next (replied
      (wheelInto s q ⟨spawnBay v, spawnIndex v, wheelFrame p (vaNat (s.me.aSeen (bits v.addr 42 4))),
        argWords s.me.scratch (spawnArgs v)⟩)
      (spawnArgs v) n (!full) p.time (if full then 0 else 1)) := by
  simp only [exec, execWheel, move_made hm hchk, hp, hq, partAt_of_partOf hq, replied, wheelInto_cur, decide_eq_true_eq]
  rfl

theorem SameMemory.trans {t u : State} (h : SameMemory s t) (h' : SameMemory t u) : SameMemory s u := by
  obtain ⟨hr, hl, hh, hb⟩ := h
  obtain ⟨hr', hl', hh', hb'⟩ := h'
  exact ⟨hr'.trans hr, hl'.trans hl, hh'.trans hh, fun b => (hb' b).trans (hb b)⟩

/-! ## The obligation -/

/-- Settles O34: what SPAWN and WHEEL put in their queues, and where a full queue leaves them. -/
theorem spawns : Obligations.Spawns := by
  intro c s q n hm hq x p index bay off args hpred hbay htempl hoff hheld
  have hindex : spawnIndex (movedVal c s) = index := by simp [spawnIndex, bits_eq, index, x]
  have hb : spawnBay (movedVal c s) = bay := bits_eq ..
  have ho : spawnArgs (movedVal c s) = off := congrArg (64 * ·) (bits_eq ..)
  have hp : spawnPred (movedVal c s) = n.val + 1 := (bits_eq ..).trans hpred
  have hchk (id lo : Nat) (hw : x.toNat < 2 ^ lo) (hlo : lo ≤ 72) : spawnChk id lo (movedVal c s) s = none :=
    spawnChk_passes hq hw hlo (by omega) (by rw [hb]; exact hbay) (by rw [hb, hindex]; exact htempl) (by rw [ho]; exact hoff) hheld
  have hlt : bay < 192 := by
    simp only [Part.hasBay, Bool.and_eq_true, decide_eq_true_eq] at hbay
    exact hbay.1
  have htarget (target : BayId) (h : target.val = bay) : Fin.ofNat 192 bay = target := by rw [← h, Fin.ofNat_val_eq_self]
  refine ⟨fun hw => ?_, fun hw => ?_⟩
  · have he := exec_spawn hm (hchk 288 42 hw (by decide)) hp
    simp only [hb, hindex, ho, partAt_of_partOf hq] at he
    refine ⟨_, he, spawnInto_sameMemory.trans replied_sameMemory,
      ⟨s.useStore s.cur .scratch off 64 false, raceNoted_useStore, ?_⟩, fun b hc ht => ?_, fun target ht => ?_⟩
    · rw [replied_parts, spawnInto_cur, spawnInto_useStore_parts]
    · rw [replied_bay_ne (by rwa [spawnInto_cur]), spawnInto_bay_ne]
      rintro rfl
      exact ht (Nat.mod_eq_of_lt hlt)
    · rw [htarget target ht]
      refine ⟨?_, fun k hk => ?_, ?_⟩
      · rw [replied_pred, if_pos rfl]
        simp [Bay.spawnFull]
      · rw [replied_pred, if_neg hk, spawnInto_pred]
      · rw [replied_spawnq, spawnInto_spawnq]
        by_cases hfull : (s.bay target).spawnq.length + (s.bay target).freed < 64
        · simp [Bay.spawnFull, hfull, p, args]
        · simp [Bay.spawnFull, hfull, Nat.not_lt.mp hfull]
  · have he := exec_wheel hm hq (hchk 298 46 hw (by decide)) hp
    simp only [hb, hindex, ho, bits_eq, vaNat_eq] at he
    refine ⟨_, he, wheelInto_sameMemory.trans replied_sameMemory, fun b hc => ?_, fun q' hq' => ?_, ?_, ?_, fun k hk => ?_, ?_⟩
    · rw [replied_bay_ne (by rwa [wheelInto_cur]), State.bay, wheelInto_bays, State.bay]
    · rw [replied_part_ne (by rw [wheelInto_cur, wheelInto_partOf, hq]) hq', wheelInto_part_ne hq']
    · rw [replied_entries, wheelInto_part]
    · rw [replied_pred, if_pos rfl]
      simp [p]
    · rw [replied_pred, if_neg hk, State.me, wheelInto_cur, State.bay, wheelInto_bays]
      rfl
    · rw [replied_wheel, wheelInto_part]
      by_cases hfull : (s.part q).wheel.length < 256
      · simp [hfull, Nat.not_le.mpr hfull, p, args, x]
      · simp [hfull, Nat.not_lt.mp hfull, p]

end Sys2Proof
end

section
/-!
Frame starts, releases, holds and task starts (R30, R35 to R40, R49, R62, R299, R314, R467).

The first part is a frame: none of the work of a frame start moves PTP time, or the pole clock of a partition. Its lemmas are a simp
set, one per operation that FRAME_START calls, as those of clocks are.
-/

namespace Sys2Proof
open Machine Laws

variable {s : State} {q r : PartId} {b : BayId}

/-! ## PTP time and the pole clock of a partition -/

/-- PTP time, where the pole clock of a partition stands, and whether a frame of it is about to start. -/
def poleAt (q : PartId) (s : State) : Nat × Nat × Nat × Bool :=
  (s.ptp, (s.part q).framec, (s.part q).polec, (s.part q).starting)

theorem poleAt_eq_iff {f c : Nat} {w : Bool} {t : State} :
    poleAt q t = (s.ptp, f, c, w) ↔ t.ptp = s.ptp ∧ (t.part q).framec = f ∧ (t.part q).polec = c ∧ (t.part q).starting = w := by
  simp [poleAt]

/-- Every field but PTP time and the partitions may be replaced. -/
@[simp] theorem poleAt_with {clock ptpSixths bays phys bents ring lpddr refresh chipmap linkTab links router arrivals scarf yard
    hostMem flash queuePairs dirty rebuild inputs outs todo cur phase free vclocks touches nextTag later} :
    poleAt q { s with
      clock, ptpSixths, bays, phys, bents, ring, lpddr, refresh, chipmap, linkTab, links, router, arrivals, scarf, yard, hostMem, flash,
      queuePairs, dirty, rebuild, inputs, outs, todo, cur, phase, free, vclocks, touches, nextTag, later } = poleAt q s := rfl

@[simp] theorem poleAt_ite {c : Prop} [Decidable c] {x y : State} :
    poleAt q (if c then x else y) = if c then poleAt q x else poleAt q y :=
  apply_ite (poleAt q) c x y

theorem poleAt_foldl {α : Type} {f : State → α → State} {l : List α} (hf : ∀ t x, poleAt q (f t x) = poleAt q t) :
    poleAt q (l.foldl f s) = poleAt q s := by
  induction l generalizing s with
  | nil => rfl
  | cons x l ih => exact ih.trans (hf s x)

@[simp] theorem poleAt_onBay {f : Bay → Bay} : poleAt q (s.onBay b f) = poleAt q s := (rfl)

/-- A change of a partition that leaves its pole clock. -/
theorem poleAt_onPart {f : Part → Part}
    (hf : ∀ x : Part, (f x).framec = x.framec ∧ (f x).polec = x.polec ∧ (f x).starting = x.starting) :
    poleAt q (s.onPart r f) = poleAt q s := by
  by_cases h : q = r
  · subst h
    simp [poleAt, hf]
  · simp [poleAt, State.part_onPart_ne s r q f h]

@[simp] theorem poleAt_log {e} : poleAt q (s.log e) = poleAt q s := (rfl)

@[simp] theorem poleAt_emit {o} : poleAt q (s.emit o) = poleAt q s := (rfl)

@[simp] theorem poleAt_queueBurst {code place bytes act} : poleAt q (s.queueBurst r code place bytes act) = poleAt q s :=
  poleAt_onPart (by simp)

/-! ### Messages -/

@[simp] theorem poleAt_sendChip {f chip n m} : poleAt q (s.sendChip f chip n m) = poleAt q s := by
  unfold State.sendChip
  split
  · exact poleAt_foldl fun _ _ => rfl
  · split <;> rfl
  · split <;> rfl

@[simp] theorem poleAt_sendBy {use ready n f chip m} : poleAt q (s.sendBy use r ready n f chip m) = poleAt q s := by
  unfold State.sendBy
  split
  · rfl
  · exact poleAt_sendChip

@[simp] theorem poleAt_sendAll {f m} : poleAt q (s.sendAll r f m) = poleAt q s :=
  poleAt_foldl fun _ _ => poleAt_sendBy

/-! ### Slips and stops -/

@[simp] theorem poleAt_queueBytes {va data} : poleAt q (s.queueBytes r va data) = poleAt q s := by
  unfold State.queueBytes
  split
  · rfl
  · exact poleAt_queueBurst

@[simp] theorem poleAt_putSlip {x} : poleAt q (s.putSlip r x) = poleAt q s :=
  (poleAt_onPart (by simp)).trans poleAt_queueBytes

@[simp] theorem poleAt_putSlips {l} : poleAt q (s.putSlips r l) = poleAt q s :=
  poleAt_foldl fun _ _ => poleAt_putSlip

@[simp] theorem poleAt_endStop : poleAt q (s.endStop r) = poleAt q s := by
  refine poleAt_onPart fun x => ?_
  unfold Part.endStop
  split <;> simp

@[simp] theorem poleAt_standStill : poleAt q (s.standStill r) = poleAt q s := by
  unfold State.standStill
  split
  · rfl
  · exact (poleAt_onPart (by simp)).trans poleAt_endStop

@[simp] theorem poleAt_stopFor {rule} : poleAt q (s.stopFor r rule) = poleAt q s :=
  poleAt_onPart (by simp)

@[simp] theorem poleAt_halt : poleAt q (s.halt r) = poleAt q s :=
  (poleAt_onPart (by simp)).trans poleAt_standStill

@[simp] theorem poleAt_haltPod : poleAt q s.haltPod = poleAt q s :=
  poleAt_foldl fun _ _ => by simp

@[simp] theorem poleAt_chipLost {chip} : poleAt q (s.chipLost chip) = poleAt q s := by
  simp [State.chipLost]

@[simp] theorem poleAt_selfLost : poleAt q (s.selfLost r) = poleAt q s := by
  unfold State.selfLost
  split <;> simp

/-! ### The work of a frame start -/

@[simp] theorem poleAt_podFrame {f} : poleAt q (s.podFrame r f) = poleAt q s := by
  unfold State.podFrame
  dsimp only
  split
  · rfl
  · exact poleAt_sendAll.trans (poleAt_onPart (by simp))

@[simp] theorem poleAt_rebuildTables {bents} : poleAt q (s.rebuildTables bents) = poleAt q s := (rfl)

@[simp] theorem poleAt_applyRemap : poleAt q (s.applyRemap r) = poleAt q s := by
  simp [State.applyRemap, poleAt_onPart]

theorem poleAt_pageToHost {x e h} : poleAt q (s.pageToHost r x e h) = poleAt q s := by
  unfold State.pageToHost
  dsimp only
  split
  · split
    · rfl
    · exact poleAt_onPart (by simp)
  · rfl
  · rfl

@[simp] theorem poleAt_movePages : poleAt q (s.movePages r) = poleAt q s := by
  refine (poleAt_onPart (by simp)).trans (poleAt_foldl fun _ _ => ?_)
  split
  · split
    · exact poleAt_pageToHost
    · rfl
  · rfl

theorem poleAt_grantHost {f x} : poleAt q (s.grantHost r f x) = poleAt q s := by
  unfold State.grantHost
  dsimp only
  split
  · rfl
  · split
    · exact poleAt_onPart (by simp)
    · split
      · rfl
      · split <;> simp

@[simp] theorem poleAt_homeGrants {f} : poleAt q (s.homeGrants r f) = poleAt q s :=
  (poleAt_onPart (by simp)).trans (poleAt_foldl fun _ _ => poleAt_grantHost)

theorem poleAt_copyStep {f c} : poleAt q (s.copyStep r f c) = poleAt q s := by
  unfold State.copyStep
  split <;> simp [poleAt_onPart]

@[simp] theorem poleAt_updatePort : poleAt q (s.updatePort r) = poleAt q s := poleAt_onPart (by simp)

@[simp] theorem poleAt_gatedDue {f} : poleAt q (s.gatedDue r f) = poleAt q s :=
  (poleAt_onPart (by simp)).trans poleAt_putSlips

@[simp] theorem poleAt_frameSpawn {frame index args} : poleAt q (s.frameSpawn b frame index args) = poleAt q s := (rfl)

theorem poleAt_wheelMove {f w} : poleAt q (s.wheelMove r f w) = poleAt q s := by
  simp [State.wheelMove, poleAt_onPart]

@[simp] theorem poleAt_wheelMoves {f} : poleAt q (s.wheelMoves r f) = poleAt q s :=
  (poleAt_foldl fun _ _ => poleAt_wheelMove).trans (poleAt_onPart (by simp))

@[simp] theorem poleAt_putHeader {va h} : poleAt q (s.putHeader r va h) = poleAt q s := by
  unfold State.putHeader
  split <;> simp

@[simp] theorem poleAt_queueRead {va} : poleAt q (s.queueRead r va) = poleAt q s := by
  unfold State.queueRead
  split <;> simp

theorem poleAt_readQueue {f va n} : poleAt q (s.readQueue r f va n) = poleAt q s := by
  induction n generalizing s with
  | zero => rfl
  | succ n ih => simp [State.readQueue, ih, poleAt_onPart]

@[simp] theorem poleAt_queueReader {f} : poleAt q (s.queueReader r f) = poleAt q s :=
  ((poleAt_onPart (by simp)).trans poleAt_putSlips).trans (poleAt_foldl fun _ _ => poleAt_readQueue.trans poleAt_queueRead)

@[simp] theorem poleAt_comparator {f} : poleAt q (s.comparator r f) = poleAt q s := by
  simp [State.comparator, poleAt_onPart]

@[simp] theorem poleAt_monitors : poleAt q (s.monitors r) = poleAt q s := by
  have hlog : poleAt q ((List.finRange 8).foldl (fun acc t =>
      if (s.part r).hdr.bents.getLsbD t.val then acc.log (.reading t.val (s.bents.get t).droop (s.bents.get t).process) else acc) s) =
        poleAt q s := poleAt_foldl fun _ _ => by simp
  unfold State.monitors
  dsimp only
  split
  · exact poleAt_stopFor.trans hlog
  · exact (poleAt_onPart (by simp)).trans hlog

/-- A frame that starts is the one named, at its pole cycle 0. -/
theorem poleAt_beginFrame {f : Nat} : poleAt q (s.beginFrame q f) = (s.ptp, f, 0, false) := by
  have hset : poleAt q (s.onPart q (fun p => { p with mode := .running, starting := false, framec := f, polec := 0 })) =
      (s.ptp, f, 0, false) := by
    simp [poleAt]
  have hcopies (f : Nat) (l : List CopyRun) (t : State) : poleAt q (l.foldl (fun acc c => acc.copyStep q f c) t) = poleAt q t :=
    poleAt_foldl fun _ _ => poleAt_copyStep
  simp [State.beginFrame, poleAt_onPart, hset, hcopies]

/-! ## FRAME_START (R30, R314, R337, R467) -/

/-- The partition of a waiting plan whose tables are here and have passed the pod-wide checks (R317). -/
theorem podDone_iff {p : Part} : p.podDone = true ↔ p.awaiting = [] ∧ ∀ x ∈ p.tables, x.1 ∈ p.passed := by
  simp [Part.podDone]

theorem onPart_onPart {f g : Part → Part} : (s.onPart q f).onPart q g = s.onPart q (fun x => g (f x)) := by
  simp only [State.onPart, State.part_setPart]
  simp [State.setPart]

theorem onlyPart_onPart {f : Part → Part} : OnlyPart q s (s.onPart q f) := by
  rw [OnlyPart, State.part_onPart]
  rfl

/-- A frame that begins is frame f, at its pole cycle 0, in the same clock cycle. -/
theorem starts_of_beginFrame {i : Instr} {t : State} {f : Nat} (he : exec i s = .next (t.beginFrame q f))
    (hclock : t.clock = s.clock) (hptp : t.ptp = s.ptp) :
    ∃ u, exec i s = .next u ∧ (u.part q).framec = f ∧ (u.part q).polec = 0 ∧ (u.part q).starting = false ∧
      u.clock = s.clock ∧ u.ptp = s.ptp := by
  obtain ⟨hp, hf, hc, hs⟩ := poleAt_eq_iff.mp (poleAt_beginFrame (s := t) (q := q) (f := f))
  obtain ⟨hclk, -, -⟩ := clocks_eq_iff.mp (clocks_beginFrame (s := t) (q := q) (f := f))
  exact ⟨_, he, hf, hc, hs, hclk.trans hclock, hp.trans hptp⟩

section
variable {p : Part} (hp : s.part q = p)
include hp

theorem exec_frameStart_waiting (hm : p.mode = .waiting) (hd : p.podDone = true) (h0 : 0 ≤ p.podCycle s.clock)
    (hr : p.podReady s.clock 0 = true) :
    exec (.frameStart q) s = .next (((s.endStop q).onPart q (fun x =>
      { x.hearAll (s.clock - p.frameLen * p.k) with idleAgo := 1 })).beginFrame q 0) := by
  simp only [exec, execFrameStart, hp, hm, hd, h0, hr, and_self, if_true]

theorem exec_frameStart_waits (hm : p.mode = .waiting)
    (h : p.podDone = false ∨ p.podCycle s.clock < 0 ∨ p.podReady s.clock 0 = false) :
    exec (.frameStart q) s = .next s := by
  have hno : ¬(p.podDone = true ∧ 0 ≤ p.podCycle s.clock ∧ p.podReady s.clock 0 = true) := by
    rintro ⟨hd, h0, hr⟩
    rcases h with h | h | h
    · exact absurd hd (by simp [h])
    · omega
    · exact absurd hr (by simp [h])
  simp only [exec, execFrameStart, hp, hm, if_neg hno]

theorem exec_frameStart_podWait (hm : p.mode = .podWait) (hr : p.podReady s.clock (p.framec + 1) = true) :
    exec (.frameStart q) s = .next ((s.endStop q).beginFrame q (p.framec + 1)) := by
  simp only [exec, execFrameStart, hp, hm, hr, if_true]

section
variable (hm : p.mode = .running) (hs : p.starting = true) (hst : p.stall = 0) (hh : p.held = false) (hb : p.bringing = [])
include hm hs hst hh hb

/-- The start of the frame after one that has ended, where nothing holds or stalls the partition. -/
theorem exec_frameStart_running (hi : p.idleDue = false) :
    exec (.frameStart q) s = .next (s.startOrWait q (p.framec + 1)) := by
  simp [exec, execFrameStart, hp, hm, hs, hst, hh, hb, hi]

theorem exec_frameStart_idle (hi : p.idleDue = true) :
    exec (.frameStart q) s = .next (s.onPart q (fun x => { x with
      mode := .idleFrame (x.frameLen * x.k), idleDue := false, idleAgo := 0, stop := some (s.stopNow (x.framec + 1) 0 3) })) := by
  simp [exec, execFrameStart, hp, hm, hs, hst, hh, hb, hi]

end

end

/-! ## STORY_RELEASE (R35, R37, R38, R40, R49) -/

/-- A release that is made is of its kind, and its tick is this pole cycle. -/
theorem releaseNow_tick {p : Part} {k : ReleaseKind} {idx : Nat} {x : Release} (h : s.releaseNow p b k idx = some x) :
    x.kind = k ∧ x.frame = p.framec ∧ x.offset = p.polec := by
  cases k with
  | story =>
    simp only [State.releaseNow] at h
    split at h
    · cases h
    next e he =>
      split at h
      next hc =>
        cases h
        exact ⟨rfl, rfl, hc.2.2.1⟩
      · cases h
  | gated =>
    simp only [State.releaseNow] at h
    split at h
    · cases h
    next e he =>
      split at h
      next hc =>
        cases h
        exact ⟨rfl, rfl, hc.2.2.1⟩
      · cases h
  | spawned =>
    simp only [State.releaseNow] at h
    split at h
    · cases h
    next w hw =>
      split at h
      · cases h
      next e he =>
        split at h
        next hc =>
          cases h
          exact ⟨rfl, rfl, hc.1⟩
        · cases h

/-- A change of a bay that leaves its stores leaves every memory. -/
theorem sameMemory_onBay {f : Bay → Bay} (h : bayMems (f (s.bay b)) = bayMems (s.bay b)) : SameMemory s (s.onBay b f) := by
  refine ⟨rfl, rfl, rfl, fun c => ?_⟩
  by_cases hc : c = b
  · rw [hc, State.bay_onBay, h]
  · rw [State.bay_onBay_ne s b c _ hc]

/-- A tick whose release is not in the run queue enters it, and holds the partition where the bay runs a task (R40). -/
theorem tickAt_enters {x : Release}
    (h : ∀ o ∈ (s.bay b).runq, o.kind ≠ x.kind ∨ o.frame ≠ x.frame ∨ o.offset ≠ x.offset ∨ o.order ≠ x.order) :
    ∃ late, SameMemory s (s.tickAt q b x) ∧ ((s.tickAt q b x).bay b).runq = (s.bay b).runq ++ [{ x with late := late }] ∧
      ((s.tickAt q b x).bay b).regs = (s.bay b).regs ∧ (∀ c, c ≠ b → (s.tickAt q b x).bay c = s.bay c) ∧
      ((s.tickAt q b x).part q).holding =
        if (s.bay b).mode = .running ∧ x.kind ≠ .spawned then (s.part q).holding ++ [b] else (s.part q).holding := by
  have hany : (s.bay b).runq.any (fun o => decide (o.kind = x.kind) && decide (o.frame = x.frame) && decide (o.offset = x.offset)
      && decide (o.order = x.order)) = false := by
    rw [List.any_eq_false]
    intro o ho
    simp only [Bool.and_eq_true, decide_eq_true_eq]
    rintro ⟨⟨⟨hk, hf⟩, hof⟩, hor⟩
    rcases h o ho with h | h | h | h <;> contradiction
  unfold State.tickAt
  dsimp only
  rw [hany, if_neg Bool.false_ne_true]
  generalize (if (s.bay b).mode = .retiring ∧ x.kind ≠ .spawned then _ else none : Option Stop) = late
  refine ⟨late, ?_⟩
  have hs1 := sameMemory_onBay (s := s) (b := b) (f := fun y => { y with runq := y.runq ++ [{ x with late := late }] }) rfl
  split
  · exact ⟨hs1, by simp, by simp, fun c hc => (State.bay_onPart ..).trans (State.bay_onBay_ne s b c _ hc), by simp⟩
  · exact ⟨hs1, by simp, by simp, fun c hc => State.bay_onBay_ne s b c _ hc, rfl⟩

theorem rearm_bays {idx : Nat} : SameDevices s (s.rearm q b idx) := by
  unfold State.rearm
  split
  · exact .refl s
  · exact sameDevices_onPart

theorem rearm_holding {idx : Nat} : ((s.rearm q b idx).part q).holding = (s.part q).holding := by
  unfold State.rearm
  split
  · rfl
  · rw [State.part_onPart]

theorem exec_storyRelease {k : ReleaseKind} {idx : Nat} {x : Release} (hq : s.partOf b = some q)
    (hx : s.releaseNow (s.part q) b k idx = some x) :
    exec (.storyRelease b k idx) s = .next (if k = .gated then (s.tickAt q b x).rearm q b idx else s.tickAt q b x) := by
  simp only [exec, execStoryRelease, hq, hx]

/-! ## TASK_START (R38, R39, R62, R298) -/

/-- A bay as the task of an entry begins in it, the head of its run queue taken. -/
def begunTask (y : Bay) (r : Release) (e : Entry) (time : Int) : Bay :=
  let z := (y.takeRelease r).startTask e (decide (r.kind = .spawned)) r.args time
  { z with window := { z.window with witness := some z.witnessNow } }

section
variable {y : Bay} {x : Release} {e : Entry} {time : Int}

theorem takeRelease_mems : bayMems (y.takeRelease x) = bayMems y := by
  unfold Bay.takeRelease
  dsimp only
  split <;> rfl

theorem takeRelease_runq : (y.takeRelease x).runq = y.runq.erase x := by
  unfold Bay.takeRelease
  dsimp only
  split <;> rfl

theorem takeRelease_registers : (y.takeRelease x).sc = y.sc ∧ (y.takeRelease x).fmt = y.fmt := by
  unfold Bay.takeRelease
  dsimp only
  split <;> exact ⟨rfl, rfl⟩

theorem begunTask_mems : bayMems (begunTask y x e time) = bayMems y := by
  refine Eq.trans ?_ (takeRelease_mems (x := x))
  simp only [begunTask, Bay.startTask, bayMems]

theorem begunTask_runq : (begunTask y x e time).runq = y.runq.erase x := by
  simp only [begunTask, Bay.startTask, takeRelease_runq]

/-- What a task starts with: its entry's code, empty ports, and the bay's scale and format registers (R39, R62). -/
theorem begunTask_fields : (begunTask y x e time).mode = .running ∧ (begunTask y x e time).pc = e.code ∧
    (begunTask y x e time).task = some ⟨e.task, e.index, e.gang, e.jmask, decide (x.kind = .spawned)⟩ ∧
    (begunTask y x e time).ops = .replicate 25 0 ∧ (begunTask y x e time).res = .replicate 23 0 ∧
    (begunTask y x e time).sc = y.sc ∧ (begunTask y x e time).fmt = y.fmt := by
  obtain ⟨hsc, hfmt⟩ := takeRelease_registers (y := y) (x := x)
  simp only [begunTask, Bay.startTask, hsc, hfmt, and_self]

/-- CLASS is 0 as a task starts (R298). -/
theorem begunTask_cls : (begunTask y x e time).cls = 0 := by
  have h (t : Word) : (t &&& ~~~(7 : Word)).extractLsb' 0 3 = 0 := by
    refine BitVec.eq_of_getLsbD_eq fun i hi => ?_
    interval_cases i <;> simp
  simp only [begunTask, Bay.startTask, Bay.cls, bits, h]
  rfl

/-- The argument words of a spawned task are in g1 to g8 (R39). -/
theorem begunTask_g {n : Fin 64} : (begunTask y x e time).regs.g.get n =
    if 1 ≤ n.val ∧ n.val ≤ 8 then x.args.getD (n.val - 1) 0 else 0 := by
  have hg : (begunTask y x e time).regs.g.get n = if n.val = 0 ∨ 8 < n.val then 0 else x.args.getD (n.val - 1) 0 := by
    simp [begunTask, Bay.startTask, Vector.get_eq_getElem]
  rw [hg]
  by_cases h : 1 ≤ n.val ∧ n.val ≤ 8
  · rw [if_pos h, if_neg (by omega)]
  · rw [if_neg h, if_pos (by omega)]

/-- Every other register is cleared. -/
theorem begunTask_cleared : (∀ n : Fin 16, (begunTask y x e time).regs.a.get n = 0) ∧
    (∀ n : Fin 32, (begunTask y x e time).regs.v.get n = 0) ∧ (∀ n : Fin 7, (begunTask y x e time).regs.p.get n = false) ∧
    (begunTask y x e time).regs.lk = 0 ∧ (begunTask y x e time).regs.lim = 0 := by
  simp [begunTask, Bay.startTask, Regs.clear, Vector.get_eq_getElem]

end

theorem sameDevices_join {y : Nat} {v : List (Nat × Nat)} : SameDevices s (s.join y v) := by
  unfold State.join
  split
  · exact .refl s
  · exact ⟨rfl, rfl, rfl, rfl, rfl⟩

theorem sameDevices_overrunBySpawn : SameDevices s (s.overrunBySpawn q b) := by
  unfold State.overrunBySpawn
  dsimp only
  split
  · exact sameDevices_onPart
  · exact .refl s

/-- An idle bay starts the head of its run queue: what else changes is in no bay and in no memory. -/
theorem exec_taskStart {x : Release} {e : Entry} (hq : s.partOf b = some q) (hx : headOf (s.bay b).runq = some x)
    (he : (s.part q).entryOf b.val x.index = some e) (hm : (s.bay b).mode = .idle) (hr : (s.part q).poleRuns = true) :
    ∃ t, exec (.taskStart b) s = .next t ∧
      SameDevices (s.onBay b (fun y => begunTask y x e (((s.part q).time : Int) - 1))) t := by
  simp only [exec, execTaskStart, hq, hx, he, hm, hr, and_self, if_true]
  have hdev := (sameDevices_join (s := s.onBay b (fun y => begunTask y x e (((s.part q).time : Int) - 1))) (y := b.val)
    (v := x.cover)).trans (sameDevices_overrunBySpawn (q := q) (b := b))
  cases hl : x.late with
  | none => exact ⟨_, rfl, hdev⟩
  | some l => exact ⟨_, rfl, hdev.trans sameDevices_onPart⟩

/-! ## The obligation -/

/-- Settles O41: when a frame starts or waits, what a release puts in its run queue, and how a task begins. -/
theorem frames : Obligations.Frames := by
  refine ⟨fun q s => ?_, fun b k idx s q x hq hx hnew => ?_, fun b s q x e hq hx he hm hr => ?_, fun b s hm hb hs => ?_⟩
  · intro p starts loaded
    refine ⟨fun hm hl h0 hr => ?_, fun hm h => ?_, fun hm hs hst hh hb => ⟨fun hi hr => ?_, fun hi => ?_, fun hi hr => ?_⟩, fun hm hr => ?_⟩
    · exact starts_of_beginFrame (exec_frameStart_waiting rfl hm (podDone_iff.mpr hl) h0 hr) rfl rfl
    · refine exec_frameStart_waits rfl hm (h.imp_left fun hl => ?_)
      rw [← Bool.not_eq_true, podDone_iff]
      exact hl
    · have he := exec_frameStart_running rfl hm hs hst hh hb hi
      rw [State.startOrWait, if_pos hr] at he
      exact starts_of_beginFrame he rfl rfl
    · exact ⟨_, exec_frameStart_idle rfl hm hs hst hh hb hi, onlyPart_onPart, by simp [p, Part.frameLen], by simp [p]⟩
    · refine ⟨_, exec_frameStart_running rfl hm hs hst hh hb hi, ?_⟩
      rw [State.startOrWait, if_neg (by simpa using hr), onPart_onPart]
      exact ⟨onlyPart_onPart, by simp, by simp [p]⟩
    · exact starts_of_beginFrame (exec_frameStart_podWait rfl hm hr) rfl rfl
  · obtain ⟨hk, hf, ho⟩ := releaseNow_tick hx
    obtain ⟨late, hmem, hrunq, hregs, hbays, hhold⟩ := tickAt_enters (q := q) hnew
    rw [hk] at hhold
    refine ⟨hk, hf, ho, _, late, exec_storyRelease hq hx, ?_⟩
    split
    · have hdev := rearm_bays (s := s.tickAt q b x) (q := q) (b := b) (idx := idx)
      simp only [State.bay, hdev.bays, rearm_holding]
      exact ⟨hmem.trans hdev.sameMemory, hrunq, hregs, hbays, hhold⟩
    · exact ⟨hmem, hrunq, hregs, hbays, hhold⟩
  · obtain ⟨t, ht, hdev⟩ := exec_taskStart hq hx he hm hr
    have hb : t.bay b = begunTask (s.bay b) x e (((s.part q).time : Int) - 1) := by
      rw [State.bay, hdev.bays]
      exact State.bay_onBay ..
    have hne (c : BayId) (hc : c ≠ b) : t.bay c = s.bay c := by
      rw [State.bay, hdev.bays]
      exact State.bay_onBay_ne s b c _ hc
    obtain ⟨hmode, hpc, htask, hops, hres, hsc, hfmt⟩ :=
      begunTask_fields (y := s.bay b) (x := x) (e := e) (time := ((s.part q).time : Int) - 1)
    obtain ⟨ha, hv, hp, hlk, hlim⟩ := begunTask_cleared (y := s.bay b) (x := x) (e := e) (time := ((s.part q).time : Int) - 1)
    refine ⟨t, ht, (sameMemory_onBay begunTask_mems).trans hdev.sameMemory, hne, ?_⟩
    rw [hb]
    exact ⟨hmode, hpc, htask, begunTask_runq, hops, hres, begunTask_cls, hsc, hfmt, fun n => begunTask_g, ha, hv, hp, hlk, hlim⟩
  · simp only [exec, execRetiredBayIdle, hm, hb, hs, and_self, if_true]

end Sys2Proof
end

section
/-!
Pre-emption, checkpoints, the plan queue and the recovery of a pod plan (R58 to R60, R303, R307, R325, R327; log 54, log 65, log 70, log 85,
log 86).
-/

namespace Sys2Proof
open Machine Laws

variable {s : State} {q : PartId} {b : BayId}

/-! ## Every partition in turn -/

/-- An operation made on every partition in turn, which leaves the others: what R holds of, each operation meets; and what an operation
makes of a partition as it was, the whole makes of it. -/
theorem foldl_each {F : State → PartId → State} {R : State → Prop} {P : PartId → Part → Prop} (h0 : R s)
    (hR : ∀ t r, R t → R (F t r)) (hne : ∀ t r q, q ≠ r → (F t r).part q = t.part q)
    (hP : ∀ t q, R t → t.part q = s.part q → P q ((F t q).part q)) :
    R ((List.finRange 8).foldl F s) ∧ ∀ q, P q (((List.finRange 8).foldl F s).part q) := by
  have hafter (l : List PartId) (hl : l.Nodup) : ∀ t, R t → (∀ q ∈ l, t.part q = s.part q) →
      R (l.foldl F t) ∧ (∀ q ∈ l, P q ((l.foldl F t).part q)) ∧ ∀ q, q ∉ l → (l.foldl F t).part q = t.part q := by
    induction l with
    | nil => exact fun t ht _ => ⟨ht, by simp, fun _ _ => rfl⟩
    | cons a l ih =>
      intro t ht hsame
      obtain ⟨ha, hl⟩ := List.nodup_cons.mp hl
      have hnext : ∀ q ∈ l, (F t a).part q = s.part q := fun q hq =>
        (hne t a q (fun h => ha (h ▸ hq))).trans (hsame q (List.mem_cons_of_mem a hq))
      obtain ⟨hRl, hPl, hout⟩ := ih hl (F t a) (hR t a ht) hnext
      refine ⟨hRl, fun q hq => ?_, fun q hq => ?_⟩
      · rcases List.mem_cons.mp hq with rfl | hq
        · rw [List.foldl_cons, hout q ha]
          exact hP t q ht (hsame q List.mem_cons_self)
        · exact hPl q hq
      · rw [List.mem_cons, not_or] at hq
        rw [List.foldl_cons, hout q hq.2, hne t a q hq.1]
  obtain ⟨hRall, hPall, -⟩ := hafter _ (List.nodup_finRange 8) s h0 (fun _ _ => rfl)
  exact ⟨hRall, fun q => hPall q (List.mem_finRange q)⟩

/-- Where an operation changes nothing for any partition but one, all in turn are that one. -/
theorem foldl_single {F : State → PartId → State} (hid : ∀ t r, r ≠ q → t.part r = s.part r → F t r = t)
    (hne : ∀ r, r ≠ q → (F s q).part r = s.part r) : (List.finRange 8).foldl F s = F s q := by
  have hrest (l : List PartId) (hq : q ∉ l) (t : State) (ht : ∀ r, r ≠ q → t.part r = s.part r) : l.foldl F t = t := by
    induction l with
    | nil => rfl
    | cons a l ih =>
      obtain ⟨ha, hl⟩ := not_or.mp (mt List.mem_cons.mpr hq)
      rw [List.foldl_cons, hid t a (Ne.symm ha) (ht a (Ne.symm ha)), ih hl]
  have hall (l : List PartId) (hq : q ∈ l) (hl : l.Nodup) : l.foldl F s = F s q := by
    induction l with
    | nil => cases hq
    | cons a l ih =>
      obtain ⟨ha, hl⟩ := List.nodup_cons.mp hl
      by_cases h : a = q
      · subst h
        exact hrest l ha _ hne
      · rw [List.foldl_cons, hid s a h rfl]
        exact ih ((List.mem_cons.mp hq).resolve_left (Ne.symm h)) hl
  exact hall _ (List.mem_finRange q) (List.nodup_finRange 8)

theorem any_parts {f : Part → Bool} : s.parts.toList.any f = true ↔ ∃ q, f (s.part q) = true := by
  simp only [List.any_eq_true, Vector.mem_toList_iff, Vector.mem_iff_getElem]
  constructor
  · rintro ⟨p, ⟨i, hi, rfl⟩, hp⟩
    exact ⟨⟨i, hi⟩, hp⟩
  · rintro ⟨q, hq⟩
    exact ⟨s.part q, ⟨q.val, q.isLt, rfl⟩, hq⟩

theorem mapParts_part {f : Part → Part} : ({ s with parts := s.parts.map f } : State).part q = f (s.part q) := by
  simp [State.part, Vector.get_eq_getElem]

/-! ## Bays saved, put back and given their code (R59, R304; log 65) -/

theorem saveBays_eq : s.saveBays q = (s.part q).bays.map (fun b => ⟨b.val, s.bay b⟩) := rfl

/-- Bays put back are in the bays alone. -/
theorem restoreBays_eq {l : List SavedBay} : ∃ v, s.restoreBays l = { s with bays := v } := by
  unfold State.restoreBays
  refine List.foldlRecOn (motive := fun t : State => ∃ v, t = { s with bays := v }) _ _ ⟨s.bays, rfl⟩ ?_
  rintro _ ⟨v, rfl⟩ x -
  exact ⟨_, rfl⟩

/-- A bay that was saved is what was saved of it. -/
theorem restoreBays_bay {f : BayId → Bay} {l : List BayId} (h : b ∈ l) :
    (s.restoreBays (l.map (fun b => ⟨b.val, f b⟩))).bay b = f b := by
  have hall : ∀ t : State, t.bay b = f b ∨ b ∈ l → (t.restoreBays (l.map (fun b => ⟨b.val, f b⟩))).bay b = f b := by
    clear h
    induction l with
    | nil => exact fun t ht => ht.resolve_right List.not_mem_nil
    | cons a l ih =>
      intro t ht
      refine ih (t.onBay (Fin.ofNat 192 a.val) (fun _ => f a)) ?_
      rw [Fin.ofNat_val_eq_self]
      by_cases hb : b = a
      · subst hb
        exact .inl (State.bay_onBay ..)
      · rw [State.bay_onBay_ne t a b _ hb]
        exact ht.imp_right fun hm => (List.mem_cons.mp hm).resolve_left hb
  exact hall s (.inr h)

/-- Code records change the instruction and jig memories of bays, and nothing else. -/
theorem loadCode_bay {img : List Byte} {before l : List CodeRec} :
    ∃ i j, (s.loadCode img before l).bay b = { s.bay b with imem := i, jigmem := j } := by
  induction l generalizing s before with
  | nil => exact ⟨(s.bay b).imem, (s.bay b).jigmem, rfl⟩
  | cons r l ih =>
    obtain ⟨i, j, h⟩ := ih (s := s.onBay (Fin.ofNat 192 r.bay) (fun b =>
      if r.jig then { b with jigmem := Mem.writeN b.jigmem (codeBytes before r) ((img.drop r.off).take r.len) }
      else { b with imem := Mem.writeN b.imem (codeBytes before r) ((img.drop r.off).take r.len) })) (before := r :: before)
    refine ⟨i, j, h.trans ?_⟩
    by_cases hb : b = Fin.ofNat 192 r.bay
    · rw [hb, State.bay_onBay]
      split <;> rfl
    · rw [State.bay_onBay_ne _ _ _ _ hb]

theorem loadCode_eq {img : List Byte} {before l : List CodeRec} : ∃ v, s.loadCode img before l = { s with bays := v } := by
  induction l generalizing s before with
  | nil => exact ⟨s.bays, rfl⟩
  | cons r l ih =>
    obtain ⟨v, h⟩ := ih (s := s.onBay (Fin.ofNat 192 r.bay) (fun b =>
      if r.jig then { b with jigmem := Mem.writeN b.jigmem (codeBytes before r) ((img.drop r.off).take r.len) }
      else { b with imem := Mem.writeN b.imem (codeBytes before r) ((img.drop r.off).take r.len) })) (before := r :: before)
    exact ⟨v, h⟩

/-! ## Pre-emption (R57 to R60, R303; log 54, log 85) -/

theorem quietBays_eq {bents : BitVec 8} : ∃ v, s.quietBays bents = { s with bays := v } := ⟨_, rfl⟩

@[simp] theorem quietBays_part {bents : BitVec 8} : (s.quietBays bents).part q = s.part q := by
  simp [State.quietBays, State.part]

theorem dropTouches_part : (s.dropTouches q).part q = { s.part q with lineSeen := [], regionUse := [], regionSeen := [] } :=
  State.part_onPart ..

/-- A partition that is pre-empted, its state saved and its marks dropped, before its bays are freed. -/
def preempted (s : State) (q : PartId) : State :=
  ((s.keepPart q).onPart q (fun p => { p with preempt := false, saveArea := s.saveArea q })).dropTouches q

theorem preempted_part : (preempted s q).part q = { s.part q with
    mode := .preempted, saved := s.saveBays q, savedRing := s.saveRing q
    stop := some (s.stopNow (s.part q).framec (s.part q).polec 5), preempt := false, saveArea := s.saveArea q
    lineSeen := [], regionUse := [], regionSeen := [] } := by
  rw [preempted, dropTouches_part, State.part_onPart, State.keepPart, State.part_onPart]

theorem preempted_part_ne {r : PartId} (h : r ≠ q) : (preempted s q).part r = s.part r := by
  rw [preempted, dropTouches_part_ne h, State.part_onPart_ne _ _ _ _ h, State.keepPart, State.part_onPart_ne _ _ _ _ h]

theorem sameDevices_preempted : SameDevices s (preempted s q) := ⟨rfl, rfl, rfl, rfl, rfl⟩

/-- The bays of a partition that is pre-empted are at reset; ring SRAM and LPDDR-6 stay as they are. -/
theorem exec_preemption (hp : (s.part q).preempt = true) (hm : (s.part q).mode = .running) (hs : s.preemptPoint q = true) :
    ∃ t, exec (.preemption q) s = .next t ∧ t.ring = s.ring ∧ t.lpddr = s.lpddr ∧ t.hostMem = s.hostMem ∧
      (∀ r, t.part r = (preempted s q).part r) ∧
      ∀ b, t.bay b = if (s.part q).hdr.bents.getLsbD (b.val / 24) = true then .reset else s.bay b := by
  have he : exec (.preemption q) s = .next ((preempted s q).quietBays (s.part q).hdr.bents) := by
    simp only [exec, execPreemption, hp, hm, hs, and_self, if_true, preempted]
  obtain ⟨v, hv⟩ := quietBays_eq (s := preempted s q) (bents := (s.part q).hdr.bents)
  have hdev := sameDevices_preempted (s := s) (q := q)
  refine ⟨_, he, ?_, ?_, ?_, fun r => quietBays_part, fun b => ?_⟩
  · rw [hv]
    exact hdev.ring
  · rw [hv]
    exact hdev.lpddr
  · rw [hv]
    exact hdev.hostMem
  · rw [quietBays_bay, State.bay, hdev.bays, State.bay]

/-! ## The end of a pre-emption (R60, R304; log 65, log 86) -/

/-- A pre-empted partition may go on in the next clock cycle: its bents are free and healthy, no plan goes before it, and that cycle is a
nominal frame start. -/
structure Resumes (s : State) (q : PartId) : Prop where
  mode : (s.part q).mode = .preempted
  free : s.holders (s.part q).hdr.bents = []
  healthy : s.bentsHealthy (s.part q).hdr.bents = true
  first : s.outranked (s.part q) = false
  start : (s.part q).podCycle (s.clock + 1) % ((s.part q).frameLen * s.rateOf (s.part q) : Nat) = 0

theorem exec_preemptionResume_stopped (h : Resumes s q) (hr : s.rateOk (s.part q) = false) :
    exec (.preemptionResume q) s = .next (s.stopFor q 53) := by
  obtain ⟨hm, hf, hh, ho, hs⟩ := h
  simp only [exec, execPreemptionResume, State.resumable, State.frameStartAt, hm, hf, hh, ho, hs, hr, decide_true, Bool.and_self,
    and_self, if_true]

/-- The partition after its pre-emption. -/
def resumed (s : State) (q : PartId) (x : Part) : Part :=
  { ((x.endStop (s.clock + 1)).atRate (s.rateOf (s.part q)) s.ptp) with
    mode := .running, saved := [], savedRing := [], saveArea := [], remapDue := s.remapStale (s.part q).hdr.bents }

/-- The bays of a pre-empted partition put back, and given the code of its image. -/
def restored (s : State) (q : PartId) : State :=
  (((s.dropClocks q).quietBays (s.part q).hdr.bents).restoreBays (s.part q).saved).loadCode (s.part q).image []
    ((imgCode (s.part q).image).map codeRec)

theorem exec_preemptionResume (h : Resumes s q) (hr : s.rateOk (s.part q) = true) :
    exec (.preemptionResume q) s = .next (((restored s q).restoreRing (s.part q).savedRing).onPart q (resumed s q)) := by
  obtain ⟨hm, hf, hh, ho, hs⟩ := h
  simp only [exec, execPreemptionResume, State.resumable, State.frameStartAt, hm, hf, hh, ho, hs, hr, decide_true, Bool.and_self,
    and_self, if_true, Bool.true_eq_false, if_false]
  rfl

theorem restored_eq : ∃ c v, restored s q = { s with vclocks := c, bays := v } := by
  obtain ⟨v, hv⟩ := quietBays_eq (s := s.dropClocks q) (bents := (s.part q).hdr.bents)
  obtain ⟨w, hw⟩ := restoreBays_eq (s := (s.dropClocks q).quietBays (s.part q).hdr.bents) (l := (s.part q).saved)
  obtain ⟨x, hx⟩ := loadCode_eq (s := ((s.dropClocks q).quietBays (s.part q).hdr.bents).restoreBays (s.part q).saved)
    (img := (s.part q).image) (before := []) (l := (imgCode (s.part q).image).map codeRec)
  refine ⟨(s.dropClocks q).vclocks, x, ?_⟩
  rw [restored, hx, hw, hv]
  rfl

theorem restored_part {r : PartId} : ((restored s q).restoreRing (s.part q).savedRing).part r = s.part r := by
  obtain ⟨c, v, h⟩ := restored_eq (s := s) (q := q)
  rw [h]
  rfl

theorem restored_bay {f : BayId → Bay} (hf : (s.part q).saved = (s.part q).bays.map (fun b => ⟨b.val, f b⟩)) (hb : b ∈ (s.part q).bays) :
    ∃ i j, (restored s q).bay b = { f b with imem := i, jigmem := j } := by
  obtain ⟨i, j, h⟩ := loadCode_bay (b := b) (s := ((s.dropClocks q).quietBays (s.part q).hdr.bents).restoreBays (s.part q).saved)
    (img := (s.part q).image) (before := []) (l := (imgCode (s.part q).image).map codeRec)
  refine ⟨i, j, h.trans ?_⟩
  rw [hf, restoreBays_bay hb]

theorem atRate_slips {p : Part} {k ptp : Nat} : (p.atRate k ptp).slips =
    p.slips ++ if k = p.k then [] else [⟨p.framec, p.polec, 0xFF, 0, 4, false, k, ptp⟩] := by
  simp only [Part.atRate]
  split <;> simp

theorem endStop_slips {p : Part} {clock : Nat} :
    (p.endStop clock).slips = p.slips ++ p.stop.toList.map (fun x => x.ended clock) := by
  unfold Part.endStop
  split <;> simp [*]

theorem endStop_clock {p : Part} {clock : Nat} :
    (p.endStop clock).framec = p.framec ∧ (p.endStop clock).polec = p.polec ∧ (p.endStop clock).k = p.k := by
  unfold Part.endStop
  split <;> exact ⟨rfl, rfl, rfl⟩

/-- A partition resumes with its pole clock as saved, and records that tell of its stop and of a new rate (R45, R60). -/
theorem resumed_fields : let p := s.part q
    (resumed s q p).k = s.rateOf p ∧ (resumed s q p).slips = p.slips ++ p.stop.toList.map (fun x => x.ended (s.clock + 1)) ++
      (if s.rateOf p = p.k then [] else [⟨p.framec, p.polec, 0xFF, 0, 4, false, s.rateOf p, s.ptp⟩]) ∧
    (resumed s q p).framec = p.framec ∧ (resumed s q p).polec = p.polec := by
  intro p
  obtain ⟨hf, hp, hk⟩ := endStop_clock (p := p) (clock := s.clock + 1)
  refine ⟨rfl, ?_, hf, hp⟩
  refine Eq.trans (atRate_slips (p := p.endStop (s.clock + 1)) (k := s.rateOf p) (ptp := s.ptp)) ?_
  rw [endStop_slips, hf, hp, hk]

/-! ## Checkpoints (R325, R326) -/

/-- A byte at an address that a filter keeps reads as before. -/
theorem read_filter {m : Mem} {f : Host.Cell → Bool} {a : Nat} (hf : ∀ v, f (a, v) = true) : Mem.read (m.filter f) a = Mem.read m a := by
  simp only [Mem.read]
  induction m with
  | nil => rfl
  | cons c m ih =>
    obtain ⟨x, v⟩ := c
    by_cases hx : x = a
    · subst hx
      simp [assocGet, hf v]
    · cases hc : f (x, v) <;> simp only [List.filter_cons, hc, assocGet, hx, if_false, if_true, Bool.false_eq_true] <;> exact ih

/-- Memory below the reservation reads as before (R323). -/
theorem read_clearReserve {x : Fin 8} {a : Nat} (h : a < (bentFrames - reservedFrames) * 65536) :
    Mem.read (s.clearReserve.lpddr.get x) a = Mem.read (s.lpddr.get x) a := by
  have hget : s.clearReserve.lpddr.get x = if s.podBents.contains x then
      (s.lpddr.get x).filter (fun c => decide (c.1 < (bentFrames - reservedFrames) * 65536) || decide (bentFrames * 65536 ≤ c.1))
      else s.lpddr.get x := by
    simp [State.clearReserve, Vector.get_eq_getElem]
  rw [hget]
  split
  · exact read_filter fun v => by simp [h]
  · rfl

/-- What a checkpoint makes of a partition: one that has a checkpoint due stops at a pre-emption point with its state kept. -/
def Checkpointed (s : State) (q : PartId) (p : Part) : Prop :=
  ((s.part q).ckDue = true → (s.part q).mode = .running → s.preemptPoint q = true →
    p.mode = .checkpointed ∧ p.checkpoint = some ⟨s.snap q, s.saveBays q, s.saveRing q⟩ ∧ p.ckParity = true ∧
      ((s.part q).ckArea ≠ [] → p.ckArea = (s.part q).ckArea)) ∧
  ((s.part q).ckDue = false ∨ (s.part q).mode ≠ .running → p = s.part q)

/-- Whether a partition is at a pre-emption point rests on no other partition. -/
theorem preemptPoint_parts {v : Vector Part 8} (h : ({ s with parts := v } : State).part q = s.part q) :
    ({ s with parts := v } : State).preemptPoint q = s.preemptPoint q := by
  simp only [State.preemptPoint, h]
  rfl

theorem checkpointPart_part {v : Vector Part 8} (h : ({ s with parts := v } : State).part q = s.part q) :
    Checkpointed s q ((({ s with parts := v } : State).checkpointPart q).part q) := by
  unfold State.checkpointPart
  rw [h, preemptPoint_parts h]
  constructor
  · intro hd hm hp
    rw [if_pos ⟨hd, hm, hp⟩, State.keepCheckpoint, State.part_onPart]
    refine ⟨rfl, ?_, rfl, fun ha => ?_⟩
    · simp only [State.snap, State.saveBays, State.saveRing, h]
      rfl
    · simp only [h, if_neg ha]
  · intro hn
    rw [if_neg, h]
    rintro ⟨hd, hm, -⟩
    rcases hn with hn | hn
    · exact absurd hd (by simp [hn])
    · exact hn hm

theorem checkpointPart_part_ne {r : PartId} (h : r ≠ q) : (s.checkpointPart q).part r = s.part r := by
  unfold State.checkpointPart
  split
  · exact State.part_onPart_ne s q r _ h
  · rfl

theorem exec_checkpoint : ∃ t, exec .checkpoint s = .next t ∧ t.ring = s.ring ∧ t.hostMem = s.hostMem ∧ t.bays = s.bays ∧
    (∀ (x : Fin 8) (a : Nat), a < (bentFrames - reservedFrames) * 65536 → Mem.read (t.lpddr.get x) a = Mem.read (s.lpddr.get x) a) ∧
    ∀ q, Checkpointed s q (t.part q) := by
  obtain ⟨⟨v, hv⟩, hparts⟩ := foldl_each (s := s) (F := fun acc q => acc.checkpointPart q)
    (R := fun t => ∃ v, t = { s with parts := v }) (P := Checkpointed s) ⟨s.parts, rfl⟩
    (fun t r ⟨v, hv⟩ => by
      subst hv
      unfold State.checkpointPart
      split <;> exact ⟨_, rfl⟩)
    (fun t r q hq => checkpointPart_part_ne hq)
    (fun t q ⟨v, hv⟩ hq => by
      subst hv
      exact checkpointPart_part hq)
  refine ⟨_, rfl, ?_⟩
  rw [hv] at hparts ⊢
  split
  · exact ⟨rfl, rfl, rfl, fun x a ha => read_clearReserve (s := { s with parts := v }) ha, hparts⟩
  · exact ⟨rfl, rfl, rfl, fun _ _ _ => rfl, hparts⟩

theorem exec_checkpointResume (h : s.allStopped = true) : exec .checkpointResume s = .next { s with
    dirty := if s.parts.toList.any (fun p => p.ckParity) then [] else s.dirty
    parts := s.parts.map (fun p => if p.mode = .checkpointed then { p with ckGo := true, ckParity := false } else p) } := by
  simp only [exec, execCheckpointResume, h, if_true]

/-- A partition that may go on from a checkpoint does so with its pole clock as it stands (R325; log 86). -/
theorem resumePart_at (hm : (s.part q).mode = .checkpointed) (hg : (s.part q).ckGo = true)
    (hs : (s.part q).podCycle (s.clock + 1) % ((s.part q).frameLen * s.rateOf (s.part q) : Nat) = 0) :
    OnlyPart q s (s.resumePart q) ∧ ((s.resumePart q).part q).mode = .running ∧ ((s.resumePart q).part q).ckDue = false ∧
      ((s.resumePart q).part q).framec = (s.part q).framec ∧ ((s.resumePart q).part q).polec = (s.part q).polec ∧
      ∀ x, (s.part q).stop = some x → ((s.resumePart q).part q).slips = (s.part q).slips ++ [x.ended (s.clock + 1)] := by
  obtain ⟨hf, hp, -⟩ := endStop_clock (p := s.part q) (clock := s.clock + 1)
  simp only [State.resumePart, State.frameStartAt, hm, hg, hs, decide_true, and_self, if_true]
  refine ⟨onlyPart_onPart, by simp, by simp, by simpa using hf, by simpa using hp, fun x hx => ?_⟩
  rw [State.part_onPart]
  exact endStop_slips.trans (by simp [hx])

theorem resumePart_before (hs : (s.part q).podCycle (s.clock + 1) % ((s.part q).frameLen * s.rateOf (s.part q) : Nat) ≠ 0) :
    s.resumePart q = s := by
  simp only [State.resumePart, State.frameStartAt, hs, decide_false, Bool.false_eq_true, and_false, if_false]

/-! ## The plan queue (R58) -/

theorem exec_planDispatch {w : WaitingPlan} (h : s.nextPlan = some w) :
    let s1 : State := { s with yard := { s.yard with planq := s.yard.planq.erase w } }
    (s1.forming w.image = .now → exec .planDispatch s = .next (match s1.loadPlan w.image with
      | .error rule => (s1.refusePod w.image).log (.note rule 0)
      | .ok (_, t) => t)) ∧
    ∀ rule : Nat, s1.forming w.image = .refused rule → exec .planDispatch s = .next (s1.log (.note rule 0)) := by
  intro s1
  refine ⟨fun hf => ?_, fun rule hf => ?_⟩
  · simp only [exec, execPlanDispatch, h, s1, hf]
    cases s1.loadPlan w.image <;> rfl
  · simp only [exec, execPlanDispatch, h, s1, hf]

/-! ## Recovery of a pod plan (R307, R320, R327; log 70) -/

/-- A recovery forgets what was on its way between chips. -/
def cutOff (s : State) : State := { s with arrivals := [], links := s.links.map (fun l => { l with waiting := [] }) }

/-- Without a chip to take the lost one, every partition of the pod plan stops (R307). -/
theorem exec_podRecovery_stopped {f : FabHeader} {r : Recovery} (hf : s.podHeader = some f) (hl : r.lost < f.nlchip)
    (ht : s.takerOf f r.lost = none) :
    ∃ t, exec (.podRecovery r) s = .next t ∧ SameDevices s t ∧
      ∀ q, t.part q = if (s.part q).fab.isSome = true then { s.part q with mode := .stopped } else s.part q := by
  obtain ⟨hdev, hpart⟩ := foldl_each (s := cutOff s)
    (F := fun acc q => if (acc.part q).fab.isSome then acc.stopFor q 307 else acc) (R := SameDevices s)
    (P := fun q p => p = if (s.part q).fab.isSome = true then { s.part q with mode := .stopped } else s.part q)
    ⟨rfl, rfl, rfl, rfl, rfl⟩
    (fun t r h => by
      split
      · exact h.trans ⟨rfl, rfl, rfl, rfl, rfl⟩
      · exact h)
    (fun t r q hq => by
      split
      · exact State.part_onPart_ne _ r q _ hq
      · rfl)
    (fun t q h hq => by
      have hq' : t.part q = s.part q := hq
      dsimp only
      rw [hq']
      split
      · rw [State.stopFor, State.part_onPart]
        exact congrArg (fun p : Part => { p with mode := .stopped }) hq'
      · exact hq')
  refine ⟨_, ?_, hdev, hpart⟩
  simp only [exec, execPodRecovery, hf, hl, if_true, ht]
  rfl

theorem standStill_part : ∃ st sl, (s.standStill q).part q = { s.part q with stop := st, slips := sl } := by
  unfold State.standStill
  split
  · exact ⟨(s.part q).stop, (s.part q).slips, rfl⟩
  · rw [State.part_onPart, State.endStop, State.part_onPart, Part.endStop]
    split
    · exact ⟨_, _, rfl⟩
    · exact ⟨_, _, rfl⟩

theorem standStill_part_ne {r : PartId} (h : r ≠ q) : (s.standStill q).part r = s.part r := by
  unfold State.standStill
  split
  · rfl
  · rw [State.part_onPart_ne _ _ _ _ h, State.endStop, State.part_onPart_ne _ _ _ _ h]

theorem standStill_eq : ∃ v, s.standStill q = { s with parts := v } := by
  unfold State.standStill
  split
  · exact ⟨s.parts, rfl⟩
  · exact ⟨_, rfl⟩

/-- The round that each router of a list comes to. -/
theorem foldl_router {l : List RDesc} {f : Fin 64 → RSlot} {v : Vector RSlot 64} :
    ∀ d ∈ l, (l.foldl (fun acc d => acc.set d.slot.val (f d.slot) d.slot.isLt) v).get d.slot = f d.slot := by
  have hall : ∀ (l : List RDesc) (v : Vector RSlot 64) (k : Fin 64), v.get k = f k ∨ (∃ d ∈ l, d.slot = k) →
      (l.foldl (fun acc d => acc.set d.slot.val (f d.slot) d.slot.isLt) v).get k = f k := by
    intro l
    induction l with
    | nil => exact fun v k h => h.resolve_right (by simp)
    | cons a l ih =>
      intro v k h
      refine ih _ k ?_
      by_cases hk : a.slot = k
      · subst hk
        exact .inl (by simp [Vector.get_eq_getElem])
      · rcases h with h | ⟨d, hd, hdk⟩
        · left
          have hne : a.slot.val ≠ k.val := fun e => hk (Fin.ext e)
          simpa [Vector.get_eq_getElem, Vector.getElem_set_ne, hne] using h
        · rcases List.mem_cons.mp hd with rfl | hd
          · exact absurd hdk hk
          · exact .inr ⟨d, hd, hdk⟩
  exact fun d hd => hall l v d.slot (.inr ⟨d, hd, rfl⟩)

/-- The partition as its checkpoint has it, at the rate that its bents now give (R327). -/
def recovered (s : State) (n : Snapshot) (x : Part) : Part :=
  { ((x.asAt n).atRate (s.rateOf x) s.ptp).hearAll s.clock with mode := .checkpointed, tt := x.tt.map (s.hopped x.fab) }

/-- The state around a partition that goes back to its checkpoint, before the partition itself. -/
def rewound (s : State) (q : PartId) (c : Checkpoint) : State :=
  let s1 := (((s.standStill q).quietBays (s.part q).hdr.bents).restoreBays c.bays).restoreRing c.ring
  ({ s1 with
    scarf := s1.scarf.set q.val .reset q.isLt
    router := (s.part q).rds.foldl
      (fun acc d => acc.set d.slot.val ⟨0, assocGet 0 c.snap.rounds d.slot.val, [], []⟩ d.slot.isLt) s1.router } : State).dropTouches q

theorem fromCheckpoint_eq {c : Checkpoint} :
    s.fromCheckpoint q c = (rewound s q c).onPart q (recovered s c.snap) := rfl

section
variable {c : Checkpoint}

/-- Memory outside the bays and ring SRAM stays as it is (log 70). -/
theorem rewound_outer : (rewound s q c).arrivals = s.arrivals ∧ (rewound s q c).lpddr = s.lpddr ∧ (rewound s q c).hostMem = s.hostMem := by
  obtain ⟨v, hv⟩ := standStill_eq (s := s) (q := q)
  obtain ⟨w, hw⟩ := quietBays_eq (s := s.standStill q) (bents := (s.part q).hdr.bents)
  obtain ⟨x, hx⟩ := restoreBays_eq (s := (s.standStill q).quietBays (s.part q).hdr.bents) (l := c.bays)
  unfold rewound
  rw [hx, hw, hv]
  exact ⟨rfl, rfl, rfl⟩

theorem restoreBays_part {l : List SavedBay} {r : PartId} : (s.restoreBays l).part r = s.part r := by
  obtain ⟨v, h⟩ := restoreBays_eq (s := s) (l := l)
  rw [h]
  rfl

theorem rewound_part : ∃ st sl, (rewound s q c).part q =
    { s.part q with stop := st, slips := sl, lineSeen := [], regionUse := [], regionSeen := [] } := by
  obtain ⟨st, sl, h⟩ := standStill_part (s := s) (q := q)
  refine ⟨st, sl, dropTouches_part.trans ?_⟩
  have hq : ((((s.standStill q).quietBays (s.part q).hdr.bents).restoreBays c.bays).restoreRing c.ring).part q =
      { s.part q with stop := st, slips := sl } := by
    refine Eq.trans restoreBays_part ?_
    rw [quietBays_part, h]
  exact congrArg (fun p : Part => { p with lineSeen := [], regionUse := [], regionSeen := [] }) hq

theorem rewound_part_ne {r : PartId} (h : r ≠ q) : (rewound s q c).part r = s.part r := by
  refine (dropTouches_part_ne h).trans ?_
  refine Eq.trans restoreBays_part ?_
  rw [quietBays_part, standStill_part_ne h]

theorem rewound_round : ∀ d ∈ (s.part q).rds, ((rewound s q c).router.get d.slot).round = assocGet 0 c.snap.rounds d.slot.val := by
  intro d hd
  exact congrArg RSlot.round (foldl_router (f := fun k => ⟨0, assocGet 0 c.snap.rounds k.val, [], []⟩) d hd)

end

/-- The clock, queues and regions of a partition are its checkpoint's, at the rate that it runs at now. -/
theorem recovered_fields {n : Snapshot} {x : Part} : (recovered s n x).mode = .checkpointed ∧ (recovered s n x).framec = n.framec ∧
    (recovered s n x).polec = n.polec ∧ (recovered s n x).entries = n.entries ∧ (recovered s n x).wheel = n.wheel ∧
    (recovered s n x).regions = n.regions ∧ (recovered s n x).k = s.rateOf x ∧
    (recovered s n x).slips = x.slips ++ if s.rateOf x = x.k then [] else [⟨n.framec, n.polec, 0xFF, 0, 4, false, s.rateOf x, s.ptp⟩] :=
  ⟨rfl, rfl, rfl, rfl, rfl, rfl, rfl, atRate_slips⟩

/-- A partition of no pod plan takes no part in a recovery. -/
theorem recoverPart_single {r : Recovery} (h : (s.part q).fab = none) : s.recoverPart q r = s := by
  simp only [State.recoverPart, h]

theorem recoverPart_fromCheckpoint {f : FabHeader} {r : Recovery} {c : Checkpoint} (hl : f.nlchip ≤ r.lost) (hf : (s.part q).fab = some f)
    (hu : (s.part q).mode ≠ .unformed) (hp : (s.part q).mode ≠ .preempted) (hr : s.rateOk (s.part q) = true)
    (hc : (s.part q).checkpoint = some c) : s.recoverPart q r = s.fromCheckpoint q c := by
  unfold State.recoverPart
  simp only [hf]
  split
  next hm => exact absurd hm hu
  next hm _ => exact absurd hm hp
  next hm _ => exact absurd hm hp
  · simp only [Nat.not_lt.mpr hl, false_and, if_false, hr, Bool.true_eq_false, hc]

/-- Where no chip is lost, the partition of a pod plan goes back to its checkpoint. -/
theorem exec_podRecovery {f : FabHeader} {r : Recovery} {c : Checkpoint} (hh : s.podHeader = some f) (hl : f.nlchip ≤ r.lost)
    (hf : (s.part q).fab = some f) (hone : ∀ q', q' ≠ q → (s.part q').fab = none) (hu : (s.part q).mode ≠ .unformed)
    (hp : (s.part q).mode ≠ .preempted) (hr : s.rateOk (s.part q) = true) (hc : (s.part q).checkpoint = some c) :
    exec (.podRecovery r) s = .next ((cutOff s).fromCheckpoint q c) := by
  have hq : (cutOff s).recoverPart q r = (cutOff s).fromCheckpoint q c := recoverPart_fromCheckpoint hl hf hu hp hr hc
  have hall : (List.finRange 8).foldl (fun acc q => acc.recoverPart q r) (cutOff s) = (cutOff s).recoverPart q r := by
    refine foldl_single (F := fun acc q => acc.recoverPart q r) (fun t a ha ht => recoverPart_single ?_) (fun a ha => ?_)
    · rw [ht]
      exact hone a ha
    · rw [hq, fromCheckpoint_eq, State.part_onPart_ne _ _ _ _ ha, rewound_part_ne ha]
  simp only [exec, execPodRecovery, hh, Nat.not_lt.mpr hl, if_false]
  exact congrArg Host.Outcome.next (hall.trans hq)

/-! ## The obligation -/

/-- Settles O43: how a partition stops, is saved, waits and goes on. -/
theorem stops : Obligations.Stops := by
  refine ⟨fun q s => ⟨fun hp hm hs => ?_, fun hm hf hh ho hs => ?_⟩, fun s => ?_, fun s h hc => ?_,
    fun s q hm hg => ⟨resumePart_at hm hg, resumePart_before⟩, fun s w hw => exec_planDispatch hw, fun r s f hf => ⟨fun hl ht => ?_,
      fun q k hl hq hone hu hp hr hk => ?_⟩⟩
  · obtain ⟨t, ht, hring, hlpddr, hhost, hpart, hbay⟩ := exec_preemption hp hm hs
    refine ⟨t, ht, hring, hlpddr, hhost, ?_⟩
    rw [(hpart q).trans preempted_part]
    exact ⟨rfl, rfl, saveBays_eq, rfl, rfl, rfl, fun q' hq' => (hpart q').trans (preempted_part_ne hq'), hbay⟩
  · have hres : Resumes s q := ⟨hm, hf, hh, ho, hs⟩
    refine ⟨exec_preemptionResume_stopped hres, fun hr => ⟨_, exec_preemptionResume hres hr, ?_⟩⟩
    obtain ⟨hk, hslips, hframec, hpolec⟩ := resumed_fields (s := s) (q := q)
    obtain ⟨c, v, hv⟩ := restored_eq (s := s) (q := q)
    simp only [State.part_onPart, restored_part, hk, hslips, hframec, hpolec, true_and]
    refine ⟨by rw [hv]; rfl, by rw [hv]; rfl, rfl, rfl, fun f hsaved b hb => ?_⟩
    obtain ⟨i, j, hbay⟩ := restored_bay hsaved hb
    rw [State.bay_onPart]
    have hb' : ((restored s q).restoreRing (s.part q).savedRing).bay b = { f b with imem := i, jigmem := j } := hbay
    rw [hb']
  · exact exec_checkpoint
  · refine ⟨_, exec_checkpointResume h, ⟨rfl, rfl, rfl, fun _ => rfl⟩, rfl, fun hck => ?_, fun hck => ?_, fun q => mapParts_part⟩
    · exact if_pos (any_parts.mpr hck)
    · exact if_neg (mt any_parts.mp (by simpa using hck))
  · obtain ⟨t, ht, hdev, hpart⟩ := exec_podRecovery_stopped hf hl ht
    exact ⟨t, ht, hdev.bays, hdev.sameMemory, hpart⟩
  · intro n
    refine ⟨_, exec_podRecovery hf hl hq hone hu hp hr hk, ?_⟩
    rw [fromCheckpoint_eq]
    obtain ⟨harr, hlpddr, hhost⟩ := rewound_outer (s := cutOff s) (q := q) (c := k)
    obtain ⟨st, sl, hpart⟩ := rewound_part (s := cutOff s) (q := q) (c := k)
    obtain ⟨hmode, hframec, hpolec, hentries, hwheel, hregions, hk', hslips⟩ :=
      recovered_fields (s := cutOff s) (n := n) (x := (rewound (cutOff s) q k).part q)
    refine ⟨harr, hlpddr, hhost, fun q' hq' => ?_, ?_⟩
    · rw [State.part_onPart_ne _ _ _ _ hq']
      exact rewound_part_ne hq'
    · rw [State.part_onPart]
      have hrate : (cutOff s).rateOf ((rewound (cutOff s) q k).part q) = s.rateOf (s.part q) := by
        rw [hpart]
        rfl
      have hkept : ((rewound (cutOff s) q k).part q).k = (s.part q).k := by
        rw [hpart]
        rfl
      refine ⟨hmode, hframec, hpolec, hentries, hwheel, hregions, hk'.trans hrate, fun hne => ?_, rewound_round (s := cutOff s)⟩
      rw [hslips, hrate, hkept, if_neg hne]
      exact List.mem_append_right _ (List.mem_singleton_self _)

end Sys2Proof
end

section
/-!
RSSTAT and the result collision (R64, R106, R283, R340).
-/

namespace Sys2Proof
open Machine Laws

variable {c : Ctl} {s : State}

/-- A trigger whose result would meet another takes a result collision, whatever its own check says (R64, R106). -/
theorem trigger_collides {id : Nat} {p : ResPort} {lat : Nat} {chk : Val → State → Check} {f : Val → Bay → VReg} (h : Made c s)
    (hp : ¬ PortFree s p lat) :
    s.trigger c id p lat chk f = s.raise (s.slotFault c .resultCollision (BitVec.ofNat 72 id)) := by
  have hmeets : s.collision p false lat id = some (.resultCollision, BitVec.ofNat 72 id) :=
    if_pos (eq_true_of_ne_false hp)
  exact move_refused (f := (.resultCollision, BitVec.ofNat 72 id)) h (by rw [hmeets]; rfl)

/-- An RSSTAT whose result would meet another takes a result collision, whatever word it moves. -/
theorem exec_rsstat_collides (h : Made c s) (hp : ¬ PortFree s .scarfSt 2) :
    exec (.rsstat c) s = .next (s.raise (s.slotFault c .resultCollision 297)) :=
  congrArg Host.Outcome.next (trigger_collides h hp)

/-- An unguarded move of zero in slot 0. -/
def moveZero : Ctl := ⟨0, 0, .imm 0⟩

/-- A state in which an RSSTAT of this cycle has its result in flight. -/
def statusAwaited : State := putResult State.reset .scarfSt 2 0

theorem made_moveZero : Made moveZero statusAwaited := ⟨rfl, rfl⟩

theorem not_portFree_statusAwaited : ¬ PortFree statusAwaited .scarfSt 2 := by
  unfold PortFree
  decide

/-- A result collision leaves a rollback pending, a reserved field does not. -/
theorem raise_statusAwaited :
    (statusAwaited.raise (statusAwaited.slotFault moveZero .resultCollision 297)).me.pending.isSome = true ∧
      (statusAwaited.raise (statusAwaited.slotFault moveZero .reservedField 297)).me.pending.isSome = false := by
  decide

/-- Refutes O28, in its last clause: it has an RSSTAT of a word other than 0xFFFFFF always take a reserved-field fault, where its result
would meet another too. The result collision is a timing fault and ranks before it (R106, R340), as in the clauses on other ports, which
ask that the port be free. The counterexample moves zero while a result of the status port becomes ready with the RSSTAT's own. -/
theorem not_engineCommands : ¬ Obligations.EngineCommands := by
  intro h
  obtain ⟨-, -, -, -, -, -, -, -, -, -, -, -, -, -, -, -, -, -, -, -, -, -, -, -, -, -, -, -, hreserved⟩ :=
    h moveZero statusAwaited made_moveZero
  have hcollides : exec (.rsstat moveZero) statusAwaited = _ := exec_rsstat_collides made_moveZero not_portFree_statusAwaited
  have hsame := Host.Outcome.next.inj (hcollides.symm.trans (hreserved (by decide)))
  obtain ⟨hpending, hnone⟩ := raise_statusAwaited
  rw [hsame, hnone] at hpending
  exact Bool.false_ne_true hpending

end Sys2Proof
end

section
/-!
Plain moves, long immediates, pads and shape writes (R61, R64 to R68, R71, R87, R96, R384, R405; log 13).
-/

namespace Sys2Proof
open Machine Laws

variable {c : Ctl} {s : State}

/-! ## Values of 64 and of 72 bits (R65) -/

theorem word_toNat (v : Val) : v.word.toNat = v.bits.toNat % 2 ^ 64 := BitVec.toNat_setWidth ..

theorem addr_toNat (v : Val) : v.addr.toNat = v.bits.toNat % 2 ^ 72 := BitVec.toNat_setWidth ..

theorem word_toNat_eq_addr (v : Val) : v.word.toNat = v.addr.toNat % 2 ^ 64 := by
  rw [word_toNat, addr_toNat]
  exact (Nat.mod_mod_of_dvd _ (by norm_num)).symm

/-- The mask of bits [71:64] keeps these of an address, over 64 new bits. -/
theorem keepTop_eq (old : Addr) (lo : Word) :
    (old &&& (0xFF0000000000000000 : BitVec 72)) ||| lo.setWidth 72 = old.extractLsb' 64 8 ++ lo := by
  have hmask : (0xFF0000000000000000 : BitVec 72) = BitVec.allOnes 8 ++ (0 : BitVec 64) := by decide
  rw [hmask]
  apply BitVec.eq_of_getLsbD_eq
  intro i hi
  rw [BitVec.getLsbD_or, BitVec.getLsbD_and, BitVec.getLsbD_append, BitVec.getLsbD_append, BitVec.getLsbD_allOnes]
  by_cases h : i < 64
  · simp [hi, h]
  · have htop : i - 64 < 8 := by omega
    have hsum : 64 + (i - 64) = i := by omega
    simp [h, htop, hsum, Nat.le_of_not_lt h]

theorem toNat_append_eq {n m : Nat} (x : BitVec n) (y : BitVec m) : (x ++ y).toNat = x.toNat * 2 ^ m + y.toNat := by
  rw [BitVec.toNat_append, ← Nat.shiftLeft_add_eq_or_of_lt y.isLt, Nat.shiftLeft_eq]

/-- A 64-bit value in an a-register: bits [71:64] stay. -/
theorem writeA_narrow {v : Val} (old : Addr) (h : v.wide = false) :
    (writeA old v).toNat = old.toNat / 2 ^ 64 * 2 ^ 64 + v.word.toNat := by
  have htop : (old.extractLsb' 64 8).toNat = old.toNat / 2 ^ 64 := by
    rw [BitVec.extractLsb'_toNat, Nat.shiftRight_eq_div_pow]
    omega
  rw [writeA, if_neg (by simp [h]), keepTop_eq, ← htop]
  exact toNat_append_eq ..

theorem writeA_wide {v : Val} (old : Addr) (h : v.wide = true) : writeA old v = v.addr := if_pos h

/-- What a move leaves in an a-register: the low 64 bits of the value below bits [71:64] of the value or of the register. -/
theorem writeA_parts (old : Addr) (v : Val) :
    (writeA old v).toNat % 2 ^ 64 = v.word.toNat ∧
      (writeA old v).toNat / 2 ^ 64 = if v.wide then v.addr.toNat / 2 ^ 64 else old.toNat / 2 ^ 64 := by
  cases h : v.wide with
  | true => exact ⟨by rw [writeA_wide old h, word_toNat_eq_addr], by rw [writeA_wide old h]; rfl⟩
  | false =>
    have hlow := v.word.isLt
    rw [writeA_narrow old h, if_neg (by simp)]
    omega

/-! ## Plain moves (R61, R64 to R67, R96; log 13) -/

/-- A plain move has no check beyond its source's: it writes its destination. -/
theorem exec_move (h : Made c s) (d : Dst) :
    exec (.move c d) s = .next (s.onMe (fun b => b.writeDst s.myNow d (movedVal c s))) :=
  congrArg Host.Outcome.next (move_made h rfl)

theorem onMe_id : s.onMe (fun b => b) = s := State.onBay_id s s.cur

/-- Settles O10, destination by destination. -/
theorem moveDestinations : Obligations.MoveDestinations := by
  intro c s h v regs
  refine ⟨?discarded, fun n hn => ?scalar, fun n => ⟨writeA (s.me.regs.a.get n) v, ?address, writeA_parts _ v⟩, fun n => ?predicate,
    exec_move h .lk, fun n => exec_move h (.v n), fun n => exec_move h (.m n), fun o => exec_move h (.op o), exec_move h .xab, exec_move h .xba⟩
  case discarded => exact (exec_move h (.g 0)).trans (congrArg Host.Outcome.next onMe_id)
  case scalar =>
    have hn' : n.val ≠ 0 := fun h0 => hn (Fin.ext h0)
    rw [exec_move h]
    simp only [Bay.writeDst, if_neg hn']
    rfl
  case address =>
    rw [exec_move h]
    exact congrArg Host.Outcome.next (onBay_congr rfl)
  case predicate =>
    have hset : v.bits.toNat ≠ 0 ↔ v.bits ≠ 0 := by
      rw [BitVec.toNat_ne, BitVec.ofNat_eq_ofNat, BitVec.toNat_zero]
    rw [exec_move h, decide_eq_decide.mpr hset]
    rfl

/-! ## Long immediates and pads (R68, R87, R384, R405) -/

/-- lim takes a long immediate alone, or below what a run of them has gathered. -/
theorem limNext_toNat (r : Regs) (v : BitVec 20) :
    (limNext r v).toNat = if r.limRun then (r.lim.toNat * 2 ^ 20 + v.toNat) % 2 ^ 72 else v.toNat := by
  unfold limNext
  split
  · have happend : (r.lim <<< 20) ||| v.setWidth 72 = (r.lim ++ v).setWidth 72 := by
      apply BitVec.eq_of_getLsbD_eq
      intro i hi
      rw [BitVec.getLsbD_or, BitVec.getLsbD_shiftLeft, BitVec.getLsbD_setWidth, BitVec.getLsbD_setWidth, BitVec.getLsbD_append]
      by_cases h : i < 20
      · simp [hi, h]
      · simp [hi, h, BitVec.getLsbD_of_ge v i (Nat.le_of_not_lt h)]
    rw [happend, BitVec.toNat_setWidth, toNat_append_eq]
  · rw [BitVec.toNat_setWidth]
    omega

/-- Settles O11. -/
theorem longImmediateAndPads : Obligations.LongImmediateAndPads := by
  intro v s
  exact ⟨⟨limNext s.me.regs v, congrArg Host.Outcome.next (onBay_congr rfl), limNext_toNat s.me.regs v⟩, rfl, rfl, rfl⟩

/-! ## Shape writes (R71) -/

/-- A field of a level of the mx shapes lies within the 84 bits of its level. -/
theorem mxLevelField_fits {i : Nat} {x : Nat × Nat} (h : mxLevelField i = some x) : x.1 + x.2 ≤ 84 := by
  unfold mxLevelField at h
  split at h <;> cases h <;> decide

theorem mxField_fits {i : Nat} {f : ShapeField} (h : mxField i = some f) : f.lo + f.len ≤ 256 := by
  unfold mxField at h
  split at h
  · obtain ⟨x, hx, rfl⟩ := Option.map_eq_some_iff.mp h
    have hlevel := mxLevelField_fits hx
    dsimp only
    omega
  · split at h <;> cases h <;> decide

theorem wkField_fits {i : Nat} {f : ShapeField} (h : wkField i = some f) : f.lo + f.len ≤ 256 := by
  unfold wkField at h
  split at h <;> cases h <;> decide

/-- A field of the shapes lies within its register. -/
theorem shapeField_fits {k i : Nat} {f : ShapeField} (h : shapeField k i = some f) : f.lo + f.len ≤ 256 := by
  unfold shapeField at h
  split at h
  · exact mxField_fits h
  · exact wkField_fits h

/-- A shape-write unit's instruction is its shape write. -/
theorem exec_shapeWrite (k : Fin 3) :
    exec (if k.val = 0 then .mxShw c else if k.val = 1 then .wk0Shw c else .wk1Shw c) s = .next (shapeWrite c k s) := by
  fin_cases k <;> rfl

/-- Settles O12: the field written is the named one, every other bit of its register stays. -/
theorem shapeWrites : Obligations.ShapeWrites := by
  intro c k s h i
  have hexec : exec i s = .next (shapeWrite c k s) := exec_shapeWrite k
  split
  next hf =>
    have hchk : shwCheck k.val s = some (.unimplementedPort, BitVec.ofNat 72 (1472 + k.val)) := by
      simp only [shwCheck, Bay.shapeTarget, hf]
    rw [hexec, shapeWrite, move_refused h hchk]
  next f hf =>
    have hfits := shapeField_fits hf
    have hchk : shwCheck k.val s = none := by
      simp only [shwCheck, Bay.shapeTarget, hf]
    refine ⟨setBits ((s.me.shadow.get k).toList.getD f.reg 0) f.lo f.len (movedVal c s).addr.toNat, ?_, fun n hn => ?_, fun n hn => ?_⟩
    · rw [hexec, shapeWrite, move_made h hchk]
      refine congrArg Host.Outcome.next (onBay_congr ?_)
      have htarget : (s.bay s.cur).shapeTarget k.val = some f := hf
      simp only [Bay.writeShadow, htarget]
      rfl
    · rw [getLsbD_setBits (by omega), if_pos (by omega), Nat.add_sub_cancel_left]
      rfl
    · by_cases hlt : n < 256
      · rw [getLsbD_setBits hlt, if_neg (by omega)]
      · rw [BitVec.getLsbD_of_ge _ _ (Nat.le_of_not_lt hlt), BitVec.getLsbD_of_ge _ _ (Nat.le_of_not_lt hlt)]

end Sys2Proof
end

section
/-!
A move that is not made: its guard is false, or it reads a result port early (R61, R63, R85, R106; log 77).

Every instruction of a slot is a move (ExecMove). Its check is late when no fault of it ranks before a timing fault, as an early read is one;
the checks of all units are but those of shape writes, JIG and the control slot. The lemmas late_… are a simp set, one for each check.
-/

namespace Sys2Proof
open Machine Laws

variable {c : Ctl} {s : State} {i : Instr}

/-! ## Checks that rank no fault before a timing fault (R106) -/

/-- No fault that a check takes ranks before a timing fault. -/
def Late (k : Check) : Prop := ∀ f, k = some f → 6 ≤ causeRank f.1

/-- The same of a check that answers a value where it passes. -/
def LateErr {α : Type} (e : Except (Cause × Info) α) : Prop := ∀ f, e = .error f → 6 ≤ causeRank f.1

@[simp] theorem late_none : Late none := by simp [Late]

@[simp] theorem late_some {x : Cause} {info : Info} : Late (some (x, info)) ↔ 6 ≤ causeRank x := by simp [Late]

@[simp] theorem late_ite {p : Prop} [Decidable p] {x y : Check} : Late (if p then x else y) ↔ (p → Late x) ∧ (¬ p → Late y) := by
  split <;> simp [*]

theorem late_andThen {x y : Check} (hx : Late x) (hy : Late y) : Late (Check.andThen x y) := by
  cases x with
  | none => exact hy
  | some f => exact hx

@[simp] theorem lateErr_ok {α : Type} {x : α} : LateErr (.ok x : Except (Cause × Info) α) := by simp [LateErr]

@[simp] theorem lateErr_error {α : Type} {x : Cause} {info : Info} :
    LateErr (.error (x, info) : Except (Cause × Info) α) ↔ 6 ≤ causeRank x := by simp [LateErr]

@[simp] theorem lateErr_ite {α : Type} {p : Prop} [Decidable p] {x y : Except (Cause × Info) α} :
    LateErr (if p then x else y) ↔ (p → LateErr x) ∧ (¬ p → LateErr y) := by
  split <;> simp [*]

/-- The fault of a check that answers a value, as the fault of a check that turns on it. -/
theorem LateErr.late {α : Type} {e : Except (Cause × Info) α} {f : Cause × Info} (h : LateErr e) (he : e = .error f) : Late (some f) :=
  fun g hg => h g (he.trans (congrArg _ (Option.some.inj hg)))

/-- The same of one that answers another value. -/
theorem LateErr.error {α β : Type} {e : Except (Cause × Info) α} {f : Cause × Info} (h : LateErr e) (he : e = .error f) :
    LateErr (.error f : Except (Cause × Info) β) :=
  fun g hg => h g (he.trans (congrArg _ (Except.error.inj hg)))

/-! ## Translation and accesses to virtual addresses -/

theorem lateErr_translate {p : Part} {va : Addr} {need : Need} {w : Bool} : LateErr (Machine.translate p va need w) := by
  unfold Machine.translate
  split
  · simp [causeRank]
  · split <;> simp [causeRank]

theorem lateErr_slotCheck {p : Part} {b : BayId} {x : Xlat} {va : Addr} {t : Nat} : LateErr (slotCheck p b x va t) := by
  unfold slotCheck
  split
  · simp [causeRank]
  · split
    · split <;> simp [causeRank]
    · split
      · split <;> simp [causeRank]
      · simp

theorem lateErr_vaCheck {b : BayId} {o : VaOp} {n : Nat} {va : Addr} : LateErr (vaCheck s b o n va) := by
  unfold vaCheck
  dsimp only
  split
  next hf => exact lateErr_translate.error hf
  next =>
    simp only [lateErr_ite, lateErr_error]
    refine ⟨fun _ => by decide, fun _ => ⟨fun _ => by decide, fun _ => ⟨fun _ => by decide, fun _ => ?_⟩⟩⟩
    split
    next hf => exact lateErr_slotCheck.error hf
    next => simp [causeRank]

theorem late_collision {p : ResPort} {remote : Bool} {lat id : Nat} : Late (s.collision p remote lat id) := by
  simp [State.collision, causeRank]

theorem late_vaLimits {b : BayId} {o : VaOp} {va : Addr} : Late (vaLimits s b o va) := by
  refine late_andThen ?_ (by simp [causeRank])
  split
  · exact late_collision
  · simp

theorem late_vaChk {o : VaOp} {first last : Check} {n : Nat} {va : Addr} (hf : Late first) (hl : Late last) :
    Late (vaChk s o first n va last) := by
  refine late_andThen late_vaLimits (late_andThen hf ?_)
  split
  next he => exact lateErr_vaCheck.late he
  next => exact hl

theorem late_ctlChk {u : Fin 2} {id : Nat} : Late (ctlChk u id s) := by simp [ctlChk, causeRank]

theorem late_localChk {n : Nat} {t : Word} : Late (localChk n t s) := by simp [localChk, causeRank]

theorem late_handChk {va : Addr} {w : Word} : Late (handChk s va w) := by
  unfold handChk
  dsimp only
  split <;> simp [causeRank]

/-! ## Other checks of the scalar and vector units -/

theorem late_slotRangeChk {w : Word} : Late (slotRangeChk w s) := by simp [slotRangeChk, causeRank]

theorem late_narrowChk {u : Fin 2} {w : Width} {v : Val} : Late (narrowChk u w v s) := by simp [narrowChk, causeRank]

theorem late_vecOffChk {v : Val} : Late (vecOffChk v s) := by simp [vecOffChk, causeRank]

theorem late_optChk {k : Nat} {v : Val} : Late (optChk k v s) := by simp [optChk, causeRank]

theorem late_redChk {w : Width} : Late (redChk w s) := by simp [redChk, causeRank]

theorem late_hlookChk {w : Width} {v : Val} : Late (hlookChk w v s) := by simp [hlookChk, causeRank]

/-! ## Checks of engine commands -/

theorem late_commandTiming {e : Engine} {op : Nat} {leaves : Bool} : Late (commandTiming e op leaves s) :=
  late_andThen (by simp [queueChk, causeRank]) (late_andThen (by simp [holdChk, causeRank]) (by simp [gatedChk, causeRank]))

theorem late_wordChk {e : Engine} {op : Nat} {mask w : BitVec 72} : Late (wordChk e op mask w) := by simp [wordChk, causeRank]

theorem late_xferChk {x : Cmd} : Late (xferChk x s) := by simp [xferChk, causeRank]

theorem late_slotFormat {x : Cmd} : Late (slotFormat x) := by simp [slotFormat, causeRank]

theorem late_contribChk {x : Cmd} {d : RDesc} : Late (contribChk x d s) := by simp [contribChk, causeRank]

theorem late_credChk {x : Cmd} : Late (credChk x s) := by
  unfold credChk
  split <;> simp [late_slotFormat, late_contribChk]

theorem late_cbcastChk {x : Cmd} : Late (cbcastChk x s) := by
  unfold cbcastChk
  split <;> simp [late_slotFormat, late_contribChk]

theorem lateErr_selectorChk {p : Part} {b : BayId} {va : Addr} : LateErr (selectorChk p b va) := by
  unfold selectorChk
  split
  next hf => exact lateErr_translate.error hf
  next =>
    split
    · simp [causeRank]
    · split <;> simp [causeRank]

theorem late_commitChk {x : Cmd} : Late (commitChk x s) := by
  unfold commitChk
  split
  · exact late_slotFormat
  · rw [late_ite]
    refine ⟨fun _ => late_slotFormat, fun _ => ?_⟩
    split
    next hf => exact lateErr_selectorChk.late hf
    next => simp [causeRank]

theorem late_gateVaChk {p : Part} {va : Addr} : Late (gateVaChk p va) := by
  unfold gateVaChk
  split
  next hf => exact lateErr_translate.late hf
  next => simp [causeRank]

theorem late_gateChk {x : Cmd} : Late (gateChk x s) := by simp [gateChk, late_gateVaChk, causeRank]

theorem lateErr_qputVaChk {p : Part} {va : Addr} : LateErr (qputVaChk p va) := by
  unfold qputVaChk
  split
  next hf => exact lateErr_translate.error hf
  next => simp [causeRank]

theorem late_qputChk {x : Cmd} : Late (qputChk x s) := by
  simp only [qputChk, late_ite, late_some]
  refine ⟨fun _ => by decide, fun _ => ⟨fun _ => by decide, fun _ => ?_⟩⟩
  split
  next hf => exact lateErr_qputVaChk.late hf
  next => simp [causeRank]

theorem late_walkBaseChk {x : Cmd} {dst : Bool} : Late (walkBaseChk x dst s) := by
  simp only [walkBaseChk, late_ite]
  refine ⟨fun _ => ?_, fun _ => by simp [causeRank]⟩
  split
  next hf => exact lateErr_translate.late hf
  next => exact late_none

@[simp] theorem late_shapeFault {k : Nat} : Late (shapeFault k) := by simp [shapeFault, causeRank]

@[simp] theorem late_portFormat {id : Nat} : Late (portFormat id) := by simp [portFormat, causeRank]

@[simp] theorem late_asyncChk {x : Cmd} {p : Part} {e : Bool} : Late (asyncChk x p e) := by simp [asyncChk]

theorem late_walkFormat {x : Cmd} {p : Part} : Late (walkFormat x p) := by simp [walkFormat]

theorem late_walkmChk {x : Cmd} : Late (walkmChk x s) := by simp [walkmChk]

theorem late_walkChk {x : Cmd} : Late (walkChk x s) := by
  simp only [walkChk, late_ite, late_some]
  exact ⟨fun _ => by decide,
    fun _ => late_andThen late_walkBaseChk (late_andThen late_walkBaseChk (late_andThen late_walkFormat late_walkmChk))⟩

theorem late_reshardChk {x : Cmd} : Late (reshardChk x s) := by
  unfold reshardChk
  split <;> simp [causeRank]

theorem late_mxFormat {x : Cmd} {b : Bay} {ia ib : Nat} : Late (mxFormat x b ia ib) := by
  have hformat : 6 ≤ causeRank .format := by decide
  simp only [mxFormat, late_ite, late_some, hformat, implies_true, true_and]
  intros
  split
  · exact late_some.mpr hformat
  · split
    · exact late_some.mpr hformat
    · intro f hf
      obtain ⟨info, -, rfl⟩ := Option.map_eq_some_iff.mp hf
      exact hformat

theorem late_mxAlign {x : Cmd} {b : Bay} : Late (mxAlign x b) := by
  unfold mxAlign
  dsimp only
  split <;> simp [causeRank]

theorem late_mxgoChk {x : Cmd} : Late (mxgoChk x s) := by
  unfold mxgoChk
  dsimp only
  rw [late_ite]
  refine ⟨fun _ => by simp [causeRank], fun _ => ?_⟩
  split
  · simp [causeRank]
  · split
    · simp [causeRank]
    · rw [late_ite]
      exact ⟨fun _ => by simp [causeRank], fun _ => late_andThen late_mxFormat late_mxAlign⟩

theorem late_drainFormat {x : Cmd} {io : Nat} : Late (drainFormat x io) := by simp [drainFormat, causeRank]

theorem late_drainRange {x : Cmd} : Late (drainRange x s) := by simp [drainRange, causeRank]

theorem late_drainChk {x : Cmd} : Late (drainChk x s) := by
  simp only [drainChk, late_ite, late_some]
  refine ⟨fun _ => by decide, fun _ => late_andThen late_drainFormat (late_andThen late_drainRange (late_andThen ?_ ?_))⟩
  · split <;> simp [causeRank]
  · simp [causeRank]

/-! ## Every instruction of a slot is a move -/

/-- An answer is that of a move, whose check is late but where a condition holds. -/
def ExecMove (c : Ctl) (s : State) (ranked : Prop) (r : Step) : Prop :=
  ∃ chk eff, r = .next (s.move c chk eff) ∧ (¬ ranked → Late (chk (movedVal c s) s))

variable {ranked : Prop}

theorem execMove_move {chk : Val → State → Check} {eff : Val → State → State} (h : ¬ ranked → Late (chk (movedVal c s) s)) :
    ExecMove c s ranked (.next (s.move c chk eff)) :=
  ⟨chk, eff, rfl, h⟩

theorem execMove_trigger {id : Nat} {p : ResPort} {lat : Nat} {chk : Val → State → Check} {f : Val → Bay → VReg}
    (h : Late (chk (movedVal c s) s)) : ExecMove c s ranked (.next (s.trigger c id p lat chk f)) :=
  execMove_move fun _ => late_andThen late_collision h

theorem execMove_command {e : Engine} {op : Nat} {mask : BitVec 72} {leaves : Cmd → Bool} {mk : State → Cmd → Cmd}
    {chk : Cmd → State → Check} {eff : Cmd → Bay → Bay} (h : ¬ ranked → Late (chk (issuedCmd c s e op mk) s)) :
    ExecMove c s ranked (.next (s.command c e op mask leaves mk chk eff)) :=
  execMove_move fun hr => late_andThen late_commandTiming (late_andThen late_wordChk (h hr))

/-- The instructions whose check may take a fault that ranks before a timing fault: JIG, the shape writes and the control slot. -/
def MayRank (i : Instr) (c : Ctl) : Prop := i = .jig c ∨ (∃ k, i.form = .shw c k) ∨ ∃ k, i.form = .control c k

theorem execMove_early {chk : Val → State → Check} {eff : Val → State → State} (h : ranked) :
    ExecMove c s ranked (.next (s.move c chk eff)) :=
  execMove_move fun hn => absurd h hn

section
variable {u : Fin 2} {w : Width}

theorem execMove_loadVa {consume : Bool} : ExecMove c s ranked (.next (loadVa c u consume s)) := by
  unfold loadVa
  exact execMove_move fun _ => late_vaChk late_ctlChk late_none

theorem execMove_storeVa {produce : Bool} : ExecMove c s ranked (.next (storeVa c u produce s)) := by
  unfold storeVa
  exact execMove_move fun _ => late_vaChk late_ctlChk late_none

theorem execMove_atomicVa {k : Nat} {op : AtomicOp} : ExecMove c s ranked (.next (atomicVa c k op s)) := by
  unfold atomicVa
  exact execMove_move fun _ => late_vaChk late_none late_none

theorem execMove_vecShrs : ExecMove c s ranked (.next (vecShrs c u w s)) := by
  unfold vecShrs
  exact execMove_trigger (by simp [causeRank])

theorem execMove_vecNarrow : ExecMove c s ranked (.next (vecNarrow c u w s)) := by
  unfold vecNarrow
  exact execMove_move fun _ => late_andThen late_collision late_narrowChk

theorem execMove_vecLdv : ExecMove c s ranked (.next (vecLdv c u w s)) := by
  unfold vecLdv
  exact execMove_move fun _ => late_andThen late_collision late_vecOffChk

theorem execMove_vecStv : ExecMove c s ranked (.next (vecStv c u s)) := by
  unfold vecStv
  exact execMove_move fun _ => late_vecOffChk

theorem execMove_optOp {k : Fin 3} : ExecMove c s ranked (.next (optOp c k s)) := by
  unfold optOp
  exact execMove_move fun _ => late_andThen late_collision late_optChk

theorem execMove_redOp {k : Nat} {mode : Mode} : ExecMove c s ranked (.next (redOp c k mode w s)) := by
  unfold redOp
  exact execMove_move fun _ => late_andThen late_collision (late_andThen late_collision late_redChk)

end

/-- An instruction of a slot is a move. Its check is late but for JIG, the shape writes and the control slot. -/
theorem execMove_exec (h : i.ctl? = some c) : ExecMove c s (MayRank i c) (exec i s) := by
  cases i with
  | vec0Add | vec1Add | vec0Sub | vec1Sub | vec0Adds | vec1Adds | vec0Subs | vec1Subs | vec0And
    | vec1And | vec0Or | vec1Or | vec0Xor | vec1Xor | vec0Andn | vec1Andn | vec0Shl | vec1Shl
    | vec0Shr | vec1Shr | vec0Sar | vec1Sar | vec0Min | vec1Min | vec0Max | vec1Max | vec0Abs
    | vec1Abs | vec0Sel | vec1Sel | vec0Mulw | vec1Mulw | vec0Mulq | vec1Mulq | vec0Macw | vec1Macw
    | vec0Widen | vec1Widen | vec0Bcast | vec1Bcast | vec0Swapp | vec1Swapp | vec0Laneset
    | vec1Laneset | add | sub | adds | subs | and | or | xor | andn | shl | shr | sar | rotl | min | max | minu
    | maxu | abs | clz | cls | popc | ext | ins | sel | cmpeq | cmpne | cmplt | cmple | cmpltu
    | cmpleu | pand | por | pxor | pnot | vec0Cmpeq | vec1Cmpeq | vec0Cmpne | vec1Cmpne | vec0Cmplt
    | vec1Cmplt | vec0Cmple | vec1Cmple | vec0Cmpltu | vec1Cmpltu | vec0Cmpleu | vec1Cmpleu | vec0Pand
    | vec1Pand | vec0Por | vec1Por | vec0Pxor | vec1Pxor | vec0Pnot | vec1Pnot | exp2q | log2q | rcpq
    | rsqq | sinq | cosq | div | divu | rem | divq | sqrtq | perm | lanerot | lut | dec4 | enc4 | mul | mulh
    | mulhu | mulq | tlook | census | vec0Mcount | vec1Mcount | vec0Laneget | vec1Laneget | adda | suba =>
    cases h
    exact execMove_trigger late_none
  | rsstat =>
    cases h
    exact execMove_trigger (by simp [causeRank])
  | vec0Shrs | vec1Shrs => cases h; exact execMove_vecShrs
  | move => cases h; exact execMove_move fun _ => late_none
  | ld => cases h; exact execMove_move fun _ => late_andThen late_collision (late_andThen late_ctlChk late_localChk)
  | st => cases h; exact execMove_move fun _ => late_andThen late_ctlChk late_localChk
  | ldg | ldc => cases h; exact execMove_loadVa
  | stg | stp => cases h; exact execMove_storeVa
  | atadd | atmax | atmin | ator => cases h; exact execMove_atomicVa
  | fetchadd => cases h; exact execMove_move fun _ => late_vaChk late_none late_none
  | hand => cases h; exact execMove_move fun _ => late_vaChk late_none late_handChk
  | tfill | tevict => cases h; exact execMove_move fun _ => late_andThen late_collision late_slotRangeChk
  | vec0Narrow | vec1Narrow => cases h; exact execMove_vecNarrow
  | vec0Ldv | vec1Ldv => cases h; exact execMove_vecLdv
  | vec0Stv | vec1Stv => cases h; exact execMove_vecStv
  | optm | optv | optw => cases h; exact execMove_optOp
  | redadd | redmax | redmin => cases h; exact execMove_redOp
  | hlook => cases h; exact execMove_move fun _ => late_andThen late_collision (late_andThen late_collision late_hlookChk)
  | mxgo => cases h; exact execMove_command fun _ => late_mxgoChk
  | mxdrain => cases h; exact execMove_command fun _ => late_drainChk
  | mxclr | pegclr => cases h; exact execMove_command fun _ => by simp [causeRank]
  | wk0Walk | wk0Walkm | wk1Walk | wk1Walkm => cases h; exact execMove_command fun _ => late_walkChk
  | gate => cases h; exact execMove_command fun _ => late_gateChk
  | qput => cases h; exact execMove_command fun _ => late_qputChk
  | send | recv => cases h; exact execMove_command fun _ => late_xferChk
  | cred => cases h; exact execMove_command fun _ => late_credChk
  | cbcast => cases h; exact execMove_command fun _ => late_cbcastChk
  | commit => cases h; exact execMove_command fun _ => late_commitChk
  | reshard => cases h; exact execMove_command fun _ => late_reshardChk
  | jig => cases h; exact execMove_early (.inl rfl)
  | mxShw | wk0Shw | wk1Shw => cases h; exact execMove_early (.inr (.inl ⟨_, rfl⟩))
  | br | brm | call | calli | ret | jmpi | loop | endTask | spawn | wheel | gsync | witness | trap | resume | retire | sysr
    | sysw | ttld | ttclr =>
    cases h
    exact execMove_early (.inr (.inr ⟨_, rfl⟩))
  | _ => cases h

/-! ## A false guard, and an early read -/

theorem exec_off (h : i.ctl? = some c) (hg : guardOn s.me.seen c.guard = false) : exec i s = .next s := by
  obtain ⟨chk, eff, he, -⟩ := execMove_exec (s := s) h
  rw [he, move_off hg]

theorem sourceFault_early {r : ResPort} (hsrc : c.src = .res r) (hr : s.me.readsEarly s.myNow r = true) :
    s.me.sourceFault s.myNow c = some (.earlyRead, BitVec.ofNat 72 (srcPortId c.slot r)) := by
  simp [Bay.sourceFault, hsrc, hr]

theorem Late.early {k : Check} (h : Late k) : k.early = none := by
  cases k with
  | none => rfl
  | some f => exact if_neg (Nat.not_lt.mpr (h f rfl))

/-- The fault that goes before an early read, if there is one, ranks before it. -/
theorem early_getD (k : Check) (f : Cause × Info) : k.early.getD f = f ∨ causeRank (k.early.getD f).1 < causeRank .earlyRead := by
  cases k with
  | none => exact .inl rfl
  | some g =>
    by_cases h : causeRank g.1 < causeRank .earlyRead
    · exact .inr (by simp [Check.early, h])
    · exact .inl (by simp [Check.early, h])

/-- Settles O13: a move that reads early takes that fault, but where its check has one that ranks before it. -/
theorem movesNotMade : Obligations.MovesNotMade := by
  intro i c s h
  refine ⟨exec_off h, fun r hg hsrc hr => ?_⟩
  intro early mayRank
  obtain ⟨chk, eff, he, hlate⟩ := execMove_exec (s := s) h
  have hsf := sourceFault_early hsrc hr
  refine ⟨fun hn => ?_, ⟨(chk (movedVal c s) s).early.getD early, ?_, early_getD _ early⟩, fun k hi hf => ?_⟩
  · rw [Takes, he, move_early hg hsf, (hlate hn).early]
    rfl
  · rw [Takes, he, move_early hg hsf]
  · have hchk : shwCheck k.val s = some (.unimplementedPort, BitVec.ofNat 72 (1472 + k.val)) := by
      simp only [shwCheck, Bay.shapeTarget, hf]
    rw [Takes, hi, exec_shapeWrite, shapeWrite, move_early hg hsf, hchk]
    rfl

end Sys2Proof
end

section
/-!
What a step runs: the event that is due, the next phase, or a bundle of one move (R61, R90, R91, R107; log 5, log 9).
-/

namespace Sys2Proof
open Machine Laws

variable {s : State} {b : BayId} {k : Fin 8} {w : SlotWord} {i : Instr}

/-! ## The stages of a bundle of one move (R61, R62, R68, R71) -/

theorem runStage_self : runStage s (stageOf i) [i] = runSlot s i := by simp [runStage]

theorem runStage_ne {n : Nat} (h : stageOf i ≠ n) : runStage s n [i] = s := by simp [runStage, h]

theorem stageOf_le (i : Instr) : stageOf i ≤ 3 := by
  unfold stageOf
  split <;> omega

/-- A long immediate is made before the moves read the registers. -/
theorem runBundle_limm (h : stageOf i = 0) : runBundle s [i] = (runSlot s i).onMe Bay.beginMoves := by
  have hfirst : runStage s 0 [i] = runSlot s i := h ▸ runStage_self
  rw [runBundle, hfirst, runStage_ne (by omega), runStage_ne (by omega), runStage_ne (by omega)]

/-- Any other move is made after it. -/
theorem runBundle_single (h : stageOf i ≠ 0) : runBundle s [i] = runSlot (s.onMe Bay.beginMoves) i := by
  have hle := stageOf_le i
  have hstage : stageOf i = 1 ∨ stageOf i = 2 ∨ stageOf i = 3 := by omega
  rw [runBundle, runStage_ne h]
  rcases hstage with h1 | h2 | h3
  · rw [← h1, runStage_self, runStage_ne (by omega), runStage_ne (by omega)]
  · rw [runStage_ne (n := 1) (by omega), ← h2, runStage_self, runStage_ne (by omega)]
  · rw [runStage_ne (n := 1) (by omega), runStage_ne (n := 2) (by omega), ← h3, runStage_self]

theorem runSlot_next {t : State} (h : exec i s = .next t) : runSlot s i = t := by rw [runSlot, h, nextOr]

/-! ## The checks of a bundle of one move, with no jig merged into it (R64, R81, R105) -/

theorem decodeAll_single {owned : BitVec 8} {pc : Nat} (h : decodeSlot k w = .ok i) : decodeAll owned pc [(k, w)] = ([(k, i)], []) := by
  simp [decodeAll, h]

theorem hasLimm_single : hasLimm [(k, i)] = decide (stageOf i = 0) := by simp [hasLimm]

/-- With no jig merged no slot is owned by one. -/
theorem jigFaults_none {prim : BitVec 192} : jigFaults prim (ownedSlots []) = [] := by simp [jigFaults, ownedSlots, bitAt]

/-- What one slot takes collides with nothing of another. -/
theorem portFaults_single {owned : BitVec 8} {x : Bay} : portFaults owned (allTargets x [(k, i)]) = [] := by
  have hslot : ∀ y ∈ allTargets x [(k, i)], y.1 = k := by
    intro y hy
    simp only [allTargets, List.flatMap_cons, List.flatMap_nil, List.append_nil, List.mem_append, List.mem_map] at hy
    rcases hy with ⟨_, _, rfl⟩ | ⟨_, _, rfl⟩ <;> rfl
  have hnone : (allTargets x [(k, i)]).filter (fun y =>
      (allTargets x [(k, i)]).any (fun z => decide (z.1 ≠ y.1) && decide (z.2 = y.2))) = [] := by
    rw [List.filter_eq_nil_iff]
    intro y hy
    simp only [List.any_eq_true, Bool.and_eq_true, decide_eq_true_eq, not_exists, not_and]
    intro z hz hne
    exact absurd ((hslot z hz).trans (hslot y hy).symm) hne
  rw [portFaults, hnone, List.map_nil]

theorem bundleFaults_none {x : Bay} (h : x.window.bundles < 2048) : x.bundleFaults = [] := if_neg (Nat.not_le.mpr h)

theorem reportFault_nil : reportFault [] = none := rfl

/-- A bundle with one fault reports it. -/
theorem reportFault_single {f : BFault} : reportFault [f] = some f := by
  simp [reportFault, sortOn, insertOn]

/-! ## The issue of a bundle of one move -/

/-- The state in which bay b issues, and examines the moves of its bundle before any stands (R107). -/
def examining (s : State) (b : BayId) : State :=
  ({ s with cur := b } : State).onBay b (fun y => { y with dry := some [], jigSlots := 0 })

/-- How the bundle of bay b ends whose moves led to state t: nothing of it stands where it has a fault (R107). -/
def bundleEnd (s : State) (b : BayId) (t : State) (limm : Bool) : State :=
  let met := t.me.dry.getD []
  match reportFault (met ++ t.followFault met) with
  | some f => (({ s with cur := b } : State).takeFault b f).onBay b Bay.endIssue
  | none => t.onBay b (fun y => ({ y with dry := none }).finish (s.now b) false limm)

theorem issue_single (hj : (s.bay b).mergingJigs (s.now b) = [])
    (hw : slotWords (bundleAt (s.bay b).imem (s.bay b).pc) (s.bay b).jigmem [] = [(k, w)]) (hd : decodeSlot k w = .ok i)
    (hb : (s.bay b).window.bundles < 2048) :
    s.issue b = bundleEnd s b (runBundle (examining s b) [i]) (decide (stageOf i = 0)) := by
  have hj' : (({ s with cur := b } : State).bay b).mergingJigs (({ s with cur := b } : State).now b) = [] := hj
  have hw' : slotWords (bundleAt (({ s with cur := b } : State).bay b).imem (({ s with cur := b } : State).bay b).pc)
    (({ s with cur := b } : State).bay b).jigmem [] = [(k, w)] := hw
  have hb' : (({ s with cur := b } : State).bay b).bundleFaults = [] := bundleFaults_none hb
  simp only [State.issue, hj', hw', hb', decodeAll_single hd, jigFaults_none, portFaults_single, hasLimm_single, List.nil_append,
    List.append_nil, List.map_cons, List.map_nil, ne_eq, not_true_eq_false, decide_false]
  rfl

variable {t : State} {limm : Bool}

/-- With no fault met the bundle ends as it commits. -/
theorem bundleEnd_commits (hdry : t.me.dry = some []) (hfollow : t.followFault [] = []) :
    bundleEnd s b t limm = t.onBay b (fun y => ({ y with dry := none }).finish (s.now b) false limm) := by
  simp only [bundleEnd, hdry, Option.getD_some, hfollow, List.append_nil, reportFault_nil]

/-- The one fault met is taken in the state before the bundle. -/
theorem bundleEnd_faults {f : BFault} (hdry : t.me.dry = some [f]) (hfollow : t.followFault [f] = []) :
    bundleEnd s b t limm = (({ s with cur := b } : State).takeFault b f).onBay b Bay.endIssue := by
  simp only [bundleEnd, hdry, Option.getD_some, hfollow, List.append_nil, reportFault_single]

theorem step_event {rest : List Todo} (h : s.todo = .event i :: rest) : step s = exec i { s with todo := rest } := by
  simp only [step, h]

theorem step_idle (h : s.todo = []) : step s = .next s.turn := by
  simp only [step, h]

theorem step_issue {rest : List Todo} (h : s.todo = .issue b :: rest) : step s = .next (State.issue { s with todo := rest } b) := by
  simp only [step, h]

theorem onMe_beginMoves_examining :
    (examining s b).onMe Bay.beginMoves =
      ({ s with cur := b } : State).onBay b (fun y => { y with dry := some [], jigSlots := 0, pre := some y.regs }) :=
  State.onBay_onBay ({ s with cur := b } : State) b _ _

/-- Settles O54. -/
theorem stepRuns : Obligations.StepRuns := by
  intro s
  refine ⟨fun i rest h => step_event h, step_idle, fun b rest h => ?_⟩
  intro u x
  refine ⟨step_issue h, fun k w i t hj hw hd hb => ?_⟩
  intro begun ends
  have hissue : step s = .next (bundleEnd { s with todo := rest } b (runBundle (examining { s with todo := rest } b) [i])
      (decide (stageOf i = 0))) :=
    (step_issue h).trans (congrArg Host.Outcome.next (issue_single (s := { s with todo := rest }) hj hw hd hb))
  refine ⟨fun hstage hexec => ?_, fun hstage hexec => ?_⟩
  · have hrun : runBundle (examining { s with todo := rest } b) [i] = t := by
      rw [runBundle_single hstage, onMe_beginMoves_examining]
      exact runSlot_next hexec
    rw [hrun, decide_eq_false hstage] at hissue
    exact ⟨fun hdry hfollow => hissue.trans (congrArg _ (bundleEnd_commits hdry hfollow)),
      fun f hdry hfollow => hissue.trans (congrArg _ (bundleEnd_faults hdry hfollow))⟩
  · have hrun : runBundle (examining { s with todo := rest } b) [i] = t.onMe Bay.beginMoves := by
      have hexec' : exec i (examining { s with todo := rest } b) = .next t := hexec
      rw [runBundle_limm hstage, runSlot_next hexec']
    rw [hrun, decide_eq_true hstage] at hissue
    exact ⟨fun hdry hfollow => hissue.trans (congrArg _ (bundleEnd_commits hdry hfollow)),
      fun f hdry hfollow => hissue.trans (congrArg _ (bundleEnd_faults hdry hfollow))⟩

end Sys2Proof
end

section
/-!
Transfers of control: branches, calls and returns (R79, R91, R92, R349 to R352, R377, R415).

A target is checked by its code address. The lemmas of this file say when the check passes, for a code address of a bundle (targetChk_bundle)
and for one that may be of none (targetChk_eq); a transfer's instruction is then its check, and the transfer.
-/

namespace Sys2Proof
open Machine Laws

variable {c : Ctl} {s : State}

/-! ## Targets (R79, R92) -/

/-- A code address passes the index check when a bundle of the bay starts there. -/
theorem indexChk_eq (addr : Int) :
    indexChk s addr = if addr % 24 = 0 ∧ 0 ≤ addr / 24 ∧ addr / 24 < s.bundleLimit s.cur then none else flowFault addr := by
  unfold indexChk
  split
  next h => rw [if_neg (by omega)]
  next h => rw [if_pos (by omega)]

theorem indexChk_bundle (idx : Int) :
    indexChk s (24 * idx) = if 0 ≤ idx ∧ idx < s.bundleLimit s.cur then none else flowFault (24 * idx) := by
  have hmod : 24 * idx % 24 = 0 := Int.mul_emod_right 24 idx
  have hdiv : 24 * idx / 24 = idx := Int.mul_ediv_cancel_left idx (by decide)
  simp only [indexChk_eq, hmod, hdiv, true_and]

theorem outOfLoop_eq_false {b : Bay} {idx : Int} :
    b.outOfLoop idx = false ↔ ∀ l : LoopLevel, b.topLoop = some l → (l.start : Int) ≤ idx ∧ idx ≤ l.stop := by
  unfold Bay.outOfLoop
  split
  next hn => simp [hn]
  next l hl =>
    rw [hl, Bool.or_eq_false_iff, decide_eq_false_iff_not, decide_eq_false_iff_not]
    simp only [Option.some.injEq, forall_eq', Int.not_lt]

/-- A transfer from a bundle, to an index, stands in no end bundle of a level and, if ranged, stays in the top level. -/
theorem leavesLoop_eq_false {b : Bay} {idx : Int} {ranged : Bool} :
    (b.loopsInForce.any (fun l => decide (b.pc = l.stop)) || (ranged && b.outOfLoop idx)) = false ↔
      (∀ l ∈ b.loopsInForce, b.pc ≠ l.stop) ∧
        ∀ l : LoopLevel, b.topLoop = some l → ranged = true → (l.start : Int) ≤ idx ∧ idx ≤ l.stop := by
  rw [Bool.or_eq_false_iff, List.any_eq_false]
  refine and_congr (by simp) ?_
  cases ranged with
  | false => simp
  | true =>
    rw [Bool.true_and, outOfLoop_eq_false]
    simp only [forall_const]

open Classical in
/-- A taken transfer's check passes for the code address of a legal target, and for no other code address. -/
theorem targetChk_eq (addr : Int) (ranged : Bool) :
    targetChk s addr ranged = if addr % 24 = 0 ∧ LegalTarget s (addr / 24) ranged then none else flowFault addr := by
  unfold targetChk
  by_cases hidx : addr % 24 = 0 ∧ 0 ≤ addr / 24 ∧ addr / 24 < s.bundleLimit s.cur
  · obtain ⟨hmod, hlow, hhigh⟩ := hidx
    rw [indexChk_eq, if_pos ⟨hmod, hlow, hhigh⟩, andThen_none]
    have hloop := leavesLoop_eq_false (b := s.me) (idx := addr / 24) (ranged := ranged)
    by_cases hleaves : (s.me.loopsInForce.any (fun l => decide (s.me.pc = l.stop)) || (ranged && s.me.outOfLoop (addr / 24))) = false
    · rw [if_neg (by rw [hleaves]; decide), if_pos ⟨hmod, hlow, hhigh, hloop.mp hleaves⟩]
    · rw [if_pos (Bool.eq_true_of_not_eq_false hleaves), if_neg]
      rintro ⟨-, -, -, hstays⟩
      exact hleaves (hloop.mpr hstays)
  · rw [indexChk_eq, if_neg hidx, if_neg]
    · rfl
    · rintro ⟨hmod, hlow, hhigh, -⟩
      exact hidx ⟨hmod, hlow, hhigh⟩

open Classical in
theorem targetChk_bundle (idx : Int) (ranged : Bool) :
    targetChk s (24 * idx) ranged = if LegalTarget s idx ranged then none else flowFault (24 * idx) := by
  have hmod : 24 * idx % 24 = 0 := Int.mul_emod_right 24 idx
  have hdiv : 24 * idx / 24 = idx := Int.mul_ediv_cancel_left idx (by decide)
  simp only [targetChk_eq, hmod, hdiv, true_and]

open Classical in
/-- A call or a jump to a code address also checks that its target holds a pad (R92). -/
theorem targetPadChk_eq (addr : Int) (ranged : Bool) (pad : Instr) :
    Check.andThen (targetChk s addr ranged) (padChk s addr pad) =
      if addr % 24 = 0 ∧ LegalTarget s (addr / 24) ranged ∧ s.me.slot7At (addr / 24).toNat = some pad then none else flowFault addr := by
  rw [targetChk_eq, padChk]
  by_cases hlegal : addr % 24 = 0 ∧ LegalTarget s (addr / 24) ranged
  · obtain ⟨hmod, htarget⟩ := hlegal
    simp only [hmod, htarget, true_and, if_true, andThen_none]
  · have hnot (p : Prop) : ¬ (addr % 24 = 0 ∧ LegalTarget s (addr / 24) ranged ∧ p) :=
      fun ⟨hmod, htarget, _⟩ => hlegal ⟨hmod, htarget⟩
    rw [if_neg hlegal, if_neg (hnot _)]
    rfl

/-! ## Transfers taken (R91, R351) -/

theorem goto_bundle (idx : Int) : s.goto (24 * idx) = jumps s idx := by
  rw [State.goto, Int.mul_ediv_cancel_left idx (by decide)]
  rfl

theorem goto_linkNext (addr : Int) : (s.goto addr).linkNext = calls s (addr / 24) := by
  have hcomp := State.onBay_onBay s s.cur (fun b => { b with xfer := some (addr / 24).toNat })
    (fun b => { b with regs := { b.regs with lk := BitVec.ofNat 64 (24 * (b.pc + 1)) } })
  exact hcomp

theorem goto_bundle_linkNext (idx : Int) : (s.goto (24 * idx)).linkNext = calls s idx := by
  rw [goto_linkNext, Int.mul_ediv_cancel_left idx (by decide)]

/-- A move that checks a transfer is made where its target is legal. -/
theorem transfer_made {chk : Val → State → Check} {eff : Val → State → State} {t : State} {P : Prop} [Decidable P] {addr : Int}
    (h : Made c s) (hchk : chk (movedVal c s) s = if P then none else flowFault addr) (hp : P) (heff : eff (movedVal c s) s = t) :
    Host.Outcome.next (s.move c chk eff) = (.next t : Step) := by
  rw [move_made h (hchk.trans (if_pos hp)), heff]

/-- Where it is not, the move takes a control-flow fault with the code address. -/
theorem transfer_refused {chk : Val → State → Check} {eff : Val → State → State} {P : Prop} [Decidable P] {addr : Int}
    (h : Made c s) (hchk : chk (movedVal c s) s = if P then none else flowFault addr) (hp : ¬ P) :
    Host.Outcome.next (s.move c chk eff) = (.next (s.raise (s.slotFault c .controlFlow (BitVec.ofInt 72 addr))) : Step) := by
  rw [move_refused h (hchk.trans (if_neg hp))]

/-! ## BRM (R350) -/

theorem brmMask_eq (v : Val) :
    brmMask s v = s.me.seen.m.get ⟨v.addr.toNat / 2 ^ 32 % 8, Nat.mod_lt _ (by decide)⟩ := by
  have hix : Fin.ofNat 8 (bits v.addr 32 3) = ⟨v.addr.toNat / 2 ^ 32 % 8, Nat.mod_lt _ (by decide)⟩ :=
    Fin.ext (by rw [Fin.val_ofNat, bits_eq]; exact Nat.mod_mod _ _)
  rw [brmMask, hix]

/-- The mask over which a BRM is taken: all zeros with bit 35, else all ones. -/
def brmTakenMask (x : Addr) : MaskReg := if x.getLsbD 35 = true then 0 else BitVec.allOnes 256

theorem zero_ne_allOnes : (0 : MaskReg) ≠ BitVec.allOnes 256 := by decide

/-- Of a uniform mask one is the mask over which the BRM is taken, and the other its complement. -/
theorem brmTaken_eq (v : Val) :
    brmTaken s v = if brmMask s v = brmTakenMask v.addr then some true
      else if brmMask s v = ~~~brmTakenMask v.addr then some false else none := by
  have hones : ~~~(0 : MaskReg) = BitVec.allOnes 256 := by decide
  have hzero : ~~~BitVec.allOnes 256 = (0 : MaskReg) := by decide
  unfold brmTaken brmTakenMask bitAt
  cases v.addr.getLsbD 35 with
  | false =>
    simp only [Bool.false_eq_true, if_false, hzero]
    rfl
  | true =>
    simp only [if_true, hones]
    by_cases h0 : brmMask s v = 0
    · rw [if_neg (h0.trans_ne zero_ne_allOnes), if_pos h0, if_pos h0]
    · rw [if_neg h0, if_neg h0]
      rfl

theorem brmTarget_eq (v : Val) : brmTarget s v = 24 * ((s.me.pc : Int) + (v.addr.setWidth 32).toInt) := by
  have hlow : v.addr.extractLsb' 0 32 = v.addr.setWidth 32 := by
    rw [← BitVec.setWidth_eq_extractLsb' (by decide)]
  rw [brmTarget, State.relative, sbits, hlow]

/-- The reserved bits of a BRM word are those above bit 35. -/
theorem brmReserved_iff (x : Addr) : bits x 36 36 ≠ 0 ↔ 2 ^ 36 ≤ x.toNat := by
  have hx := x.isLt
  rw [bits_eq]
  omega

/-- A BRM over a mixed mask fails, one that is taken checks its target, and then come the reserved bits. -/
theorem brmChk_mixed {v : Val} (h1 : brmMask s v ≠ brmTakenMask v.addr) (h2 : brmMask s v ≠ ~~~brmTakenMask v.addr) :
    brmChk v s = flowFault (brmTarget s v) := by
  rw [brmChk, brmTaken_eq, if_neg h1, if_neg h2]
  rfl

theorem brmTaken_taken {v : Val} (h : brmMask s v = brmTakenMask v.addr) : brmTaken s v = some true := by
  rw [brmTaken_eq, if_pos h]

theorem brmTakenMask_ne_not (y : Addr) : ~~~brmTakenMask y ≠ brmTakenMask y := by
  unfold brmTakenMask
  split <;> decide

theorem brmTaken_passed {v : Val} (h : brmMask s v = ~~~brmTakenMask v.addr) : brmTaken s v = some false := by
  rw [brmTaken_eq, if_neg (h.trans_ne (brmTakenMask_ne_not _)), if_pos h]

theorem brmChk_illegal {v : Val} (h : brmMask s v = brmTakenMask v.addr)
    (hl : ¬ LegalTarget s ((s.me.pc : Int) + (v.addr.setWidth 32).toInt) true) : brmChk v s = flowFault (brmTarget s v) := by
  rw [brmChk, brmTaken_taken h, brmTarget_eq]
  simp only [targetChk_bundle, if_neg hl]
  rfl

/-- What a BRM over a uniform mask checks last, where it is not taken or its target is legal. -/
theorem brmChk_uniform {v : Val} (h : brmMask s v = ~~~brmTakenMask v.addr ∨
      brmMask s v = brmTakenMask v.addr ∧ LegalTarget s ((s.me.pc : Int) + (v.addr.setWidth 32).toInt) true) :
    brmChk v s = if 2 ^ 36 ≤ v.addr.toNat then some (.reservedField, 257) else none := by
  rw [brmChk]
  simp only [brmReserved_iff]
  rcases h with h | ⟨h, hl⟩
  · rw [brmTaken_passed h]
    rfl
  · rw [brmTaken_taken h, brmTarget_eq]
    simp only [targetChk_bundle, if_pos hl, andThen_none]

/-! ## The statement -/

/-- BRM: with a legal target it is taken or passed by, as its mask says; else it faults. -/
theorem brm_cases (h : Made c s) :
    let x := (movedVal c s).addr
    let m := s.me.seen.m.get ⟨x.toNat / 2 ^ 32 % 8, Nat.mod_lt _ (by decide)⟩
    let dest := (s.me.pc : Int) + (x.setWidth 32).toInt
    let flow : Prop := exec (.brm c) s = .next (s.raise (s.slotFault c .controlFlow (BitVec.ofInt 72 (24 * dest))))
    (x.toNat < 2 ^ 36 → m = brmTakenMask x → LegalTarget s dest true → exec (.brm c) s = .next (jumps s dest)) ∧
    (x.toNat < 2 ^ 36 → m = ~~~brmTakenMask x → exec (.brm c) s = .next s) ∧
    (m = brmTakenMask x → ¬ LegalTarget s dest true → flow) ∧
    (m ≠ brmTakenMask x → m ≠ ~~~brmTakenMask x → flow) ∧
    (2 ^ 36 ≤ x.toNat → m = ~~~brmTakenMask x ∨ m = brmTakenMask x ∧ LegalTarget s dest true →
      exec (.brm c) s = .next (s.raise (s.slotFault c .reservedField 257))) := by
  intro x m dest flow
  have hm : brmMask s (movedVal c s) = m := brmMask_eq _
  have hdest : brmTarget s (movedVal c s) = 24 * dest := brmTarget_eq _
  have hexec : exec (.brm c) s = .next (s.move c brmChk (fun v t => if brmTaken t v = some true then t.goto (brmTarget t v) else t)) := rfl
  have hflow (hchk : brmChk (movedVal c s) s = flowFault (brmTarget s (movedVal c s))) : flow := by
    rw [hdest] at hchk
    exact hexec.trans (congrArg _ (move_refused h hchk))
  refine ⟨fun hx ht hl => ?_, fun hx hn => ?_, fun ht hl => hflow (brmChk_illegal (hm.trans ht) hl),
    fun h1 h2 => hflow (brmChk_mixed (hm.trans_ne h1) (hm.trans_ne h2)), fun hx hu => ?_⟩
  · rw [hexec, move_made h ((brmChk_uniform (.inr ⟨hm.trans ht, hl⟩)).trans (if_neg (Nat.not_le.mpr hx))),
      if_pos (brmTaken_taken (hm.trans ht)), hdest, goto_bundle]
  · rw [hexec, move_made h ((brmChk_uniform (.inl (hm.trans hn))).trans (if_neg (Nat.not_le.mpr hx))), brmTaken_passed (hm.trans hn),
      if_neg (by decide)]
  · rw [hexec, move_refused h ((brmChk_uniform (hm ▸ hu)).trans (if_pos hx))]

open Classical in
/-- Settles O29. -/
theorem branches : Obligations.Branches := by
  intro c s h pc x off code lk pad m taken dest flow
  obtain ⟨htaken, hpassed, hillegal, hmixed, hreserved⟩ := brm_cases h
  have hrel (ranged : Bool) : targetChk s (s.relative (movedVal c s).offset) ranged =
      if LegalTarget s (pc + off) ranged then none else flowFault (24 * (pc + off)) := targetChk_bundle _ _
  exact ⟨fun hl => transfer_made h (hrel true) hl (goto_bundle _),
    fun hl => transfer_made h (hrel false) hl (goto_bundle_linkNext _),
    fun ha hl hp => transfer_made h (targetPadChk_eq code false .padC) ⟨ha, hl, hp⟩ (goto_linkNext _),
    fun ha hl hp => transfer_made h (targetPadChk_eq code true .padJ) ⟨ha, hl, hp⟩ rfl,
    fun ha hl => transfer_made h (targetChk_eq lk false) ⟨ha, hl⟩ rfl,
    htaken, hpassed,
    transfer_refused h (hrel true), transfer_refused h (hrel false),
    transfer_refused h (targetPadChk_eq code false .padC), transfer_refused h (targetPadChk_eq code true .padJ),
    transfer_refused h (targetChk_eq lk false),
    hillegal, hmixed, hreserved⟩

end Sys2Proof
end

section
/-!
Jigs begin and end, PEGCLR, and the pegs at the end of a cycle (R80, R82, R232, R375, R376, R407).
-/

namespace Sys2Proof
open Machine Laws

variable {s : State} {b : BayId} {c : Cmd} {rest : List Cmd}

/-! ## The begin of a command (R76, R232) -/

/-- The head of a queue may begin where Begins says so, and no other condition is put on its trigger id. -/
theorem Begins.headReady {e : Engine} (h : Begins s b e c rest) : (s.bay b).headReady e (s.now b) (fun _ => true) = some c := by
  have hpegs : c.consumes.all (fun n => (s.bay b).pegOn n && !(s.bay b).pegUse.contains n) = true := by
    rw [List.all_eq_true]
    intro n hn
    obtain ⟨hon, hfree⟩ := h.pegs n hn
    simp [Bay.pegOn, hon, hfree]
  have hready : (s.bay b).ready' c (s.now b) = true := by
    rw [Bay.ready', hpegs, Bool.and_true, decide_eq_true_eq]
    exact h.later
  simp only [Bay.headReady, h.head, hready, Bool.and_self, if_true]

theorem queue_setQueue (x : Bay) (e : Engine) (l : List Cmd) : (x.setQueue e l).queue e = l := by
  simp [Bay.queue, Bay.setQueue, Vector.get_eq_getElem]

/-- No two engines share a queue. -/
theorem engineIdx_injective {e e' : Engine} (h : engineIdx e = engineIdx e') : e = e' := by
  cases e <;> cases e' <;> simp [engineIdx] at h ⊢

theorem queue_setQueue_ne (x : Bay) {e e' : Engine} (l : List Cmd) (h : e' ≠ e) : (x.setQueue e l).queue e' = x.queue e' := by
  have hidx : (engineIdx e).val ≠ (engineIdx e').val := fun he => h (engineIdx_injective (Fin.ext he)).symm
  simp [Bay.queue, Bay.setQueue, Vector.get_eq_getElem, hidx]

theorem Begins.dequeue {e : Engine} (h : Begins s b e c rest) : (s.bay b).dequeue e = (s.bay b).setQueue e rest := by
  rw [Bay.dequeue, h.head, List.tail_cons]

theorem onlyBay_onBay (s : State) (b : BayId) (f : Bay → Bay) : OnlyBay b s (s.onBay b f) := by
  rw [OnlyBay, State.bay_onBay]
  rfl

/-! ## Jigs (R80, R375, R376) -/

/-- The lowest free micro-PC. -/
theorem freeJig_eq {x : Bay} {j : Fin 2} (hj : x.jigs.get j = none) (hlow : ∀ i : Fin 2, i < j → x.jigs.get i ≠ none) :
    x.freeJig = some j := by
  rw [Bay.freeJig]
  fin_cases j
  · exact if_pos (Option.isNone_iff_eq_none.mpr hj)
  · have h0 : (x.jigs.get 0).isNone = false := by
      rw [← Option.not_isSome, Bool.not_eq_false', Option.isSome_iff_ne_none]
      exact hlow 0 (by decide)
    rw [h0, if_neg (by decide)]
    exact if_pos (Option.isNone_iff_eq_none.mpr hj)

/-- The run of the routine that a JIG names, merged from a cycle on (R375, R376). -/
def jigRunOf (c : Cmd) (start : Nat) : JigRun :=
  ⟨start, bits c.word 25 12, bits c.word 37 12 + 1, jigMask c.word, bits c.word 49 12 + 1, bits c.word 25 12, c.ppeg, false, false⟩

theorem exec_jigStart {j : Fin 2} (h : Begins s b .jig c rest) (hj : (s.bay b).jigs.get j = none)
    (hlow : ∀ i : Fin 2, i < j → (s.bay b).jigs.get i ≠ none) :
    exec (.jigStart b) s = .next (s.onBay b (fun x => { x with
      queues := x.queues.set 6 rest (by decide), jigs := x.jigs.set j.val (some (jigRunOf c (s.now b + 1))) j.isLt })) := by
  change execJigStart b s = _
  simp only [execJigStart, h.headReady, freeJig_eq hj hlow]
  refine congrArg Host.Outcome.next (onBay_congr ?_)
  simp only [h.dequeue]
  rfl

theorem jigMask_toNat (w : BitVec 72) : (jigMask w).toNat = w.toNat / 2 ^ 61 % 2 ^ 8 := by
  rw [jigMask, BitVec.toNat_ofNat, bits_eq, Nat.mod_mod]

theorem exec_jigEnd {j : Fin 2} {r : JigRun} (hr : (s.bay b).jigs.get j = some r) (hd : r.done = true) :
    exec (.jigEnd b j) s = .next (s.onBay b (fun x => { x with
      jigs := x.jigs.set j.val none j.isLt
      pegSet := if r.ppeg = 63 then x.pegSet else x.pegSet ++ [r.ppeg] })) := by
  change execJigEnd b j s = _
  simp only [execJigEnd, hr, hd, if_true]

/-! ## PEGCLR (R407) -/

/-- The pegs that a PEGCLR names: those of the half HI whose MASK bit is set. -/
theorem mem_pegclrNames (w : BitVec 72) (k : Nat) :
    k ∈ pegclrNames w ↔ k < 64 ∧ bitAt w 25 = decide (32 ≤ k) ∧ bitAt w (26 + k % 32) = true := by
  simp only [pegclrNames, List.mem_map, List.mem_filter, List.mem_range]
  constructor
  · rintro ⟨i, ⟨hi, hbit⟩, rfl⟩
    by_cases h : bitAt w 25 = true
    · have hmod : (32 + i) % 32 = i := by omega
      rw [if_pos h, hmod, h]
      exact ⟨by omega, (decide_eq_true (by omega)).symm, hbit⟩
    · have hmod : (0 + i) % 32 = i := by omega
      rw [if_neg h, hmod, Bool.eq_false_of_not_eq_true h]
      exact ⟨by omega, (decide_eq_false (by omega)).symm, hbit⟩
  · rintro ⟨hk, hhalf, hbit⟩
    refine ⟨k % 32, ⟨Nat.mod_lt _ (by decide), hbit⟩, ?_⟩
    by_cases h : 32 ≤ k
    · rw [if_pos (hhalf.trans (decide_eq_true h))]
      omega
    · rw [if_neg (by rw [hhalf, decide_eq_true_eq]; exact h)]
      omega

/-- What the begin of a PEGCLR makes of its bay. -/
def pegclrBegun (c : Cmd) (x : Bay) : Bay :=
  { x.dequeue .peg with
    pegUse := c.consumes ++ x.pegUse
    pegClr := pegclrNames c.word ++ x.pegClr
    pegLate := if c.ppeg = 63 then x.pegLate else x.pegLate ++ [c.ppeg] }

theorem exec_pegclrBegin (h : Begins s b .peg c rest) : exec (.pegclrBegin b) s = .next (s.onBay b (pegclrBegun c)) := by
  change execPegclrBegin b s = _
  simp only [execPegclrBegin, h.headReady, Bay.consume, Bay.dequeue, Bay.setQueue]
  rfl

theorem pegclrBegun_queue (x : Bay) (e : Engine) : (pegclrBegun c x).queue e = (x.dequeue .peg).queue e := by
  simp only [Bay.queue, pegclrBegun]

theorem begun_pegclr (h : Begins s b .peg c rest) : Begun s (s.onBay b (pegclrBegun c)) b .peg c rest := by
  rw [Begun, State.bay_onBay]
  refine ⟨?_, fun e' he => ?_, ?_, ?_, ?_⟩
  · rw [pegclrBegun_queue, h.dequeue, queue_setQueue]
  · rw [pegclrBegun_queue, h.dequeue, queue_setQueue_ne _ _ he]
  all_goals simp only [pegclrBegun, Bay.dequeue, Bay.setQueue]

/-! ## Pegs at the end of a cycle (R232, R407) -/

/-- A peg falls. -/
def dropPeg (x : BitVec 64) (n : Nat) : BitVec 64 := x &&& ~~~ ((1 : BitVec 64) <<< n)

/-- A peg rises; the first that rises while it is produced is kept. -/
def raisePeg (acc : BitVec 64 × Option Nat) (n : Nat) : BitVec 64 × Option Nat :=
  if acc.1.getLsbD n then (acc.1, some (acc.2.getD n)) else (acc.1 ||| ((1 : BitVec 64) <<< n), acc.2)

theorem endPegs_pegs (x : Bay) :
    x.endPegs.1.pegs = (x.pegLate.foldl raisePeg (x.pegClr.foldl dropPeg (x.pegSet.foldl raisePeg (x.pegUse.foldl dropPeg x.pegs, none)).1,
      (x.pegSet.foldl raisePeg (x.pegUse.foldl dropPeg x.pegs, none)).2)).1 := rfl

theorem getLsbD_bit {k n : Nat} (hk : k < 64) : ((1 : BitVec 64) <<< n).getLsbD k = decide (k = n) := by
  rw [BitVec.getLsbD_shiftLeft, BitVec.ofNat_eq_ofNat, BitVec.getLsbD_one, Bool.eq_iff_iff]
  simp only [hk, Bool.and_eq_true, Bool.not_eq_true', decide_eq_true_eq, decide_eq_false_iff_not, true_and]
  omega

theorem getLsbD_dropPeg (x : BitVec 64) (n : Nat) {k : Nat} (hk : k < 64) :
    (dropPeg x n).getLsbD k = true ↔ x.getLsbD k = true ∧ k ≠ n := by
  rw [dropPeg, BitVec.getLsbD_and, BitVec.getLsbD_not, getLsbD_bit hk]
  simp [hk]

theorem getLsbD_raisePeg (acc : BitVec 64 × Option Nat) (n : Nat) {k : Nat} (hk : k < 64) :
    (raisePeg acc n).1.getLsbD k = true ↔ acc.1.getLsbD k = true ∨ k = n := by
  unfold raisePeg
  split
  next hn =>
    refine ⟨.inl, ?_⟩
    rintro (h | rfl)
    · exact h
    · exact hn
  next => rw [BitVec.getLsbD_or, getLsbD_bit hk, Bool.or_eq_true, decide_eq_true_eq]

theorem getLsbD_foldl_dropPeg (l : List Nat) (x : BitVec 64) {k : Nat} (hk : k < 64) :
    (l.foldl dropPeg x).getLsbD k = true ↔ x.getLsbD k = true ∧ k ∉ l := by
  induction l generalizing x with
  | nil => simp
  | cons n l ih => rw [List.foldl_cons, ih, getLsbD_dropPeg x n hk, List.mem_cons, not_or, and_assoc]

theorem getLsbD_foldl_raisePeg (l : List Nat) (acc : BitVec 64 × Option Nat) {k : Nat} (hk : k < 64) :
    (l.foldl raisePeg acc).1.getLsbD k = true ↔ acc.1.getLsbD k = true ∨ k ∈ l := by
  induction l generalizing acc with
  | nil => simp
  | cons n l ih => rw [List.foldl_cons, ih, getLsbD_raisePeg acc n hk, List.mem_cons, or_assoc]

/-- Consumed pegs fall, produced ones rise, then cleared ones fall, then a PEGCLR's own rises. -/
theorem endPegs_bit (x : Bay) {n : Nat} (hn : n < 64) :
    x.endPegs.1.pegs.getLsbD n =
      decide ((((x.pegs.getLsbD n = true ∧ n ∉ x.pegUse) ∨ n ∈ x.pegSet) ∧ n ∉ x.pegClr) ∨ n ∈ x.pegLate) := by
  rw [Bool.eq_iff_iff, decide_eq_true_eq, endPegs_pegs, getLsbD_foldl_raisePeg _ _ hn, getLsbD_foldl_dropPeg _ _ hn,
    getLsbD_foldl_raisePeg _ _ hn, getLsbD_foldl_dropPeg _ _ hn]

/-- Settles O38. -/
theorem jigsAndPegs : Obligations.JigsAndPegs := by
  refine ⟨fun b s c rest j h hj hlow => ⟨jigRunOf c (s.now b + 1), exec_jigStart h hj hlow, rfl, bits_eq c.word 25 12, ?_, ?_,
      jigMask_toNat _, rfl, rfl, rfl, rfl⟩, fun b j s r hr hd => exec_jigEnd hr hd,
    fun b s c rest h => ⟨s.onBay b (pegclrBegun c), exec_pegclrBegin h, onlyBay_onBay .., begun_pegclr h, fun k => ?_, ?_, ?_⟩,
    fun x n hn => ⟨endPegs_bit x hn, rfl, rfl, rfl, rfl, rfl⟩⟩
  · exact congrArg (· + 1) (bits_eq c.word 37 12)
  · exact congrArg (· + 1) (bits_eq c.word 49 12)
  · rw [State.bay_onBay]
    exact (List.mem_append.trans or_comm).trans (or_congr_right (mem_pegclrNames c.word k))
  all_goals
    rw [State.bay_onBay]
    simp only [pegclrBegun, Bay.dequeue, Bay.setQueue]

end Sys2Proof
end

section
/-!
LOOP, and the loop unit's act at the end of a bundle (R77, R78, R386, R387; log 78).
-/

namespace Sys2Proof
open Machine Laws

variable {c : Ctl} {s : State} {v : Val}

/-! ## The descriptor (R386) -/

theorem loopCount_eq (v : Val) : loopCount v = v.addr.toNat % 2 ^ 32 := by
  rw [loopCount, bits_eq, pow_zero, Nat.div_one]

/-- The last bundle of a level that a LOOP pushes. -/
def loopStop (s : State) (v : Val) : Nat := s.me.pc + loopEnd v

/-- The level that a LOOP pushes. -/
def pushedLevel (s : State) (v : Val) : LoopLevel := ⟨s.me.pc + 1, loopStop s v, loopCount v, loopUpdates s.me v⟩

theorem length_loopUpdates (b : Bay) (v : Val) : (loopUpdates b v).length = loopUpd v := by
  rw [loopUpdates, List.length_map, List.length_range]

/-- The update of an index of the descriptor names a register and a stride. -/
theorem loopUpdates_get {b : Bay} {u : Nat} (hu : u < loopUpd v) (hbase : loopUbase v + loopUpd v ≤ 16) :
    ∃ p : Fin 16 × Int, (loopUpdates b v)[u]? = some p ∧ p.1.val = loopUbase v + u ∧
      p.2 = ((b.seen.a.toList.getD (loopSbase v + u) 0).setWidth 32).toInt := by
  refine ⟨(Fin.ofNat 16 (loopUbase v + u), ((b.seen.a.toList.getD (loopSbase v + u) 0).setWidth 32 : BitVec 32).toInt), ?_,
    Nat.mod_eq_of_lt (by omega : loopUbase v + u < 16), rfl⟩
  rw [loopUpdates, List.getElem?_map, List.getElem?_range hu, Option.map_some]

/-! ## The checks (R387, log 78) -/

/-- A descriptor with no reserved bit, whose updates lie in the registers and whose level lies in the code and in the level in force. -/
structure WellShaped (s : State) (v : Val) : Prop where
  narrow : v.addr.toNat < 2 ^ 51
  nupd : loopUpd v ≤ 4
  ubase : loopUbase v + loopUpd v ≤ 16
  sbase : loopSbase v + loopUpd v ≤ 16
  after : s.me.pc < loopStop s v
  code : loopStop s v < s.bundleLimit s.cur
  nested : ∀ l : LoopLevel, s.me.topLoop = some l → loopStop s v ≤ l.stop

/-- A level of the code lies in the level in force. -/
theorem WellShaped.top (h : WellShaped s v) :
    (match s.me.topLoop with
      | some l => decide (l.stop < loopStop s v)
      | none => false) = false := by
  split
  next l hl => exact decide_eq_false (Nat.not_lt.mpr (h.nested l hl))
  next => rfl

/-- What is left to check: the bundle beyond the level where none is pushed, else the room for it. -/
theorem loopChk_eq (h : WellShaped s v) :
    loopChk v s = if loopCount v = 0 then indexChk s (24 * ((loopStop s v : Int) + 1))
      else if 4 ≤ s.me.loops.length then some (.loopOverflow, 0) else none := by
  have hres : bits v.addr 51 21 = 0 := by
    rw [bits_eq, Nat.div_eq_of_lt h.narrow, Nat.zero_mod]
  have hfields : ¬ (bits v.addr 51 21 ≠ 0 ∨ 4 < loopUpd v ∨ 16 < loopUbase v + loopUpd v ∨ 16 < loopSbase v + loopUpd v) := by
    have hnupd := h.nupd
    have hubase := h.ubase
    have hsbase := h.sbase
    omega
  have hlevel : ¬ (loopEnd v = 0 ∨ s.bundleLimit s.cur ≤ loopStop s v ∨
      (match s.me.topLoop with
        | some l => decide (l.stop < loopStop s v)
        | none => false) = true) := by
    have hafter : s.me.pc < s.me.pc + loopEnd v := h.after
    rintro (h0 | hcode | htop)
    · omega
    · exact absurd h.code (Nat.not_lt.mpr hcode)
    · rw [h.top] at htop
      cases htop
  unfold loopChk
  exact (if_neg hfields).trans (if_neg hlevel)

/-! ## LOOP (R77, R386) -/

theorem exec_loop_push (hm : Made c s) (h : WellShaped s (movedVal c s)) (hroom : s.me.loops.length < 4)
    (hc : loopCount (movedVal c s) ≠ 0) :
    exec (.loop c) s = .next (s.onMe (fun y => { y with
      loops := pushedLevel s (movedVal c s) :: y.loops, regs := { y.regs with l := y.regs.l.setIfInBounds y.loops.length 0 } })) := by
  have hchk : loopChk (movedVal c s) s = none := by
    rw [loopChk_eq h, if_neg hc, if_neg (Nat.not_le.mpr hroom)]
  refine congrArg Host.Outcome.next ((move_made hm hchk).trans ((if_neg hc).trans (onBay_congr ?_)))
  rfl

theorem exec_loop_overflow (hm : Made c s) (h : WellShaped s (movedVal c s)) (hfull : 4 ≤ s.me.loops.length)
    (hc : loopCount (movedVal c s) ≠ 0) : exec (.loop c) s = .next (s.raise (s.slotFault c .loopOverflow 0)) := by
  have hchk : loopChk (movedVal c s) s = some (.loopOverflow, 0) := by
    rw [loopChk_eq h, if_neg hc, if_pos hfull]
  exact congrArg Host.Outcome.next (move_refused hm hchk)

/-- With COUNT 0 control passes beyond the level, or faults where no bundle is. -/
theorem exec_loop_none (hm : Made c s) (h : WellShaped s (movedVal c s)) (hc : loopCount (movedVal c s) = 0) :
    exec (.loop c) s = .next (if loopStop s (movedVal c s) + 1 < s.bundleLimit s.cur then jumps s (loopStop s (movedVal c s) + 1 : Int)
      else s.raise (s.slotFault c .controlFlow (BitVec.ofInt 72 (24 * (loopStop s (movedVal c s) + 1 : Int))))) := by
  have hchk : loopChk (movedVal c s) s = indexChk s (24 * ((loopStop s (movedVal c s) : Int) + 1)) := by
    rw [loopChk_eq h, if_pos hc]
  rw [indexChk_bundle] at hchk
  refine congrArg Host.Outcome.next ?_
  split
  next hin =>
    rw [if_pos ⟨by omega, by omega⟩] at hchk
    refine (move_made hm hchk).trans ((if_pos hc).trans ?_)
    exact goto_bundle ((loopStop s (movedVal c s) : Int) + 1)
  next hout =>
    rw [if_neg (by omega)] at hchk
    exact move_refused hm hchk

/-! ## The end bundle of a level (R78) -/

/-- With no level suspended, all levels are in force. -/
theorem loopStep_eq {b : Bay} (h : b.suspended = 0) : b.loopStep = atEnd b.pc [] b.loops b.regs := by
  simp only [Bay.loopStep, Bay.loopsInForce, h, Nat.sub_zero, List.drop_length, List.take_length]

section
variable {pc : Nat} {l : LoopLevel} {ls : List LoopLevel} {r : Regs}

theorem atEnd_elsewhere (h : l.stop ≠ pc) : atEnd pc [] (l :: ls) r = (r, l :: ls, none) := by
  simp only [atEnd, if_pos h, List.append_nil]

theorem atEnd_repeats (h : l.stop = pc) (hi : ((l.updates.foldl Regs.stepA r).l.toList.getD ls.length 0).toNat + 1 < l.count) :
    atEnd pc [] (l :: ls) r =
      ((l.updates.foldl Regs.stepA r).setL ls.length
        (BitVec.ofNat 32 (((l.updates.foldl Regs.stepA r).l.toList.getD ls.length 0).toNat + 1)), l :: ls, some l.start) := by
  simp only [atEnd, h, ne_eq, not_true_eq_false, if_false, List.length_nil, Nat.add_zero, hi, if_true, List.append_nil]

theorem atEnd_leaves (h : l.stop = pc) (hi : l.count ≤ ((l.updates.foldl Regs.stepA r).l.toList.getD ls.length 0).toNat + 1) :
    atEnd pc [] (l :: ls) r = atEnd pc [] ls ((l.updates.foldl Regs.stepA r).setL ls.length 0) := by
  simp only [atEnd, h, ne_eq, not_true_eq_false, if_false, List.length_nil, Nat.add_zero, Nat.not_lt.mpr hi]

end

/-- Settles O30. -/
theorem loops : Obligations.Loops := by
  refine ⟨fun c s hm => ?_, fun b l ls hs hl => ?_⟩
  · intro x b count stop nupd ubase sbase hx hnupd hubase hsbase hafter hcode hnested
    have hcount : loopCount (movedVal c s) = count := loopCount_eq _
    have hstop : loopStop s (movedVal c s) = stop := congrArg (s.me.pc + ·) (bits_eq (movedVal c s).addr 32 8)
    have hn : loopUpd (movedVal c s) = nupd := bits_eq (movedVal c s).addr 40 3
    have hu : loopUbase (movedVal c s) = ubase := bits_eq (movedVal c s).addr 43 4
    have hsb : loopSbase (movedVal c s) = sbase := bits_eq (movedVal c s).addr 47 4
    have hshape : WellShaped s (movedVal c s) :=
      ⟨hx, hn.trans_le hnupd, (congrArg₂ (· + ·) hu hn).trans_le hubase, (congrArg₂ (· + ·) hsb hn).trans_le hsbase,
        hafter.trans_eq hstop.symm, hstop.trans_lt hcode, fun l htop => hstop.trans_le (hnested l htop)⟩
    have hnone := exec_loop_none hm hshape
    rw [hcount, hstop] at hnone
    refine ⟨fun hfull hc => exec_loop_overflow hm hshape hfull (hcount.trans_ne hc),
      fun hroom hc => ⟨pushedLevel s (movedVal c s), rfl, hstop, hcount, (length_loopUpdates _ _).trans hn, fun u hlt => ?_,
        exec_loop_push hm hshape hroom (hcount.trans_ne hc)⟩,
      fun hc hin => (hnone hc).trans (congrArg _ (if_pos hin)), fun hc hout => (hnone hc).trans (congrArg _ (if_neg (by omega)))⟩
    have hget := loopUpdates_get (b := s.me) (hn ▸ hlt) hshape.ubase
    rw [hu, hsb] at hget
    exact hget
  · intro r index
    have hleft : ({ b with loops := ls, regs := r.setL ls.length 0 } : Bay).loopStep = atEnd b.pc [] ls (r.setL ls.length 0) :=
      loopStep_eq hs
    rw [loopStep_eq hs, hl]
    exact ⟨atEnd_elsewhere, atEnd_repeats, fun h hi => (atEnd_leaves h hi).trans hleft.symm⟩

end Sys2Proof
end

section
/-!
SYSR and SYSW, TTLD and TTCLR (R72, R73, R206, R433, R434).

A register id is one of a register that SYSR answers (Listed), of the yard, or of none. The checks of both instructions are stated for each of
the three; what SYSR answers is then the table of R72.
-/

namespace Sys2Proof
open Machine Laws

variable {c : Ctl} {s : State} {b : BayId} {id : Nat}

/-! ## The ids of system registers (R72) -/

/-- The ids that R72 does not list. -/
def Unlisted (id : Nat) : Prop := id ∈ [0x07, 0x0E, 0x0F] ∨ (0x38 ≤ id ∧ id < 0x100) ∨ (0x200 ≤ id ∧ id < 0x800)

/-- The ids of the half of the registers that a context of a sliced bay lacks (R434). -/
def Far (s : State) (id : Nat) : Prop := s.sliced s.cur = true ∧ ((0x18 ≤ id ∧ id < 0x20) ∨ (0x180 ≤ id ∧ id < 0x200))

theorem unlisted_iff : Unlisted id ↔ id = 7 ∨ id = 14 ∨ id = 15 ∨ (56 ≤ id ∧ id < 256) ∨ (512 ≤ id ∧ id < 2048) := by
  simp only [Unlisted, List.mem_cons, List.not_mem_nil, or_false, or_assoc]

theorem isNone_ite_some {α : Type} {p : Prop} [Decidable p] {a : α} {o : Option α} :
    (if p then some a else o).isNone = true ↔ ¬ p ∧ o.isNone = true := by
  split <;> simp [*]

/-- An id reads as nothing where it is not listed, or is of the yard. -/
theorem sysRead_isNone : (s.sysRead b id).isNone = true ↔ Unlisted id ∨ 0x800 ≤ id := by
  rw [unlisted_iff]
  unfold State.sysRead
  simp only [isNone_ite_some, Option.isNone_none, and_true]
  omega

theorem sysPortChk_unlisted (port : Nat) (h : Unlisted id) :
    sysPortChk port id s = some (.unimplementedPort, BitVec.ofNat 72 (1024 + port)) := by
  have hu := unlisted_iff.mp h
  exact if_pos ⟨sysRead_isNone.mpr (.inl h), by omega⟩

theorem sysPortChk_listed {port : Nat} (hid : id < 0x1000) (h : ¬ Unlisted id) : sysPortChk port id s = none := by
  refine if_neg ?_
  rintro ⟨hnone, hyard⟩
  rcases sysRead_isNone.mp hnone with hu | hy
  · exact h hu
  · exact hyard ⟨hy, hid⟩

theorem sysIdChk_yard (hid : id < 0x1000) (h : 0x800 ≤ id) : sysIdChk id s = some (.privilege, BitVec.ofNat 72 id) := if_pos ⟨h, hid⟩

theorem sysIdChk_far (h : Far s id) : sysIdChk id s = some (.range, BitVec.ofNat 72 id) := by
  obtain ⟨hs, hr⟩ := h
  exact (if_neg (by omega)).trans (if_pos ⟨hs, hr⟩)

theorem sysIdChk_here (hy : id < 0x800) (h : ¬ Far s id) : sysIdChk id s = none := (if_neg (by omega)).trans (if_neg h)

/-! ## The id of a command word -/

/-- The id that a SYSR or SYSW names. -/
def sysId (v : Val) : Nat := bits v.addr 0 12

theorem sysId_eq (v : Val) : sysId v = v.addr.toNat % 2 ^ 12 := by
  rw [sysId, bits_eq, pow_zero, Nat.div_one]

theorem sysId_lt (v : Val) : sysId v < 0x1000 := by
  rw [sysId_eq]
  exact Nat.mod_lt _ (by decide)

/-- The bits of an address from lo on are zero where it lies below 2 ^ lo. -/
theorem bits_above {x : Addr} {lo : Nat} (hlo : lo ≤ 72) : bits x lo (72 - lo) = 0 ↔ x.toNat < 2 ^ lo := by
  have hpow : (2 : Nat) ^ 72 = 2 ^ lo * 2 ^ (72 - lo) := by rw [← pow_add, Nat.add_sub_cancel' hlo]
  have hlt : x.toNat / 2 ^ lo < 2 ^ (72 - lo) := Nat.div_lt_of_lt_mul (hpow ▸ x.isLt)
  rw [bits_eq, Nat.mod_eq_of_lt hlt, Nat.div_eq_zero_iff_lt (by positivity)]

/-! ## SYSR (R433) -/

theorem collision_free {p : ResPort} {lat n : Nat} (h : PortFree s p lat) : s.collision p false lat n = none := by
  have h' : (s.bay s.cur).collides (s.now s.cur) (s.poleTime s.cur) (s.partAt s.cur).held p false lat = false := h
  rw [State.collision, h', if_neg (by decide)]

/-- SYSR of a listed register of the bay answers it. -/
theorem sysr_gives {w : Word} (h : Made c s) (hx : (movedVal c s).addr.toNat < 2 ^ 12) (hp : PortFree s .systemR 1)
    (hread : s.sysRead s.cur (sysId (movedVal c s)) = some w) (hfar : ¬ Far s (sysId (movedVal c s))) :
    Gives (.sysr c) s .systemR 1 (w.setWidth 2048) := by
  have hlisted : ¬ (Unlisted (sysId (movedVal c s)) ∨ 0x800 ≤ sysId (movedVal c s)) := fun hn => by
    rw [← sysRead_isNone (s := s) (b := s.cur), hread] at hn
    cases hn
  rw [not_or, Nat.not_le] at hlisted
  have hchk : sysrChk (movedVal c s) s = none := by
    show Check.andThen (sysPortChk 294 (sysId (movedVal c s)) s) _ = none
    rw [sysPortChk_listed (sysId_lt _) hlisted.1, andThen_none, collision_free hp, andThen_none,
      if_neg (not_not.mpr ((bits_above (by decide)).mpr hx)), andThen_none]
    exact sysIdChk_here hlisted.2 hfar
  have hmove := move_made (eff := fun v t =>
    let x := ((s.sysRead s.cur (bits v.addr 0 12)).getD 0).setWidth 2048
    t.onMe (fun b => b.result t.myNow .systemR 1 x)) h hchk
  refine congrArg Host.Outcome.next (hmove.trans ?_)
  have hvalue : (s.sysRead s.cur (bits (movedVal c s).addr 0 12)).getD 0 = w := by
    rw [show s.sysRead s.cur (bits (movedVal c s).addr 0 12) = some w from hread, Option.getD_some]
  simp only [hvalue]
  rfl

theorem sysr_unlisted (h : Made c s) (hu : Unlisted (sysId (movedVal c s))) : Takes (.sysr c) c s (.unimplementedPort, 1318) := by
  refine congrArg Host.Outcome.next (move_refused h ?_)
  show Check.andThen (sysPortChk 294 (sysId (movedVal c s)) s) _ = _
  rw [sysPortChk_unlisted 294 hu]
  rfl

theorem sysr_reserved (h : Made c s) (hx : 2 ^ 12 ≤ (movedVal c s).addr.toNat) (hu : ¬ Unlisted (sysId (movedVal c s)))
    (hp : PortFree s .systemR 1) : Takes (.sysr c) c s (.reservedField, 294) := by
  refine congrArg Host.Outcome.next (move_refused h ?_)
  show Check.andThen (sysPortChk 294 (sysId (movedVal c s)) s) _ = _
  rw [sysPortChk_listed (sysId_lt _) hu, andThen_none, collision_free hp, andThen_none,
    if_pos (fun h0 => Nat.not_lt.mpr hx ((bits_above (by decide)).mp h0))]
  rfl

/-- The fault of an id that the bay may not read comes last. -/
theorem sysr_idFault {f : Cause × Info} (h : Made c s) (hx : (movedVal c s).addr.toNat < 2 ^ 12) (hp : PortFree s .systemR 1)
    (hu : ¬ Unlisted (sysId (movedVal c s))) (hf : sysIdChk (sysId (movedVal c s)) s = some f) : Takes (.sysr c) c s f := by
  refine congrArg Host.Outcome.next (move_refused h ?_)
  show Check.andThen (sysPortChk 294 (sysId (movedVal c s)) s) _ = _
  rw [sysPortChk_listed (sysId_lt _) hu, andThen_none, collision_free hp, andThen_none,
    if_neg (not_not.mpr ((bits_above (by decide)).mpr hx)), andThen_none]
  exact hf

/-! ## What SYSR answers (R72, R73) -/

theorem sysRead_fmt (k : Fin 16) : s.sysRead b (0x10 + k.val) = some (((s.bay b).fmt.get k).setWidth 64) := by
  have hk := k.isLt
  unfold State.sysRead
  iterate 13 rw [if_neg (by omega)]
  rw [if_pos (by omega), Nat.add_sub_cancel_left, Bay.fmtAt]
  simp [Vector.get_eq_getElem]

theorem sysRead_remap (k : Fin 24) : s.sysRead b (0x20 + k.val) = some (((s.bents.get (bentOf b)).remap.get k).setWidth 64) := by
  have hk := k.isLt
  unfold State.sysRead
  iterate 14 rw [if_neg (by omega)]
  rw [if_pos (by omega), Nat.add_sub_cancel_left]
  simp [Vector.get_eq_getElem]

theorem sysRead_sc (k : Fin 256) : s.sysRead b (0x100 + k.val) = some (((s.bay b).sc.get k).setWidth 64) := by
  have hk := k.isLt
  unfold State.sysRead
  iterate 15 rw [if_neg (by omega)]
  rw [if_pos (by omega), Nat.add_sub_cancel_left, Bay.scAt]
  simp [Vector.get_eq_getElem]

theorem sysRead_bayId :
    s.sysRead b 0 = some (BitVec.ofNat 64 ((26 * (b.val / 24) + (s.remapEntry b).toNat % 32) * 256 + b.val)) := by
  have hphys : bits (s.remapEntry b) 0 5 = (s.remapEntry b).toNat % 32 := by
    rw [bits_eq, pow_zero, Nat.div_one]
    rfl
  show some (s.bayId b) = _
  simp only [State.bayId, hphys]
  rfl

theorem sysRead_part {q : PartId} (h : s.partOf b = some q) : s.sysRead b 1 = some (BitVec.ofNat 64 q.val) := by
  have hread : s.sysRead b 1 = some (BitVec.ofNat 64 (match s.partOf b with
    | some q => q.val
    | none => 0)) := rfl
  rw [hread, h]

/-! ## SYSW (R434) -/

theorem syswBusy_other (h : id < 0x100 ∨ 0x200 ≤ id) : syswBusy id s = none := if_neg (by omega)

theorem syswBusy_free {k : Nat} (hs : s.me.scaleBusy k s.myNow = false) (hc : s.commitNames s.cur k = false) :
    syswBusy (0x100 + k) s = none := by
  refine if_neg ?_
  rw [Nat.add_sub_cancel_left, hs, hc]
  simp

theorem syswBusy_busy (k : Fin 256) (hs : s.me.scaleBusy k.val s.myNow = true) :
    syswBusy (0x100 + k.val) s = some (.scaleBusy, BitVec.ofNat 72 k.val) := by
  have hk := k.isLt
  have hbusy : s.me.scaleBusy (0x100 + k.val - 0x100) s.myNow = true := by rw [Nat.add_sub_cancel_left, hs]
  refine (if_pos ⟨by omega, by omega, .inl hbusy⟩).trans ?_
  rw [Nat.add_sub_cancel_left]

/-- The checks of a SYSW of a listed register that no scaled write in flight names. -/
theorem syswChk_quiet {v : Val} (hu : ¬ Unlisted (sysId v)) (hb : syswBusy (sysId v) s = none) :
    syswChk v s = if v.addr.toNat < 2 ^ 16 then sysIdChk (sysId v) s else some (.reservedField, 295) := by
  show Check.andThen (sysPortChk 295 (sysId v) s) (Check.andThen (syswBusy (sysId v) s) _) = _
  rw [sysPortChk_listed (sysId_lt _) hu, andThen_none, hb, andThen_none]
  by_cases hx : v.addr.toNat < 2 ^ 16
  · rw [if_neg (not_not.mpr ((bits_above (by decide)).mpr hx)), if_pos hx, andThen_none]
    rfl
  · rw [if_pos (fun h0 => hx ((bits_above (by decide)).mp h0)), if_neg hx]
    rfl

/-- The data of a SYSW: the low 64 bits of an address register. -/
def sysData (s : State) (v : Val) : Word := (s.me.aSeen (v.addr.toNat / 2 ^ 12 % 16)).setWidth 64

theorem sysw_writes (h : Made c s) (hx : (movedVal c s).addr.toNat < 2 ^ 16) (hu : ¬ Unlisted (sysId (movedVal c s)))
    (hy : sysId (movedVal c s) < 0x800) (hfar : ¬ Far s (sysId (movedVal c s))) (hb : syswBusy (sysId (movedVal c s)) s = none) :
    exec (.sysw c) s = .next (s.onMe (fun y => y.sysWrite (sysId (movedVal c s)) (sysData s (movedVal c s)))) := by
  have hchk : syswChk (movedVal c s) s = none := by
    rw [syswChk_quiet hu hb, if_pos hx, sysIdChk_here hy hfar]
  have hdata : sysData s (movedVal c s) = (s.me.aSeen (bits (movedVal c s).addr 12 4)).setWidth 64 := by
    rw [sysData, bits_eq]
    rfl
  refine congrArg Host.Outcome.next ((move_made h hchk).trans (onBay_congr ?_))
  rw [hdata]
  rfl

theorem sysw_fault {f : Cause × Info} (h : Made c s) (hx : (movedVal c s).addr.toNat < 2 ^ 16) (hu : ¬ Unlisted (sysId (movedVal c s)))
    (hb : syswBusy (sysId (movedVal c s)) s = none) (hf : sysIdChk (sysId (movedVal c s)) s = some f) : Takes (.sysw c) c s f := by
  refine congrArg Host.Outcome.next (move_refused h ?_)
  rw [syswChk_quiet hu hb, if_pos hx, hf]

theorem sysw_reserved (h : Made c s) (hx : 2 ^ 16 ≤ (movedVal c s).addr.toNat) (hu : ¬ Unlisted (sysId (movedVal c s)))
    (hb : syswBusy (sysId (movedVal c s)) s = none) : Takes (.sysw c) c s (.reservedField, 295) := by
  refine congrArg Host.Outcome.next (move_refused h ?_)
  rw [syswChk_quiet hu hb, if_neg (Nat.not_lt.mpr hx)]

theorem sysw_unlisted (h : Made c s) (hu : Unlisted (sysId (movedVal c s))) : Takes (.sysw c) c s (.unimplementedPort, 1319) := by
  refine congrArg Host.Outcome.next (move_refused h ?_)
  show Check.andThen (sysPortChk 295 (sysId (movedVal c s)) s) _ = _
  rw [sysPortChk_unlisted 295 hu]
  rfl

theorem sysw_busy {k : Fin 256} (h : Made c s) (hid : sysId (movedVal c s) = 0x100 + k.val)
    (hs : s.me.scaleBusy k.val s.myNow = true) : Takes (.sysw c) c s (.scaleBusy, BitVec.ofNat 72 k.val) := by
  have hk := k.isLt
  have hu : ¬ Unlisted (sysId (movedVal c s)) := by
    rw [unlisted_iff]
    omega
  refine congrArg Host.Outcome.next (move_refused h ?_)
  show Check.andThen (sysPortChk 295 (sysId (movedVal c s)) s) (Check.andThen (syswBusy (sysId (movedVal c s)) s) _) = _
  rw [sysPortChk_listed (sysId_lt _) hu, andThen_none, hid, syswBusy_busy k hs]
  rfl

theorem setIfInBounds_eq_set {α : Type} {n k : Nat} (v : Vector α n) {x : α} (h : k < n) : v.setIfInBounds k x = v.set k x h := by
  apply Vector.ext
  intro i hi
  rw [Vector.getElem_setIfInBounds, Vector.getElem_set]

theorem sysWrite_fmt (x : Bay) (k : Fin 16) (w : Word) :
    x.sysWrite (0x10 + k.val) w = { x with fmt := x.fmt.set k.val (syswFmt w) k.isLt } := by
  have hk := k.isLt
  rw [Bay.sysWrite, if_neg (by omega), if_pos (by omega), Nat.add_sub_cancel_left, setIfInBounds_eq_set _ hk]

theorem sysWrite_sc (x : Bay) (k : Fin 256) (w : Word) :
    x.sysWrite (0x100 + k.val) w = { x with sc := x.sc.set k.val (syswScale w) k.isLt } := by
  have hk := k.isLt
  rw [Bay.sysWrite, if_neg (by omega), if_neg (by omega), if_pos (by omega), Nat.add_sub_cancel_left, Bay.setSc,
    setIfInBounds_eq_set _ hk]

/-- A write to another register is ignored (R8, R434). -/
theorem sysWrite_other (x : Bay) (w : Word) (h6 : id ≠ 0x06) (hf : ¬ (0x10 ≤ id ∧ id < 0x20)) (hs : ¬ (0x100 ≤ id ∧ id < 0x200)) :
    x.sysWrite id w = x := by
  rw [Bay.sysWrite, if_neg h6, if_neg hf, if_neg hs]

/-! ## TTLD and TTCLR (R206) -/

/-- The word of a TTLD or TTCLR names an entry, and its bits from lo on are zero. -/
theorem ttChk_passes {n lo : Nat} {v : Val} (hlo : lo ≤ 72) (hx : v.addr.toNat < 2 ^ lo)
    (hid : sysId v < (s.partAt s.cur).tt.length) : ttChk n lo v s = none := by
  have hres : bits v.addr lo (72 - lo) = 0 := (bits_above hlo).mpr hx
  exact (if_neg (not_not.mpr hres)).trans (if_neg (Nat.not_le.mpr hid))

/-- An entry as it is reported: DIRTY is DIRTY | PENDING. -/
def reported (e : TTEntry) : BitVec 128 := if e.pending then e.raw ||| 4 else e.raw

theorem ttldWord_eq (e : TTEntry) (half : Bool) :
    ttldWord e half = BitVec.ofNat 64 (if half = true then (reported e).toNat / 2 ^ 64 else (reported e).toNat) := by
  have hword : ttldWord e half = if half = true then (reported e).extractLsb' 64 64 else (reported e).extractLsb' 0 64 := rfl
  rw [hword]
  cases half with
  | true => exact congrArg (BitVec.ofNat 64) (Nat.shiftRight_eq_div_pow ..)
  | false => rfl

theorem exec_ttld {e : TTEntry} (h : Made c s) (hx : (movedVal c s).addr.toNat < 2 ^ 13)
    (he : (s.partAt s.cur).tt[sysId (movedVal c s)]? = some e) (hp : PortFree s .systemR 1) :
    Gives (.ttld c) s .systemR 1 ((ttldWord e (bitAt (movedVal c s).addr 12)).setWidth 2048) := by
  have hlt : sysId (movedVal c s) < (s.partAt s.cur).tt.length := (List.getElem?_eq_some_iff.mp he).1
  have hmade := trigger_made (id := 296) (f := fun v _ =>
      match (s.partAt s.cur).tt[bits v.addr 0 12]? with
      | some e => (ttldWord e (bitAt v.addr 12)).setWidth 2048
      | none => 0) h (ttChk_passes (n := 296) (by decide) hx hlt) hp
  have he' : (s.partAt s.cur).tt[bits (movedVal c s).addr 0 12]? = some e := he
  simp only [he'] at hmade
  exact congrArg Host.Outcome.next hmade

/-- A clear asked of the entry with an index, the others as they are. -/
def askClear (k : Nat) (l : List TTEntry) : List TTEntry := l.zipIdx.map (fun x => if x.2 = k then { x.1 with clr := true } else x.1)

theorem length_askClear (k : Nat) (l : List TTEntry) : (askClear k l).length = l.length := by
  rw [askClear, List.length_map, List.length_zipIdx]

theorem askClear_get (k n : Nat) (l : List TTEntry) :
    (askClear k l)[n]? = l[n]?.map (fun e => if n = k then { e with clr := true } else e) := by
  rw [askClear, List.getElem?_map, List.getElem?_zipIdx, Option.map_map, Nat.zero_add]
  rfl

theorem exec_ttclr {q : PartId} (h : Made c s) (hq : s.partOf s.cur = some q) (hx : (movedVal c s).addr.toNat < 2 ^ 12)
    (hlt : sysId (movedVal c s) < (s.partAt s.cur).tt.length) :
    exec (.ttclr c) s = .next (s.onPart q (fun p => { p with tt := askClear (sysId (movedVal c s)) p.tt })) := by
  refine congrArg Host.Outcome.next ((move_made h (ttChk_passes (by decide) hx hlt)).trans ?_)
  rw [hq]
  rfl

/-! ## The statement -/

/-- Settles O33. -/
theorem systemRegisters : Obligations.SystemRegisters := by
  intro c s h x b p id data far unlisted jpc here gives writes
  have hid : sysId (movedVal c s) = id := sysId_eq _
  have hlt : id < 0x1000 := hid ▸ sysId_lt _
  refine ⟨fun hx hp => ?sysr, fun hx hu hp => sysr_reserved h hx (hid ▸ hu) hp,
    fun hx hu hr => sysw_reserved h hx (hid ▸ hu) (hid ▸ syswBusy_other hr), fun hx => ?sysw, fun e hx he hp => ?ttld,
    fun q hq hx hl => ?ttclr⟩
  case sysr =>
    have hread {w : Word} (hw : s.sysRead s.cur id = some w) (hfar : ¬ far) : gives w :=
      sysr_gives h hx hp (hid ▸ hw) (hid ▸ hfar)
    have hnear {n : Nat} {w : Word} (hn : ¬ ((0x18 ≤ n ∧ n < 0x20) ∨ (0x180 ≤ n ∧ n < 0x200))) (hw : s.sysRead s.cur n = some w)
        (hi : id = n) : gives w :=
      hread (hi ▸ hw) (fun hf => hn (hi ▸ hf.2))
    have hjpc (j : Option JigRun) : jpcWord j = jpc j := by cases j <;> rfl
    refine ⟨hnear (by decide) rfl, hnear (by decide) rfl, hnear (by decide) rfl, hnear (by decide) rfl, hnear (by decide) rfl,
      hnear (by decide) rfl, hnear (by decide) rfl, hnear (by decide) rfl, fun k hk => hread (hk ▸ sysRead_fmt k),
      fun k hk => hread (hk ▸ sysRead_sc k), hnear (by decide) sysRead_bayId, fun q hq => hnear (by decide) (sysRead_part hq),
      hnear (by decide) (congrArg some (hjpc _)), hnear (by decide) (congrArg some (hjpc _)), hnear (by decide) rfl,
      fun k => hnear (by omega) (sysRead_remap k),
      fun hf => sysr_idFault h hx hp ?_ (hid ▸ sysIdChk_far hf), fun hy => sysr_idFault h hx hp ?_ (hid ▸ sysIdChk_yard hlt hy),
      fun hu => sysr_unlisted h (hid ▸ hu)⟩
    all_goals
      rw [hid, unlisted_iff]
      omega
  case sysw =>
    have hwrites {n : Nat} {f : Bay → Bay} (hu : ¬ Unlisted n) (hn : n < 0x200) (hfar : ¬ Far s n) (hb : syswBusy n s = none)
        (hf : ∀ y : Bay, y.sysWrite n data = f y) (hi : id = n) : writes f := by
      have hn' := hid.trans hi
      have hexec := sysw_writes h hx (hn' ▸ hu) (by omega) (hn' ▸ hfar) (hn' ▸ hb)
      rw [hn'] at hexec
      exact hexec.trans (congrArg _ (onBay_congr (hf _)))
    have hu6 : ¬ Unlisted 0x06 := by simp only [unlisted_iff]; omega
    have hn6 : ¬ Far s 0x06 := by simp only [Far]; omega
    have hufmt (k : Fin 16) : ¬ Unlisted (0x10 + k.val) := by simp only [unlisted_iff]; omega
    have husc (k : Fin 256) : ¬ Unlisted (0x100 + k.val) := by simp only [unlisted_iff]; omega
    refine ⟨hwrites hu6 (by decide) hn6 (syswBusy_other (by decide)) (fun y => rfl),
      fun k hk hfar => hwrites (hufmt k) (by omega) (hk ▸ hfar) (syswBusy_other (by omega)) (fun y => sysWrite_fmt y k data) hk,
      fun k hk hfar hs hc => hwrites (husc k) (by omega) (hk ▸ hfar) (syswBusy_free hs hc) (fun y => sysWrite_sc y k data) hk,
      fun k hk hs => sysw_busy h (hid.trans hk) hs, fun hi => ?ignored, fun hf hb => ?far, fun hy => ?yard,
      fun hu => sysw_unlisted h (hid ▸ hu)⟩
    case ignored =>
      have hign : id ≠ 6 ∧ id < 0x100 ∧ ¬ (0x10 ≤ id ∧ id < 0x20) ∧ ¬ Unlisted id := by
        rw [unlisted_iff]
        simp only [List.mem_cons, List.not_mem_nil, or_false] at hi
        omega
      obtain ⟨h6, hlow, hfmt, hu⟩ := hign
      have hexec := hwrites (f := fun y => y) hu (by omega) (fun hf => by obtain ⟨-, hr⟩ := hf; omega)
        (syswBusy_other (.inl hlow)) (fun y => sysWrite_other y data h6 hfmt (by omega)) rfl
      exact hexec.trans (congrArg _ onMe_id)
    case far =>
      obtain ⟨hs, hr⟩ := hf
      have hbusy : syswBusy id s = none := by
        by_cases hsc : id < 0x100
        · exact syswBusy_other (.inl hsc)
        · obtain ⟨k, hk⟩ := Nat.exists_eq_add_of_le (Nat.le_of_not_lt hsc)
          obtain ⟨hfree, hnames⟩ := hb k hk
          exact hk ▸ syswBusy_free hfree hnames
      refine sysw_fault h hx ?_ (hid ▸ hbusy) (hid ▸ sysIdChk_far ⟨hs, hr⟩)
      rw [hid, unlisted_iff]
      omega
    case yard =>
      refine sysw_fault h hx ?_ (hid ▸ syswBusy_other (.inr (by omega))) (hid ▸ sysIdChk_yard hlt hy)
      rw [hid, unlisted_iff]
      omega
  case ttld =>
    have hgives := exec_ttld h hx ((congrArg (fun n => p.tt[n]?) hid).trans he) hp
    rw [ttldWord_eq] at hgives
    exact hgives
  case ttclr =>
    have hidx : sysId (movedVal c s) = x.toNat := (sysId_eq _).trans (Nat.mod_eq_of_lt hx)
    refine ⟨_, exec_ttclr h hq hx (hidx ▸ hl), onlyPart_onPart, ?_, fun k => ?_⟩
    · rw [State.part_onPart]
      exact length_askClear ..
    · rw [State.part_onPart, ← hidx]
      exact askClear_get ..

end Sys2Proof
end

section
/-!
Bytes and runs of bytes: little-endian numbers by byte, the 128-byte lines that runs touch, and what stands in a store where a masked store
has landed (R6, R287, R380, R383, R428, R431).
-/

namespace Sys2Proof
open Machine Laws

/-! ## Little-endian numbers (R6) -/

@[simp] theorem length_leBytes (n x : Nat) : (leBytes n x).length = n := by
  rw [leBytes, List.length_map, List.length_range]

/-- Byte k of a number is that of the list it was read from. -/
theorem leNat_digit (bs : List Byte) (k : Nat) : leNat bs / 2 ^ (8 * k) % 2 ^ 8 = (bs.getD k 0).toNat := by
  induction bs generalizing k with
  | nil => simp [leNat]
  | cons v bs ih =>
    have hstep : leNat (v :: bs) = v.toNat + 2 ^ 8 * leNat bs := rfl
    have hv := v.isLt
    cases k with
    | zero =>
      rw [hstep, Nat.mul_zero, pow_zero, Nat.div_one, Nat.add_mul_mod_self_left, Nat.mod_eq_of_lt hv, List.getD_cons_zero]
    | succ k =>
      rw [List.getD_cons_succ, ← ih k, hstep, Nat.mul_succ, Nat.add_comm (8 * k), pow_add, ← Nat.div_div_eq_div_mul,
        Nat.add_mul_div_left _ _ (by positivity), Nat.div_eq_of_lt hv, Nat.zero_add]

/-- Byte k of a bit vector made of a little-endian number. -/
theorem extract_leNat {w k : Nat} (bs : List Byte) (h : 8 * k + 8 ≤ w) :
    (BitVec.ofNat w (leNat bs)).extractLsb' (8 * k) 8 = bs.getD k 0 := by
  apply BitVec.eq_of_getLsbD_eq
  intro i hi
  have hlt : 8 * k + i < w := by omega
  rw [BitVec.getLsbD_extractLsb', BitVec.getLsbD_ofNat, decide_eq_true hi, decide_eq_true hlt, Bool.true_and, Bool.true_and,
    ← BitVec.testBit_toNat, ← leNat_digit, Nat.testBit_mod_two_pow, decide_eq_true hi, Bool.true_and, Nat.testBit_div_two_pow,
    Nat.add_comm]

/-- Byte k of the bytes of a bit vector. -/
theorem leBytes_get {w n k : Nat} (x : BitVec w) (h : k < n) : (leBytes n x.toNat).getD k 0 = x.extractLsb' (8 * k) 8 := by
  have hpow : 256 ^ k = 2 ^ (8 * k) := by
    rw [pow_mul]
    rfl
  apply BitVec.eq_of_toNat_eq
  rw [BitVec.extractLsb'_toNat, Nat.shiftRight_eq_div_pow, ← hpow, leBytes]
  simp [h]

/-! ## Lines of 128 bytes (R287) -/

theorem nodup_eraseDups {α : Type} [DecidableEq α] (l : List α) : l.eraseDups.Nodup :=
  match l with
  | [] => by simp
  | a :: l => by
    rw [List.eraseDups_cons, List.nodup_cons, List.mem_eraseDups]
    exact ⟨by simp, nodup_eraseDups _⟩
termination_by l.length
decreasing_by exact Nat.lt_succ_of_le (List.length_filter_le ..)

/-- Runs touch no more lines than a list has that holds the lines of each. -/
theorem length_runLines_le {runs : List (Nat × List Byte)} {lines : List Nat}
    (h : ∀ r ∈ runs, ∀ l : Nat, r.1 / 128 ≤ l → l ≤ (r.1 + r.2.length - 1) / 128 → l ∈ lines) :
    (runLines runs).length ≤ lines.length := by
  refine ((nodup_eraseDups _).subperm fun l hl => ?_).length_le
  obtain ⟨r, hr, hmem⟩ := List.mem_flatMap.mp (List.mem_eraseDups.mp hl)
  split at hmem
  next => cases hmem
  next hne =>
    obtain ⟨i, hi, rfl⟩ := List.mem_map.mp hmem
    have hi' := List.mem_range.mp hi
    have hlen := List.length_pos_of_ne_nil hne
    exact h r hr _ (by omega) (by omega)

/-- A run that ends in the line where it begins touches one line. -/
theorem length_runLines_single {off : Nat} {data : List Byte} (hne : data ≠ []) (h : (off + data.length - 1) / 128 = off / 128) :
    (runLines [(off, data)]).length = 1 := by
  simp [runLines, hne, h, List.eraseDups_cons]

/-- Runs within 256 bytes from a line's start touch two lines at most. -/
theorem length_runLines_le_two {runs : List (Nat × List Byte)} {off : Nat} (ha : off % 128 = 0)
    (h : ∀ r ∈ runs, off ≤ r.1 ∧ r.1 + r.2.length ≤ off + 256) : (runLines runs).length ≤ 2 := by
  refine length_runLines_le (lines := [off / 128, off / 128 + 1]) fun r hr l hlow hhigh => ?_
  obtain ⟨h1, h2⟩ := h r hr
  simp only [List.mem_cons, List.not_mem_nil, or_false]
  omega

/-! ## A masked store (R431) -/

/-- The bytes of a list that a mask lets through, each a run of its own. -/
theorem maskedRuns_eq (off : Nat) (data : List Byte) (m : MaskReg) :
    maskedRuns off data m = ((List.range data.length).filter (fun k => m.getLsbD k)).map (fun k => (off + k, [data.getD k 0])) := by
  have hzip : data.zipIdx = (List.range data.length).map (fun k => (data.getD k 0, k)) := by
    apply List.ext_getElem
    · simp
    · intro i h1 h2
      have hi : i < data.length := by simpa using h1
      simp [hi]
  rw [maskedRuns, hzip, List.filter_map, List.map_map]
  rfl

/-- Runs written one after another. -/
def runsWritten (m : Mem) (runs : List (Nat × List Byte)) : Mem := runs.foldl (fun acc r => Mem.writeN acc r.1 r.2) m

theorem runsWritten_wf {m : Mem} {runs : List (Nat × List Byte)} (h : m.wf = true) : (runsWritten m runs).wf = true :=
  foldl_writeN_wf h

/-- Single bytes written stand in the store, and every other address reads as before. -/
theorem read_writeBytes (off : Nat) (f : Nat → Byte) (l : List Nat) {m : Mem} (h : m.wf = true) (a : Nat) :
    Mem.read (runsWritten m (l.map (fun k => (off + k, [f k])))) a = if off ≤ a ∧ a - off ∈ l then f (a - off) else Mem.read m a := by
  induction l generalizing m with
  | nil => simp [runsWritten]
  | cons k l ih =>
    have hstep : runsWritten m ((k :: l).map (fun k => (off + k, [f k]))) =
        runsWritten (Mem.write m (off + k) (f k)) (l.map (fun k => (off + k, [f k]))) := rfl
    rw [hstep, ih (write_wf m _ _ h)]
    by_cases hmem : off ≤ a ∧ a - off ∈ l
    · rw [if_pos hmem, if_pos ⟨hmem.1, List.mem_cons_of_mem _ hmem.2⟩]
    · rw [if_neg hmem]
      by_cases hk : a = off + k
      · subst hk
        rw [read_write_self _ _ _ h, Nat.add_sub_cancel_left, if_pos ⟨Nat.le_add_right .., List.mem_cons_self⟩]
      · rw [read_write_ne _ _ _ _ hk, if_neg]
        rintro ⟨hle, hin⟩
        rcases List.mem_cons.mp hin with he | hl
        · omega
        · exact hmem ⟨hle, hl⟩

end Sys2Proof
end

section
/-!
Results and local accesses as they take effect (R63, R213, R215, R221, R287, R374, R380, R383, R402, R428, R431).

A local access marks a race, if any, and then changes its bay alone (useStore_onBay): a read delivers (exec_performs, fill_dropAcc), a store
lands its runs in the scratchpad (land_scratch).
-/

namespace Sys2Proof
open Machine Laws

variable {s u : State} {b : BayId} {a : Access} {id : Nat}

/-! ## A result reaches its port (R63) -/

/-- The result in flight that becomes ready is the first of its port that is due. -/
theorem find_due {l1 l2 : List Result} {r : Result} {p : ResPort} {now pole : Nat} (hp : r.port = p) (hr : r.isDue now pole = true)
    (hl : ∀ x ∈ l1, x.port = p → x.isDue now pole = false) :
    (l1 ++ r :: l2).find? (fun x => decide (x.port = p) && x.isDue now pole) = some r := by
  have hnone : l1.find? (fun x => decide (x.port = p) && x.isDue now pole) = none := by
    rw [List.find?_eq_none]
    intro x hx
    by_cases h : x.port = p
    · simp [hl x hx h]
    · simp [h]
  rw [List.find?_append, hnone, Option.none_or, List.find?_cons_of_pos (by simp [hp, hr])]

theorem erase_due {l1 l2 : List Result} {r : Result} {p : ResPort} {now pole : Nat} (hp : r.port = p) (hr : r.isDue now pole = true)
    (hl : ∀ x ∈ l1, x.port = p → x.isDue now pole = false) : (l1 ++ r :: l2).erase r = l1 ++ l2 := by
  have hout : r ∉ l1 := fun hmem => by
    rw [hl r hmem hp] at hr
    cases hr
  rw [List.erase_append_right _ hout, List.erase_cons_head]

theorem isDue_of {r : Result} {v : VReg} {now pole : Nat} (hv : r.value = some v)
    (hd : if r.remote = true then r.due ≤ pole else r.due ≤ now) : r.isDue now pole = true := by
  rw [Result.isDue, hv, Option.isSome_some, Bool.true_and]
  split
  next h => rwa [if_pos h, ← decide_eq_true_eq (p := r.due ≤ pole)] at hd
  next h => rwa [if_neg h, ← decide_eq_true_eq (p := r.due ≤ now)] at hd

theorem cross_eq (x : Bay) (p : ResPort) : x.cross p = { x with
    bridges := if p = .xab then (x.bridging.1, x.bridges.2) else if p = .xba then (x.bridges.1, x.bridging.2) else x.bridges } := by
  unfold Bay.cross
  split
  · rfl
  · split <;> rfl

theorem exec_resultReady {l1 l2 : List Result} {r : Result} {v : VReg} {p : ResPort} (hf : (s.bay b).inflight = l1 ++ r :: l2)
    (hp : r.port = p) (hv : r.value = some v) (hd : if r.remote = true then r.due ≤ s.poleTime b else r.due ≤ s.now b)
    (hl : ∀ x ∈ l1, x.port = p → x.isDue (s.now b) (s.poleTime b) = false) :
    exec (.resultReady b p) s = .next (s.onBay b (fun x => { x with
      res := x.res.set (resIdx p).val v (resIdx p).isLt
      ready := x.ready.set (resIdx p).val (some (s.now b)) (resIdx p).isLt
      inflight := l1 ++ l2
      bridges := if p = .xab then (x.bridging.1, x.bridges.2) else if p = .xba then (x.bridges.1, x.bridging.2) else x.bridges })) := by
  have hdue := isDue_of hv hd
  change execResultReady b p s = _
  simp only [execResultReady, hf, find_due hp hdue hl]
  refine congrArg Host.Outcome.next (onBay_congr ?_)
  simp only [cross_eq, hf, erase_due hp hdue hl, hv, Option.getD_some]

/-! ## Races with asynchronous walks (R221) -/

/-- Whether an access to a store of a bay races has nothing to do with what the bays hold. -/
theorem useStore_onBay {c : BayId} {f : Bay → Bay} {k : BayStore} {off n : Nat} {write : Bool} :
    (s.onBay c f).useStore b k off n write = (s.useStore b k off n write).onBay c f := by
  unfold State.useStore
  rw [State.partOf_onBay]
  cases s.partOf b with
  | none => rfl
  | some q =>
    dsimp only
    rw [apply_ite (fun t : State => t.onBay c f)]
    rfl

theorem race_race (q : PartId) : (s.race q).race q = s.race q := by
  simp only [State.race, State.onPart, State.part_setPart]
  simp [State.setPart]

theorem partOf_race (q : PartId) : (s.race q).partOf b = s.partOf b := by
  have hpart (r : PartId) : ((s.race q).part r).formed = (s.part r).formed ∧ ((s.race q).part r).hdr = (s.part r).hdr := by
    by_cases h : r = q
    · subst h
      rw [State.race, State.part_onPart]
      exact ⟨rfl, rfl⟩
    · rw [State.race, State.part_onPart_ne _ _ _ _ h]
      exact ⟨rfl, rfl⟩
  simp only [State.partOf, State.partOfBent, (hpart _).1, (hpart _).2]

theorem raceNoted_refl : RaceNoted b s s := ⟨.inl rfl, fun _ _ => rfl⟩

/-- One more access to a store marks no other race than the bay's partition's. -/
theorem RaceNoted.useStore {k : BayStore} {off n : Nat} {write : Bool} (h : RaceNoted b s u) :
    RaceNoted b s (u.useStore b k off n write) := by
  obtain ⟨hcases, hquiet⟩ := h
  refine ⟨?_, fun ht ha => ?_⟩
  · rcases hcases with rfl | ⟨q, hq, rfl⟩
    · exact useStore_cases
    · refine .inr ⟨q, hq, ?_⟩
      rcases useStore_cases (s := s.race q) (b := b) (k := k) (off := off) (n := n) (write := write) with he | ⟨q', hq', he⟩
      · exact he
      · obtain rfl : q' = q := Option.some.inj ((hq'.symm.trans (partOf_race q)).trans hq)
        rw [he, race_race]
  · obtain rfl := hquiet ht ha
    exact useStore_of_quiet ht ha

/-- Runs of bytes that a bay writes to its scratchpad, each an access. -/
def useRuns (s : State) (b : BayId) (runs : List (Nat × List Byte)) : State :=
  runs.foldl (fun acc r => acc.useStore b .scratch r.1 r.2.length true) s

theorem useRuns_onBay {runs : List (Nat × List Byte)} {f : Bay → Bay} : useRuns (s.onBay b f) b runs = (useRuns s b runs).onBay b f := by
  induction runs generalizing s with
  | nil => rfl
  | cons r runs ih =>
    simp only [useRuns, List.foldl_cons, useStore_onBay] at ih ⊢
    exact ih

theorem RaceNoted.useRuns {runs : List (Nat × List Byte)} (h : RaceNoted b s u) : RaceNoted b s (useRuns u b runs) := by
  induction runs generalizing u with
  | nil => exact h
  | cons r runs ih => exact ih h.useStore

theorem RaceNoted.bay {c : BayId} (h : RaceNoted b s u) : u.bay c = s.bay c := by
  rcases h.1 with rfl | ⟨q, -, rfl⟩ <;> rfl

theorem RaceNoted.onlyOwn {f : Bay → Bay} (h : RaceNoted b s u) : OnlyOwn b s (u.onBay b f) := ⟨u, h, onlyBay_onBay ..⟩

/-! ## Reads (R374, R380, R383, R402) -/

theorem exec_accessPerform (h : Performs s b id a) : exec (.accessPerform b id) s = .next (s.performAccess b a) := by
  obtain ⟨hfind, hdue⟩ := h
  change execAccessPerform b id s = _
  simp only [execAccessPerform, hfind, hdue, if_true]

/-- A result that takes its value, its access gone. -/
theorem fill_dropAcc (x : Bay) (a : Access) (p : ResPort) (remote : Bool) (due : Nat) (v : VReg) :
    (x.fill p remote due v).dropAcc a.id = delivered x a p remote due v := rfl

/-- The access is gone after the first of two results. -/
theorem fill_fill_dropAcc (x : Bay) (a : Access) (p p' : ResPort) (r r' : Bool) (due due' : Nat) (v v' : VReg) :
    ((x.fill p r due v).fill p' r' due' v').dropAcc a.id = delivered (delivered x a p r due v) a p' r' due' v' := by
  simp only [Bay.fill, Bay.dropAcc, delivered, List.filter_filter, Bool.and_self]

theorem performLoad_port {p : ResPort} (x : Bay) (v : VReg) (hp : a.port = some p) :
    x.performLoad a v = delivered x a p false a.due v := by
  simp only [Bay.performLoad, hp, fill_dropAcc]

/-- What a load delivers: the number its bytes hold, sign-extended where it says so. -/
theorem loadValue_eq {signed : Bool} {bs : List Byte} (h : bs.length ∈ [1, 2, 4, 8]) :
    loadValue signed bs = scalarOf (loaded signed bs.length (leNat bs)) := by
  have hn : 8 * bs.length ≤ 64 ∧ 8 * bs.length ≠ 0 := by
    simp only [List.mem_cons, List.not_mem_nil, or_false] at h
    omega
  obtain ⟨hle, hne⟩ := hn
  have hpow : (2 : Nat) ^ (8 * bs.length) ≤ 2 ^ 64 := Nat.pow_le_pow_right (by decide) hle
  simp only [loadValue, scalarOf, loaded, hne, ne_eq, not_false_eq_true, true_and]
  refine congrArg (BitVec.setWidth 2048) ?_
  split
  · have hwrap : ((leNat bs + 2 ^ 64 - 2 ^ (8 * bs.length) : Nat) : Int) = (leNat bs : Int) - 2 ^ (8 * bs.length) + 2 ^ 64 := by
      rw [Nat.cast_sub (by omega)]
      push_cast
      ring
    rw [← BitVec.ofInt_natCast, hwrap]
    apply BitVec.eq_of_toInt_eq
    rw [BitVec.toInt_ofInt, BitVec.toInt_ofInt]
    exact Int.add_bmod_right ..
  · exact (BitVec.ofInt_natCast ..).symm

/-- Byte k of a whole vector load. -/
theorem vectorLoad_byte (m : Mem) (off : Nat) {k : Nat} (hk : k < 256) :
    (BitVec.ofNat 2048 (Mem.nat m off 256)).extractLsb' (8 * k) 8 = Mem.read m (off + k) := by
  rw [Mem.nat, extract_leNat _ (by omega), readN_getD _ _ _ _ hk]

/-- What an HLOOK answers in lane i. -/
theorem hlookResult_lane (m : Mem) (desc : Addr) (keys : VReg) {i : Nat} (hi : i < 64) :
    let found := hashFind m (desc.toNat % 2 ^ 21) (desc.toNat / 2 ^ 21 % 32) (laneU keys 32 i)
    lane (hlookResult m desc keys).1 32 i = BitVec.ofNat 32 (found.getD 0xFFFFFFFF) ∧
      ∀ j < 4, (hlookResult m desc keys).2.getLsbD (4 * i + j) = found.isSome := by
  intro found
  have hoff : bits desc 0 21 = desc.toNat % 2 ^ 21 := by rw [bits_eq, pow_zero, Nat.div_one]
  have hlog : bits desc 21 5 = desc.toNat / 2 ^ 21 % 32 := bits_eq desc 21 5
  have hget : (((List.range 64).map (fun i => hashFind m (bits desc 0 21) (bits desc 21 5) (laneU keys 32 i))).getD i none) = found := by
    rw [hoff, hlog]
    simp [hi, found]
  refine ⟨?_, fun j hj => ?_⟩
  · refine (lane_vecOf 32 _ i hi).trans ?_
    rw [hget]
    exact BitVec.ofInt_natCast ..
  · refine (maskOf_bit .w32 _ i j hi hj).trans ?_
    rw [hget]

/-! ## Stores (R215, R287, R428, R431) -/

/-- The scratchpad, the undo log and the tag table of a bay after runs have landed, its line writes counted. -/
theorem landNow_scratch (x : Bay) (runs : List (Nat × List Byte)) :
    x.landNow .scratch runs = { x with
      scratch := runsWritten x.scratch runs
      window := (x.landNow .scratch runs).window
      tags := (x.landNow .scratch runs).tags
      wrote := (x.landNow .scratch runs).wrote } := rfl

theorem landNow_lines (x : Bay) (runs : List (Nat × List Byte)) :
    (x.landNow .scratch runs).window.lines = x.window.lines + (runLines runs).length :=
  congrArg (x.window.lines + ·) (List.length_map ..)

theorem rewritten_none {x : Bay} {runs : List (Nat × List Byte)} (h : ∀ r ∈ runs, ∀ i < r.2.length, (0, r.1 + i) ∉ x.wrote) :
    x.rewritten runs = none := by
  rw [Bay.rewritten, List.find?_eq_none]
  intro o ho
  obtain ⟨r, hr, hmem⟩ := List.mem_flatMap.mp ho
  obtain ⟨i, hi, rfl⟩ := List.mem_map.mp hmem
  have hfree := h r hr i (List.mem_range.mp hi)
  simpa [storeCode] using hfree

/-- Runs land in the scratchpad where the window has room for their lines and no byte of them has been written in the cycle. -/
theorem land_scratch {runs : List (Nat × List Byte)} (hroom : (s.bay b).linesNow + (runLines runs).length ≤ 256)
    (hfree : ∀ r ∈ runs, ∀ i < r.2.length, (0, r.1 + i) ∉ (s.bay b).wrote) :
    s.land b .scratch runs false = (useRuns s b runs).onBay b (fun y => y.landNow .scratch runs) := by
  simp only [State.land, if_neg (Nat.not_lt.mpr hroom), if_true, rewritten_none hfree]
  rfl

/-- What a store of a bay makes of it: its access is gone, and its runs have landed. -/
def storedBay (a : Access) (runs : List (Nat × List Byte)) (x : Bay) : Bay := (x.dropAcc a.id).landNow .scratch runs

/-- A store whose runs may land marks a race, if any, and changes its bay. -/
theorem store_lands {runs : List (Nat × List Byte)} (hroom : (s.bay b).linesNow + (runLines runs).length ≤ 256)
    (hfree : ∀ r ∈ runs, ∀ i < r.2.length, (0, r.1 + i) ∉ (s.bay b).wrote) :
    (s.onBay b (fun x => x.dropAcc a.id)).land b .scratch runs false = (useRuns s b runs).onBay b (storedBay a runs) := by
  have hbay : (s.onBay b (fun x => x.dropAcc a.id)).bay b = (s.bay b).dropAcc a.id := State.bay_onBay ..
  rw [land_scratch (by rw [hbay]; exact hroom) (by rw [hbay]; exact hfree), useRuns_onBay, State.onBay_onBay]
  rfl

theorem storedBay_eq (x : Bay) (runs : List (Nat × List Byte)) :
    storedBay a runs x = { x with
      acc := x.acc.filter (fun y => decide (y.id ≠ a.id))
      scratch := runsWritten x.scratch runs
      window := (storedBay a runs x).window
      tags := (storedBay a runs x).tags
      wrote := (storedBay a runs x).wrote } := rfl

theorem storedBay_lines (x : Bay) (runs : List (Nat × List Byte)) :
    (storedBay a runs x).window.lines = x.window.lines + (runLines runs).length :=
  landNow_lines (x.dropAcc a.id) runs

theorem useRuns_bay {runs : List (Nat × List Byte)} : (useRuns s b runs).bay b = s.bay b := raceNoted_refl.useRuns.bay

theorem bay_stored {runs : List (Nat × List Byte)} :
    ((useRuns s b runs).onBay b (storedBay a runs)).bay b = storedBay a runs (s.bay b) := by
  rw [State.bay_onBay, useRuns_bay]

theorem onlyScratch_stored {runs : List (Nat × List Byte)} : OnlyScratch b s ((useRuns s b runs).onBay b (storedBay a runs)) := by
  refine ⟨raceNoted_refl.useRuns.onlyOwn, ?_⟩
  rw [bay_stored, storedBay_eq]
  exact ⟨rfl, rfl, rfl, rfl, rfl, rfl, rfl, rfl⟩

/-! ## ST (R428) -/

/-- The run that an ST writes. -/
def storeRun (a : Access) : List (Nat × List Byte) := [(a.addr.toNat % 2 ^ 64, leBytes a.size a.data.toNat)]

theorem perform_st (hk : a.kind = .st) :
    s.performAccess b a = (s.onBay b (fun x => x.dropAcc a.id)).land b .scratch (storeRun a) false := by
  have hoff : (a.addr.setWidth 64).toNat = a.addr.toNat % 2 ^ 64 := BitVec.toNat_setWidth ..
  simp only [State.performAccess, hk, State.landStore, hoff]
  rfl

/-- An aligned store lies in one line. -/
theorem length_storeRun (hs : a.size ∈ [1, 2, 4, 8]) (ha : a.addr.toNat % 2 ^ 64 % a.size = 0) : (runLines (storeRun a)).length = 1 := by
  have hdvd : a.size ∣ 128 ∧ 0 < a.size := by
    simp only [List.mem_cons, List.not_mem_nil, or_false] at hs
    rcases hs with h | h | h | h <;> rw [h] <;> decide
  obtain ⟨⟨k, hk⟩, hpos⟩ := hdvd
  have hlen : (leBytes a.size a.data.toNat).length = a.size := length_leBytes ..
  refine length_runLines_single (fun h => ?_) ?_
  · rw [h, List.length_nil] at hlen
    omega
  · obtain ⟨n, hn⟩ := Nat.dvd_of_mod_eq_zero ha
    have hlast : a.size * n + a.size - 1 = a.size - 1 + a.size * n := by omega
    rw [hlen, hn, hk, ← Nat.div_div_eq_div_mul, ← Nat.div_div_eq_div_mul, Nat.mul_div_cancel_left _ hpos, hlast,
      Nat.add_mul_div_left _ _ hpos, Nat.div_eq_of_lt (Nat.sub_lt hpos one_pos), Nat.zero_add]

/-! ## STV (R431) -/

/-- The runs that an STV writes: the whole register, or the bytes that its mask lets through. -/
def maskedStore (a : Access) : List (Nat × List Byte) :=
  if a.mask = BitVec.allOnes 256 then [(a.addr.toNat % 2 ^ 21, leBytes 256 a.data.toNat)]
  else maskedRuns (a.addr.toNat % 2 ^ 21) (leBytes 256 a.data.toNat) a.mask

theorem perform_stv (hk : a.kind = .stv) :
    s.performAccess b a = (s.onBay b (fun x => x.dropAcc a.id)).land b .scratch (maskedStore a) false := by
  simp only [State.performAccess, hk, maskedStore]
  split <;> rfl

/-- Every run of an STV lies in its 256 bytes. -/
theorem maskedStore_within : ∀ r ∈ maskedStore a, a.addr.toNat % 2 ^ 21 ≤ r.1 ∧ r.1 + r.2.length ≤ a.addr.toNat % 2 ^ 21 + 256 := by
  intro r hr
  unfold maskedStore at hr
  split at hr
  · rw [List.mem_singleton.mp hr]
    exact ⟨le_rfl, (congrArg (a.addr.toNat % 2 ^ 21 + ·) (length_leBytes ..)).le⟩
  · rw [maskedRuns_eq, length_leBytes] at hr
    obtain ⟨k, hk, rfl⟩ := List.mem_map.mp hr
    have hlt := List.mem_range.mp (List.mem_filter.mp hk).1
    exact ⟨Nat.le_add_right .., by simp only [List.length_singleton]; omega⟩

/-- Where an STV has landed, its bytes stand that the mask lets through, and every other address reads as before. -/
theorem read_maskedStore {m : Mem} (h : m.wf = true) (x : Nat) :
    Mem.read (runsWritten m (maskedStore a)) x =
      if a.addr.toNat % 2 ^ 21 ≤ x ∧ x - a.addr.toNat % 2 ^ 21 < 256 ∧ a.mask.getLsbD (x - a.addr.toNat % 2 ^ 21) = true then
        a.data.extractLsb' (8 * (x - a.addr.toNat % 2 ^ 21)) 8
      else Mem.read m x := by
  unfold maskedStore
  split
  next hones =>
    obtain ⟨hin, hout⟩ := writeN_stored m (a.addr.toNat % 2 ^ 21) (leBytes 256 a.data.toNat) h
    rw [length_leBytes] at hin hout
    have hwrite : runsWritten m [(a.addr.toNat % 2 ^ 21, leBytes 256 a.data.toNat)] =
        Mem.writeN m (a.addr.toNat % 2 ^ 21) (leBytes 256 a.data.toNat) := by
      simp only [runsWritten, List.foldl_cons, List.foldl_nil]
    rw [hwrite, hones]
    by_cases hx : a.addr.toNat % 2 ^ 21 ≤ x ∧ x - a.addr.toNat % 2 ^ 21 < 256
    · obtain ⟨hle, hlt⟩ := hx
      have hread := hin (x - a.addr.toNat % 2 ^ 21) hlt
      rw [Nat.add_sub_cancel' hle, leBytes_get _ hlt] at hread
      have hbit : (BitVec.allOnes 256).getLsbD (x - a.addr.toNat % 2 ^ 21) = true := BitVec.getLsbD_allOnes.trans (decide_eq_true hlt)
      rw [hread, if_pos ⟨hle, hlt, hbit⟩]
    · rw [hout x (by omega), if_neg (fun hc => hx ⟨hc.1, hc.2.1⟩)]
  next =>
    rw [maskedRuns_eq, length_leBytes, read_writeBytes _ (fun k => (leBytes 256 a.data.toNat).getD k 0) _ h]
    simp only [List.mem_filter, List.mem_range]
    split
    next hc => rw [leBytes_get _ hc.2.1]
    next => rfl

/-! ## The statement -/

/-- A read that is made marks a race, if any, and changes its bay. -/
theorem exec_read {f g : Bay → Bay} {off n : Nat} (h : Performs s b id a)
    (hp : s.performAccess b a = (s.useStore b .scratch off n false).onBay b f) (hfg : f (s.bay b) = g (s.bay b)) :
    ∃ u : State, RaceNoted b s u ∧ exec (.accessPerform b id) s = .next (u.onBay b g) := by
  refine ⟨s.useStore b .scratch off n false, raceNoted_useStore, ?_⟩
  rw [exec_accessPerform h, hp]
  exact congrArg _ (onBay_congr (by rw [useStore_bay, hfg]))

theorem exec_st (h : Performs s b id a) (hk : a.kind = .st) (hs : a.size ∈ [1, 2, 4, 8]) (ha : a.addr.toNat % 2 ^ 64 % a.size = 0)
    (hfree : ∀ k < a.size, (0, a.addr.toNat % 2 ^ 64 + k) ∉ (s.bay b).wrote) (hroom : (s.bay b).linesNow < 256) :
    exec (.accessPerform b id) s = .next ((useRuns s b (storeRun a)).onBay b (storedBay a (storeRun a))) := by
  rw [exec_accessPerform h, perform_st hk, store_lands]
  · rw [length_storeRun hs ha]
    exact hroom
  · intro r hr i hi
    obtain rfl := List.mem_singleton.mp hr
    exact hfree i (hi.trans_eq (length_leBytes ..))

theorem exec_stv (h : Performs s b id a) (hk : a.kind = .stv) (ha : a.addr.toNat % 2 ^ 21 % 128 = 0)
    (hfree : ∀ k < 256, (0, a.addr.toNat % 2 ^ 21 + k) ∉ (s.bay b).wrote) (hroom : (s.bay b).linesNow + 2 ≤ 256) :
    exec (.accessPerform b id) s = .next ((useRuns s b (maskedStore a)).onBay b (storedBay a (maskedStore a))) := by
  rw [exec_accessPerform h, perform_stv hk, store_lands]
  · exact (Nat.add_le_add_left (length_runLines_le_two ha maskedStore_within) _).trans hroom
  · intro r hr i hi
    obtain ⟨hlow, hhigh⟩ := maskedStore_within r hr
    have hbyte := hfree (r.1 + i - a.addr.toNat % 2 ^ 21) (by omega)
    rwa [Nat.add_sub_cancel' (by omega)] at hbyte

/-- Settles O36, by the kind of the access. -/
theorem localPerforms : Obligations.LocalPerforms := by
  refine ⟨fun b p s l1 l2 r v hf hp hv hd hl => exec_resultReady hf hp hv hd hl, fun b id s a h => ?_⟩
  intro m off voff performs
  refine ⟨fun p hk hp hs => ?ld, fun p hk hp => ⟨BitVec.ofNat 2048 (Mem.nat m voff 256), ?ldv, fun k hlt => vectorLoad_byte m voff hlt⟩,
    fun hk hs ha hm hfree hroom => ⟨_, exec_st h hk hs ha hfree hroom, onlyScratch_stored, ?st⟩,
    fun hk ha hm hfree hroom => ⟨_, exec_stv h hk ha hfree hroom, onlyScratch_stored, ?stv⟩,
    fun hk => ⟨(hlookResult m a.addr a.data).1, (hlookResult m a.addr a.data).2, ?hlook, fun i hi => hlookResult_lane m _ _ hi⟩,
    fun k vb stepc seed hk => ?opt⟩
  case ld =>
    have hoff : (a.addr.setWidth 64).toNat = off := BitVec.toNat_setWidth ..
    have hlen : (Mem.readN m off a.size).length = a.size := readN_length m off a.size
    have hvalue : loadValue a.signed (Mem.readN m off a.size) = scalarOf (loaded a.signed a.size (Mem.nat m off a.size)) := by
      have heq := loadValue_eq (signed := a.signed) (bs := Mem.readN m off a.size) (by rw [hlen]; exact hs)
      rw [hlen] at heq
      exact heq
    refine exec_read h (f := fun x => x.performLoad a (loadValue a.signed (Mem.readN x.scratch off a.size))) (off := off) (n := a.size) ?_ ?_
    · simp only [State.performAccess, hk, hoff]
    · exact (performLoad_port _ _ hp).trans (congrArg (delivered (s.bay b) a p false a.due) hvalue)
  case ldv =>
    refine exec_read h (f := fun x => x.performLoad a (BitVec.ofNat 2048 (Mem.nat x.scratch voff 256))) (off := voff) (n := 256) ?_
      (performLoad_port _ _ hp)
    simp only [State.performAccess, hk]
    rfl
  case st =>
    rw [bay_stored]
    refine ⟨writeN_stored m off _ hm, writeN_wf m off _ hm, congrArg Bay.acc (storedBay_eq (s.bay b) (storeRun a)), ?_⟩
    rw [storedBay_lines, length_storeRun hs ha]
  case stv =>
    rw [bay_stored, storedBay_eq]
    refine ⟨runsWritten_wf hm, fun k hk => ?_, fun x hx => ?_⟩
    · refine (read_maskedStore hm _).trans ?_
      rw [Nat.add_sub_cancel_left]
      exact if_congr ⟨fun hc => hc.2.2, fun hbit => ⟨Nat.le_add_right .., hk, hbit⟩⟩ rfl rfl
    · exact (read_maskedStore hm x).trans (if_neg (by omega))
  case hlook =>
    refine exec_read h (f := fun x => x.performHlook a) (off := (hlookSpan a.addr).1) (n := (hlookSpan a.addr).2) ?_
      (fill_fill_dropAcc ..)
    simp only [State.performAccess, hk]
  case opt =>
    have hparams : bits a.addr 42 17 = a.addr.toNat / 2 ^ 42 % 2 ^ 17 := bits_eq a.addr 42 17
    refine exec_read h (f := fun x => x.performOpt a k vb stepc seed) (off := 16 * bits a.addr 42 17) (n := 16) ?_ ?_
    · simp only [State.performAccess, hk]
    · rw [← hparams]
      rfl

end Sys2Proof
end

section
/-!
Fields of a slot word, and the ids of sources and destinations (R84 to R87, R93, R95, R96, R99, R102, R104): each is read back from what
it is encoded to, and is encoded to what it was read from.
-/

namespace Sys2Proof

/-! ## Fields of a slot word (R84, R87) -/

section
variable (guard : BitVec 4) (imm : Bool) (src : BitVec 9) (dst : BitVec 10) (v : BitVec 20) (w : SlotWord)

theorem toNat_packSlot :
    (packSlot guard imm src dst).toNat = guard.toNat * 2 ^ 20 + (imm.toNat * 2 ^ 19 + (src.toNat * 2 ^ 10 + dst.toNat)) := by
  rw [packSlot, toNat_append_eq, toNat_append_eq, toNat_append_eq, BitVec.toNat_ofBool]

theorem toNat_guardOf : (guardOf w).toNat = w.toNat / 2 ^ 20 % 2 ^ 4 := by
  rw [guardOf, BitVec.extractLsb'_toNat, Nat.shiftRight_eq_div_pow]

theorem toNat_immOf : (immOf w).toNat = w.toNat / 2 ^ 19 % 2 := by
  rw [immOf, BitVec.getLsbD, Nat.toNat_testBit]

theorem toNat_srcOf : (srcOf w).toNat = w.toNat / 2 ^ 10 % 2 ^ 9 := by
  rw [srcOf, BitVec.extractLsb'_toNat, Nat.shiftRight_eq_div_pow]

theorem toNat_dstOf : (dstOf w).toNat = w.toNat % 2 ^ 10 := by
  rw [dstOf, BitVec.extractLsb'_toNat, Nat.shiftRight_zero]

@[simp] theorem guardOf_packSlot : guardOf (packSlot guard imm src dst) = guard := by
  apply BitVec.eq_of_toNat_eq
  rw [toNat_guardOf, toNat_packSlot]
  have := imm.toNat_lt
  omega

@[simp] theorem immOf_packSlot : immOf (packSlot guard imm src dst) = imm := by
  have hbit : (immOf (packSlot guard imm src dst)).toNat = imm.toNat := by
    rw [toNat_immOf, toNat_packSlot]
    have := imm.toNat_lt
    omega
  cases imm <;> simpa using hbit

@[simp] theorem srcOf_packSlot : srcOf (packSlot guard imm src dst) = src := by
  apply BitVec.eq_of_toNat_eq
  rw [toNat_srcOf, toNat_packSlot]
  omega

@[simp] theorem dstOf_packSlot : dstOf (packSlot guard imm src dst) = dst := by
  apply BitVec.eq_of_toNat_eq
  rw [toNat_dstOf, toNat_packSlot]
  omega

/-- The four fields are the whole word. -/
theorem packSlot_fields : packSlot (guardOf w) (immOf w) (srcOf w) (dstOf w) = w := by
  apply BitVec.eq_of_toNat_eq
  rw [toNat_packSlot, toNat_guardOf, toNat_immOf, toNat_srcOf, toNat_dstOf]
  have := w.isLt
  omega

/-- A long immediate is marked by its guard. -/
@[simp] theorem guardOf_limm : guardOf ((8 : BitVec 4) ++ v) = 8 := by
  apply BitVec.eq_of_toNat_eq
  rw [toNat_guardOf, toNat_append_eq]
  have := (8 : BitVec 4).isLt
  omega

@[simp] theorem extract_limm : BitVec.extractLsb' 0 20 ((8 : BitVec 4) ++ v) = v := by
  apply BitVec.eq_of_toNat_eq
  rw [BitVec.extractLsb'_toNat, Nat.shiftRight_zero, toNat_append_eq]
  omega

variable {w}

theorem limm_fields (h : guardOf w = 8) : (8 : BitVec 4) ++ w.extractLsb' 0 20 = w := by
  apply BitVec.eq_of_toNat_eq
  have hg : w.toNat / 2 ^ 20 % 2 ^ 4 = (8 : BitVec 4).toNat := (toNat_guardOf w).symm.trans (congrArg BitVec.toNat h)
  rw [toNat_append_eq, BitVec.extractLsb'_toNat, Nat.shiftRight_zero]
  have := w.isLt
  omega

end

/-! ## Ids of sources (R93, R95, R99, R102, R104) -/

theorem idOfScalarRes_eq {id : Nat} {r : ResPort} (h : scalarResOfId id = some r) : idOfScalarRes r = id := by
  unfold scalarResOfId at h
  split at h
  all_goals cases h
  all_goals rfl

theorem idOfVectorRes_eq {id : Nat} {r : ResPort} (h : vectorResOfId id = some r) : idOfVectorRes r = id := by
  unfold vectorResOfId at h
  split at h
  all_goals cases h
  all_goals rfl

theorem srcOfIdAny_res {s : Fin 8} {r : ResPort} (h : (Src.res r).reach s = true) :
    srcOfIdAny (slotClass s) (idOfSrc (slotClass s) (.res r)) = some (.res r) := by
  revert s
  cases r <;> decide

/-- The id of a source that a slot reaches names that source. -/
theorem srcOfIdAny_idOfSrc {s : Fin 8} {src : Src} (hreach : src.reach s = true) (himm : ∀ v, src ≠ .imm v) :
    srcOfIdAny (slotClass s) (idOfSrc (slotClass s) src) = some src := by
  cases src with
  | imm v => exact absurd rfl (himm v)
  | res r => exact srcOfIdAny_res hreach
  | lk | lim => rfl
  | g n => simp (disch := omega) only [srcOfIdAny, idOfSrc, if_pos, Fin.ofNat_val_eq_self]
  | a n | p n | l n =>
    simp (disch := omega) only [srcOfIdAny, idOfSrc, if_pos, if_neg, Nat.add_sub_cancel_left, Fin.ofNat_val_eq_self]
  | v n | m n =>
    have hc : slotClass s = .vector := of_decide_eq_true hreach
    simp (disch := omega) only [srcOfIdAny, idOfSrc, hc, if_true, if_pos, if_neg, Nat.add_sub_cancel_left, Fin.ofNat_val_eq_self]

/-- The source that an id names, where it names one, has that id. -/
theorem idOfSrc_eq {cls : SlotClass} {id : Nat} {src : Src} (h : srcOfIdAny cls id = some src) :
    idOfSrc cls src = id ∧ ∀ v, src ≠ .imm v := by
  unfold srcOfIdAny at h
  repeat' split at h
  case isFalse.isFalse.isFalse.isFalse.isFalse.isFalse.isFalse.isTrue.isFalse.isFalse.isFalse hc _ _ _ =>
    obtain ⟨r, hr, rfl⟩ := Option.map_eq_some_iff.mp h
    exact ⟨(if_pos hc).trans (idOfVectorRes_eq hr), nofun⟩
  case isFalse.isFalse.isFalse.isFalse.isFalse.isFalse.isFalse.isFalse hc =>
    obtain ⟨r, hr, rfl⟩ := Option.map_eq_some_iff.mp h
    exact ⟨(if_neg hc).trans (idOfScalarRes_eq hr), nofun⟩
  all_goals cases h
  all_goals exact ⟨by simp only [idOfSrc, Fin.val_ofNat]; omega, nofun⟩

theorem idOfSrc_lt (cls : SlotClass) (src : Src) : idOfSrc cls src < 2 ^ 9 := by
  cases src with
  | res r =>
    rw [idOfSrc]
    split
    · cases r <;> decide
    · cases r <;> decide
  | imm v | lk | lim => norm_num [idOfSrc]
  | g n | a n | p n | l n | v n | m n =>
    simp only [idOfSrc]
    omega

/-! ## Ids of destinations (R96, R99, R102, R104) -/

theorem idOfOp_scalar {id : Nat} {o : OpPort} (h : scalarOpOfId id = some o) : idOfOp o = id := by
  unfold scalarOpOfId at h
  split at h
  all_goals cases h
  all_goals rfl

theorem idOfOp_vector {id : Nat} {o : OpPort} (h : vectorOpOfId id = some o) : idOfOp o = id := by
  unfold vectorOpOfId at h
  split at h
  all_goals cases h
  all_goals rfl

theorem dstOfIdAny_op {s : Fin 8} {o : OpPort} (h : o.reach s = true) : dstOfIdAny (slotClass s) (idOfOp o) = some (.op o) := by
  revert s
  cases o <;> decide

/-- The id of a destination that a slot reaches names that destination. -/
theorem dstOfIdAny_idOfDst {s : Fin 8} {d : Dst} (hreach : d.reach s = true) : dstOfIdAny (slotClass s) (idOfDst d) = some d := by
  cases d with
  | op o => exact dstOfIdAny_op hreach
  | lk | xab | xba => rfl
  | g n => simp (disch := omega) only [dstOfIdAny, idOfDst, if_pos, Fin.ofNat_val_eq_self]
  | a n | p n =>
    simp (disch := omega) only [dstOfIdAny, idOfDst, if_pos, if_neg, Nat.add_sub_cancel_left, Fin.ofNat_val_eq_self]
  | v n | m n =>
    have hc : slotClass s = .vector := of_decide_eq_true hreach
    simp (disch := omega) only [dstOfIdAny, idOfDst, hc, if_true, if_pos, if_neg, Nat.add_sub_cancel_left, Fin.ofNat_val_eq_self]

/-- The destination that an id names, where it names one, has that id. -/
theorem idOfDst_eq {cls : SlotClass} {id : Nat} {d : Dst} (h : dstOfIdAny cls id = some d) : idOfDst d = id := by
  unfold dstOfIdAny at h
  repeat' split at h
  case isFalse.isFalse.isFalse.isFalse.isFalse.isFalse.isFalse.isTrue.isFalse.isFalse.isFalse =>
    obtain ⟨o, ho, rfl⟩ := Option.map_eq_some_iff.mp h
    exact idOfOp_vector ho
  case isFalse.isFalse.isFalse.isFalse.isFalse.isFalse.isFalse.isFalse =>
    obtain ⟨o, ho, rfl⟩ := Option.map_eq_some_iff.mp h
    exact idOfOp_scalar ho
  all_goals cases h
  all_goals
    simp only [idOfDst, Fin.val_ofNat]
    omega

theorem idOfDst_lt (d : Dst) : idOfDst d < 256 := by
  cases d with
  | op o => cases o <;> decide
  | lk | xab | xba => norm_num [idOfDst]
  | g n | a n | p n | v n | m n =>
    simp only [idOfDst]
    omega

theorem dstOfId_eq_some {s : Fin 8} {id : Nat} {d : Dst} : dstOfId s id = some d ↔ d.reach s = true ∧ idOfDst d = id := by
  refine ⟨fun h => ?_, fun h => ?_⟩
  · obtain ⟨hany, hreach⟩ := Option.filter_eq_some_iff.mp h
    exact ⟨hreach, idOfDst_eq hany⟩
  · obtain ⟨hreach, rfl⟩ := h
    exact Option.filter_eq_some_iff.mpr ⟨dstOfIdAny_idOfDst hreach, hreach⟩

/-! ## The word of a move (R84, R86) -/

/-- A source other than an immediate stands in the word of its move as its id. -/
theorem encodeMove_eq {c : Ctl} {id : Nat} (himm : ∀ v, c.src ≠ .imm v) :
    encodeMove c id = packSlot c.guard false (BitVec.ofNat 9 (idOfSrc (slotClass c.slot) c.src)) (BitVec.ofNat 10 id) := by
  unfold encodeMove
  split
  next v h => exact absurd h (himm v)
  next => rfl

theorem encodeMove_imm (s : Fin 8) (guard : BitVec 4) (v : BitVec 9) (id : Nat) :
    encodeMove ⟨s, guard, .imm v⟩ id = packSlot guard true v (BitVec.ofNat 10 id) := rfl

/-- A word whose source stands is the word of the move that it is read as. -/
theorem encodeMove_of_decodeSrc {s : Fin 8} {w : SlotWord} {src : Src} (h : decodeSrc s w = some src) :
    src.reach s = true ∧ encodeMove ⟨s, guardOf w, src⟩ (dstOf w).toNat = w := by
  unfold decodeSrc at h
  split at h
  next himm =>
    cases h
    refine ⟨rfl, ?_⟩
    rw [encodeMove_imm, ← himm, BitVec.ofNat_toNat, BitVec.setWidth_eq, packSlot_fields]
  next himm =>
    obtain ⟨hany, hreach⟩ := Option.filter_eq_some_iff.mp h
    obtain ⟨hid, hne⟩ := idOfSrc_eq hany
    refine ⟨hreach, ?_⟩
    rw [encodeMove_eq hne, hid, BitVec.ofNat_toNat, BitVec.setWidth_eq, BitVec.ofNat_toNat, BitVec.setWidth_eq,
      ← Bool.eq_false_of_not_eq_true himm, packSlot_fields]

variable {c : Ctl} {id : Nat}

theorem guardOf_encodeMove : guardOf (encodeMove c id) = c.guard := by
  unfold encodeMove
  split <;> exact guardOf_packSlot ..

theorem dstOf_encodeMove (h : id < 2 ^ 10) : (dstOf (encodeMove c id)).toNat = id := by
  have hdst : dstOf (encodeMove c id) = BitVec.ofNat 10 id := by
    unfold encodeMove
    split <;> exact dstOf_packSlot ..
  rw [hdst, BitVec.toNat_ofNat, Nat.mod_eq_of_lt h]

/-- The source that a slot reaches is read back from the word of its move. -/
theorem decodeSrc_encodeMove (h : c.src.reach c.slot = true) : decodeSrc c.slot (encodeMove c id) = some c.src := by
  by_cases himm : ∃ v, c.src = .imm v
  · obtain ⟨s, guard, src⟩ := c
    obtain ⟨v, rfl⟩ := himm
    simp [encodeMove_imm, decodeSrc]
  · rw [not_exists] at himm
    have hid : (BitVec.ofNat 9 (idOfSrc (slotClass c.slot) c.src)).toNat = idOfSrc (slotClass c.slot) c.src := by
      rw [BitVec.toNat_ofNat, Nat.mod_eq_of_lt (idOfSrc_lt ..)]
    simp [encodeMove_eq himm, decodeSrc, hid, srcOfId, srcOfIdAny_idOfSrc h himm, h]

end Sys2Proof
end

section
/-!
The rows of the port map (R92, R96 to R98, R101, R102, R104): an instruction that is no event and its form determine each other, and a
trigger's destination id and its form do so in each slot.
-/

namespace Sys2Proof

/-! ## The instruction of a form -/

/-- The pads by their number (R92). -/
def padRow (k : Nat) : Option Instr :=
  match k with
  | 0 => some .padC
  | 1 => some .padJ
  | 2 => some .padE
  | _ => none

/-- The row of a vec unit (R101). -/
def vecRow (u : Fin 2) : Nat → Option ((Ctl → Width → Instr) × List Width) := if u = 0 then vec0Row else vec1Row

/-- The instruction of a form, by the rows of the port map; none for an event, and where a row is unassigned. -/
def Form.instr : Form → Option Instr
  | .event => none
  | .limm v => some (.limm v)
  | .pad k => padRow k
  | .move c d => some (.move c d)
  | .alu c u k => (aluRow k).map (fun mk => mk c u)
  | .mul c k => (mulRow k).map (fun mk => mk c)
  | .div c k => (divRow k).map (fun mk => mk c)
  | .lsu c u k => (lsuRow k).map (fun mk => mk c u)
  | .mem c k => (memRow k).map (fun mk => mk c)
  | .shw c k => (shwRow k).map (fun mk => mk c)
  | .vec c u k w ws => ((vecRow u k).filter (fun x => x.2 = ws)).map (fun x => x.1 c w)
  | .vfn c k => (vfnRow k).map (fun mk => mk c)
  | .vred c k w ws => ((vredRow k).filter (fun x => x.2 = ws)).map (fun x => x.1 c w)
  | .engine c id => (engineRow id).map (fun mk => mk c)
  | .control c id => (controlRow id).map (fun mk => mk c)

/-- Every instruction that is no event stands in the row of its form. -/
theorem form_instr (i : Instr) : i.form.instr = if i.form = .event then none else some i := by cases i <;> rfl

/-! ## The ids that a row takes, and the form of each of its entries -/

section
variable {k : Nat} {ws : List Width}

theorem form_padRow {i : Instr} (h : padRow k = some i) : k < 3 ∧ i.form = .pad k := by
  unfold padRow at h
  split at h
  all_goals cases h
  all_goals exact ⟨by norm_num, rfl⟩

theorem form_aluRow {mk : Ctl → Fin 2 → Instr} (h : aluRow k = some mk) :
    k < 64 ∧ ∀ c u, (mk c u).form = .alu c u k := by
  unfold aluRow at h
  split at h
  all_goals cases h
  all_goals exact ⟨by norm_num, fun _ _ => rfl⟩

theorem form_mulRow {mk : Ctl → Instr} (h : mulRow k = some mk) :
    k < 8 ∧ ∀ c, (mk c).form = .mul c k := by
  unfold mulRow at h
  split at h
  all_goals cases h
  all_goals exact ⟨by norm_num, fun _ => rfl⟩

theorem form_divRow {mk : Ctl → Instr} (h : divRow k = some mk) :
    k < 8 ∧ ∀ c, (mk c).form = .div c k := by
  unfold divRow at h
  split at h
  all_goals cases h
  all_goals exact ⟨by norm_num, fun _ => rfl⟩

theorem form_lsuRow {mk : Ctl → Fin 2 → Instr} (h : lsuRow k = some mk) :
    k < 16 ∧ ∀ c u, (mk c u).form = .lsu c u k := by
  unfold lsuRow at h
  split at h
  all_goals cases h
  all_goals exact ⟨by norm_num, fun _ _ => rfl⟩

theorem form_memRow {mk : Ctl → Instr} (h : memRow k = some mk) :
    k < 16 ∧ ∀ c, (mk c).form = .mem c k := by
  unfold memRow at h
  split at h
  all_goals cases h
  all_goals exact ⟨by norm_num, fun _ => rfl⟩

theorem form_shwRow {mk : Ctl → Instr} (h : shwRow k = some mk) :
    k < 64 ∧ ∀ c, (mk c).form = .shw c k := by
  unfold shwRow at h
  split at h
  all_goals cases h
  all_goals exact ⟨by norm_num, fun _ => rfl⟩

theorem form_vec0Row {mk : Ctl → Width → Instr} (h : vec0Row k = some (mk, ws)) :
    k < 40 ∧ ∀ c w, (mk c w).form = .vec c 0 k w ws := by
  unfold vec0Row at h
  split at h
  all_goals cases h
  all_goals exact ⟨by norm_num, fun _ _ => rfl⟩

theorem form_vec1Row {mk : Ctl → Width → Instr} (h : vec1Row k = some (mk, ws)) :
    k < 40 ∧ ∀ c w, (mk c w).form = .vec c 1 k w ws := by
  unfold vec1Row at h
  split at h
  all_goals cases h
  all_goals exact ⟨by norm_num, fun _ _ => rfl⟩

theorem form_vecRow {mk : Ctl → Width → Instr} {u : Fin 2} (h : vecRow u k = some (mk, ws)) :
    k < 40 ∧ ∀ c w, (mk c w).form = .vec c u k w ws := by
  match u with
  | 0 => exact form_vec0Row h
  | 1 => exact form_vec1Row h

theorem form_vfnRow {mk : Ctl → Instr} (h : vfnRow k = some mk) :
    k < 32 ∧ ∀ c, (mk c).form = .vfn c k := by
  unfold vfnRow at h
  split at h
  all_goals cases h
  all_goals exact ⟨by norm_num, fun _ => rfl⟩

theorem form_vredRow {mk : Ctl → Width → Instr} (h : vredRow k = some (mk, ws)) :
    k < 104 ∧ ∀ c w, (mk c w).form = .vred c k w ws := by
  unfold vredRow at h
  split at h
  all_goals cases h
  all_goals exact ⟨by norm_num, fun _ _ => rfl⟩

theorem form_engineRow {mk : Ctl → Instr} (h : engineRow k = some mk) :
    (256 ≤ k ∧ k < 1024) ∧ ∀ c, (mk c).form = .engine c k := by
  unfold engineRow at h
  split at h
  all_goals cases h
  all_goals exact ⟨by norm_num, fun _ => rfl⟩

theorem form_controlRow {mk : Ctl → Instr} (h : controlRow k = some mk) :
    (256 ≤ k ∧ k < 1024) ∧ ∀ c, (mk c).form = .control c k := by
  unfold controlRow at h
  split at h
  all_goals cases h
  all_goals exact ⟨by norm_num, fun _ => rfl⟩

end

/-! ## Width codes (R100) -/

@[simp] theorem widthOfCode_code (w : Width) : widthOfCode w.code = some w := by cases w <;> rfl

theorem code_lt (w : Width) : w.code < 4 := by cases w <;> decide

theorem code_of_widthOfCode {k : Nat} {w : Width} (h : widthOfCode k = some w) : w.code = k := by
  unfold widthOfCode at h
  split at h
  all_goals cases h
  all_goals rfl

section
variable {row : Nat → Option ((Ctl → Width → Instr) × List Width)}

/-- A width that an operation lists triggers it at the operation's offset plus the width's code. -/
theorem widthTrigger_row {k : Nat} {mk : Ctl → Width → Instr} {ws : List Width} {w : Width} (h : row k = some (mk, ws))
    (hw : ws.contains w = true) : widthTrigger row (4 * k + w.code) = some (fun c => mk c w) := by
  have hlt := code_lt w
  have hk : (4 * k + w.code) / 4 = k := by omega
  have hc : (4 * k + w.code) % 4 = w.code := by omega
  simp only [widthTrigger, hk, hc, h, widthOfCode_code, hw, if_true]

theorem row_of_widthTrigger {off : Nat} {mk : Ctl → Instr} (h : widthTrigger row off = some mk) :
    ∃ k w mk' ws, off = 4 * k + w.code ∧ row k = some (mk', ws) ∧ ws.contains w = true ∧ mk = fun c => mk' c w := by
  unfold widthTrigger at h
  split at h
  next mk' ws w hrow hcode =>
    split at h
    next hw =>
      cases h
      have hc := code_of_widthOfCode hcode
      exact ⟨off / 4, w, mk', ws, by omega, hrow, hw, rfl⟩
    next => cases h
  next => cases h
end

/-! ## The triggers of a slot by their ids (R96 to R104) -/

theorem slotClass_of_inA {s : Fin 8} (h : inA s = true) : slotClass s = .scalar := by
  revert s
  decide

theorem slotClass_of_inB {s : Fin 8} (h : inB s = true) : slotClass s = .scalar := by
  revert s
  decide

theorem slotClass_of_unitOk {s : Fin 8} {u : Fin 2} (h : unitOk s u = true) : slotClass s = .scalar := by
  revert s u
  decide

section
variable {s : Fin 8} {k : Nat} {w : Width} {ws : List Width}

theorem triggerOfId_alu {u : Fin 2} {mk : Ctl → Fin 2 → Instr} (hs : unitOk s u = true) (h : aluRow k = some mk) :
    triggerOfId s (256 + 64 * u.val + k) = some (fun c => mk c u) := by
  obtain ⟨hk, -⟩ := form_aluRow h
  rw [triggerOfId, slotClass_of_unitOk hs]
  match u with
  | 0 => simp (disch := omega) [scalarTrigger, if_pos, show inA s = true from hs, h]
  | 1 => simp (disch := omega) [scalarTrigger, if_pos, show inB s = true from hs, h]

theorem triggerOfId_mul {mk : Ctl → Instr} (hs : inB s = true) (h : mulRow k = some mk) : triggerOfId s (384 + k) = some mk := by
  obtain ⟨hk, -⟩ := form_mulRow h
  rw [triggerOfId, slotClass_of_inB hs]
  simp (disch := omega) [scalarTrigger, if_pos, if_neg, hs, h]

theorem triggerOfId_div {mk : Ctl → Instr} (hs : inB s = true) (h : divRow k = some mk) : triggerOfId s (392 + k) = some mk := by
  obtain ⟨hk, -⟩ := form_divRow h
  rw [triggerOfId, slotClass_of_inB hs]
  simp (disch := omega) [scalarTrigger, if_pos, if_neg, hs, h]

theorem triggerOfId_lsu {u : Fin 2} {mk : Ctl → Fin 2 → Instr} (hs : unitOk s u = true) (h : lsuRow k = some mk) :
    triggerOfId s (400 + 16 * u.val + k) = some (fun c => mk c u) := by
  obtain ⟨hk, -⟩ := form_lsuRow h
  rw [triggerOfId, slotClass_of_unitOk hs]
  match u with
  | 0 => simp (disch := omega) [scalarTrigger, if_pos, if_neg, show inA s = true from hs, h]
  | 1 => simp (disch := omega) [scalarTrigger, if_pos, if_neg, show inB s = true from hs, h]

theorem triggerOfId_mem {mk : Ctl → Instr} (hs : slotClass s = .scalar) (h : memRow k = some mk) :
    triggerOfId s (432 + k) = some mk := by
  obtain ⟨hk, -⟩ := form_memRow h
  rw [triggerOfId, hs]
  simp (disch := omega) [scalarTrigger, if_pos, if_neg, h]

theorem triggerOfId_shw {mk : Ctl → Instr} (hs : slotClass s = .scalar) (h : shwRow k = some mk) :
    triggerOfId s (448 + k) = some mk := by
  rw [triggerOfId, hs]
  simp (disch := omega) [scalarTrigger, if_neg, h]

theorem triggerOfId_vec {u : Fin 2} {mk : Ctl → Width → Instr} (hs : slotClass s = .vector) (h : vecRow u k = some (mk, ws))
    (hw : ws.contains w = true) : triggerOfId s (256 + 160 * u.val + (4 * k + w.code)) = some (fun c => mk c w) := by
  obtain ⟨hk, -⟩ := form_vecRow h
  have hc := code_lt w
  rw [triggerOfId, hs]
  match u with
  | 0 =>
    have ht : widthTrigger vec0Row _ = _ := widthTrigger_row h hw
    simpa (disch := omega) [vectorTrigger, if_pos] using ht
  | 1 =>
    have ht : widthTrigger vec1Row _ = _ := widthTrigger_row h hw
    simpa (disch := omega) [vectorTrigger, if_pos] using ht

theorem triggerOfId_vfn {mk : Ctl → Instr} (hs : slotClass s = .vector) (h : vfnRow k = some mk) :
    triggerOfId s (576 + k) = some mk := by
  obtain ⟨hk, -⟩ := form_vfnRow h
  rw [triggerOfId, hs]
  simp (disch := omega) [vectorTrigger, if_pos, if_neg, h]

theorem triggerOfId_vred {mk : Ctl → Width → Instr} (hs : slotClass s = .vector) (h : vredRow k = some (mk, ws))
    (hw : ws.contains w = true) : triggerOfId s (608 + (4 * k + w.code)) = some (fun c => mk c w) := by
  rw [triggerOfId, hs]
  simpa (disch := omega) [vectorTrigger, if_neg] using widthTrigger_row h hw

theorem triggerOfId_engine {mk : Ctl → Instr} (hs : slotClass s = .engine) (h : engineRow k = some mk) :
    triggerOfId s k = some mk := by rw [triggerOfId, hs, h]

theorem triggerOfId_control {mk : Ctl → Instr} (hs : slotClass s = .control) (h : controlRow k = some mk) :
    triggerOfId s k = some mk := by rw [triggerOfId, hs, h]
end

/-! ## An instruction as the move of a destination id -/

/-- The control part of a form that is a move. -/
def Form.ctl? : Form → Option Ctl
  | .event | .limm _ | .pad _ => none
  | .move c _ | .alu c _ _ | .mul c _ | .div c _ | .lsu c _ _ | .mem c _ | .shw c _ | .vec c _ _ _ _ | .vfn c _ | .vred c _ _ _
  | .engine c _ | .control c _ => some c

theorem ctl?_eq_form (i : Instr) : i.ctl? = i.form.ctl? := rfl

/-- The instruction is the move with control part c to destination id, and is well formed where its guard and source stand. -/
structure Instr.IsMove (i : Instr) (c : Ctl) (id : Nat) : Prop where
  ctl : i.ctl? = some c
  dst : i.form.dstId = id
  lt : id < 2 ^ 10
  ok : c.ok = true → i.WellFormed

section
variable {i : Instr} {c : Ctl} {id k : Nat} {u : Fin 2} {w : Width} {ws : List Width}

theorem Instr.IsMove.of_form {f : Form} (h : i.form = f) (hctl : f.ctl? = some c) (hdst : f.dstId = id) (hlt : id < 2 ^ 10)
    (hok : f.ok = c.ok) : i.IsMove c id := by
  subst h
  exact ⟨hctl, hdst, hlt, fun hc => hok.trans hc⟩

theorem isMove_plain {d : Dst} (hd : d.reach c.slot = true) : (Instr.move c d).IsMove c (idOfDst d) := by
  have hlt := idOfDst_lt d
  exact .of_form (f := .move c d) rfl rfl rfl (by omega) (by simp [Form.ok, hd])

theorem isMove_alu {mk : Ctl → Fin 2 → Instr} (hs : unitOk c.slot u = true) (h : aluRow k = some mk)
    (hid : id = 256 + 64 * u.val + k) : (mk c u).IsMove c id := by
  obtain ⟨hk, hform⟩ := form_aluRow h
  exact .of_form (hform c u) rfl hid.symm (by omega) (by simp [Form.ok, hs])

theorem isMove_lsu {mk : Ctl → Fin 2 → Instr} (hs : unitOk c.slot u = true) (h : lsuRow k = some mk)
    (hid : id = 400 + 16 * u.val + k) : (mk c u).IsMove c id := by
  obtain ⟨hk, hform⟩ := form_lsuRow h
  exact .of_form (hform c u) rfl hid.symm (by omega) (by simp [Form.ok, hs])

section
variable {mk : Ctl → Instr}

theorem isMove_mul (hs : inB c.slot = true) (h : mulRow k = some mk) (hid : id = 384 + k) : (mk c).IsMove c id := by
  obtain ⟨hk, hform⟩ := form_mulRow h
  exact .of_form (hform c) rfl hid.symm (by omega) (by simp [Form.ok, hs])

theorem isMove_div (hs : inB c.slot = true) (h : divRow k = some mk) (hid : id = 392 + k) : (mk c).IsMove c id := by
  obtain ⟨hk, hform⟩ := form_divRow h
  exact .of_form (hform c) rfl hid.symm (by omega) (by simp [Form.ok, hs])

theorem isMove_mem (hs : slotClass c.slot = .scalar) (h : memRow k = some mk) (hid : id = 432 + k) : (mk c).IsMove c id := by
  obtain ⟨hk, hform⟩ := form_memRow h
  exact .of_form (hform c) rfl hid.symm (by omega) (by simp [Form.ok, hs])

theorem isMove_shw (hs : slotClass c.slot = .scalar) (h : shwRow k = some mk) (hid : id = 448 + k) : (mk c).IsMove c id := by
  obtain ⟨hk, hform⟩ := form_shwRow h
  exact .of_form (hform c) rfl hid.symm (by omega) (by simp [Form.ok, hs])

theorem isMove_vfn (hs : slotClass c.slot = .vector) (h : vfnRow k = some mk) (hid : id = 576 + k) : (mk c).IsMove c id := by
  obtain ⟨hk, hform⟩ := form_vfnRow h
  exact .of_form (hform c) rfl hid.symm (by omega) (by simp [Form.ok, hs])

theorem isMove_engine (hs : slotClass c.slot = .engine) (h : engineRow k = some mk) (hid : id = k) : (mk c).IsMove c id := by
  obtain ⟨hk, hform⟩ := form_engineRow h
  exact .of_form (hform c) rfl hid.symm (by omega) (by simp [Form.ok, hs])

theorem isMove_control (hs : slotClass c.slot = .control) (h : controlRow k = some mk) (hid : id = k) : (mk c).IsMove c id := by
  obtain ⟨hk, hform⟩ := form_controlRow h
  exact .of_form (hform c) rfl hid.symm (by omega) (by simp [Form.ok, hs])
end

section
variable {mk : Ctl → Width → Instr} (hs : slotClass c.slot = .vector) (hw : ws.contains w = true)
include hs hw

theorem isMove_vec (h : vecRow u k = some (mk, ws))
    (hid : id = 256 + 160 * u.val + (4 * k + w.code)) : (mk c w).IsMove c id := by
  obtain ⟨hk, hform⟩ := form_vecRow h
  have hc := code_lt w
  exact .of_form (hform c w) rfl hid.symm (by omega) (by simp only [Form.ok, hs, hw, decide_true, Bool.and_true])

theorem isMove_vred (h : vredRow k = some (mk, ws)) (hid : id = 608 + (4 * k + w.code)) : (mk c w).IsMove c id := by
  obtain ⟨hk, hform⟩ := form_vredRow h
  have hc := code_lt w
  exact .of_form (hform c w) rfl hid.symm (by omega) (by simp only [Form.ok, hs, hw, decide_true, Bool.and_true])
end

/-! ## What a trigger id names, and the id of a trigger -/

section
variable {mk : Ctl → Instr}

theorem isMove_scalarTrigger (hid : 256 ≤ id) (hs : slotClass c.slot = .scalar) (h : scalarTrigger c.slot id = some mk) :
    (mk c).IsMove c id := by
  unfold scalarTrigger at h
  split_ifs at h
  next hs =>
    obtain ⟨row, hrow, rfl⟩ := Option.map_eq_some_iff.mp h
    exact isMove_alu (u := 0) hs hrow (by omega)
  next hs =>
    obtain ⟨row, hrow, rfl⟩ := Option.map_eq_some_iff.mp h
    exact isMove_alu (u := 1) hs hrow (by omega)
  next hs => exact isMove_mul hs h (by omega)
  next hs => exact isMove_div hs h (by omega)
  next hs =>
    obtain ⟨row, hrow, rfl⟩ := Option.map_eq_some_iff.mp h
    exact isMove_lsu (u := 0) hs hrow (by omega)
  next hs =>
    obtain ⟨row, hrow, rfl⟩ := Option.map_eq_some_iff.mp h
    exact isMove_lsu (u := 1) hs hrow (by omega)
  · exact isMove_mem hs h (by omega)
  · exact isMove_shw hs h (by omega)

theorem isMove_vectorTrigger (hid : 256 ≤ id) (hs : slotClass c.slot = .vector) (h : vectorTrigger id = some mk) :
    (mk c).IsMove c id := by
  unfold vectorTrigger at h
  split_ifs at h
  · obtain ⟨k, w, row, ws, hoff, hrow, hw, rfl⟩ := row_of_widthTrigger h
    exact isMove_vec (u := 0) hs hw hrow (by omega)
  · obtain ⟨k, w, row, ws, hoff, hrow, hw, rfl⟩ := row_of_widthTrigger h
    exact isMove_vec (u := 1) hs hw hrow (by omega)
  · exact isMove_vfn hs h (by omega)
  · obtain ⟨k, w, row, ws, hoff, hrow, hw, rfl⟩ := row_of_widthTrigger h
    exact isMove_vred hs hw hrow (by omega)

theorem isMove_triggerOfId (hid : 256 ≤ id) (h : triggerOfId c.slot id = some mk) : (mk c).IsMove c id := by
  unfold triggerOfId at h
  split at h
  case h_1 hs => exact isMove_scalarTrigger hid hs h
  case h_2 hs => exact isMove_vectorTrigger hid hs h
  case h_3 hs => exact isMove_engine hs h rfl
  case h_4 hs => exact isMove_control hs h rfl

/-- A word's destination, where the slot has one of its id, is that of the move it is read as. -/
theorem isMove_decodeDst (h : decodeDst c id = .ok i) : i.IsMove c id := by
  unfold decodeDst at h
  split at h
  next =>
    split at h
    next d hd =>
      cases h
      obtain ⟨hreach, rfl⟩ := dstOfId_eq_some.mp hd
      exact isMove_plain hreach
    next => cases h
  next hid =>
    split at h
    next mk hmk =>
      cases h
      exact isMove_triggerOfId (Nat.le_of_not_lt hid) hmk
    next => cases h

theorem decodeDst_trigger (hid : 256 ≤ id) (h : triggerOfId c.slot id = some mk) : decodeDst c id = .ok (mk c) := by
  rw [decodeDst, if_neg (by omega), h]
end

theorem decodeDst_plain {d : Dst} (h : d.reach c.slot = true) : decodeDst c (idOfDst d) = .ok (.move c d) := by
  rw [decodeDst, if_pos (idOfDst_lt d), dstOfId_eq_some.mpr ⟨h, rfl⟩]

/-- The instruction of a form's row is read back from the form's destination id. -/
theorem decodeDst_form {f : Form} (hrow : f.instr = some i) (hok : f.ok = true) (hctl : f.ctl? = some c) :
    decodeDst c f.dstId = .ok i := by
  cases f with
  | event | limm v | pad k => cases hctl
  | move c' d =>
    cases hctl
    cases hrow
    exact decodeDst_plain (Bool.and_eq_true_iff.mp hok).2
  | alu c' u k =>
    cases hctl
    obtain ⟨mk, hmk, rfl⟩ := Option.map_eq_some_iff.mp hrow
    exact decodeDst_trigger (by omega) (triggerOfId_alu (Bool.and_eq_true_iff.mp hok).2 hmk)
  | lsu c' u k =>
    cases hctl
    obtain ⟨mk, hmk, rfl⟩ := Option.map_eq_some_iff.mp hrow
    exact decodeDst_trigger (by omega) (triggerOfId_lsu (Bool.and_eq_true_iff.mp hok).2 hmk)
  | mul c' k =>
    cases hctl
    obtain ⟨mk, hmk, rfl⟩ := Option.map_eq_some_iff.mp hrow
    show decodeDst c (384 + k) = _
    exact decodeDst_trigger (by omega) (triggerOfId_mul (Bool.and_eq_true_iff.mp hok).2 hmk)
  | div c' k =>
    cases hctl
    obtain ⟨mk, hmk, rfl⟩ := Option.map_eq_some_iff.mp hrow
    show decodeDst c (392 + k) = _
    exact decodeDst_trigger (by omega) (triggerOfId_div (Bool.and_eq_true_iff.mp hok).2 hmk)
  | mem c' k =>
    cases hctl
    obtain ⟨mk, hmk, rfl⟩ := Option.map_eq_some_iff.mp hrow
    show decodeDst c (432 + k) = _
    exact decodeDst_trigger (by omega) (triggerOfId_mem (of_decide_eq_true (Bool.and_eq_true_iff.mp hok).2) hmk)
  | shw c' k =>
    cases hctl
    obtain ⟨mk, hmk, rfl⟩ := Option.map_eq_some_iff.mp hrow
    show decodeDst c (448 + k) = _
    exact decodeDst_trigger (by omega) (triggerOfId_shw (of_decide_eq_true (Bool.and_eq_true_iff.mp hok).2) hmk)
  | vfn c' k =>
    cases hctl
    obtain ⟨mk, hmk, rfl⟩ := Option.map_eq_some_iff.mp hrow
    show decodeDst c (576 + k) = _
    exact decodeDst_trigger (by omega) (triggerOfId_vfn (of_decide_eq_true (Bool.and_eq_true_iff.mp hok).2) hmk)
  | engine c' id =>
    cases hctl
    obtain ⟨mk, hmk, rfl⟩ := Option.map_eq_some_iff.mp hrow
    exact decodeDst_trigger ((form_engineRow hmk).1.1) (triggerOfId_engine (of_decide_eq_true (Bool.and_eq_true_iff.mp hok).2) hmk)
  | control c' id =>
    cases hctl
    obtain ⟨mk, hmk, rfl⟩ := Option.map_eq_some_iff.mp hrow
    exact decodeDst_trigger ((form_controlRow hmk).1.1) (triggerOfId_control (of_decide_eq_true (Bool.and_eq_true_iff.mp hok).2) hmk)
  | vec c' u k w ws =>
    cases hctl
    obtain ⟨⟨mk, ws'⟩, hfilter, rfl⟩ := Option.map_eq_some_iff.mp hrow
    obtain ⟨hmk, hws⟩ := Option.filter_eq_some_iff.mp hfilter
    obtain rfl : ws' = ws := of_decide_eq_true hws
    obtain ⟨hslot, hw⟩ := Bool.and_eq_true_iff.mp hok
    exact decodeDst_trigger (by omega) (triggerOfId_vec (of_decide_eq_true (Bool.and_eq_true_iff.mp hslot).2) hmk hw)
  | vred c' k w ws =>
    cases hctl
    obtain ⟨⟨mk, ws'⟩, hfilter, rfl⟩ := Option.map_eq_some_iff.mp hrow
    obtain ⟨hmk, hws⟩ := Option.filter_eq_some_iff.mp hfilter
    obtain rfl : ws' = ws := of_decide_eq_true hws
    obtain ⟨hslot, hw⟩ := Bool.and_eq_true_iff.mp hok
    exact decodeDst_trigger (by omega) (triggerOfId_vred (of_decide_eq_true (Bool.and_eq_true_iff.mp hslot).2) hmk hw)

theorem decodeDst_dstId (hok : i.WellFormed) (hctl : i.ctl? = some c) : decodeDst c i.form.dstId = .ok i := by
  have hform : i.form ≠ .event := by
    intro h
    rw [ctl?_eq_form, h] at hctl
    cases hctl
  exact decodeDst_form ((form_instr i).trans (if_neg hform)) hok hctl

theorem slot_encode_of_ctl (h : i.ctl? = some c) : i.slotOf = some c.slot ∧ encode i = some (encodeMove c i.form.dstId) := by
  rw [ctl?_eq_form] at h
  rw [Instr.slotOf, encode]
  generalize i.form = f at *
  cases f with
  | event | limm v | pad k => cases h
  | _ =>
    cases h
    exact ⟨rfl, rfl⟩

end
end Sys2Proof
end

section
/-!
Encoding and decoding of slot words (R84 to R104): each undoes the other.
-/

namespace Sys2Proof

variable {i : Instr} {s : Fin 8} {w : SlotWord} {c : Ctl} {id : Nat}

/-! ## Long immediates and pads (R87, R92) -/

theorem decodeSlot_limm (v : BitVec 20) : decodeSlot 7 ((8 : BitVec 4) ++ v) = .ok (.limm v) := by
  rw [decodeSlot, if_pos (guardOf_limm v), extract_limm]
  rfl

theorem decodePad_eq : decodePad w = if guardOf w = 0 ∧ immOf w = true then padRow (srcOf w).toNat else none := rfl

theorem decodeSlot_pad {k : Nat} (h : padRow k = some i) : decodeSlot 7 (packSlot 0 true (BitVec.ofNat 9 k) 262) = .ok i := by
  obtain ⟨hk, -⟩ := form_padRow h
  have hsrc : (BitVec.ofNat 9 k).toNat = k := by
    rw [BitVec.toNat_ofNat, Nat.mod_eq_of_lt (by omega)]
  simp [decodeSlot, decodeSrc, decodePad_eq, hsrc, h]

/-- The pads of a guard, an immediate and a source encode to the word that holds them. -/
theorem encode_of_decodePad (h : decodePad w = some i) (hdst : (dstOf w).toNat = 262) :
    i.WellFormed ∧ i.slotOf = some 7 ∧ encode i = some w := by
  rw [decodePad_eq] at h
  split_ifs at h with hfields
  obtain ⟨hguard, himm⟩ := hfields
  obtain ⟨-, hform⟩ := form_padRow h
  have hdst' : dstOf w = 262 := BitVec.eq_of_toNat_eq hdst
  have hword : packSlot 0 true (BitVec.ofNat 9 (srcOf w).toNat) 262 = w := by
    rw [BitVec.ofNat_toNat, BitVec.setWidth_eq, ← hguard, ← himm, ← hdst', packSlot_fields]
  refine ⟨?_, ?_, ?_⟩
  · rw [Instr.WellFormed, hform, Form.ok]
  · rw [Instr.slotOf, hform]
  · rw [encode, hform, encodeForm, hword]

/-! ## Moves -/

/-- No trigger and no destination of slot 7 has the id of the pads. -/
theorem ne_pad_of_decodeDst (h : decodeDst c id = .ok i) : ¬ (c.slot.val = 7 ∧ id = 262) := by
  rintro ⟨hslot, rfl⟩
  have hnone : triggerOfId c.slot 262 = none := by
    rw [show c.slot = 7 from Fin.ext hslot]
    rfl
  simp [decodeDst, hnone] at h

theorem decodeSlot_encodeMove (hok : c.ok = true) (h : decodeDst c id = .ok i) : decodeSlot c.slot (encodeMove c id) = .ok i := by
  simp only [Ctl.ok, ne_eq, Bool.and_eq_true, decide_eq_true_eq] at hok
  obtain ⟨hguard, hreach⟩ := hok
  have hpad := ne_pad_of_decodeDst h
  rw [decodeSlot, guardOf_encodeMove, if_neg hguard, decodeSrc_encodeMove hreach, dstOf_encodeMove (isMove_decodeDst h).lt]
  exact (if_neg hpad).trans h

theorem Form.ctl_ok {f : Form} (h : f.ctl? = some c) (hok : f.ok = true) : c.ok = true := by
  cases f with
  | event | limm v | pad k => cases h
  | vec c' u k w ws | vred c' k w ws =>
    cases h
    exact (Bool.and_eq_true_iff.mp (Bool.and_eq_true_iff.mp hok).1).1
  | _ =>
    cases h
    exact (Bool.and_eq_true_iff.mp hok).1

/-- A word that is read as a move, whose guard and source stand, is the word of that move. -/
theorem encode_of_decodeDst {src : Src} (hguard : guardOf w ≠ 8) (hsrc : decodeSrc s w = some src)
    (h : decodeDst ⟨s, guardOf w, src⟩ (dstOf w).toNat = .ok i) : i.WellFormed ∧ i.slotOf = some s ∧ encode i = some w := by
  obtain ⟨hreach, hword⟩ := encodeMove_of_decodeSrc hsrc
  have hmove := isMove_decodeDst h
  obtain ⟨hslot, hencode⟩ := slot_encode_of_ctl hmove.ctl
  refine ⟨hmove.ok ?_, hslot, ?_⟩
  · rw [Ctl.ok, hreach, Bool.and_true]
    exact decide_eq_true hguard
  · rw [hencode, hmove.dst, hword]

/-! ## The two directions -/

/-- A word that is read as an instruction is the word that the instruction encodes to, in the slot that it was read from. -/
theorem encode_of_decodeSlot (h : decodeSlot s w = .ok i) : i.WellFormed ∧ i.slotOf = some s ∧ encode i = some w := by
  unfold decodeSlot at h
  split at h
  next hguard =>
    split at h
    next hs =>
      cases h
      obtain rfl : s = 7 := Fin.ext hs
      exact ⟨rfl, rfl, congrArg some (limm_fields hguard)⟩
    next => cases h
  next hguard =>
    split at h
    next => cases h
    next src hsrc =>
      split at h
      next hpad =>
        obtain ⟨hs, hdst⟩ := hpad
        obtain rfl : s = 7 := Fin.ext hs
        split at h
        next j hj =>
          cases h
          exact encode_of_decodePad hj hdst
        next => cases h
      next => exact encode_of_decodeDst hguard hsrc h

/-- Settles O57: a long immediate, a pad and a move each encode to the word that they were read from. -/
theorem decodeEncode : Obligations.DecodeEncode := fun _ _ _ => encode_of_decodeSlot

theorem slotOf_encode_event (h : i.form = .event) : i.slotOf = none ∧ encode i = none := by
  rw [Instr.slotOf, encode, h]
  exact ⟨rfl, rfl⟩

/-- An instruction that is no event has a slot and a word, and is read back from that word in that slot. -/
theorem decodeSlot_of_encode (hok : i.WellFormed) (h : i.form ≠ .event) :
    ∃ s w, i.slotOf = some s ∧ encode i = some w ∧ decodeSlot s w = .ok i := by
  have hrow : i.form.instr = some i := (form_instr i).trans (if_neg h)
  cases hctl : i.ctl? with
  | some c =>
    obtain ⟨hslot, hencode⟩ := slot_encode_of_ctl hctl
    exact ⟨c.slot, _, hslot, hencode, decodeSlot_encodeMove (Form.ctl_ok hctl hok) (decodeDst_dstId hok hctl)⟩
  | none =>
    rw [ctl?_eq_form] at hctl
    rw [Instr.slotOf, encode]
    cases hf : i.form with
    | event => exact absurd hf h
    | limm v =>
      rw [hf] at hrow
      cases hrow
      exact ⟨7, _, rfl, rfl, decodeSlot_limm v⟩
    | pad k =>
      rw [hf] at hrow
      exact ⟨7, _, rfl, rfl, decodeSlot_pad hrow⟩
    | _ =>
      rw [hf] at hctl
      cases hctl

/-- Settles O56: a long immediate, a pad and a move are each read back from the word that they encode to. -/
theorem encodeDecode : Obligations.EncodeDecode := by
  intro i hok
  refine ⟨fun s w hs hw => ?_, slotOf_encode_event, fun h => ?_⟩
  · have hform : i.form ≠ .event := by
      intro h
      obtain ⟨hnone, -⟩ := slotOf_encode_event h
      rw [hnone] at hs
      cases hs
    obtain ⟨s', w', hs', hw', hdecode⟩ := decodeSlot_of_encode hok hform
    obtain rfl : s' = s := Option.some.inj (hs'.symm.trans hs)
    obtain rfl : w' = w := Option.some.inj (hw'.symm.trans hw)
    exact hdecode
  · obtain ⟨s, w, hs, hw, -⟩ := decodeSlot_of_encode hok h
    exact ⟨s, w, hs, hw⟩

/-! ## Words written out -/

/-- Settles O55: the decoder evaluated on each word. -/
theorem decodeWords : Obligations.DecodeWords := by
  unfold Obligations.DecodeWords
  decide

end Sys2Proof
end

section
/-!
Faults of a bundle: what taking one does, by the class of its cause (R284, R285, R297 to R299), and that a bundle with a word that is no
instruction takes the word's fault (R94, R105 to R107).
-/

namespace Sys2Proof
open Machine Laws

variable {s : State} {b : BayId}

/-! ## Fields of TCAUSE and of a fault record (R73, R302) -/

theorem causeCode_lt (c : Cause) : causeCode c < 2 ^ 8 := by cases c <;> decide

theorem cls_lt (x : Bay) : x.cls < 8 := by
  rw [Bay.cls, bits_eq]
  exact Nat.mod_lt _ (by norm_num)

theorem toNat_tcauseWord {info : Info} {code cls : Nat} {repeated : Bool} (hcode : code < 2 ^ 8) (hcls : cls < 8) :
    (tcauseWord info code repeated cls).toNat =
      info.toNat % 2 ^ 32 * 2 ^ 32 + (code * 256 + (if repeated then 8 else 0) + cls) := by
  have hflag : (if repeated then 8 else 0) ≤ 8 := by split <;> omega
  have hinfo : info.toNat % 2 ^ 32 < 2 ^ 32 := Nat.mod_lt _ (by norm_num)
  rw [tcauseWord, BitVec.toNat_or, BitVec.toNat_shiftLeft, BitVec.toNat_setWidth, BitVec.toNat_setWidth, BitVec.toNat_ofNat,
    Nat.shiftLeft_eq, Nat.mod_eq_of_lt (a := info.toNat % 2 ^ 32) (by omega),
    Nat.mod_eq_of_lt (a := info.toNat % 2 ^ 32 * 2 ^ 32) (by omega), Nat.mod_eq_of_lt (b := 2 ^ 64) (by omega), ← Nat.shiftLeft_eq]
  exact (Nat.shiftLeft_add_eq_or_of_lt (by omega) _).symm

/-- CODE and INFO of TCAUSE are those of the fault that was noted. -/
theorem causeNow_tcauseWord {x : Bay} {info : Info} {code cls : Nat} {repeated : Bool} (hcode : code < 2 ^ 8) (hcls : cls < 8)
    (h : x.tcause = tcauseWord info code repeated cls) : x.causeNow.1 = code ∧ x.causeNow.2.toNat = info.toNat % 2 ^ 32 := by
  have hflag : (if repeated then 8 else 0) ≤ 8 := by split <;> omega
  rw [Bay.causeNow, bits_eq, bits_eq, BitVec.toNat_ofNat, h, toNat_tcauseWord hcode hcls]
  refine ⟨?_, ?_⟩ <;> omega

/-- Numbers laid out as the fields of a fault record: ACTION, CODE and INFO read back. -/
theorem recordFields_eq {framec polec bay task action pid code tbundle info tslot cls : Nat} (haction : action < 2 ^ 4)
    (hpid : pid < 2 ^ 8) (hcode : code < 2 ^ 8) (htbundle : tbundle < 2 ^ 64) (hinfo : info < 2 ^ 32) (htslot : tslot < 2 ^ 16)
    (hcls : cls < 2 ^ 16) :
    let r := BitVec.ofNat 256 (framec * 2 ^ 192 + polec * 2 ^ 172 + bay * 2 ^ 164 + task * 2 ^ 148 + action * 2 ^ 144 + pid * 2 ^ 136
      + code * 2 ^ 128 + tbundle * 2 ^ 64 + info * 2 ^ 32 + tslot * 2 ^ 16 + cls)
    r.toNat / 2 ^ 144 % 16 = action ∧ r.toNat / 2 ^ 128 % 256 = code ∧ r.toNat / 2 ^ 32 % 2 ^ 32 = info := by
  simp only [BitVec.toNat_ofNat]
  refine ⟨?_, ?_, ?_⟩ <;> omega

/-- ACTION, CODE and INFO of a fault record. -/
theorem faultRecord_fields {action cls code : Nat} {info : Info} (haction : action < 2 ^ 4) (hcls : cls < 8) (hcode : code < 2 ^ 8) :
    let r := faultRecord s b action cls code info
    r.toNat / 2 ^ 144 % 16 = action ∧ r.toNat / 2 ^ 128 % 256 = code ∧ r.toNat / 2 ^ 32 % 2 ^ 32 = info.toNat % 2 ^ 32 := by
  have hpid : ∀ q : Option PartId, (match q with
      | some q => q.val
      | none => 0) < 2 ^ 8 := by
    intro q
    split <;> omega
  exact recordFields_eq haction (hpid _) hcode (BitVec.isLt _) (Nat.mod_lt _ (by norm_num)) (BitVec.isLt _) (by omega)

/-! ## Retirement (R299) -/

section
variable {action : Nat}

/-- The bay in another mode. -/
def Machine.Bay.inMode (x : Bay) (m : BayMode) : Bay := { x with mode := m }

/-- A bay whose task retires is retiring while a command of it runs, and then idle. -/
theorem bay_retire : (s.retire b action).bay b = ((s.bay b).retireTask (s.poleTime b)).inMode
    (if (s.bay b).busyCommands = true ∨ s.scarfBusy b = true then .retiring else .idle) := by
  have hbay : (s.retire b action).bay b =
      if s.scarfBusy b = true then ((s.bay b).retireTask (s.poleTime b)).inMode .retiring
      else (s.bay b).retireTask (s.poleTime b) := State.bay_onBay ..
  by_cases h : s.scarfBusy b = true
  · rw [hbay, if_pos h, if_pos (.inr h)]
  · rw [hbay, if_neg h, if_congr (or_iff_left h) rfl rfl]
    rfl

theorem bay_retire_ne {b' : BayId} (h : b' ≠ b) : (s.retire b action).bay b' = s.bay b' := State.bay_onBay_ne _ _ _ _ h

theorem errlog_retire : (s.retire b action).yard.errlog =
    s.yard.errlog ++ [.fault (faultRecord s b action (s.bay b).cls (s.bay b).causeNow.1 (s.bay b).causeNow.2)] := rfl

theorem sameMemory_retire : SameMemory s (s.retire b action) :=
  sameMemory_onBay (s := s.logFault b action (s.bay b).cls (s.bay b).causeNow.1 (s.bay b).causeNow.2) (by split <;> rfl)

end

/-! ## The ways a fault is taken (R284, R297 to R299) -/

/-- The bay with TCAUSE, TBUNDLE and TSLOT of a fault written (R73). -/
def Machine.Bay.noted (x : Bay) (tcause tbundle : Word) (tslot : BitVec 16) : Bay :=
  { x with tcause := tcause, tbundle := tbundle, tslot := tslot }

/-- Bay b of state s retires its task in state t for fault f, with an ACTION of R302. -/
def TaskRetired (s : State) (b : BayId) (f : BFault) (tbundle : Word) (action : Nat) (t : State) : Prop :=
  (t.bay b).mode = (if (s.bay b).busyCommands = true ∨ s.scarfBusy b = true then .retiring else .idle) ∧ (t.bay b).task = none ∧
    (t.bay b).queues = .replicate 8 [] ∧ (t.bay b).loops = [] ∧ (t.bay b).jigs = .replicate 2 none ∧ (t.bay b).pegs = 0 ∧
    (t.bay b).inflight = [] ∧ (t.bay b).res = .replicate 23 0 ∧ (t.bay b).regs = (s.bay b).regs ∧ (t.bay b).ops = (s.bay b).ops ∧
    (t.bay b).tbundle = tbundle ∧ (t.bay b).tslot = f.tslot ∧ (t.bay b).tcause.toNat / 2 ^ 32 = f.info.toNat % 2 ^ 32 ∧
    (t.bay b).tcause.toNat / 2 ^ 8 % 2 ^ 8 = causeCode f.cause ∧ (t.bay b).window.closed = true ∧ SameMemory s t ∧
    (∀ b' : BayId, b' ≠ b → t.bay b' = s.bay b') ∧ ∃ r : BitVec 256, t.yard.errlog = s.yard.errlog ++ [.fault r] ∧
      r.toNat / 2 ^ 144 % 16 = action ∧ r.toNat / 2 ^ 128 % 256 = causeCode f.cause ∧
      r.toNat / 2 ^ 32 % 2 ^ 32 = f.info.toNat % 2 ^ 32

/-- A task is retired for the fault that was noted in TCAUSE. -/
theorem taskRetired_retire {f : BFault} {tbundle : Word} {action cls : Nat} {repeated : Bool} (haction : action < 2 ^ 4)
    (hcls : cls < 8) :
    TaskRetired s b f tbundle action
      ((s.onBay b (fun y => y.noted (tcauseWord f.info (causeCode f.cause) repeated cls) tbundle f.tslot)).retire b action) := by
  set u := s.onBay b (fun y => y.noted (tcauseWord f.info (causeCode f.cause) repeated cls) tbundle f.tslot) with hu
  have hub : u.bay b = (s.bay b).noted (tcauseWord f.info (causeCode f.cause) repeated cls) tbundle f.tslot := State.bay_onBay ..
  have hcode := causeCode_lt f.cause
  have htcause := toNat_tcauseWord (info := f.info) (repeated := repeated) hcode hcls
  have hflag : (if repeated then 8 else 0) ≤ 8 := by split <;> omega
  obtain ⟨hnow, hinfo⟩ := causeNow_tcauseWord (x := u.bay b) hcode hcls (congrArg Bay.tcause hub)
  obtain ⟨hract, hrcode, hrinfo⟩ :=
    faultRecord_fields (s := u) (b := b) (info := (u.bay b).causeNow.2) haction (cls_lt (u.bay b)) (hnow ▸ hcode)
  have hmem : SameMemory s (u.retire b action) := (sameMemory_onBay rfl).trans sameMemory_retire
  have hother : ∀ b' : BayId, b' ≠ b → (u.retire b action).bay b' = s.bay b' := fun b' h =>
    (bay_retire_ne h).trans (State.bay_onBay_ne _ _ _ _ h)
  rw [TaskRetired, bay_retire, hub]
  refine ⟨rfl, rfl, rfl, rfl, rfl, rfl, rfl, rfl, rfl, rfl, rfl, rfl, ?_, ?_, rfl, hmem, hother, _, errlog_retire, hract,
    hrcode.trans hnow, hrinfo.trans ?_⟩
  · show (tcauseWord f.info (causeCode f.cause) repeated cls).toNat / 2 ^ 32 = _
    omega
  · show (tcauseWord f.info (causeCode f.cause) repeated cls).toNat / 2 ^ 8 % 2 ^ 8 = _
    omega
  · rw [hinfo, Nat.mod_mod]

/-- What a fault that retires nothing leaves of bay b: the registers, the operands, what is in flight and what is queued. -/
def BayKept (s : State) (b : BayId) (t : State) : Prop :=
  OnlyBay b s t ∧ (t.bay b).regs = (s.bay b).regs ∧ (t.bay b).ops = (s.bay b).ops ∧ (t.bay b).pegs = (s.bay b).pegs ∧
    (t.bay b).queues = (s.bay b).queues ∧ (t.bay b).inflight = (s.bay b).inflight ∧ (t.bay b).acc = (s.bay b).acc ∧
    (t.bay b).gbuf = (s.bay b).gbuf ∧ (t.bay b).loops = (s.bay b).loops ∧ bayMems (t.bay b) = bayMems (s.bay b)

section
variable {f : BFault} {repeated : Bool} {cls : Nat} {tbundle : Word}

theorem bundlePending_none {x : Bay} (h : x.pending = none) : x.bundlePending f = ⟨f, some (24 * x.pc), none, none⟩ := by
  rw [Bay.bundlePending, h]

/-- A timing fault is left pending for the rollback at the end of the cycle. -/
theorem takeFault_rollback (h : handling f.cause = .rollback) :
    let t := s.takeFault b f
    BayKept s b t ∧ (t.bay b).pc = (s.bay b).pc ∧ (t.bay b).window = (s.bay b).window ∧
      ((s.bay b).pending = none → (t.bay b).pending = some ⟨f, some (24 * (s.bay b).pc), none, none⟩) := by
  intro t
  have ht : t = s.onBay b (fun y => { y with pending := some (y.bundlePending f), pre := none }) := by
    simp only [t, State.takeFault, h]
  have hbay : t.bay b = _ := (congrArg (·.bay b) ht).trans (State.bay_onBay ..)
  rw [BayKept, hbay]
  exact ⟨⟨ht ▸ onlyBay_onBay .., rfl, rfl, rfl, rfl, rfl, rfl, rfl, rfl, rfl⟩, rfl, rfl,
    fun hp => congrArg some (bundlePending_none hp)⟩

/-- A range or privilege fault retires the task. -/
theorem taskRetired_takeFault (h : handling f.cause = .retire) :
    TaskRetired s b f (BitVec.ofNat 64 (24 * (s.bay b).pc)) 0 (s.takeFault b f) := by
  have ht : s.takeFault b f = (s.onBay b (fun y => y.noted (tcauseWord f.info (causeCode f.cause) false (s.bay b).cls)
      (BitVec.ofNat 64 (24 * (s.bay b).pc)) f.tslot)).retire b 0 := by
    rw [State.takeFault, h]
    exact congrArg (·.retire b 0) (onBay_congr rfl)
  rw [ht]
  exact taskRetired_retire (by norm_num) (cls_lt _)

theorem takeFault_trap (h : handling f.cause = .trap) :
    s.takeFault b f = s.takeTrap b f false 1 (BitVec.ofNat 64 (24 * (s.bay b).pc)) := by
  rw [State.takeFault, h]

/-- With the handler active a trap retires the task instead. -/
theorem taskRetired_takeTrap_active (h : (s.bay b).handlerActive = true) :
    TaskRetired s b f tbundle 2 (s.takeTrap b f repeated cls tbundle) := by
  have ht : s.takeTrap b f repeated cls tbundle = (s.onBay b (fun y =>
      y.noted (tcauseWord f.info (causeCode f.cause) repeated (s.bay b).cls) tbundle f.tslot)).retire b 2 := by
    rw [State.takeTrap, if_pos h]
    exact congrArg (·.retire b 2) (onBay_congr rfl)
  rw [ht]
  exact taskRetired_retire (by norm_num) (cls_lt _)

/-- With no PAD E at index 0 a trap retires the task instead. -/
theorem taskRetired_takeTrap_noPad (h : (s.bay b).handlerActive = false) (hpad : (s.bay b).padE = false) (hcls : cls < 8) :
    TaskRetired s b f tbundle 3 (s.takeTrap b f repeated cls tbundle) := by
  rw [State.takeTrap, if_neg (by simp [h]), if_neg (by simp [hpad])]
  exact taskRetired_retire (by norm_num) hcls

/-- With PAD E at index 0 and no handler active the trap is entered. -/
theorem takeTrap_enters (h : (s.bay b).handlerActive = false) (hpad : (s.bay b).padE = true) :
    let t := s.takeTrap b f repeated cls tbundle
    BayKept s b t ∧ (t.bay b).pc = 0 ∧ (t.bay b).xfer = none ∧
      (t.bay b).tcause = tcauseWord f.info (causeCode f.cause) repeated cls ∧ (t.bay b).tbundle = tbundle ∧
      (t.bay b).tslot = f.tslot ∧ (t.bay b).suspended = (s.bay b).loops.length ∧ (t.bay b).jigs = (s.bay b).jigs.map suspendJig ∧
      (t.bay b).window.closed = true := by
  intro t
  have ht : t = s.onBay b (fun y => y.trapEnter (tcauseWord f.info (causeCode f.cause) repeated cls) tbundle f.tslot) := by
    simp only [t, State.takeTrap, h, hpad]
    rfl
  have hbay : t.bay b = _ := (congrArg (·.bay b) ht).trans (State.bay_onBay ..)
  rw [BayKept, hbay]
  exact ⟨⟨ht ▸ onlyBay_onBay .., rfl, rfl, rfl, rfl, rfl, rfl, rfl, rfl, rfl⟩, rfl, rfl, rfl, rfl, rfl, rfl, rfl, rfl⟩

end

/-! ## The fault that a bundle reports (R106) -/

section
variable {α : Type} {k : α → Nat} {l : List α} {x y : α}

theorem mem_insertOn : x ∈ insertOn k y l ↔ x = y ∨ x ∈ l := by
  induction l with
  | nil => simp [insertOn]
  | cons z l ih =>
    rw [insertOn]
    split
    · rw [List.mem_cons]
    · rw [List.mem_cons, ih, List.mem_cons]
      tauto

theorem mem_sortOn : x ∈ sortOn k l ↔ x ∈ l := by
  induction l with
  | nil => exact Iff.rfl
  | cons y l ih => exact mem_insertOn.trans ((or_congr_right ih).trans List.mem_cons.symm)

/-- A least element stays in front. -/
theorem sortOn_cons (h : ∀ y ∈ l, k x ≤ k y) : sortOn k (x :: l) = x :: sortOn k l := by
  show insertOn k x (sortOn k l) = _
  cases hs : sortOn k l with
  | nil => rfl
  | cons y ys =>
    have hy : y ∈ sortOn k l := hs ▸ List.mem_cons_self
    exact if_pos (h y (mem_sortOn.mp hy))

end

theorem foldl_slots {l : List BFault} {a : BitVec 8} (h : ∀ g ∈ l, g.slots = 0) :
    l.foldl (fun acc g => acc ||| g.slots) a = a := by
  induction l with
  | nil => rfl
  | cons g l ih =>
    obtain ⟨hg, hrest⟩ := List.forall_mem_cons.mp h
    have hmark : a ||| g.slots = a := by simp [hg]
    rw [List.foldl_cons, hmark, ih hrest]

/-- The fault that no other ranks before is reported; faults of no slot mark none (R106). -/
theorem reportFault_cons {f : BFault} {l : List BFault} (hkey : ∀ g ∈ l, f.key ≤ g.key) (hslots : ∀ g ∈ l, g.slots = 0)
    (hjig : ∀ g ∈ l, g.jig = false) : reportFault (f :: l) = some f := by
  have hmark : (l.filter (fun g => decide (g.cause = f.cause))).foldl (fun acc g => acc ||| g.slots) f.slots = f.slots :=
    foldl_slots fun g hg => hslots g (List.mem_of_mem_filter hg)
  have hany : (l.filter (fun g => decide (g.cause = f.cause))).any (fun g => g.jig) = false := by
    rw [List.any_eq_false]
    intro g hg
    simp [hjig g (List.mem_of_mem_filter hg)]
  rw [reportFault, sortOn_cons hkey]
  simp [hmark, hany]

/-! ## A bundle with a word that is no instruction (R94, R105 to R107) -/

section
variable {i : Fin 8} {w : SlotWord} {e : DecodeErr}

theorem decodeAll_error {owned : BitVec 8} {pc : Nat} (h : decodeSlot i w = .error e) :
    decodeAll owned pc [(i, w)] = ([], [decodeFault owned pc i e]) := by
  simp [decodeAll, h]

theorem portFaults_nil {owned : BitVec 8} {x : Bay} : portFaults owned (allTargets x []) = [] := rfl

theorem runBundle_nil : runBundle s [] = s.onMe Bay.beginMoves := rfl

/-- A fault of the whole bundle that a fault of a word ranks before: of no slot, and of the rank of the control flow at the least
(R90, R106, R287). -/
def OfBundle (g : BFault) : Prop := g.slots = 0 ∧ g.jig = false ∧ causeRank .controlFlow ≤ causeRank g.cause

theorem key_le (g : BFault) : g.key ≤ causeRank g.cause * 16 + 8 := by
  have hslot : ((List.range 8).find? (fun k => bitAt g.slots k)).getD 8 ≤ 8 := by
    cases h : (List.range 8).find? (fun k => bitAt g.slots k) with
    | none => exact le_rfl
    | some k => exact (List.mem_range.mp (List.mem_of_find?_eq_some h)).le
  exact Nat.add_le_add_left hslot _

theorem key_decodeFault_le {pc : Nat} {g : BFault} (h : OfBundle g) : (decodeFault 0 pc i e).key ≤ g.key := by
  obtain ⟨hslots, -, hrank⟩ := h
  have hword : causeRank (decodeFault 0 pc i e).cause ≤ causeRank .controlFlow := by
    cases e <;> exact of_decide_eq_true rfl
  have hg : g.key = causeRank g.cause * 16 + 8 := by
    rw [BFault.key, hslots]
    rfl
  have hle := key_le (decodeFault 0 pc i e)
  omega

theorem bundleFaults_ofBundle {x : Bay} : ∀ g ∈ x.bundleFaults, OfBundle g := by
  unfold Bay.bundleFaults
  split
  · simp [OfBundle, causeRank]
  · simp

theorem followFault_ofBundle {l : List BFault} : ∀ g ∈ s.followFault l, OfBundle g := by
  simp only [State.followFault]
  split
  · simp [OfBundle]
  · simp

/-- Such a bundle, with no jig merged into it, takes the fault of the word in the state before it. -/
theorem issue_undecoded (hj : (s.bay b).mergingJigs (s.now b) = [])
    (hw : slotWords (bundleAt (s.bay b).imem (s.bay b).pc) (s.bay b).jigmem [] = [(i, w)]) (hd : decodeSlot i w = .error e) :
    s.issue b = (({ s with cur := b } : State).takeFault b (decodeFault 0 (s.bay b).pc i e)).onBay b Bay.endIssue := by
  have hj' : (({ s with cur := b } : State).bay b).mergingJigs (({ s with cur := b } : State).now b) = [] := hj
  have hw' : slotWords (bundleAt (({ s with cur := b } : State).bay b).imem (({ s with cur := b } : State).bay b).pc)
    (({ s with cur := b } : State).bay b).jigmem [] = [(i, w)] := hw
  have hdry : (runBundle (examining s b) []).me.dry = some [] := by
    rw [runBundle_nil, State.me_onMe]
    exact congrArg Bay.dry (State.bay_onBay ..)
  have hreport : reportFault ([decodeFault 0 (s.bay b).pc i e] ++ (s.bay b).bundleFaults ++ [] ++
      (runBundle (examining s b) []).followFault []) = some (decodeFault 0 (s.bay b).pc i e) := by
    have hall : ∀ g ∈ (s.bay b).bundleFaults ++ (runBundle (examining s b) []).followFault [], OfBundle g :=
      List.forall_mem_append.mpr ⟨bundleFaults_ofBundle, followFault_ofBundle⟩
    rw [List.append_nil, List.append_assoc]
    exact reportFault_cons (fun g hg => key_decodeFault_le (hall g hg)) (fun g hg => (hall g hg).1) (fun g hg => (hall g hg).2.1)
  simp only [State.issue, hj', hw', decodeAll_error hd, jigFaults_none, portFaults_nil, List.append_nil, List.map_nil]
  have hmet : (runBundle (({ s with cur := b } : State).onBay b
      (fun y => { y with dry := some [], jigSlots := ownedSlots [] })) []).me.dry.getD [] = [] := congrArg (·.getD []) hdry
  rw [hmet]
  split
  next f hf =>
    obtain rfl := Option.some.inj (hreport.symm.trans hf)
    rfl
  next hnone => exact absurd (hreport.symm.trans hnone) nofun

end

/-- Settles O53: each class of cause has its way of taking the fault, and the fault of a word ranks before those of the whole bundle. -/
theorem faultHandling : Obligations.FaultHandling := by
  refine ⟨?_, ?_⟩
  · intro s b f x t code keeps retires
    refine ⟨fun h => takeFault_rollback h, fun h => taskRetired_takeFault h, fun h => ?_⟩
    have ht : t = s.takeTrap b f false 1 code := takeFault_trap h
    clear_value t
    subst ht
    exact ⟨fun hactive => taskRetired_takeTrap_active hactive,
      fun hactive hpad => taskRetired_takeTrap_noPad hactive hpad (by norm_num), fun hactive hpad => takeTrap_enters hactive hpad⟩
  · intro s b i w e x hj hw hd
    exact issue_undecoded hj hw hd

end Sys2Proof
end

section
/-!
The matrix unit (R173, R176, R179 to R183, R395 to R398): the cycles of a nest, additions, drains, MXCLR, and the writes of operand SRAM at the
end of a cycle.

Reads of operand SRAM leave of a bay all but the banks they take (BankUse), so that a cycle of a nest is such reads followed by one change of
its bay (nestCycle_eq). Runs that may land make one change of their bay too, whichever store they land in (land_eq).
-/

namespace Sys2Proof
open Machine Laws

variable {s t s0 : State} {b : BayId} {c : Cmd} {rest : List Cmd}

/-! ## Changes of one bay beside the mark of a race (R221) -/

theorem onlyOwn_iff : OnlyOwn b s t ↔ ∃ (u : State) (x : Bay), RaceNoted b s u ∧ t = u.onBay b (fun _ => x) :=
  ⟨fun ⟨u, hu, ht⟩ => ⟨u, t.bay b, hu, ht⟩, fun ⟨_, _, hu, ht⟩ => ht ▸ hu.onlyOwn⟩

theorem onlyOwn_refl : OnlyOwn b s s := ⟨s, raceNoted_refl, (State.onBay_id s b).symm⟩

theorem OnlyOwn.onBay {f : Bay → Bay} (h : OnlyOwn b s t) : OnlyOwn b s (t.onBay b f) := by
  obtain ⟨u, x, hu, rfl⟩ := onlyOwn_iff.mp h
  rw [State.onBay_onBay]
  exact hu.onlyOwn

theorem OnlyOwn.useStore {k : BayStore} {off n : Nat} {write : Bool} (h : OnlyOwn b s t) : OnlyOwn b s (t.useStore b k off n write) := by
  obtain ⟨u, x, hu, rfl⟩ := onlyOwn_iff.mp h
  rw [useStore_onBay]
  exact hu.useStore.onlyOwn

/-! ## The begin of a command (R76) -/

/-- The head of a queue may begin where its trigger id is of those asked for. -/
theorem Begins.headReady_of_op {e : Engine} {op : Nat → Bool} (h : Begins s b e c rest) (hop : op c.op = true) :
    (s.bay b).headReady e (s.now b) op = some c := by
  have hready := h.headReady
  simp only [Bay.headReady, h.head, hop] at hready ⊢
  exact hready

/-- What a begin leaves of queues, pegs and registers is what Begun asks for. -/
theorem Begins.begun {e : Engine} (h : Begins s b e c rest) (hqueues : (t.bay b).queues = ((s.bay b).dequeue e).queues)
    (huse : (t.bay b).pegUse = c.consumes ++ (s.bay b).pegUse) (hpegs : (t.bay b).pegs = (s.bay b).pegs)
    (hregs : (t.bay b).regs = (s.bay b).regs) : Begun s t b e c rest := by
  have hqueue (e' : Engine) : (t.bay b).queue e' = ((s.bay b).setQueue e rest).queue e' := by
    rw [Bay.queue, hqueues, h.dequeue, Bay.queue]
  exact ⟨(hqueue e).trans (queue_setQueue ..), fun e' he => (hqueue e').trans (queue_setQueue_ne _ _ he), huse, hpegs, hregs⟩

/-! ## Reads of operand SRAM (R173) -/

/-- A bay after reads of operand SRAM: but for the banks taken, those lost to a conflict and the fault of one, it is as before. -/
def BankUse (x y : Bay) : Prop :=
  ∃ (banks lost : List (Bool × Nat × Bool)) (pending : Option Pending), y = { x with banks := banks, lost := lost, pending := pending }

/-- Reads of operand SRAM lead from a bay x to a state, which differs from s0 in that bay alone but for the mark of a race. -/
def Reads (s0 : State) (b : BayId) (x : Bay) (t : State) : Prop := OnlyOwn b s0 t ∧ BankUse x (t.bay b)

theorem BankUse.refl (x : Bay) : BankUse x x := ⟨_, _, _, rfl⟩

theorem BankUse.trans {x y z : Bay} (h : BankUse x y) (h' : BankUse y z) : BankUse x z := by
  obtain ⟨_, _, _, rfl⟩ := h
  obtain ⟨_, _, _, rfl⟩ := h'
  exact ⟨_, _, _, rfl⟩

section
variable {x : Bay}

theorem Reads.onBay {f : Bay → Bay} (h : Reads s0 b x t) (hf : BankUse (t.bay b) (f (t.bay b))) : Reads s0 b x (t.onBay b f) := by
  obtain ⟨hown, huse⟩ := h
  refine ⟨hown.onBay, ?_⟩
  rw [State.bay_onBay]
  exact huse.trans hf

theorem Reads.useStore {k : BayStore} {off n : Nat} {write : Bool} (h : Reads s0 b x t) : Reads s0 b x (t.useStore b k off n write) := by
  obtain ⟨hown, huse⟩ := h
  refine ⟨hown.useStore, ?_⟩
  rwa [useStore_bay]

theorem Reads.strayFault {cause : Cause} {info : Info} (h : Reads s0 b x t) : Reads s0 b x (t.strayFault b cause info) := by
  refine h.onBay ?_
  split
  · exact .refl _
  · exact ⟨_, _, _, rfl⟩

theorem Reads.bankRead {grp : Bool} {banks : List Nat} (h : Reads s0 b x t) : Reads s0 b x (t.bankRead b grp banks) := by
  have htaken : Reads s0 b x (t.onBay b (fun y => (y.loseBanks grp false banks).useBanks grp false banks)) :=
    h.onBay ⟨_, _, _, rfl⟩
  unfold State.bankRead
  dsimp only
  split
  · exact htaken.strayFault
  · exact htaken

theorem Reads.readItems {isB : Bool} {base sc : Nat} (h : Reads s0 b x t) : Reads s0 b x (t.readItems b c isB base sc).1 :=
  List.foldlRecOn (motive := fun a : State × Items => Reads s0 b x a.1) _ _ h fun _ h _ _ =>
    (List.foldlRecOn (motive := Reads s0 b x) _ _ h fun _ h _ _ => h.useStore).bankRead

theorem Reads.useScales {r : NestRun} (h : Reads s0 b x t) : Reads s0 b x (t.useScales b c r) :=
  List.foldlRecOn (motive := Reads s0 b x) _ _ (List.foldlRecOn (motive := Reads s0 b x) _ _ h fun _ h _ _ => h.useStore)
    fun _ h _ _ => h.useStore

end

/-! ## A cycle of a nest (R176, R179) -/

/-- A bay whose nest r has made its reads of cycle now: products l are bound, and the nest goes on as r' or gives way. -/
def Machine.Bay.nestOn (x : Bay) (r : NestRun) (now : Nat) (r' : NestRun) (l : List MxStep) : Bay :=
  let more : Prop := (now - r.begun) % r.cmd.tc + 1 < r.cmd.tc
  let last : Prop := (now - r.begun) / r.cmd.tc + 1 = r.cmd.steps
  { x with
    adds := x.adds ++ l
    nests := if ¬ more ∧ last then [] else [r']
    tails := if ¬ more ∧ last then x.tails ++ [⟨r.cmd, now + 140⟩] else x.tails }

/-- Products that a cycle of a nest binds for their addition 140 cycles on. -/
def BoundBy (r : NestRun) (now : Nat) (st : MxStep) : Prop :=
  st.due = now + 140 ∧ st.cmd = r.cmd.id ∧ st.first = decide ((now - r.begun) % r.cmd.tc = 0) ∧ st.start = r.cmd.start ∧
    st.len = 2 ^ r.cmd.logLen ∧ st.fa = r.cmd.fmt false ∧ st.fb = r.cmd.fmt true

/-- A nest after a cycle: within a step as it is, at the step's end cleared for the next. -/
def Machine.NestRun.goOn (r : NestRun) (more : Prop) [Decidable more] : NestRun :=
  if more then r else { r with a := [], b := [], meta' := [], sa := [], sb := [], void := false }

/-- The products that a cycle binds, if it binds any. -/
def boundIf (binds : Prop) [Decidable binds] (st : MxStep) : List MxStep := if binds then [st] else []

section
variable {p : Prop} [Decidable p] {r : NestRun} {st st' : MxStep}

theorem goOn_run : (r.goOn p).cmd = r.cmd ∧ (r.goOn p).begun = r.begun := by
  unfold NestRun.goOn
  split <;> exact ⟨rfl, rfl⟩

theorem length_boundIf : (boundIf p st).length ≤ 1 ∧ (p → (boundIf p st).length = 1) := by
  unfold boundIf
  split <;> simp_all

theorem eq_of_mem_boundIf (h : st' ∈ boundIf p st) : st' = st := by
  unfold boundIf at h
  split at h
  · exact List.mem_singleton.mp h
  · cases h

/-- A step that may take its scales is of the same nest. -/
theorem takeScales_run {x : Bay} {ds : List (Lvl × Nat)} :
    (if p then r.takeScales x ds else (r, none)).1.cmd = r.cmd ∧ (if p then r.takeScales x ds else (r, none)).1.begun = r.begun := by
  split <;> exact ⟨rfl, rfl⟩

end

/-- The change that ends a cycle of a nest, with what it captured in r2 and bound in st. -/
theorem nestOn_eq {x : Bay} {r r2 : NestRun} {st : MxStep} {now : Nat} {binds : Prop} [Decidable binds] :
    (let y1 := if binds then { x with adds := x.adds ++ [st] } else x
     if (now - r.begun) % r.cmd.tc + 1 < r.cmd.tc then { y1 with nests := [r2] }
     else if (now - r.begun) / r.cmd.tc + 1 = r.cmd.steps then { y1 with nests := [], tails := y1.tails ++ [⟨r.cmd, now + 140⟩] }
     else { y1 with nests := [{ r2 with a := [], b := [], meta' := [], sa := [], sb := [], void := false }] }) =
    x.nestOn r now (r2.goOn ((now - r.begun) % r.cmd.tc + 1 < r.cmd.tc)) (boundIf binds st) := by
  have hadds : (if binds then { x with adds := x.adds ++ [st] } else x) = { x with adds := x.adds ++ boundIf binds st } := by
    unfold boundIf
    split
    · rfl
    · rw [List.append_nil]
  dsimp only
  rw [hadds, Bay.nestOn, NestRun.goOn]
  by_cases hmore : (now - r.begun) % r.cmd.tc + 1 < r.cmd.tc
  · simp only [hmore, if_true, not_true_eq_false, false_and, if_false]
  · by_cases hlast : (now - r.begun) / r.cmd.tc + 1 = r.cmd.steps
    · simp only [hmore, hlast, if_true, if_false, not_false_eq_true, and_self]
    · simp only [hmore, hlast, if_false, and_false]

/-- A cycle of a nest is reads of operand SRAM, then one change of its bay. -/
theorem nestCycle_eq (h : OnlyOwn b s0 s) (r : NestRun) :
    ∃ (u : State) (r' : NestRun) (l : List MxStep), Reads s0 b (s.bay b) u ∧
      s.nestCycle b r = u.onBay b (fun y => y.nestOn r (s.now b) r' l) ∧ (r'.cmd = r.cmd ∧ r'.begun = r.begun) ∧
      l.length ≤ 1 ∧ ((s.now b - r.begun) % r.cmd.tc = 0 → l.length = 1) ∧ ∀ st ∈ l, BoundBy r (s.now b) st := by
  have hreads : Reads s0 b (s.bay b) s := ⟨h, .refl _⟩
  have hscales (p : Prop) [Decidable p] (r0 : NestRun) : Reads s0 b (s.bay b) (if p then s.useScales b r.cmd r0 else s) := by
    split
    · exact hreads.useScales
    · exact hreads
  refine ⟨_, _, _, ?reads, congrArg (State.onBay _ b) (funext fun y => nestOn_eq (r := r) (now := s.now b)),
    ⟨goOn_run.1.trans takeScales_run.1, goOn_run.2.trans takeScales_run.2⟩, length_boundIf.1, fun hfirst => length_boundIf.2 (.inl hfirst),
    fun st hst => ?bound⟩
  case reads =>
    exact (List.foldlRecOn (motive := Reads s0 b (s.bay b)) _ _ (hscales _ _) fun _ h _ _ => h.useStore).readItems.readItems
  case bound =>
    rw [eq_of_mem_boundIf hst]
    exact ⟨rfl, rfl, rfl, rfl, rfl, rfl, rfl⟩

theorem exec_mxgoBegin_running {r : NestRun} (h : (s.bay b).nests.head? = some r) :
    exec (.mxgoBegin b) s = .next (s.nestCycle b r) := by
  obtain ⟨l, hl⟩ := List.head?_eq_some_iff.mp h
  change execMxgoBegin b s = _
  simp only [execMxgoBegin, hl]

/-- An MXGO that may begin leaves its queue, and its nest runs from this cycle on. -/
theorem exec_mxgoBegin_head (h : Begins s b .mx c rest) (hop : c.op = 256) (hnests : (s.bay b).nests = [])
    (hdrains : ∀ d ∈ (s.bay b).drains, d.begun + 127 < s.now b ∨ d.handle ∉ c.handlesOf) :
    exec (.mxgoBegin b) s = .next ((s.onBay b (fun x => (x.dequeue .mx).consume c)).nestCycle b
      ⟨c, s.now b, [], [], [], [], [], [], [], false⟩) := by
  have hall : (s.bay b).drains.all (fun d => d.read (s.now b) || !c.handlesOf.contains d.handle) = true := by
    rw [List.all_eq_true]
    intro d hd
    simpa [DrainRun.read] using hdrains d hd
  have hready : (s.bay b).mxgoReady (s.now b) = some c := by
    simp only [Bay.mxgoReady, h.headReady_of_op (op := fun op => decide (op = 256)) (by simp [hop]), hnests, hall, List.isEmpty_nil,
      Bool.and_self, if_true]
  change execMxgoBegin b s = _
  simp only [execMxgoBegin, hnests, hready]

/-! ## Handles written (R180, R287, R289) -/

/-- The window notes a handle already, or has room for one more. -/
def HandleRoom (s : State) (b : BayId) (h : Nat) : Prop :=
  h ∈ (s.bay b).window.handles ∨ (s.bay b).window.handles.length < if s.sliced b = true then 2 else 5

section
variable {x y : Bay} {h k : Nat} {g : Handle}

theorem handle_of_set (hy : y.handles = x.handles.setIfInBounds h g) (hlt : h < 16) : y.handle h = g := by
  simp [Bay.handle, hy, hlt]

theorem handle_of_set_ne (hy : y.handles = x.handles.setIfInBounds h g) (hk : k ≠ h) : y.handle k = x.handle k := by
  simp [Bay.handle, hy, hk.symm]

end

/-- A handle that the window has room for is changed; beside it only the window's notes are. -/
theorem writeHandle_of_room {h : Nat} {f : Handle → Handle} (hroom : HandleRoom s b h) :
    ∃ w : Window, s.writeHandle b h f =
      s.onBay b (fun x => { x with window := w, handles := x.handles.setIfInBounds h (f (x.handle h)) }) := by
  by_cases hnoted : h ∈ (s.bay b).window.handles
  · refine ⟨(s.bay b).window, ?_⟩
    simp only [State.writeHandle, State.touchHandle, List.contains_iff_mem.mpr hnoted, if_true]
    exact onBay_congr rfl
  · have hlt := Nat.not_le.mpr (hroom.resolve_left hnoted)
    refine ⟨{ (s.bay b).window with
      handles := h :: (s.bay b).window.handles, shadows := (h, (s.bay b).handle h) :: (s.bay b).window.shadows }, ?_⟩
    simp only [State.writeHandle, State.touchHandle, List.contains_iff_mem, hnoted, hlt, if_false]
    exact (State.onBay_onBay ..).trans (onBay_congr rfl)

/-! ## Additions (R176, R180) -/

/-- Sums of 128 rows and 128 columns. -/
def Square (m : List (List Int)) : Prop := m.length = 128 ∧ ∀ row ∈ m, row.length = 128

/-- The sum of row r and column q. -/
def cell (m : List (List Int)) (r q : Nat) : Int := (m.getD r []).getD q 0

/-- Sums after one pair of a column of A and a row of B. -/
def addPair (m : List (List Int)) (p : List Int × List Int) : List (List Int) :=
  List.zipWith (fun row a => List.zipWith (fun x y => x + a * y) row p.2) m p.1

theorem addRows_eq (rows : List (List Int × List Int)) (m : List (List Int)) :
    addRows rows m = rows.foldl addPair ((List.range 128).map (rowOf m)) := rfl

section
variable {m : List (List Int)} {r q : Nat}

theorem square_padded : Square ((List.range 128).map (rowOf m)) := by
  refine ⟨by simp, fun row hrow => ?_⟩
  obtain ⟨i, -, rfl⟩ := List.mem_map.mp hrow
  simp [rowOf]

theorem cell_padded (hr : r < 128) (hq : q < 128) : cell ((List.range 128).map (rowOf m)) r q = cell m r q := by
  simp [cell, rowOf, hr, hq]

theorem Square.addPair {p : List Int × List Int} (h : Square m) (h1 : p.1.length = 128) (h2 : p.2.length = 128) :
    Square (addPair m p) := by
  obtain ⟨hlen, hrows⟩ := h
  refine ⟨by simp [Sys2Proof.addPair, hlen, h1], fun row hrow => ?_⟩
  obtain ⟨i, hi, rfl⟩ := List.getElem_of_mem hrow
  simp [Sys2Proof.addPair, hrows _ (List.getElem_mem _), h2]

theorem cell_addPair {p : List Int × List Int} (h : Square m) (h1 : p.1.length = 128) (h2 : p.2.length = 128) (hr : r < 128)
    (hq : q < 128) : cell (addPair m p) r q = cell m r q + p.1.getD r 0 * p.2.getD q 0 := by
  obtain ⟨hlen, hrows⟩ := h
  have hrow : (m[r]'(by omega)).length = 128 := hrows _ (List.getElem_mem _)
  simp [cell, addPair, hlen, hrow, h1, h2, hr, hq]

/-- Every sum rises by the products of its row and column. -/
theorem cell_foldl_addPair {rows : List (List Int × List Int)} (h : Square m) (hrows : ∀ p ∈ rows, p.1.length = 128 ∧ p.2.length = 128)
    (hr : r < 128) (hq : q < 128) :
    cell (rows.foldl addPair m) r q = cell m r q + (rows.map (fun p => p.1.getD r 0 * p.2.getD q 0)).sum := by
  induction rows generalizing m with
  | nil => simp
  | cons p rows ih =>
    obtain ⟨⟨h1, h2⟩, hrest⟩ := List.forall_mem_cons.mp hrows
    rw [List.foldl_cons, ih (h.addPair h1 h2) hrest, cell_addPair h h1 h2 hr hq, List.map_cons, List.sum_cons, add_assoc]

end

theorem at'_add {h : Handle} {st : MxStep} {r q : Nat} (hrows : ∀ p ∈ st.rows, p.1.length = 128 ∧ p.2.length = 128) (hr : r < 128)
    (hq : q < 128) : (h.add st).at' r q = h.at' r q + (st.rows.map (fun p => p.1.getD r 0 * p.2.getD q 0)).sum := by
  change cell (addRows st.rows h.elems) r q = cell h.elems r q + _
  rw [addRows_eq, cell_foldl_addPair square_padded hrows hr hq, cell_padded hr hq]

/-- An addition that meets no fault writes its handle. -/
theorem addMx_writes {st : MxStep} (hfault : st.fault = none) (hvoid : st.void = false)
    (ha : expsDiffer ((s.bay b).handle st.handle).ba (stepExps st.fa st.sa) = false)
    (hb : expsDiffer ((s.bay b).handle st.handle).bb (stepExps st.fb st.sb) = false) :
    s.addMx b st = s.writeHandle b st.handle (fun g => g.add st) := by
  simp only [State.addMx, hfault, hvoid, ha, hb, Bool.or_self, Bool.false_eq_true, if_false]

/-- The sole addition that is due changes the additions to come, the window's notes and its handle. -/
theorem exec_mxAddition {st : MxStep} (hdue : (s.bay b).adds.filter (fun x => decide (x.due ≤ s.now b)) = [st])
    (hfault : st.fault = none) (hvoid : st.void = false)
    (ha : expsDiffer ((s.bay b).handle st.handle).ba (stepExps st.fa st.sa) = false)
    (hb : expsDiffer ((s.bay b).handle st.handle).bb (stepExps st.fb st.sb) = false) (hroom : HandleRoom s b st.handle) :
    ∃ w : Window, exec (.mxAddition b) s = .next (s.onBay b (fun x => { x with
      adds := x.adds.filter (fun y => decide (s.now b < y.due))
      window := w
      handles := x.handles.setIfInBounds st.handle ((x.handle st.handle).add st) })) := by
  have hbay : (s.onBay b (fun x => { x with adds := x.adds.filter (fun y => decide (s.now b < y.due)) })).bay b =
      { s.bay b with adds := (s.bay b).adds.filter (fun y => decide (s.now b < y.due)) } := State.bay_onBay ..
  obtain ⟨w, hw⟩ := writeHandle_of_room (f := fun g => g.add st)
    (s := s.onBay b (fun x => { x with adds := x.adds.filter (fun y => decide (s.now b < y.due)) }))
    (by rw [HandleRoom, hbay]; exact hroom)
  refine ⟨w, ?_⟩
  change execMxAddition b s = _
  simp only [execMxAddition, hdue, List.foldl_cons, List.foldl_nil]
  rw [addMx_writes hfault hvoid (by rw [hbay]; exact ha) (by rw [hbay]; exact hb), hw, State.onBay_onBay]
  rfl

/-! ## The end of a nest (R179, R232) -/

theorem produce_eq (x : Bay) (c : Cmd) :
    x.produce c = { x with pegSet := if c.ppeg = 63 then x.pegSet else x.pegSet ++ [c.ppeg] } := by
  unfold Bay.produce
  split <;> rfl

theorem foldl_produce (l : List NestTail) (x : Bay) : l.foldl (fun acc t => acc.produce t.cmd) x =
    { x with pegSet := x.pegSet ++ (l.filter (fun t => decide (t.cmd.ppeg ≠ 63))).map (fun t => t.cmd.ppeg) } := by
  induction l generalizing x with
  | nil => simp
  | cons t l ih =>
    rw [List.foldl_cons, ih, produce_eq]
    by_cases h : t.cmd.ppeg = 63 <;> simp [h]

theorem exec_mxgoComplete : exec (.mxgoComplete b) s = .next (s.onBay b (fun x => { x with
    tails := x.tails.filter (fun y => decide (s.now b < y.completes))
    pegSet := x.pegSet ++ (x.tails.filter (fun y => decide (y.completes ≤ s.now b) && decide (y.cmd.ppeg ≠ 63))).map
      (fun y => y.cmd.ppeg) })) := by
  change execMxgoComplete b s = _
  simp only [execMxgoComplete, foldl_produce, List.filter_filter, Bool.and_comm]

/-! ## Drains and clears that begin (R179, R395, R397) -/

theorem exec_mxdrainBegin (h : Begins s b .mx c rest) (hop : c.op = 257) (howes : (s.bay b).owes c.handle (s.now b) = false)
    (hdrains : ∀ d ∈ (s.bay b).drains, d.begun + 127 < s.now b ∧ d.reg ≠ fmtScale c.fo)
    (hbusy : (s.bay b).scaleBusy (fmtScale c.fo) (s.now b) = false) :
    exec (.mxdrainBegin b) s = .next (s.onBay b (fun x => { (x.dequeue .mx).consume c with
      drains := x.drains ++ [drainStart s b c]
      scaling := x.scaling ++ [⟨fmtScale c.fo, s.now b + 130, none⟩] })) := by
  have hall : (s.bay b).drains.all (fun d => d.read (s.now b) && decide (d.reg ≠ fmtScale c.fo)) = true := by
    rw [List.all_eq_true]
    intro d hd
    simpa [DrainRun.read] using hdrains d hd
  have hready : (s.bay b).drainReady (s.now b) = some c := by
    simp only [Bay.drainReady, h.headReady_of_op (op := fun op => decide (op = 257)) (by simp [hop]), hall, howes, Bool.not_false,
      Bool.and_self, if_true]
  change execMxdrainBegin b s = _
  simp only [execMxdrainBegin, hready, hbusy]
  rfl

theorem exec_mxclrBegin (h : Begins s b .mx c rest) (hop : c.op = 258) (howes : (s.bay b).owes c.handle (s.now b) = false)
    (hdrains : ∀ d ∈ (s.bay b).drains, d.begun + 127 < s.now b) (hroom : HandleRoom s b c.handle) :
    ∃ w : Window, exec (.mxclrBegin b) s = .next (s.onBay b (fun x => { (x.dequeue .mx).consume c with
      pegSet := if c.ppeg = 63 then x.pegSet else x.pegSet ++ [c.ppeg]
      window := w
      handles := x.handles.setIfInBounds c.handle .empty })) := by
  have hall : (s.bay b).drains.all (fun d => d.read (s.now b)) = true := by
    rw [List.all_eq_true]
    intro d hd
    exact decide_eq_true (hdrains d hd)
  have hready : (s.bay b).clearReady (s.now b) = some c := by
    simp only [Bay.clearReady, h.headReady_of_op (op := fun op => decide (op = 258)) (by simp [hop]), hall, howes, Bool.not_false,
      Bool.and_self, if_true]
  obtain ⟨w, hw⟩ := writeHandle_of_room (f := fun _ => Handle.empty) (h := c.handle)
    (s := s.onBay b (fun x => ((x.dequeue .mx).consume c).produce c)) (by
      rw [HandleRoom, State.bay_onBay, produce_eq]
      exact hroom)
  refine ⟨w, ?_⟩
  change execMxclrBegin b s = _
  simp only [execMxclrBegin, hready]
  rw [hw, State.onBay_onBay]
  refine congrArg Host.Outcome.next (onBay_congr ?_)
  rw [produce_eq]
  rfl

/-! ## Runs written to a store of a bay -/

section
variable {x : Bay} {k : BayStore} {runs : List (Nat × List Byte)}

/-- Of runs written one after another, the last that covers an address gives its byte. -/
theorem runsWritten_stored {m : Mem} (h : m.wf = true) : StoredRuns m (runsWritten m runs) runs := by
  intro a
  induction runs using List.reverseRecOn with
  | nil => rfl
  | append_singleton runs r ih =>
    have hstep : runsWritten m (runs ++ [r]) = Mem.writeN (runsWritten m runs) r.1 r.2 := by
      rw [runsWritten, List.foldl_append]
      rfl
    rw [hstep, List.reverse_concat]
    by_cases hin : r.1 ≤ a ∧ a < r.1 + r.2.length
    · obtain ⟨hle, hlt⟩ := hin
      have hread := read_writeN_in (runsWritten m runs) r.1 (a - r.1) r.2 (runsWritten_wf h) (by omega)
      rw [Nat.add_sub_cancel' hle] at hread
      rw [hread, List.find?_cons_of_pos (by simp [hle, hlt])]
    · rw [read_writeN_out _ _ _ _ (by omega), ih, List.find?_cons_of_neg (by simpa using hin)]

theorem store_writeRuns (k' : BayStore) :
    (x.writeRuns k runs).store k' = if k' = k then runsWritten (x.store k) runs else x.store k' := by
  cases k <;> cases k' <;> rfl

/-- What runs written to a store leave of their bay as it was. -/
theorem writeRuns_frame :
    let y := x.writeRuns k runs
    y.regs = x.regs ∧ y.ops = x.ops ∧ y.handles = x.handles ∧ y.imem = x.imem ∧ y.jigmem = x.jigmem ∧ y.drains = x.drains ∧
      y.sc = x.sc ∧ y.pegSet = x.pegSet ∧ y.bankWrites = x.bankWrites := by
  cases k <;> simp only [Bay.writeRuns, Bay.setStore, reduceCtorEq, if_true, if_false, and_self]

end

/-! ## Runs that land (R173, R215, R287) -/

/-- A bay in a store of which runs have landed: at once, or to be written at the end of the cycle. -/
def Machine.Bay.landed (x : Bay) (k : BayStore) (runs : List (Nat × List Byte)) (scale : Bool) (bank : Nat) : Bay :=
  if k = .scratch ∨ scale = true then x.landNow k runs
  else
    let banks := (runs.flatMap (fun r => banksOf bank r.1 r.2.length)).eraseDups
    { (x.loseBanks (decide (k = .opB)) true banks).useBanks (decide (k = .opB)) true banks with
      bankWrites := x.bankWrites ++ [(k, runs)] }

section
variable {x : Bay} {k : BayStore} {runs : List (Nat × List Byte)} {scale : Bool} {bank : Nat}

theorem bankClash_none {grp : Bool} (h : ∀ r ∈ runs, ∀ n ∈ banksOf bank r.1 r.2.length, (grp, n, true) ∉ x.banks) :
    x.bankClash grp true (runs.flatMap (fun r => banksOf bank r.1 r.2.length)).eraseDups = none := by
  rw [Bay.bankClash, List.find?_eq_none]
  intro n hn
  obtain ⟨r, hr, hmem⟩ := List.mem_flatMap.mp (List.mem_eraseDups.mp hn)
  simpa using h r hr n hmem

/-- Runs that may land mark a race, if any, and change their bay. -/
theorem land_eq (h : MayLand s b k runs scale) :
    s.land b k runs scale = (runs.foldl (fun acc r => acc.useStore b k r.1 r.2.length true) s).onBay b
      (fun y => y.landed k runs scale (s.bankSize b)) := by
  obtain ⟨-, hroom, hfree, hbanks⟩ := h
  by_cases hk : k = .scratch
  · simp only [State.land, if_neg (Nat.not_lt.mpr hroom), hk, rewritten_none (hfree hk), if_true, Bay.landed, true_or]
  · cases hs : scale with
    | true => simp only [State.land, if_neg (Nat.not_lt.mpr hroom), hk, if_false, if_true, Bay.landed, or_true]
    | false =>
      simp only [State.land, if_neg (Nat.not_lt.mpr hroom), hk, if_false, bankClash_none (hbanks hk hs), Bay.landed,
        Bool.false_eq_true, or_self]

/-- What runs that land leave of their bay as it was. -/
theorem landed_frame :
    let y := x.landed k runs scale bank
    y.regs = x.regs ∧ y.ops = x.ops ∧ y.handles = x.handles ∧ y.imem = x.imem ∧ y.jigmem = x.jigmem ∧ y.drains = x.drains ∧
      y.sc = x.sc ∧ y.pegSet = x.pegSet := by
  unfold Bay.landed
  split
  · simp only [Bay.landNow, writeRuns_frame, and_self]
  · simp only [Bay.useBanks, Bay.loseBanks, and_self]

theorem landed_now (h : k = .scratch ∨ scale = true) (k' : BayStore) :
    (x.landed k runs scale bank).store k' = (if k' = k then runsWritten (x.store k) runs else x.store k') ∧
      (x.landed k runs scale bank).bankWrites = x.bankWrites := by
  have hstore : (x.landNow k runs).store k' = (x.writeRuns k runs).store k' := by cases k' <;> rfl
  rw [Bay.landed, if_pos h, hstore, store_writeRuns]
  obtain ⟨-, -, -, -, -, -, -, -, hwrites⟩ := writeRuns_frame (x := x) (k := k) (runs := runs)
  exact ⟨rfl, hwrites⟩

theorem landed_later (hk : k ≠ .scratch) (hs : scale = false) (k' : BayStore) :
    (x.landed k runs scale bank).store k' = x.store k' ∧
      (x.landed k runs scale bank).bankWrites = x.bankWrites ++ [(k, runs)] := by
  rw [Bay.landed, if_neg (by simp [hk, hs])]
  cases k' <;> simp only [Bay.store, Bay.useBanks, Bay.loseBanks, and_self]

theorem landedIn_landed (hwf : (x.store k).wf = true) : LandedIn x (x.landed k runs scale bank) k runs scale := by
  obtain ⟨hregs, hops, hhandles, himem, hjigmem, -, -, -⟩ := landed_frame (x := x) (k := k) (runs := runs) (scale := scale) (bank := bank)
  refine ⟨hregs, hops, hhandles, himem, hjigmem, fun k' hk' => ?_, fun hnow => ?_, fun hk hs => ?_⟩
  · by_cases hnow : k = .scratch ∨ scale = true
    · rw [(landed_now hnow k').1, if_neg hk']
    · obtain ⟨hk, hs⟩ := not_or.mp hnow
      exact (landed_later hk (Bool.eq_false_of_not_eq_true hs) k').1
  · obtain ⟨hstore, hwrites⟩ := landed_now (x := x) (runs := runs) (bank := bank) hnow k
    rw [hstore, if_pos rfl]
    exact ⟨runsWritten_stored hwf, hwrites⟩
  · exact landed_later hk hs k

/-- Runs that may land land, in a state that differs from s0 in their bay alone. -/
theorem land_lands (hown : OnlyOwn b s0 s) (h : MayLand s b k runs scale) :
    OnlyOwn b s0 (s.land b k runs scale) ∧
      (s.land b k runs scale).bay b = (s.bay b).landed k runs scale (s.bankSize b) := by
  have huse : OnlyOwn b s0 (runs.foldl (fun acc r => acc.useStore b k r.1 r.2.length true) s) ∧
      (runs.foldl (fun acc r => acc.useStore b k r.1 r.2.length true) s).bay b = s.bay b :=
    List.foldlRecOn (motive := fun t => OnlyOwn b s0 t ∧ t.bay b = s.bay b) _ _ ⟨hown, rfl⟩
      fun _ ht _ _ => ⟨ht.1.useStore, useStore_bay.trans ht.2⟩
  obtain ⟨hrace, hbay⟩ := huse
  rw [land_eq h, State.bay_onBay, hbay]
  exact ⟨hrace.onBay, rfl⟩

theorem landed_land (h : MayLand s b k runs scale) : Landed s (s.land b k runs scale) b k runs scale := by
  obtain ⟨hown, hbay⟩ := land_lands onlyOwn_refl h
  refine ⟨hown, ?_⟩
  rw [hbay]
  exact landedIn_landed h.1

end

/-! ## Rows and ends of drains (R181, R182, R397) -/

/-- The row of one drain that lands in cycle now. -/
def Machine.State.landRow (b : BayId) (now : Nat) (acc : State) (d : DrainRun) : State :=
  match d.rows.find? (fun p => decide (d.begun + p.1 + 2 = now)) with
  | some p => acc.land b d.store p.2 false
  | none => acc

/-- One drain's part in the landing of rows in cycle now: its row, and its release. -/
def Machine.State.drainRow (b : BayId) (now : Nat) (acc : State) (d : DrainRun) : State :=
  if d.release && decide (now = d.begun + 127) then (acc.landRow b now d).writeHandle b d.handle (fun _ => .empty)
  else acc.landRow b now d

/-- The completion of one drain. -/
def Machine.State.drainEnd (b : BayId) (acc : State) (d : DrainRun) : State :=
  let a1 := if d.tail = [] then acc else acc.land b d.store d.tail true
  a1.onBay b (fun x => (x.setSc d.reg d.regAfter).produce d.cmd)

theorem exec_drainRowLanding : exec (.drainRowLanding b) s = .next ((s.bay b).drains.foldl (State.drainRow b (s.now b)) s) := rfl

theorem exec_mxdrainComplete : exec (.mxdrainComplete b) s =
    .next (((s.bay b).drains.filter (fun d => decide (d.begun + 130 ≤ s.now b))).foldl (State.drainEnd b)
      (s.onBay b (fun x => { x with drains := x.drains.filter (fun d => decide (s.now b < d.begun + 130)) }))) := rfl

/-- Of drains all but one of which leave every state as it is, that one acts. -/
theorem foldl_sole {f : State → DrainRun → State} {l l' : List DrainRun} {d : DrainRun} (h : ∀ e ∈ l ++ l', ∀ t, f t e = t) :
    (l ++ d :: l').foldl f s = f s d := by
  obtain ⟨hl, hl'⟩ := List.forall_mem_append.mp h
  have hidle (r : List DrainRun) (hr : ∀ e ∈ r, ∀ t, f t e = t) (u : State) : r.foldl f u = u :=
    List.foldlRecOn (motive := (· = u)) r f rfl fun t ht e he => (hr e he t).trans ht
  rw [List.foldl_append, List.foldl_cons, hidle l hl, hidle l' hl']

section
variable {d : DrainRun} {now : Nat}

theorem drainRow_unreleased (hrel : d.release = false ∨ now ≠ d.begun + 127) : s.drainRow b now d = s.landRow b now d := by
  rcases hrel with h | h <;> simp [State.drainRow, h]

theorem landRow_idle (hrow : d.rows.find? (fun p => decide (d.begun + p.1 + 2 = now)) = none) : s.landRow b now d = s := by
  simp only [State.landRow, hrow]

theorem drainRow_idle (hrow : d.rows.find? (fun p => decide (d.begun + p.1 + 2 = now)) = none)
    (hrel : d.release = false ∨ now ≠ d.begun + 127) : s.drainRow b now d = s :=
  (drainRow_unreleased hrel).trans (landRow_idle hrow)

theorem drainRow_lands {r : Nat} {runs : List (Nat × List Byte)}
    (hrow : d.rows.find? (fun p => decide (d.begun + p.1 + 2 = now)) = some (r, runs))
    (hrel : d.release = false ∨ now ≠ d.begun + 127) : s.drainRow b now d = s.land b d.store runs false := by
  simp only [drainRow_unreleased hrel, State.landRow, hrow]

theorem drainRow_releases (hrow : d.rows.find? (fun p => decide (d.begun + p.1 + 2 = now)) = none) (hrel : d.release = true)
    (hnow : now = d.begun + 127) : s.drainRow b now d = s.writeHandle b d.handle (fun _ => .empty) := by
  rw [State.drainRow, hrel, decide_eq_true hnow, Bool.and_self, if_pos rfl, landRow_idle hrow]

/-- A row that may land lands, and no drain begins or ends with it. -/
theorem drainRow_landed {r : Nat} {runs : List (Nat × List Byte)}
    (hrow : d.rows.find? (fun p => decide (d.begun + p.1 + 2 = now)) = some (r, runs))
    (hrel : d.release = false ∨ now ≠ d.begun + 127) (hland : MayLand s b d.store runs false) :
    Landed s (s.drainRow b now d) b d.store runs false ∧ ((s.drainRow b now d).bay b).drains = (s.bay b).drains := by
  obtain ⟨-, hbay⟩ := land_lands onlyOwn_refl hland
  obtain ⟨-, -, -, -, -, hdrains, -, -⟩ := landed_frame (x := s.bay b) (k := d.store) (runs := runs) (scale := false)
    (bank := s.bankSize b)
  rw [drainRow_lands hrow hrel, hbay, hdrains]
  exact ⟨landed_land hland, rfl⟩

/-- A release empties the handle. -/
theorem drainRow_emptied (hrow : d.rows.find? (fun p => decide (d.begun + p.1 + 2 = now)) = none) (hrel : d.release = true)
    (hnow : now = d.begun + 127) (hlt : d.handle < 16) (hroom : HandleRoom s b d.handle) :
    OnlyBay b s (s.drainRow b now d) ∧ ((s.drainRow b now d).bay b).handle d.handle = .empty ∧
      bayMems ((s.drainRow b now d).bay b) = bayMems (s.bay b) := by
  obtain ⟨w, hw⟩ := writeHandle_of_room (f := fun _ => Handle.empty) hroom
  rw [drainRow_releases hrow hrel hnow, hw]
  refine ⟨onlyBay_onBay .., ?_⟩
  rw [State.bay_onBay, handle_of_set rfl hlt]
  exact ⟨rfl, by simp only [bayMems]⟩

end

/-- Where one drain of a list is over, it is the one that completes, and the others are left. -/
theorem filter_over {l l' : List DrainRun} {d : DrainRun} {now : Nat} (hd : d.begun + 130 ≤ now)
    (h : ∀ e ∈ l ++ l', now < e.begun + 130) :
    (l ++ d :: l').filter (fun e => decide (e.begun + 130 ≤ now)) = [d] ∧
      (l ++ d :: l').filter (fun e => decide (now < e.begun + 130)) = l ++ l' := by
  obtain ⟨hl, hl'⟩ := List.forall_mem_append.mp h
  have hlater (r : List DrainRun) (hr : ∀ e ∈ r, now < e.begun + 130) :
      r.filter (fun e => decide (e.begun + 130 ≤ now)) = [] ∧ r.filter (fun e => decide (now < e.begun + 130)) = r :=
    ⟨List.filter_eq_nil_iff.mpr fun e he => by simpa using hr e he, List.filter_eq_self.mpr fun e he => decide_eq_true (hr e he)⟩
  simp only [List.filter_append, List.filter_cons, hlater l hl, hlater l' hl', hd, Nat.not_lt.mpr hd, decide_true, decide_false,
    Bool.false_eq_true, if_true, if_false, List.nil_append, and_self]

section
variable {x y : Bay} {i k : Nat} {r : BitVec 32}

theorem scAt_of_set (hy : y.sc = x.sc.setIfInBounds i r) (hlt : i < 256) : y.scAt i = r := by
  simp [Bay.scAt, hy, hlt]

theorem scAt_of_set_ne (hy : y.sc = x.sc.setIfInBounds i r) (hk : k ≠ i) : y.scAt k = x.scAt k := by
  simp [Bay.scAt, hy, hk.symm]

end

/-- A bay whose drain d has written its scale register and produced its peg. -/
def Machine.Bay.scaled (x : Bay) (d : DrainRun) : Bay :=
  { x with
    sc := x.sc.setIfInBounds d.reg d.regAfter
    pegSet := if d.cmd.ppeg = 63 then x.pegSet else x.pegSet ++ [d.cmd.ppeg] }

theorem drainEnd_eq (d : DrainRun) :
    s.drainEnd b d = (if d.tail = [] then s else s.land b d.store d.tail true).onBay b (fun x => x.scaled d) := by
  simp only [State.drainEnd, produce_eq]
  rfl

theorem store_scaled {x : Bay} {d : DrainRun} (k : BayStore) : (x.scaled d).store k = x.store k := by cases k <;> rfl

/-- A bay with other drains. -/
def Machine.Bay.withDrains (x : Bay) (l : List DrainRun) : Bay := { x with drains := l }

theorem store_withDrains {x : Bay} {l : List DrainRun} (k : BayStore) : (x.withDrains l).store k = x.store k := by cases k <;> rfl

/-- That runs have landed has nothing to do with drains, scale registers and pegs. -/
theorem LandedIn.scaled {x y : Bay} {l : List DrainRun} {d : DrainRun} {k : BayStore} {runs : List (Nat × List Byte)} {scale : Bool}
    (h : LandedIn (x.withDrains l) y k runs scale) : LandedIn x (y.scaled d) k runs scale := by
  simp only [LandedIn, store_withDrains, store_scaled] at h ⊢
  exact h

/-- The sole drain that has something to do in this cycle lands its row or releases its handle. -/
theorem exec_drainRowLanding_sole {l l' : List DrainRun} {d : DrainRun} (hl : (s.bay b).drains = l ++ d :: l')
    (hothers : ∀ e ∈ l ++ l', e.rows.find? (fun p => decide (e.begun + p.1 + 2 = s.now b)) = none ∧
      (e.release = false ∨ s.now b ≠ e.begun + 127) ∧ s.now b < e.begun + 130) :
    exec (.drainRowLanding b) s = .next (s.drainRow b (s.now b) d) := by
  have hidle : ∀ e ∈ l ++ l', ∀ t : State, t.drainRow b (s.now b) e = t := by
    intro e he t
    obtain ⟨hrow, hrel, -⟩ := hothers e he
    exact drainRow_idle hrow hrel
  rw [exec_drainRowLanding, hl, foldl_sole hidle]

/-- The sole drain that is over: its scale lines land, and then its bay is scaled. -/
theorem exec_mxdrainComplete_sole {l l' : List DrainRun} {d : DrainRun} (hl : (s.bay b).drains = l ++ d :: l')
    (hothers : ∀ e ∈ l ++ l', s.now b < e.begun + 130) (hd : d.begun + 130 ≤ s.now b) :
    exec (.mxdrainComplete b) s = .next ((s.onBay b (fun x => x.withDrains (l ++ l'))).drainEnd b d) := by
  obtain ⟨hdone, hleft⟩ := filter_over hd hothers
  rw [exec_mxdrainComplete, hl, hdone]
  refine congrArg (fun u : State => Host.Outcome.next (u.drainEnd b d)) (onBay_congr ?_)
  rw [hl, hleft]
  rfl

/-- A drain that ends without scale lines writes its register and produces its peg. -/
theorem drainEnd_quiet {l : List DrainRun} {d : DrainRun} (htail : d.tail = []) (hreg : d.reg < 256) :
    let t := (s.onBay b (fun x => x.withDrains l)).drainEnd b d
    (t.bay b).drains = l ∧ Produced s t b d.cmd ∧ (t.bay b).scAt d.reg = d.regAfter ∧
      (∀ i : Nat, i ≠ d.reg → (t.bay b).scAt i = (s.bay b).scAt i) ∧ OnlyBay b s t ∧ bayMems (t.bay b) = bayMems (s.bay b) := by
  dsimp only
  rw [drainEnd_eq, if_pos htail, State.onBay_onBay, Produced, State.bay_onBay]
  refine ⟨rfl, rfl, scAt_of_set rfl hreg, fun i hi => scAt_of_set_ne rfl hi, onlyBay_onBay .., ?_⟩
  simp only [bayMems, Bay.scaled, Bay.withDrains]

/-- A drain that ends with scale lines lands them, writes its register and produces its peg. -/
theorem drainEnd_lands {l : List DrainRun} {d : DrainRun} (htail : d.tail ≠ []) (hland : MayLand s b d.store d.tail true)
    (hreg : d.reg < 256) :
    let t := (s.onBay b (fun x => x.withDrains l)).drainEnd b d
    (t.bay b).drains = l ∧ Produced s t b d.cmd ∧ (t.bay b).scAt d.reg = d.regAfter ∧
      (∀ i : Nat, i ≠ d.reg → (t.bay b).scAt i = (s.bay b).scAt i) ∧ Landed s t b d.store d.tail true := by
  have hbay : (s.onBay b (fun x => x.withDrains l)).bay b = (s.bay b).withDrains l := State.bay_onBay ..
  have hmay : MayLand (s.onBay b (fun x => x.withDrains l)) b d.store d.tail true := by
    rw [MayLand, hbay, store_withDrains]
    exact hland
  obtain ⟨hown, hlanded⟩ := land_lands onlyOwn_refl.onBay hmay
  rw [hbay] at hlanded
  obtain ⟨-, -, -, -, -, hdrains, hsc, hpegs⟩ := landed_frame (x := (s.bay b).withDrains l) (k := d.store) (runs := d.tail)
    (scale := true) (bank := (s.onBay b (fun x => x.withDrains l)).bankSize b)
  dsimp only
  rw [drainEnd_eq, if_neg htail, Landed, Produced, State.bay_onBay, hlanded]
  refine ⟨hdrains, ?_, scAt_of_set rfl hreg, fun i hi => ?_, hown.onBay, ?_⟩
  · simp only [Bay.scaled, hpegs]
    rfl
  · exact (scAt_of_set_ne rfl hi).trans (by rw [Bay.scAt, hsc]; rfl)
  · refine (landedIn_landed ?_).scaled
    rw [store_withDrains]
    exact hland.1

/-! ## Bank writes at the end of a cycle (R173) -/

section
variable {x : Bay} {bank : Nat}

/-- Where no bank is lost every run that waits is written. -/
theorem makeBankWrites_eq (h : x.lost = []) :
    x.makeBankWrites bank = x.bankWrites.foldl (fun y w => y.writeRuns w.1 w.2) { x with bankWrites := [] } := by
  have hmade (grp : Bool) (off n : Nat) : x.isLost grp true bank off n = false :=
    List.any_eq_false.mpr fun k _ => by simp [h]
  simp only [Bay.makeBankWrites, hmade, Bool.not_false, List.filter_true]

theorem store_foldl_writeRuns (k : BayStore) (ws : List (BayStore × List (Nat × List Byte))) :
    (ws.foldl (fun y w => y.writeRuns w.1 w.2) x).store k =
      runsWritten (x.store k) ((ws.filter (fun w => decide (w.1 = k))).flatMap (fun w => w.2)) := by
  induction ws generalizing x with
  | nil => rfl
  | cons w ws ih =>
    rw [List.foldl_cons, ih, store_writeRuns]
    by_cases h : w.1 = k
    · simp only [h, if_true, List.filter_cons_of_pos, decide_true, List.flatMap_cons, runsWritten, List.foldl_append]
    · simp only [h, Ne.symm h, if_false, List.filter_cons_of_neg, decide_false, Bool.false_eq_true, not_false_eq_true]

theorem foldl_writeRuns_frame (ws : List (BayStore × List (Nat × List Byte))) :
    let y := ws.foldl (fun y w => y.writeRuns w.1 w.2) x
    y.bankWrites = x.bankWrites ∧ y.regs = x.regs ∧ y.handles = x.handles :=
  List.foldlRecOn (motive := fun y : Bay => y.bankWrites = x.bankWrites ∧ y.regs = x.regs ∧ y.handles = x.handles) _ _ ⟨rfl, rfl, rfl⟩
    fun y hy w _ => by
      obtain ⟨hregs, -, hhandles, -, -, -, -, -, hwrites⟩ := writeRuns_frame (x := y) (k := w.1) (runs := w.2)
      rw [hwrites, hregs, hhandles]
      exact hy

/-- Every run that waits stands in its store at the end of the cycle, where no bank is lost. -/
theorem makeBankWrites_stored (hlost : x.lost = []) (hwf : ∀ k : BayStore, (x.store k).wf = true) :
    (∀ k : BayStore, StoredRuns (x.store k) ((x.makeBankWrites bank).store k)
      ((x.bankWrites.filter (fun w => decide (w.1 = k))).flatMap (fun w => w.2))) ∧
    (x.makeBankWrites bank).bankWrites = [] ∧ (x.makeBankWrites bank).regs = x.regs ∧
    (x.makeBankWrites bank).handles = x.handles := by
  rw [makeBankWrites_eq hlost]
  refine ⟨fun k => ?_, foldl_writeRuns_frame x.bankWrites⟩
  have hstore : ({ x with bankWrites := [] } : Bay).store k = x.store k := by cases k <;> rfl
  rw [store_foldl_writeRuns, hstore]
  exact runsWritten_stored (hwf k)

end

/-! ## The statement -/

/-- A nest's cycle changes its bay alone, but for the mark of a race, and there moves the nest on, banks and their faults apart. -/
theorem bay_nestOn {x : Bay} {u : State} {r r' : NestRun} {l : List MxStep} {now : Nat} (h : Reads s0 b x u) :
    OnlyOwn b s0 (u.onBay b (fun y => y.nestOn r now r' l)) ∧
      BankUse (x.nestOn r now r' l) ((u.onBay b (fun y => y.nestOn r now r' l)).bay b) := by
  obtain ⟨hown, banks, lost, pending, hbay⟩ := h
  refine ⟨hown.onBay, banks, lost, pending, ?_⟩
  rw [State.bay_onBay, hbay]
  rfl

/-- An MXGO begins: it leaves its queue, and its nest makes the reads of its first cycle. -/
theorem mxgoBegin_head (h : Begins s b .mx c rest) (hop : c.op = 256) (hnests : (s.bay b).nests = [])
    (hdrains : ∀ d ∈ (s.bay b).drains, d.begun + 127 < s.now b ∨ d.handle ∉ c.handlesOf) :
    ∃ t : State, exec (.mxgoBegin b) s = .next t ∧ OnlyOwn b s t ∧ Begun s t b .mx c rest ∧ bayMems (t.bay b) = bayMems (s.bay b) ∧
      (t.bay b).handles = (s.bay b).handles ∧
      (1 < c.tc → ∃ r : NestRun, (t.bay b).nests = [r] ∧ r.cmd = c ∧ r.begun = s.now b) := by
  obtain ⟨s1, hs1⟩ : ∃ s1, s1 = s.onBay b (fun x => (x.dequeue .mx).consume c) := ⟨_, rfl⟩
  have hown1 : OnlyOwn b s s1 := hs1 ▸ onlyOwn_refl.onBay
  have hbay1 : s1.bay b = ((s.bay b).dequeue .mx).consume c := by rw [hs1, State.bay_onBay]
  have hnow1 : s1.now b = s.now b := by
    rw [State.now, hbay1, hs1, State.poleTime_onBay]
    rfl
  obtain ⟨u, r', l, hreads, ht, ⟨hcmd, hbegun⟩, -, -, -⟩ := nestCycle_eq hown1 ⟨c, s.now b, [], [], [], [], [], [], [], false⟩
  obtain ⟨hown, _, _, _, hbay⟩ := bay_nestOn (r := ⟨c, s.now b, [], [], [], [], [], [], [], false⟩) (r' := r') (l := l)
    (now := s1.now b) hreads
  rw [hbay1, hnow1] at hbay
  rw [hnow1] at hown ht
  refine ⟨_, (exec_mxgoBegin_head h hop hnests hdrains).trans (congrArg _ (hs1 ▸ ht)), hown, h.begun ?_ ?_ ?_ ?_, ?_⟩
  all_goals rw [hbay]
  all_goals simp only [bayMems, Bay.nestOn, Bay.consume, Bay.dequeue, Bay.setQueue, true_and]
  refine fun htc => ⟨r', if_neg fun hc => hc.1 ?_, hcmd, hbegun⟩
  rwa [Nat.sub_self, Nat.zero_mod, Nat.zero_add]

/-- A nest that runs makes the reads of this cycle. -/
theorem mxgoBegin_running {r : NestRun} (h : (s.bay b).nests.head? = some r) :
    let el := s.now b - r.begun
    ∃ t : State, exec (.mxgoBegin b) s = .next t ∧ OnlyOwn b s t ∧ bayMems (t.bay b) = bayMems (s.bay b) ∧
      (t.bay b).handles = (s.bay b).handles ∧ (t.bay b).queues = (s.bay b).queues ∧
      (∃ l : List MxStep, (t.bay b).adds = (s.bay b).adds ++ l ∧ l.length ≤ 1 ∧ (el % r.cmd.tc = 0 → l.length = 1) ∧
        ∀ st ∈ l, BoundBy r (s.now b) st) ∧
      (el % r.cmd.tc + 1 < r.cmd.tc → ∃ r' : NestRun, (t.bay b).nests = [r'] ∧ r'.cmd = r.cmd ∧ r'.begun = r.begun) ∧
      (el % r.cmd.tc + 1 = r.cmd.tc → el / r.cmd.tc + 1 = r.cmd.steps → (t.bay b).nests = [] ∧
        (t.bay b).tails = (s.bay b).tails ++ [⟨r.cmd, s.now b + 140⟩]) := by
  intro el
  obtain ⟨u, r', l, hreads, ht, ⟨hcmd, hbegun⟩, hlen, hone, hbound⟩ := nestCycle_eq (onlyOwn_refl (s := s) (b := b)) r
  obtain ⟨hown, _, _, _, hbay⟩ := bay_nestOn (r := r) (r' := r') (l := l) (now := s.now b) hreads
  refine ⟨_, (exec_mxgoBegin_running h).trans (congrArg _ ht), hown, ?_⟩
  rw [hbay]
  exact ⟨rfl, rfl, rfl, ⟨l, rfl, hlen, hone, hbound⟩, fun hmore => ⟨r', if_neg fun hc => hc.1 hmore, hcmd, hbegun⟩,
    fun hend hlast => ⟨if_pos ⟨hend.not_lt, hlast⟩, if_pos ⟨hend.not_lt, hlast⟩⟩⟩

/-- An addition that meets no fault adds its products to its handle. -/
theorem mxAddition_adds {st : MxStep} (hdue : (s.bay b).adds.filter (fun x => decide (x.due ≤ s.now b)) = [st])
    (hlt : st.handle < 16) (hfault : st.fault = none) (hvoid : st.void = false)
    (ha : expsDiffer ((s.bay b).handle st.handle).ba (stepExps st.fa st.sa) = false)
    (hb : expsDiffer ((s.bay b).handle st.handle).bb (stepExps st.fb st.sb) = false) (hroom : HandleRoom s b st.handle)
    (hrows : ∀ p ∈ st.rows, p.1.length = 128 ∧ p.2.length = 128) :
    ∃ t : State, exec (.mxAddition b) s = .next t ∧ OnlyBay b s t ∧
      (t.bay b).adds = (s.bay b).adds.filter (fun x => decide (s.now b < x.due)) ∧ bayMems (t.bay b) = bayMems (s.bay b) ∧
      (t.bay b).regs = (s.bay b).regs ∧ (∀ h : Nat, h ≠ st.handle → (t.bay b).handle h = (s.bay b).handle h) ∧
      ((t.bay b).handle st.handle).pair = some (st.fa, st.fb) ∧
      ∀ r < 128, ∀ q < 128, ((t.bay b).handle st.handle).at' r q = ((s.bay b).handle st.handle).at' r q +
        (st.rows.map (fun p => p.1.getD r 0 * p.2.getD q 0)).sum := by
  obtain ⟨w, hexec⟩ := exec_mxAddition hdue hfault hvoid ha hb hroom
  refine ⟨_, hexec, onlyBay_onBay .., ?_⟩
  rw [State.bay_onBay]
  refine ⟨rfl, by simp only [bayMems], rfl, fun h hne => handle_of_set_ne rfl hne, ?_⟩
  rw [handle_of_set rfl hlt]
  exact ⟨rfl, fun r hr q hq => at'_add hrows hr hq⟩

/-- An MXGO whose last addition is made has left the bay, its peg produced. -/
theorem mxgoComplete_produces :
    ∃ t : State, exec (.mxgoComplete b) s = .next t ∧ OnlyBay b s t ∧
      (t.bay b).tails = (s.bay b).tails.filter (fun x => decide (s.now b < x.completes)) ∧
      (t.bay b).pegSet = (s.bay b).pegSet ++ (((s.bay b).tails.filter (fun x =>
        decide (x.completes ≤ s.now b) && decide (x.cmd.ppeg ≠ 63))).map (fun x => x.cmd.ppeg)) ∧
      (t.bay b).handles = (s.bay b).handles := by
  refine ⟨_, exec_mxgoComplete, onlyBay_onBay .., ?_⟩
  rw [State.bay_onBay]
  exact ⟨rfl, rfl, rfl⟩

/-- A drain begins, with the values it is to write and its scale register as they stand. -/
theorem mxdrainBegin_head (h : Begins s b .mx c rest) (hop : c.op = 257) (howes : (s.bay b).owes c.handle (s.now b) = false)
    (hdrains : ∀ d ∈ (s.bay b).drains, d.begun + 127 < s.now b ∧ d.reg ≠ fmtScale c.fo)
    (hbusy : (s.bay b).scaleBusy (fmtScale c.fo) (s.now b) = false) :
    ∃ t : State, exec (.mxdrainBegin b) s = .next t ∧ OnlyBay b s t ∧ Begun s t b .mx c rest ∧
      (t.bay b).drains = (s.bay b).drains ++ [drainStart s b c] ∧ bayMems (t.bay b) = bayMems (s.bay b) ∧
      (t.bay b).handles = (s.bay b).handles ∧ (t.bay b).sc = (s.bay b).sc := by
  refine ⟨_, exec_mxdrainBegin h hop howes hdrains hbusy, onlyBay_onBay .., h.begun ?_ ?_ ?_ ?_, ?_⟩
  all_goals rw [State.bay_onBay]
  all_goals simp only [bayMems, Bay.consume, Bay.dequeue, Bay.setQueue, and_self]

/-- MXCLR begins and is over at once, its handle empty. -/
theorem mxclrBegin_head (h : Begins s b .mx c rest) (hop : c.op = 258) (howes : (s.bay b).owes c.handle (s.now b) = false)
    (hdrains : ∀ d ∈ (s.bay b).drains, d.begun + 127 < s.now b) (hroom : HandleRoom s b c.handle) :
    ∃ t : State, exec (.mxclrBegin b) s = .next t ∧ OnlyBay b s t ∧ Begun s t b .mx c rest ∧ Produced s t b c ∧
      (t.bay b).handle c.handle = .empty ∧ (∀ h : Nat, h ≠ c.handle → (t.bay b).handle h = (s.bay b).handle h) ∧
      bayMems (t.bay b) = bayMems (s.bay b) := by
  obtain ⟨w, hexec⟩ := exec_mxclrBegin h hop howes hdrains hroom
  have hlt : c.handle < 16 := by
    rw [Cmd.handle, bits_eq]
    exact Nat.mod_lt _ (by decide)
  refine ⟨_, hexec, onlyBay_onBay .., h.begun ?_ ?_ ?_ ?_, ?_, ?_⟩
  case refine_5 => rw [Produced, State.bay_onBay]
  all_goals rw [State.bay_onBay]
  any_goals simp only [Bay.consume, Bay.dequeue, Bay.setQueue]
  refine ⟨handle_of_set rfl hlt, fun k hk => handle_of_set_ne rfl hk, ?_⟩
  simp only [bayMems]

/-- Settles O44, event by event. -/
theorem matrix : Obligations.Matrix := by
  refine ⟨fun b s c rest h hop hnests hdrains => mxgoBegin_head h hop hnests hdrains, fun b s r h _ => mxgoBegin_running h,
    fun b s st hdue hlt hfault hvoid ha hb hroom hrows => mxAddition_adds hdue hlt hfault hvoid ha hb hroom hrows,
    fun b s => mxgoComplete_produces, fun b s c rest h hop howes hdrains hbusy => mxdrainBegin_head h hop howes hdrains hbusy,
    fun b s l l' d hl hothers => ⟨fun r runs hrow hrel hland => ?row, fun hrow hrel hnow hlt hroom => ?release,
      fun hend hland hreg => ?ended⟩,
    fun x bank hlost hwf => makeBankWrites_stored hlost hwf,
    fun b s c rest h hop howes hdrains hroom => mxclrBegin_head h hop howes hdrains hroom⟩
  case row => exact ⟨_, exec_drainRowLanding_sole hl hothers, drainRow_landed hrow hrel hland⟩
  case release => exact ⟨_, exec_drainRowLanding_sole hl hothers, drainRow_emptied hrow hrel hnow hlt hroom⟩
  case ended =>
    have hlater : ∀ e ∈ l ++ l', s.now b < e.begun + 130 := by
      intro e he
      obtain ⟨-, -, hlt⟩ := hothers e he
      exact hlt
    refine ⟨_, exec_mxdrainComplete_sole hl hlater hend, ?_⟩
    by_cases htail : d.tail = []
    · obtain ⟨hdrains, hpeg, hsc, hothersc, hquiet⟩ := drainEnd_quiet (l := l ++ l') htail hreg
      exact ⟨hdrains, hpeg, hsc, hothersc, fun _ => hquiet, fun h => absurd htail h⟩
    · obtain ⟨hdrains, hpeg, hsc, hothersc, hlanded⟩ := drainEnd_lands (l := l ++ l') htail (hland htail) hreg
      exact ⟨hdrains, hpeg, hsc, hothersc, fun h => absurd h htail, fun _ => hlanded⟩

end Sys2Proof
end

section
/-!
The tag table (R188, R189, R435; log 18).
-/

namespace Sys2Proof
open Machine Laws

variable {c : Ctl} {s : State}

/-! ## Tags of entries, and hits in a table -/

theorem tagOf_eq (e : Word) : tagOf e = e.toNat / 16 := by
  rw [tagOf, bits_eq]
  exact Nat.mod_eq_of_lt (Nat.div_lt_of_lt_mul e.isLt)

/-- An entry is valid and holds a tag (R188). -/
def TagHit (e : Word) (g : Nat) : Prop := e.getLsbD 0 = true ∧ e.toNat / 16 = g

theorem tagHit_iff {e : Word} {g : Nat} : TagHit e g ↔ (bitAt e 0 && decide (tagOf e = g)) = true := by
  rw [Bool.and_eq_true, decide_eq_true_eq, tagOf_eq]
  rfl

/-! ## TLOOK -/

/-- TLOOK answers -1 where no slot has the tag, and elsewhere the lowest that has it. -/
theorem tlookValue_cases (b : Bay) (n : Nat) (va : Addr) :
    (tlookValue b n va = -1 ∧ ∀ i < n, ¬TagHit (b.tagAt i) (va.toNat / 2 ^ 12 % 2 ^ 60)) ∨
      ∃ i < n, tlookValue b n va = BitVec.ofNat 64 i ∧ TagHit (b.tagAt i) (va.toNat / 2 ^ 12 % 2 ^ 60) ∧
        ∀ j < i, ¬TagHit (b.tagAt j) (va.toNat / 2 ^ 12 % 2 ^ 60) := by
  rw [tlookValue, bits_eq]
  split
  next i hi =>
    obtain ⟨hhit, hlt, hlow⟩ := List.find?_range_eq_some.mp hi
    refine .inr ⟨i, List.mem_range.mp hlt, rfl, tagHit_iff.mpr hhit, fun j hj h => ?_⟩
    have hmiss := hlow j hj
    rw [tagHit_iff.mp h] at hmiss
    cases hmiss
  next hnone =>
    refine .inl ⟨rfl, fun i hi h => ?_⟩
    exact List.find?_eq_none.mp hnone i (List.mem_range.mpr hi) (tagHit_iff.mp h)

theorem exec_tlook (h : Made c s) (hp : PortFree s .mem0R 3) :
    Gives (.tlook c) s .mem0R 3 ((tlookValue s.me (s.half s.cur 512) (movedVal c s).addr).setWidth 2048) :=
  congrArg Host.Outcome.next (trigger_free h hp)

/-! ## TFILL and TEVICT at their trigger -/

theorem slotRangeChk_inside {i : Word} (h : i.toNat < s.half s.cur 512) : slotRangeChk i s = none :=
  if_neg (Nat.not_le.mpr h)

theorem exec_tfill (h : Made c s) (hp : PortFree s .mem0R 4) (hslot : (s.me.opW .mem0A).toNat < s.half s.cur 512) :
    exec (.tfill c) s =
      .next (tagStart (.fill (s.me.opW .mem0A).toNat ((movedVal c s).addr.toNat / 2 ^ 12 % 2 ^ 60)) s) := by
  rw [← bits_eq (movedVal c s).addr 12 60]
  exact congrArg Host.Outcome.next (move_made h (by simp only [collision_free hp, slotRangeChk_inside hslot, andThen_none]))

theorem exec_tevict (h : Made c s) (hp : PortFree s .mem0R 4) (hslot : (movedVal c s).word.toNat < s.half s.cur 512) :
    exec (.tevict c) s = .next (tagStart (.evict (movedVal c s).word.toNat) s) :=
  congrArg Host.Outcome.next (move_made h (by simp only [collision_free hp, slotRangeChk_inside hslot, andThen_none]))

/-! ## The end of the cycle -/

theorem endTag_idle {b : BayId} (h : (s.bay b).tagOp = none) : s.endTag b = s := by
  simp only [State.endTag, h]

theorem endTag_made {b : BayId} {op : TagOp} (h : (s.bay b).tagOp = some op) :
    s.endTag b = s.onBay b (fun y =>
      { (y.fill .mem0R false (s.now b + 4) ((tagResult (s.bay b).tags (s.half b 512) op).2.setWidth 2048)) with
        tags := (tagResult (s.bay b).tags (s.half b 512) op).1, tagOp := none }) := by
  simp only [State.endTag, h, State.tagSlots]

/-! ## What a fill answers -/

section
variable {tags : List (Nat × Word)} {n i g : Nat}

/-- Another slot of a table of n has a tag. -/
def TagElsewhere (tags : List (Nat × Word)) (n i g : Nat) : Prop := ∃ j < n, j ≠ i ∧ TagHit (assocGet 0 tags j) g

theorem tagElsewhere_iff : TagElsewhere tags n i g ↔
    (List.range n).any (fun t => decide (t ≠ i) && bitAt (assocGet 0 tags t) 0 && decide (tagOf (assocGet 0 tags t) = g)) = true := by
  simp only [TagElsewhere, tagHit_iff, List.any_eq_true, List.mem_range, Bool.and_assoc, Bool.and_eq_true (decide _),
    decide_eq_true_eq, ne_eq]

theorem tfillTable_elsewhere (h : TagElsewhere tags n i g) : tfillTable tags n i g = (tags, 1) :=
  if_pos (tagElsewhere_iff.mp h)

theorem tfillTable_dirty (h : ¬TagElsewhere tags n i g) (hv : (assocGet 0 tags i).getLsbD 0 = true)
    (hd : (assocGet 0 tags i).getLsbD 1 = true) : tfillTable tags n i g = (tags, 2) := by
  rw [tfillTable, if_neg (mt tagElsewhere_iff.mpr h), if_pos (by rw [bitAt, bitAt, hv, hd]; rfl)]

theorem tfillTable_fills (h : ¬TagElsewhere tags n i g)
    (hfree : (assocGet 0 tags i).getLsbD 0 = false ∨ (assocGet 0 tags i).getLsbD 1 = false) :
    tfillTable tags n i g = (assocSet 0 tags i (BitVec.ofNat 64 (16 * g + 1)), 0) := by
  have hclean : ¬(bitAt (assocGet 0 tags i) 0 && bitAt (assocGet 0 tags i) 1) = true := by
    rw [bitAt, bitAt, Bool.not_eq_true, Bool.and_eq_false_iff]
    exact hfree
  rw [tfillTable, if_neg (mt tagElsewhere_iff.mpr h), if_neg hclean, Nat.mul_comm]

end

/-- Settles O27: the answers and starts of the three instructions, and the table's change at the end of their cycle. -/
theorem tagTable : Obligations.TagTable := by
  intro c s hmade n tag hit starts x slot
  refine ⟨fun hp => ⟨_, exec_tlook hmade hp, tlookValue_cases s.me n x⟩, fun hp hslot => exec_tfill hmade hp hslot,
    fun hp hslot => exec_tevict hmade hp hslot, fun b t => ⟨endTag_idle, fun op hop => ⟨_, endTag_made hop, onlyBay_onBay .., ?_⟩⟩,
    fun tags i g _ _ => ⟨tfillTable_elsewhere, tfillTable_dirty, tfillTable_fills, rfl⟩⟩
  rw [State.bay_onBay]
  exact ⟨rfl, rfl, rfl, rfl, rfl⟩

end Sys2Proof
end

section
/-!
Refresh commands (R195, R196), the copies of pages (R210) and the pages that are brought (R203).
-/

namespace Sys2Proof
open Machine Laws

variable {s t : State} {q : PartId}

/-! ## Refresh (R195, R196) -/

section
variable {ch : Fin 96}

theorem exec_refreshCommand (hq : s.partOfChannel ch = some q) (hruns : (s.part q).poleRuns = true) (heven : (s.part q).polec % 2 = 0)
    (hstart : refreshStart (s.part q) ch.val ((s.part q).polec / 2) = true) :
    exec (.refreshCommand ch) s = .next (s.refreshNow ch) := by
  simp only [exec, execRefreshCommand, hq, hruns, heven, hstart, and_self, if_true]

theorem exec_holdRefresh (hq : s.partOfChannel ch = some q) (hstands : (s.part q).poleRuns = false)
    (hkept : (s.bents.get (Fin.ofNat 8 (ch.val / 12))).retired = false) (hdue : s.refresh.get ch + 2340 ≤ s.clock) :
    exec (.holdRefresh ch) s = .next (s.refreshNow ch) := by
  simp only [exec, execHoldRefresh, hq, State.refreshes, hstands, hkept, hdue, Option.isSome_some, Bool.not_false, Bool.and_self,
    and_self, if_true]

/-- A bent in self-refresh takes no commands. -/
theorem exec_holdRefresh_retired (hq : s.partOfChannel ch = some q)
    (hretired : (s.bents.get (Fin.ofNat 8 (ch.val / 12))).retired = true) : exec (.holdRefresh ch) s = .next s := by
  simp only [exec, execHoldRefresh, hq, State.refreshes, hretired, Bool.not_true, Bool.and_false, Bool.false_eq_true, false_and,
    and_false, if_false]

end

/-! ## A range of one store put into another -/

section
variable {src dst l l' : Mem} {a b n k : Nat}

theorem read_append_of_absent_left (h : ∀ c ∈ l, c.1 ≠ k) : Mem.read (l ++ l') k = Mem.read l' k := by
  induction l with
  | nil => rfl
  | cons c l ih =>
    obtain ⟨hc, hl⟩ := List.forall_mem_cons.mp h
    exact (if_neg hc).trans (ih hl)

theorem read_append_of_absent_right (h : ∀ c ∈ l', c.1 ≠ k) : Mem.read (l ++ l') k = Mem.read l k := by
  induction l with
  | nil => exact assocGet_absent 0 l' k h
  | cons c l ih => exact congrArg (ite (c.1 = k) c.2) ih

/-- The bytes of a range moved to another address are read there. -/
theorem read_moved (hk : k < n) :
    Mem.read ((src.filter (fun c => decide (a ≤ c.1) && decide (c.1 < a + n))).map (fun c => (c.1 - a + b, c.2))) (b + k) =
      Mem.read src (a + k) := by
  induction src with
  | nil => rfl
  | cons c src ih =>
    by_cases hc : a ≤ c.1 ∧ c.1 < a + n
    · have hkey : c.1 - a + b = b + k ↔ c.1 = a + k := by omega
      rw [List.filter_cons_of_pos (by simpa using hc), List.map_cons]
      exact (congrArg (ite _ c.2) ih).trans (if_congr hkey rfl rfl)
    · rw [List.filter_cons_of_neg (by simpa using hc), ih]
      exact (if_neg (by omega : c.1 ≠ a + k)).symm

/-- A copy of a range stands in its store. -/
theorem read_copyRange_in (hk : k < n) : Mem.read (Mem.copyRange src a n dst b) (b + k) = Mem.read src (a + k) := by
  rw [Mem.copyRange, read_append_of_absent_right, read_append_of_absent_left, read_moved hk]
  all_goals
    intro c hc
    obtain ⟨-, hc⟩ := List.mem_filter.mp hc
    rw [decide_eq_true_eq] at hc
    omega

end

@[simp] theorem get_set_self {α : Type} {n : Nat} {v : Vector α n} {i : Fin n} {x : α} : (v.set i.val x i.isLt).get i = x := by
  simp [Vector.get_eq_getElem]

/-! ## Copies of a page (R210) -/

section
variable {x : Nat} {e : TTEntry} {c : CopyRun}

/-- A partition in which the copy of an entry has asked for its slots. -/
def Machine.Part.copyAsked (p : Part) (c : CopyRun) (n clock : Nat) : Part :=
  { p with
    traffic := p.traffic ++ [⟨0xF0, some (.lpddr c.bent (c.frame * 65536)), n, 0, .copy c.entry, clock⟩]
    copies := p.copies.map (fun d => if d.entry = c.entry then { d with moving := true } else d) }

theorem sendCopy_eq {n : Nat} : s.sendCopy q c n = s.onPart q (fun p => p.copyAsked c n s.clock) := by
  rw [State.sendCopy, State.queueBurst, onPart_onPart]
  simp only [putBurst_eq_append (x := ⟨0xF0, some (.lpddr c.bent (c.frame * 65536)), n, 0, .copy c.entry, s.clock⟩) nofun]
  rfl

theorem entry_of_find (h : (s.part q).copies.find? (fun c => decide (c.entry = x)) = some c) : c.entry = x := by
  simpa using List.find?_some h

theorem exec_migrationCopy_again (hc : (s.part q).copies.find? (fun c => decide (c.entry = x)) = some c)
    (he : (s.part q).tt[x]? = some e) :
    exec (.migrationCopy q x) s = .next (if c.moving then s else s.sendCopy q c (teSize e.raw)) := by
  simp only [exec, execMigrationCopy, hc, he]

theorem exec_migrationCopy_first {d : Nat × Migration} {f : Fin 8 × Nat} (he : (s.part q).tt[x]? = some e)
    (hc : (s.part q).copies.find? (fun c => decide (c.entry = x)) = none)
    (hd : (s.part q).decisions.find? (fun d => decide (d.1 = x)) = some d)
    (hf : s.findFrames (s.part q) (teSize e.raw / 65536) = some f) :
    exec (.migrationCopy q x) s = .next
      ((s.onPart q (fun p => { p with copies := p.copies ++ [⟨x, d.2, f.1, f.2, (s.part q).framec + 1, false, false⟩] })).sendCopy q
        ⟨x, d.2, f.1, f.2, (s.part q).framec + 1, false, false⟩ (teSize e.raw)) := by
  simp only [exec, execMigrationCopy, hc, he, hd, hf]

/-- Of copies none of which is of an entry, only one that joins them is marked as moving. -/
theorem markMoving_append {l : List CopyRun} (h : l.find? (fun c => decide (c.entry = x)) = none) (hc : c.entry = x) :
    (l ++ [c]).map (fun d => if d.entry = x then { d with moving := true } else d) = l ++ [{ c with moving := true }] := by
  have hl : l.map (fun d => if d.entry = x then { d with moving := true } else d) = l.map id :=
    List.map_congr_left fun d hd => if_neg (by simpa using List.find?_eq_none.mp h d hd)
  rw [List.map_append, hl, List.map_id, List.map_singleton, if_pos hc]

theorem copyPage_eq : ∃ v, s.copyPage q c = { s with lpddr := v } := by
  unfold State.copyPage
  split
  · exact ⟨s.lpddr, rfl⟩
  · dsimp only
    split
    · split
      · exact ⟨s.lpddr, rfl⟩
      · exact ⟨_, rfl⟩
    · split
      · exact ⟨_, rfl⟩
      · exact ⟨s.lpddr, rfl⟩

theorem copyPage_frame : (s.copyPage q c).bays = s.bays ∧ (s.copyPage q c).ring = s.ring ∧ (s.copyPage q c).hostMem = s.hostMem ∧
    (s.copyPage q c).parts = s.parts := by
  obtain ⟨v, hv⟩ := copyPage_eq (s := s) (q := q) (c := c)
  rw [hv]
  exact ⟨rfl, rfl, rfl, rfl⟩

/-- A copy of a page of the host's region takes its bytes as they are. -/
theorem read_copyPage_host {a k : Nat} (he : (s.part q).tt[c.entry]? = some e) (htier : teTier e.raw = 6)
    (ha : s.hostAddr (tePair e.raw) (teRemote e.raw) (teSize e.raw) = some a) (hk : k < teSize e.raw) :
    Mem.read ((s.copyPage q c).lpddr.get c.bent) (c.frame * 65536 + k) = Mem.read s.hostMem (a + k) := by
  simp only [State.copyPage, he, htier, if_true, ha, get_set_self]
  exact read_copyRange_in hk

theorem endCopy_eq (hc : (s.part q).copies.find? (fun c => decide (c.entry = x)) = some c) :
    s.endCopy q x = (s.copyPage q c).onPart q (fun p => { p with copies := p.copies.map (fun d =>
      if d.entry = x then { d with done := decide (d.quiet < p.framec), moving := false } else d) }) := by
  simp only [State.endCopy, hc]

end

/-! ## A page that is brought (R203) -/

/-- States that differ at most in what is sent by the links and to this chip's own requests. -/
def LinksOnly (s t : State) : Prop := ∃ l i o, t = { s with links := l, inputs := i, outs := o }

theorem LinksOnly.refl (s : State) : LinksOnly s s := ⟨s.links, s.inputs, s.outs, rfl⟩

theorem LinksOnly.trans {u : State} (h : LinksOnly s t) (h' : LinksOnly t u) : LinksOnly s u := by
  obtain ⟨_, _, _, rfl⟩ := h
  obtain ⟨l, i, o, rfl⟩ := h'
  exact ⟨l, i, o, rfl⟩

theorem linksOnly_foldl {α : Type} {f : State → α → State} (hf : ∀ t x, LinksOnly t (f t x)) (l : List α) : LinksOnly s (l.foldl f s) :=
  List.foldlRecOn (motive := LinksOnly s) _ _ (.refl s) fun t ht x _ => ht.trans (hf t x)

theorem linksOnly_sendChip {f : FabHeader} {chip n : Nat} {m : Msg} : LinksOnly s (s.sendChip f chip n m) := by
  unfold State.sendChip
  split
  · exact linksOnly_foldl (fun t _ => ⟨_, t.inputs, _, rfl⟩) _
  · split
    · exact ⟨s.links, _, s.outs, rfl⟩
    · exact ⟨s.links, s.inputs, _, rfl⟩
  · split
    · exact .refl s
    · exact ⟨s.links, s.inputs, _, rfl⟩

theorem linksOnly_remoteSend {ready chip : Nat} {f : FabHeader} {m : Msg} : LinksOnly s (s.remoteSend q ready f chip m) := by
  unfold State.remoteSend State.sendBy
  split
  · exact ⟨_, s.inputs, s.outs, rfl⟩
  · exact linksOnly_sendChip

section
variable {e : BitVec 128} {page : Mem}

/-- Where a page is put, neither bays nor partitions change, and the host's memory only for a page of its region. -/
theorem placePage_frame : (s.placePage q e page).bays = s.bays ∧ (s.placePage q e page).parts = s.parts ∧
    (teTier e ≠ 6 → (s.placePage q e page).hostMem = s.hostMem) := by
  unfold State.placePage
  dsimp only
  split
  next _ htier =>
    split
    · exact ⟨rfl, rfl, fun h => absurd htier h⟩
    · exact ⟨rfl, rfl, fun _ => rfl⟩
  · exact ⟨rfl, rfl, fun _ => rfl⟩
  · exact ⟨rfl, rfl, fun _ => rfl⟩
  · exact ⟨rfl, rfl, fun _ => rfl⟩
  · split
    · obtain ⟨_, _, _, hsent⟩ := linksOnly_foldl (s := s) (fun t k => linksOnly_remoteSend) (List.range (teSize e / 65536))
      rw [hsent]
      exact ⟨rfl, rfl, fun _ => rfl⟩
    · exact ⟨rfl, rfl, fun _ => rfl⟩

theorem placePage_lpddr {b : Fin 8} {a : Nat} (h6 : teTier e ≠ 6) (h7 : teTier e ≠ 7) (hpl : tePlace e 0 = .lpddr b a) :
    s.placePage q e page =
      { s with lpddr := s.lpddr.set b.val (Mem.copyRange page 0 (teSize e) (s.lpddr.get b) a) b.isLt } := by
  simp only [State.placePage, hpl]

/-- The bytes of a page as its backing location has them, with those that stand elsewhere now. -/
def pageOf (backing : Mem) (x n : Nat) (cells : List (Nat × Byte)) : Mem :=
  Mem.writeAll (Mem.copyRange backing (x * 2 ^ 36) n [] 0) (cells.filter (fun c => decide (c.1 < n)))

theorem read_pageOf {backing : Mem} {x n k : Nat} (hk : k < n) : Mem.read (pageOf backing x n []) k = Mem.read backing (x * 2 ^ 36 + k) := by
  rw [← Nat.zero_add k]
  exact (read_copyRange_in (src := backing) (a := x * 2 ^ 36) (b := 0) hk).trans (by rw [Nat.zero_add])

/-- A translation table in which the page of one entry is present. -/
def present (tt : List TTEntry) (x : Nat) : List TTEntry :=
  tt.zipIdx.map (fun y => if y.2 = x then { y.1 with raw := y.1.raw ||| 2 } else y.1)

theorem present_self {tt : List TTEntry} {x : Nat} {y : TTEntry} (h : tt[x]? = some y) :
    ∃ e' : TTEntry, (present tt x)[x]? = some e' ∧ tePresent e'.raw = true :=
  ⟨{ y with raw := y.raw ||| 2 }, by simp [present, h], by simp [tePresent, bitAt]⟩

theorem present_ne {tt : List TTEntry} {x y : Nat} (h : y ≠ x) : (present tt x)[y]? = tt[y]? := by
  rw [present, List.getElem?_map, List.getElem?_zipIdx]
  cases tt[y]? with
  | none => rfl
  | some z => exact congrArg some (if_neg (by simpa using h))

theorem bringPage_eq {x : Nat} {cells : List (Nat × Byte)} : s.bringPage q x e cells =
    (s.placePage q e (pageOf (s.part q).backing x (teSize e) cells)).onPart q (fun p => { p with tt := present p.tt x }) := rfl

end

/-- States that differ at most in the stalls of one partition and in the reruns of its bays. -/
def StallsOnly (q : PartId) (s t : State) : Prop :=
  ∃ n l r, t = s.onPart q (fun p => { p with stall := n, stallStops := l, resuming := r })

theorem onPart_id : s.onPart q (fun p => p) = s := by
  simp [State.onPart, State.setPart, State.part, Vector.get_eq_getElem]

theorem stallsOnly_refl : StallsOnly q s s :=
  ⟨(s.part q).stall, (s.part q).stallStops, (s.part q).resuming, onPart_id.symm⟩

theorem StallsOnly.onPart {f : Part → Part} (h : StallsOnly q s t)
    (hf : ∀ p, ∃ n l r, f p = { p with stall := n, stallStops := l, resuming := r }) : StallsOnly q s (t.onPart q f) := by
  obtain ⟨n, l, r, rfl⟩ := h
  obtain ⟨n', l', r', hf'⟩ := hf ({ s.part q with stall := n, stallStops := l, resuming := r })
  refine ⟨n', l', r', ?_⟩
  rw [onPart_onPart]
  simp only [State.onPart, hf']

theorem StallsOnly.rerun {b : BayId} {n : Nat} (h : StallsOnly q s t) : StallsOnly q s (t.rerun q b n) :=
  (h.onPart fun p => ⟨_, _, p.resuming, rfl⟩).onPart fun p => ⟨p.stall, p.stallStops, _, rfl⟩

theorem StallsOnly.notePage {b : BayId} (h : StallsOnly q s t) : StallsOnly q s (t.onPart q (fun p => p.notePage b)) :=
  h.onPart fun p => ⟨p.stall, _, p.resuming, rfl⟩

section
variable {x : Nat} {e : TTEntry} {cells : List (Nat × Byte)}

/-- No bay of a partition waits for the page of an entry any longer. -/
def noLonger (s : State) (q : PartId) (x : Nat) : State :=
  s.onPart q (fun p => { p with bringing := p.bringing.filter (fun z => decide (z.1 ≠ x)) })

/-- The state in which the page of an entry has come for those that waited for it. -/
def brought (s : State) (q : PartId) (x : Nat) (e : TTEntry) (cells : List (Nat × Byte)) : State :=
  (noLonger s q x).bringPage q x e.raw cells

/-- A page that comes is put at its place, and the bays that waited for it rerun. -/
theorem exec_pageBring (he : (s.part q).tt[x]? = some e) (hwait : ∃ y ∈ (s.part q).bringing, y.1 = x) :
    ∃ t, exec (.pageBring q x (some cells)) s = .next t ∧ StallsOnly q (brought s q x e cells) t := by
  obtain ⟨y, hy, hyx⟩ := hwait
  obtain ⟨z, l, hl⟩ := List.exists_cons_of_ne_nil
    (List.ne_nil_of_mem (List.mem_filter.mpr ⟨hy, decide_eq_true hyx⟩ : y ∈ (s.part q).bringing.filter (fun y => decide (y.1 = x))))
  simp only [exec, execPageBring, hl, he]
  exact ⟨_, rfl, List.foldlRecOn _ _ stallsOnly_refl fun t ht z _ => ht.rerun.notePage⟩

theorem brought_part : (brought s q x e cells).part q = { s.part q with
    bringing := (s.part q).bringing.filter (fun z => decide (z.1 ≠ x)), tt := present (s.part q).tt x } := by
  obtain ⟨-, hparts, -⟩ := placePage_frame (s := noLonger s q x) (q := q) (e := e.raw)
    (page := pageOf ((noLonger s q x).part q).backing x (teSize e.raw) cells)
  rw [brought, bringPage_eq, State.part_onPart, State.part, hparts, ← State.part, noLonger, State.part_onPart]

theorem brought_frame : (brought s q x e cells).bays = s.bays ∧
    (teTier e.raw ≠ 6 → (brought s q x e cells).hostMem = s.hostMem) := by
  obtain ⟨hbays, -, hhost⟩ := placePage_frame (s := noLonger s q x) (q := q) (e := e.raw)
    (page := pageOf ((noLonger s q x).part q).backing x (teSize e.raw) cells)
  exact ⟨hbays, hhost⟩

/-- A page of LPDDR-6 stands there with the bytes of its backing location, and beside it nothing has changed. -/
theorem brought_lpddr {b : Fin 8} {a : Nat} (h6 : teTier e.raw ≠ 6) (h7 : teTier e.raw ≠ 7) (hpl : tePlace e.raw 0 = .lpddr b a) :
    (brought s q x e []).ring = s.ring ∧
    (∀ k < teSize e.raw, Mem.read ((brought s q x e []).lpddr.get b) (a + k) = Mem.read (s.part q).backing (x * 2 ^ 36 + k)) ∧
    ∀ y : Nat, y < a ∨ a + teSize e.raw ≤ y → Mem.read ((brought s q x e []).lpddr.get b) y = Mem.read (s.lpddr.get b) y := by
  rw [brought, bringPage_eq, placePage_lpddr h6 h7 hpl]
  simp only [State.onPart_ring, State.onPart_lpddr, noLonger, State.part_onPart, get_set_self]
  refine ⟨trivial, fun k hk => ?_, fun y hy => read_copyRange_out _ _ _ _ _ _ hy⟩
  rw [read_copyRange_in hk, Nat.zero_add, read_pageOf hk]

end

/-! ## The statements of copies and pages -/

theorem migrationCopy_again {x : Nat} {e : TTEntry} {c : CopyRun} (he : (s.part q).tt[x]? = some e)
    (hc : (s.part q).copies.find? (fun c => decide (c.entry = x)) = some c) (hm : c.moving = false) :
    ∃ t : State, exec (.migrationCopy q x) s = .next t ∧ OnlyPart q s t ∧
      (t.part q).traffic = (s.part q).traffic ++ [⟨0xF0, some (.lpddr c.bent (c.frame * 65536)), teSize e.raw, 0, .copy x, s.clock⟩] ∧
      (t.part q).copies = (s.part q).copies.map (fun d => if d.entry = x then { d with moving := true } else d) := by
  have hexec := exec_migrationCopy_again hc he
  rw [hm, if_neg Bool.false_ne_true, sendCopy_eq] at hexec
  obtain rfl := entry_of_find hc
  refine ⟨_, hexec, onlyPart_onPart, ?_⟩
  rw [State.part_onPart]
  exact ⟨rfl, rfl⟩

theorem migrationCopy_first {x : Nat} {e : TTEntry} {d : Nat × Migration} {f : Fin 8 × Nat} (he : (s.part q).tt[x]? = some e)
    (hc : (s.part q).copies.find? (fun c => decide (c.entry = x)) = none)
    (hd : (s.part q).decisions.find? (fun d => decide (d.1 = x)) = some d)
    (hf : s.findFrames (s.part q) (teSize e.raw / 65536) = some f) :
    ∃ t : State, exec (.migrationCopy q x) s = .next t ∧ OnlyPart q s t ∧
      (t.part q).copies = (s.part q).copies ++ [⟨x, d.2, f.1, f.2, (s.part q).framec + 1, false, true⟩] ∧
      (t.part q).traffic = (s.part q).traffic ++ [⟨0xF0, some (.lpddr f.1 (f.2 * 65536)), teSize e.raw, 0, .copy x, s.clock⟩] := by
  have hexec := exec_migrationCopy_first he hc hd hf
  rw [sendCopy_eq, onPart_onPart] at hexec
  refine ⟨_, hexec, onlyPart_onPart, ?_⟩
  rw [State.part_onPart]
  exact ⟨markMoving_append hc rfl, rfl⟩

theorem endCopy_lands {x : Nat} {e : TTEntry} {c : CopyRun} (he : (s.part q).tt[x]? = some e)
    (hc : (s.part q).copies.find? (fun c => decide (c.entry = x)) = some c) :
    let t := s.endCopy q x
    t.bays = s.bays ∧ t.ring = s.ring ∧ t.hostMem = s.hostMem ∧ (∀ q' : PartId, q' ≠ q → t.part q' = s.part q') ∧
      (t.part q).copies = (s.part q).copies.map (fun d =>
        if d.entry = x then { d with done := decide (d.quiet < (s.part q).framec), moving := false } else d) ∧
      ∀ a : Nat, teTier e.raw = 6 → s.hostAddr (tePair e.raw) (teRemote e.raw) (teSize e.raw) = some a →
        ∀ k < teSize e.raw, Mem.read (t.lpddr.get c.bent) (c.frame * 65536 + k) = Mem.read s.hostMem (a + k) := by
  obtain ⟨hbays, hring, hhost, hparts⟩ := copyPage_frame (s := s) (q := q) (c := c)
  have he' : (s.part q).tt[c.entry]? = some e := (entry_of_find hc).symm ▸ he
  rw [endCopy_eq hc]
  refine ⟨hbays, hring, hhost, fun q' hq' => ?_, ?_, fun a htier ha k hk => read_copyPage_host he' htier ha hk⟩
  · rw [State.part_onPart_ne _ _ _ _ hq', State.part, hparts, State.part]
  · rw [State.part_onPart, State.part, hparts, State.part]

theorem pageBring_lands {x : Nat} {e : TTEntry} (he : (s.part q).tt[x]? = some e) (hwait : ∃ y ∈ (s.part q).bringing, y.1 = x)
    (cells : List (Nat × Byte)) :
    ∃ t : State, exec (.pageBring q x (some cells)) s = .next t ∧ t.bays = s.bays ∧ (teTier e.raw ≠ 6 → t.hostMem = s.hostMem) ∧
      (t.part q).bringing = (s.part q).bringing.filter (fun z => decide (z.1 ≠ x)) ∧
      (∃ e' : TTEntry, (t.part q).tt[x]? = some e' ∧ tePresent e'.raw = true) ∧
      (∀ y : Nat, y ≠ x → (t.part q).tt[y]? = (s.part q).tt[y]?) ∧
      ∀ (b : Fin 8) (a : Nat), teTier e.raw ≠ 6 → teTier e.raw ≠ 7 → tePlace e.raw 0 = .lpddr b a → cells = [] → t.ring = s.ring ∧
        (∀ k < teSize e.raw, Mem.read (t.lpddr.get b) (a + k) = Mem.read (s.part q).backing (x * 2 ^ 36 + k)) ∧
        ∀ y : Nat, y < a ∨ a + teSize e.raw ≤ y → Mem.read (t.lpddr.get b) y = Mem.read (s.lpddr.get b) y := by
  obtain ⟨_, hexec, n, l, r, rfl⟩ := exec_pageBring (cells := cells) he hwait
  obtain ⟨hbays, hhost⟩ := brought_frame (s := s) (q := q) (x := x) (e := e) (cells := cells)
  refine ⟨_, hexec, hbays, hhost, ?_⟩
  rw [State.part_onPart, brought_part]
  refine ⟨rfl, present_self he, fun y hy => present_ne hy, fun b a h6 h7 hpl hcells => ?_⟩
  subst hcells
  exact brought_lpddr h6 h7 hpl

end Sys2Proof
end

section
/-!
Rollback (R288, R289, R291 to R293): the stall it takes, the fault of a program, the reruns of a fault of the hardware, and the bay back at its
witness.
-/

namespace Sys2Proof
open Machine Laws

variable {s t : State} {q : PartId} {b : BayId}

/-! ## What the partition of a bay and its fault records depend on -/

/-- A bay stays in its partition while no partition's mode or bents change. -/
theorem partOf_onPart {f : Part → Part} (hmode : ∀ p, (f p).mode = p.mode) (hhdr : ∀ p, (f p).hdr = p.hdr) :
    (s.onPart q f).partOf b = s.partOf b := by
  have hpart (r : PartId) : ((s.onPart q f).part r).formed = (s.part r).formed ∧ ((s.onPart q f).part r).hdr = (s.part r).hdr := by
    by_cases h : r = q
    · subst h
      rw [State.part_onPart, Part.formed, hmode, ← Part.formed]
      exact ⟨rfl, hhdr _⟩
    · rw [State.part_onPart_ne _ _ _ _ h]
      exact ⟨rfl, rfl⟩
  simp only [State.partOf, State.partOfBent, (hpart _).1, (hpart _).2]

/-- A fault record tells of a partition's time and of a bay's task and trap registers. -/
theorem faultRecord_congr {action cls code : Nat} {info : Info} (hs : s.partOf b = some q) (ht : t.partOf b = some q)
    (hframe : (t.part q).framec = (s.part q).framec) (hpole : (t.part q).polec = (s.part q).polec)
    (htask : (t.bay b).task = (s.bay b).task) (hbundle : (t.bay b).tbundle = (s.bay b).tbundle)
    (hslot : (t.bay b).tslot = (s.bay b).tslot) : faultRecord t b action cls code info = faultRecord s b action cls code info := by
  simp only [faultRecord, partAt_of_partOf hs, partAt_of_partOf ht, hs, ht, hframe, hpole, htask, hbundle, hslot]

/-! ## The stall (R291) -/

theorem sameDevices_beginStall {n : Nat} : SameDevices s (s.beginStall q b n) := ⟨rfl, rfl, rfl, rfl, rfl⟩

theorem stall_beginStall {n : Nat} : ((s.beginStall q b n).part q).stall = max (s.part q).stall n := by
  rw [State.beginStall, State.part_onPart]

theorem partOf_beginStall {n : Nat} {b' : BayId} : (s.beginStall q b n).partOf b' = s.partOf b' :=
  partOf_onPart (fun _ => rfl) (fun _ => rfl)

theorem faultRecord_beginStall {n action cls code : Nat} {info : Info} (hq : s.partOf b = some q) :
    faultRecord (s.beginStall q b n) b action cls code info = faultRecord s b action cls code info := by
  refine faultRecord_congr hq (partOf_beginStall.trans hq) ?_ ?_ rfl rfl rfl
  all_goals rw [State.beginStall, State.part_onPart]

/-- The stall is twice 64 cycles and those since the witness, on the bay's own clock, and 16. -/
theorem stallLen_eq : s.stallLen b = 2 * (64 + ((s.poleTime b : Int) + (s.bay b).lead -
    ((s.bay b).window.openT + (s.bay b).window.openLead)).toNat) + 16 := by
  rw [State.stallLen, State.sinceWitness, State.now, Nat.cast_add]

/-- Before a page has been brought for a bay its rollback takes the whole of its stall. -/
theorem stallLeft_eq (h : (s.part q).restartsOf b = none) : s.stallLeft q b = s.stallLen b := by
  rw [State.stallLeft, h]
  rfl

theorem settled_of_none (h : (s.bay b).pending = none) : s.settled b = s := by
  refine (onBay_congr (g := fun x => x) ?_).trans (State.onBay_id s b)
  rw [← h]

/-! ## A fault of the program (R203, R293) -/

section
variable {p : Pending}

/-- A bay that has entered its trap for a schedule error. -/
def Machine.Bay.trapped (x : Bay) (p : Pending) (code : Nat) : Bay :=
  { x.trapEnter (tcauseWord p.fault.info (causeCode p.fault.cause) true 2) (BitVec.ofNat 64 code) p.fault.tslot with closing := .none }

section
variable {code : Nat} (hcode : p.code = some code) (hrun : (s.bay b).mode = .running) (hactive : (s.bay b).handlerActive = false)
  (hpad : (s.bay b).padE = true)
include hcode hrun hactive hpad

/-- With no handler active and PAD E at index 0 a schedule error enters the trap, and is recorded. -/
theorem trapAfter_enters : s.trapAfter b p true 2 =
    (s.onBay b (fun x => x.trapped p code)).logFault b 4 2 (causeCode p.fault.cause) p.fault.info := by
  have hnone : s.noTask b = false := by simp [State.noTask, hrun]
  simp only [State.trapAfter, hcode, hnone, hactive, hpad, State.takeTrap, Bool.false_eq_true, if_false, if_true, and_self,
    State.onBay_onBay]
  rfl

/-- The trap is entered with CLASS 2 and REPEATED, and the pending fault is over. -/
theorem trapAfter_settled :
    let t := (s.trapAfter b p true 2).settled b
    SameMemory s t ∧ (∀ b' : BayId, b' ≠ b → t.bay b' = s.bay b') ∧ (t.bay b).pc = 0 ∧ (t.bay b).tbundle = BitVec.ofNat 64 code ∧
      (t.bay b).tslot = p.fault.tslot ∧
      (t.bay b).tcause.toNat = p.fault.info.toNat % 2 ^ 32 * 2 ^ 32 + causeCode p.fault.cause * 2 ^ 8 + 2 ^ 3 + 2 ∧
      (t.bay b).pending = none ∧ (t.bay b).regs = (s.bay b).regs ∧ t.parts = s.parts ∧
      t.yard.errlog.length = s.yard.errlog.length + 1 := by
  rw [trapAfter_enters hcode hrun hactive hpad]
  set w := (s.onBay b (fun x => x.trapped p code)).logFault b 4 2 (causeCode p.fault.cause) p.fault.info
  have hw : w.bay b = (s.bay b).trapped p code := State.bay_onBay s b (fun x => x.trapped p code)
  have hsettled : (w.settled b).bay b = { (s.bay b).trapped p code with pending := none } := by rw [State.settled, State.bay_onBay, hw]
  have hmem : SameMemory s w := sameMemory_onBay (s := s) (b := b) (f := fun x => x.trapped p code) rfl
  refine ⟨hmem.trans (sameMemory_onBay rfl),
    fun b' hb' => (State.bay_onBay_ne _ _ _ _ hb').trans (State.bay_onBay_ne s b b' (fun x => x.trapped p code) hb'), ?_⟩
  rw [hsettled]
  refine ⟨rfl, rfl, rfl, ?_, rfl, rfl, rfl, List.length_append⟩
  refine (toNat_tcauseWord (causeCode_lt _) (by norm_num)).trans ?_
  norm_num [Nat.add_assoc]

end

section
variable (hq : s.partOf b = some q) (hmode : (s.part q).mode = .running) (hrest : (s.part q).restartsOf b = none)
  (hp : (s.bay b).pending = some p) (hfree : ∀ x ∈ (s.part q).bringing, x.2.1 ≠ b) (hhw : p.hw = none)
include hq hmode hp hfree hhw

theorem exec_rollback_soft : exec (.rollback b none) s = .next (s.softRollback q b p) := by
  have hbring : (s.part q).bringing.any (fun x => decide (x.2.1 = b)) = false :=
    List.any_eq_false.mpr fun x hx => by simpa using hfree x hx
  simp only [exec, execRollback, hq, hp, hbring, hmode, hhw, ne_eq, not_true_eq_false, decide_false, Bool.or_self, Bool.false_eq_true,
    if_false]

include hrest

/-- A schedule error that is rolled back enters the trap after its stall. -/
theorem rollback_traps {code : Nat} (hcode : p.code = some code) (hcause : p.fault.cause ≠ .translation) (hretry : p.retry = none)
    (hrun : (s.bay b).mode = .running) (hactive : (s.bay b).handlerActive = false) (hpad : (s.bay b).padE = true) :
    ∃ t : State, exec (.rollback b none) s = .next t ∧ SameMemory s t ∧ (∀ b' : BayId, b' ≠ b → t.bay b' = s.bay b') ∧
      (t.bay b).pc = 0 ∧ (t.bay b).tbundle = BitVec.ofNat 64 code ∧ (t.bay b).tslot = p.fault.tslot ∧
      (t.bay b).tcause.toNat = p.fault.info.toNat % 2 ^ 32 * 2 ^ 32 + causeCode p.fault.cause * 2 ^ 8 + 2 ^ 3 + 2 ∧
      (t.bay b).pending = none ∧ (t.bay b).regs = (s.bay b).regs ∧ (t.part q).stall = max (s.part q).stall (s.stallLen b) ∧
      t.yard.errlog.length = s.yard.errlog.length + 1 := by
  have hsoft : s.softRollback q b p = ((s.beginStall q b (s.stallLen b)).trapAfter b p true 2).settled b := by
    rw [State.softRollback, if_neg hcause, hretry, stallLeft_eq hrest]
    rfl
  obtain ⟨hmem, hother, hpc, hbundle, hslot, htcause, hpending, hregs, hparts, hlog⟩ :=
    trapAfter_settled (s := s.beginStall q b (s.stallLen b)) hcode hrun hactive hpad
  refine ⟨_, (exec_rollback_soft hq hmode hp hfree hhw).trans (congrArg _ hsoft), sameDevices_beginStall.sameMemory.trans hmem, hother,
    hpc, hbundle, hslot, htcause, hpending, hregs, ?_, hlog⟩
  rw [State.part, hparts]
  exact stall_beginStall

/-- A translation fault that is rolled back asks for its page. -/
theorem rollback_asksPage {x : Nat} {raw : BitVec 128} {e : TTEntry} (hcause : p.fault.cause = .translation)
    (hfind : findEntry (s.part q).tt (p.fault.info.toNat % 2 ^ 64) = some (x, raw)) (he : (s.part q).tt[x]? = some e)
    (hbacked : e.backed = true) :
    ∃ t : State, exec (.rollback b none) s = .next t ∧ OnlyPart q s t ∧ (t.part q).bringing = (s.part q).bringing ++ [(x, b, 0)] := by
  have hask : s.softRollback q b p = (s.beginStall q b 0).onPart q (fun y => { y with
      bringing := y.bringing ++ [(x, b, 0)]
      walkerWants := if teStier raw = 6 then y.walkerWants ++ [(x, y.framec)] else y.walkerWants }) := by
    rw [← vaNat_eq] at hfind
    simp only [State.softRollback, hcause, if_true, State.askPage, hfind, hrest, hhw, he, hbacked, Option.isSome_none,
      Bool.false_eq_true, if_false, not_lt_zero, or_self, Bool.true_eq_false]
  rw [State.beginStall, onPart_onPart] at hask
  refine ⟨_, (exec_rollback_soft hq hmode hp hfree hhw).trans (congrArg _ hask), onlyPart_onPart, ?_⟩
  rw [State.part_onPart]

end

end

/-! ## The bay at its witness (R288, R289) -/

section
variable {x : Bay} {k : BayStore}

/-- The lines of an undo log put back. -/
def Machine.Bay.undone (x : Bay) (l : List Undo) : Bay :=
  l.foldl (fun acc u => acc.setStore u.store (Mem.writeN (acc.store u.store) (128 * u.line) u.former)) x

theorem undone_eq (l : List Undo) : ∃ sc a c, x.undone l = { x with scratch := sc, opA := a, opB := c } :=
  List.foldlRecOn (motive := fun y : Bay => ∃ sc a c, y = { x with scratch := sc, opA := a, opB := c }) _ _
    ⟨x.scratch, x.opA, x.opB, rfl⟩ fun y hy u _ => by
      obtain ⟨sc, a, c, rfl⟩ := hy
      cases u.store
      · exact ⟨_, a, c, rfl⟩
      · exact ⟨sc, _, c, rfl⟩
      · exact ⟨sc, a, _, rfl⟩

theorem store_setStore {m : Mem} (k' : BayStore) : (x.setStore k m).store k' = if k' = k then m else x.store k' := by
  cases k <;> cases k' <;> rfl

/-- Lines of one store are put back as runs written there. -/
theorem store_undone {f : Nat → List Byte} (lines : List Nat) (k' : BayStore) :
    (x.undone (lines.map (fun l => ⟨k, l, f l⟩))).store k' =
      if k' = k then runsWritten (x.store k) (lines.map (fun l => (128 * l, f l))) else x.store k' := by
  induction lines generalizing x with
  | nil => by_cases h : k' = k <;> simp [Bay.undone, runsWritten, h]
  | cons l lines ih =>
    refine (ih (x := x.setStore k (Mem.writeN (x.store k) (128 * l) (f l)))).trans ?_
    rw [store_setStore, store_setStore, if_pos rfl]
    by_cases h : k' = k
    · simp only [h, if_true]
      rfl
    · simp only [h, if_false]

/-- Handles put back from shadow tiles. -/
theorem shadows_eq (l : List (Nat × Handle)) :
    ∃ h, l.foldl (fun (acc : Bay) h => { acc with handles := acc.handles.setIfInBounds h.1 h.2 }) x = { x with handles := h } :=
  List.foldlRecOn (motive := fun y : Bay => ∃ h, y = { x with handles := h }) _ _ ⟨x.handles, rfl⟩ fun y hy u _ => by
    obtain ⟨h, rfl⟩ := hy
    exact ⟨_, rfl⟩

theorem rolledBack_eq {w : Witness} (h : x.window.witness = some w) : ∃ hs, x.rolledBack =
    { ({ x.undone x.window.undo with handles := hs } : Bay).restoreWitness w with
      gbuf := x.gbuf.filter (fun g => decide (g.win ≠ x.window.num)) } := by
  obtain ⟨hs, hhs⟩ := shadows_eq (x := x.undone x.window.undo) x.window.shadows
  refine ⟨hs, ?_⟩
  rw [← hhs, Bay.rolledBack, h]
  rfl

/-- Task and trap registers stay as they are. -/
theorem rolledBack_frame : x.rolledBack.task = x.task ∧ x.rolledBack.tbundle = x.tbundle ∧ x.rolledBack.tslot = x.tslot := by
  cases h : x.window.witness with
  | none =>
    rw [Bay.rolledBack, h]
    exact ⟨rfl, rfl, rfl⟩
  | some w =>
    obtain ⟨hs, hx⟩ := rolledBack_eq h
    obtain ⟨sc, a, c, hundone⟩ := undone_eq (x := x) x.window.undo
    rw [hx, hundone]
    exact ⟨rfl, rfl, rfl⟩

theorem store_rolledBack {w : Witness} (h : x.window.witness = some w) (k : BayStore) :
    x.rolledBack.store k = (x.undone x.window.undo).store k := by
  obtain ⟨hs, hx⟩ := rolledBack_eq h
  rw [hx]
  cases k <;> rfl

/-- What a witness holds stands in the bay again, and the window's gated writes are gone. -/
theorem rolledBack_fields {w : Witness} (h : x.window.witness = some w) :
    let y := x.rolledBack
    y.regs = w.regs ∧ y.acc = w.acc ∧ y.queues = w.queues ∧ y.jigs = w.jigs ∧ y.tags = w.tags ∧ ∀ g ∈ y.gbuf, g.win ≠ x.window.num := by
  obtain ⟨hs, hx⟩ := rolledBack_eq h
  rw [hx]
  refine ⟨rfl, rfl, rfl, rfl, rfl, fun g hg => ?_⟩
  exact of_decide_eq_true (List.mem_filter.mp hg).2

/-! ## Lines put back (R289) -/

/-- Runs that hold what a store had, written over all that differs from it, make every address read as it did. -/
theorem read_runsWritten_former {m m' : Mem} {runs : List (Nat × List Byte)} (hwf : m'.wf = true)
    (hruns : ∀ r ∈ runs, ∀ i < r.2.length, r.2.getD i 0 = Mem.read m (r.1 + i))
    (hout : ∀ a, (∀ r ∈ runs, ¬(r.1 ≤ a ∧ a < r.1 + r.2.length)) → Mem.read m' a = Mem.read m a) (a : Nat) :
    Mem.read (runsWritten m' runs) a = Mem.read m a := by
  rw [runsWritten_stored hwf a]
  split
  next r hr =>
    have hin := List.find?_some hr
    rw [Bool.and_eq_true, decide_eq_true_eq, decide_eq_true_eq] at hin
    rw [hruns r (List.mem_reverse.mp (List.mem_of_find?_eq_some hr)) _ (by omega), Nat.add_sub_cancel' hin.1]
  next hnone =>
    refine hout a fun r hr hin => ?_
    simpa [hin] using List.find?_eq_none.mp hnone r (List.mem_reverse.mpr hr)

/-- The line of every byte of a run is among those that the run touches. -/
theorem mem_runLines {off a : Nat} {data : List Byte} (hlo : off ≤ a) (hhi : a < off + data.length) : a / 128 ∈ runLines [(off, data)] := by
  have hne : data ≠ [] := List.ne_nil_of_length_pos (by omega)
  rw [runLines, List.mem_eraseDups, List.flatMap_singleton, if_neg hne]
  dsimp only
  exact List.mem_map.mpr ⟨a / 128 - off / 128, List.mem_range.mpr (by omega), by omega⟩

/-- A run written after the witness is undone byte by byte. -/
theorem read_undone_writeStore {off : Nat} {data : List Byte} (hwf : (x.store k).wf = true) (hundo : x.window.undo = []) (k' : BayStore)
    (a : Nat) : Mem.read (((x.writeStore k off data).undone (x.writeStore k off data).window.undo).store k') a = Mem.read (x.store k') a := by
  have hlog : (x.writeStore k off data).window.undo =
      (runLines [(off, data)]).map (fun l => ⟨k, l, Mem.readN (x.store k) (128 * l) 128⟩) := by
    have happend : (x.writeStore k off data).window.undo =
        (runLines [(off, data)]).map (fun l => ⟨k, l, Mem.readN (x.store k) (128 * l) 128⟩) ++ x.window.undo := by
      cases k <;> rfl
    rw [happend, hundo, List.append_nil]
  have hwritten (k' : BayStore) : (x.writeStore k off data).store k' = if k' = k then runsWritten (x.store k) [(off, data)] else x.store k' :=
    store_writeRuns k'
  rw [hlog, store_undone, hwritten, hwritten, if_pos rfl]
  split
  next hk =>
    subst hk
    refine read_runsWritten_former (runsWritten_wf hwf) (fun r hr i hi => ?_) (fun a ha => ?_) a
    · obtain ⟨l, -, rfl⟩ := List.mem_map.mp hr
      exact readN_getD _ _ _ _ (by simpa using hi)
    · refine read_writeN_out _ off a data (Classical.byContradiction fun hin => ?_)
      have hline := ha _ (List.mem_map_of_mem (mem_runLines (a := a) (off := off) (data := data) (by omega) (by omega)))
      rw [readN_length] at hline
      omega
  next hk => rfl

/-- A write to a store is undone with all else that the bay's witness holds. -/
theorem rolledBack_writeStore {w : Witness} {off : Nat} {data : List Byte} (h : x.window.witness = some w) (hundo : x.window.undo = [])
    (hwf : (x.store k).wf = true) :
    let y := (x.writeStore k off data).rolledBack
    y.regs = w.regs ∧ y.acc = w.acc ∧ y.queues = w.queues ∧ y.jigs = w.jigs ∧ y.tags = w.tags ∧
      (∀ g ∈ y.gbuf, g.win ≠ x.window.num) ∧ ∀ (k' : BayStore) (a : Nat), Mem.read (y.store k') a = Mem.read (x.store k') a := by
  obtain ⟨hwin, hnum⟩ : (x.writeStore k off data).window.witness = some w ∧ (x.writeStore k off data).window.num = x.window.num := by
    rw [← h]
    cases k <;> exact ⟨rfl, rfl⟩
  obtain ⟨hregs, hacc, hqueues, hjigs, htags, hgbuf⟩ := rolledBack_fields hwin
  refine ⟨hregs, hacc, hqueues, hjigs, htags, hnum ▸ hgbuf, fun k' a => ?_⟩
  rw [store_rolledBack hwin]
  exact read_undone_writeStore hwf hundo k' a

end

/-! ## A fault of the hardware (R292, R293, R296) -/

section
variable {h : HwFault} {r : RerunEnd × RerunEnd}

theorem rerunVerdict_transient {n : Nat} {escapes : List PassEffect} (hpage : rerunPage r = none) (hagree : rerunsAgree r = true)
    (hfault : r.2.fault = none) (h1 : signature r.1.escapes = signature escapes) (h2 : signature r.2.escapes = signature escapes) :
    rerunVerdict n escapes r = .transient := by
  simp [rerunVerdict, hpage, hagree, hfault, h1, h2]

theorem rerunVerdict_disagree {n : Nat} {escapes : List PassEffect} (hpage : rerunPage r = none) (hagree : rerunsAgree r = false) :
    rerunVerdict n escapes r = .disagree := by
  simp [rerunVerdict, hpage, hagree]

theorem endReruns_transient {n : Nat} {l : List (RerunEnd × RerunEnd)} (h0 : (s.bay b).pending = none)
    (hv : rerunVerdict (s.sinceWitness b) h.escapes r = .transient) :
    s.endReruns q b h n (r :: l) = (s.beginStall q b n).transient b (causeCode h.cause) (h.info.setWidth 72) := by
  rw [State.endReruns]
  simp only [hv]
  exact settled_of_none h0

theorem endReruns_disagree {n : Nat} {l : List (RerunEnd × RerunEnd)}
    (hv : rerunVerdict (s.sinceWitness b) h.escapes r = .disagree) :
    s.endReruns q b h n (r :: l) = s.retirePhys q b (causeCode h.cause) (h.info.setWidth 72) := by
  rw [State.endReruns]
  simp only [hv]

/-- The bay stands at its witness, its partition stops, and its physical bay is retired, with a record. -/
theorem retirePhys_pod {code : Nat} {info : Info} (hq : s.partOf b = some q) (hfab : (s.part q).fab.isSome = true) :
    let t := s.retirePhys q b code info
    (t.part q).mode = .stopped ∧ (t.part q).remapDue = true ∧ (t.phys.get (s.physAt b)).healthy = false ∧
      t.bay b = (s.bay b).rolledBack ∧
      t.yard.errlog = s.yard.errlog ++ [.fault (faultRecord s b 9 (s.bay b).cls code info)] := by
  have hsingle : (s.part q).fab.isNone = false := by
    cases hf : (s.part q).fab with
    | none => rw [hf] at hfab; cases hfab
    | some f => rfl
  set u := (s.rollBack q b).onPhys (s.physAt b) (fun x => { x with healthy := false })
  have hbay : u.bay b = (s.bay b).rolledBack := State.bay_onBay s b _
  obtain ⟨htask, hbundle, hslot⟩ := rolledBack_frame (x := s.bay b)
  have hrecord : faultRecord u b 9 (s.bay b).cls code info = faultRecord s b 9 (s.bay b).cls code info :=
    faultRecord_congr hq hq rfl rfl (hbay ▸ htask) (hbay ▸ hbundle) (hbay ▸ hslot)
  have ht : s.retirePhys q b code info =
      ((u.logFault b 9 (s.bay b).cls code info).halt q).onPart q (fun p => { p with remapDue := true }) := by
    rw [State.retirePhys, hsingle]
    rfl
  obtain ⟨v, hv⟩ := standStill_eq (s := u.logFault b 9 (s.bay b).cls code info) (q := q)
  rw [ht, State.halt, onPart_onPart, hv]
  refine ⟨?_, ?_, ?_, hbay, ?_⟩
  · rw [State.part_onPart]
  · rw [State.part_onPart]
  · exact congrArg Phys.healthy get_set_self
  · rw [← hrecord]
    rfl

section
variable (hq : s.partOf b = some q) (hmode : (s.part q).mode = .running) (hrest : (s.part q).restartsOf b = none)
  (hc : h.cause = .baySram)
include hq hmode hrest hc

/-- A fault of a bay's SRAM is rolled back and rerun. -/
theorem exec_rollback_sram : exec (.rollback b (some h)) s = .next (s.endReruns q b h (s.stallLen b) h.reruns) := by
  simp [exec, execRollback, hq, hmode, hwCause, hc, State.hardRollback, stallLeft_eq hrest]

variable (hr : h.reruns = [r]) (hpage : rerunPage r = none)
include hr hpage

/-- Reruns that agree, with the effects of the first run, leave a transient: nothing changes but the stall and the log. -/
theorem rollback_transient (h0 : (s.bay b).pending = none) (hagree : rerunsAgree r = true) (hfault : r.2.fault = none)
    (h1 : signature r.1.escapes = signature h.escapes) (h2 : signature r.2.escapes = signature h.escapes) :
    ∃ t : State, exec (.rollback b (some h)) s = .next t ∧ t.bays = s.bays ∧ SameMemory s t ∧
      (t.part q).stall = max (s.part q).stall (s.stallLen b) ∧
      t.yard.errlog = s.yard.errlog ++ [.fault (faultRecord s b 5 (s.bay b).cls 0x21 (h.info.setWidth 72))] := by
  have hexec := exec_rollback_sram hq hmode hrest hc
  rw [hr, endReruns_transient h0 (rerunVerdict_transient hpage hagree hfault h1 h2), hc] at hexec
  refine ⟨_, hexec, rfl, ⟨rfl, rfl, rfl, fun _ => rfl⟩, stall_beginStall, ?_⟩
  rw [← faultRecord_beginStall hq]
  rfl

/-- Reruns that disagree retire the physical bay. -/
theorem rollback_disagree (hagree : rerunsAgree r = false) (hfab : (s.part q).fab.isSome = true) :
    ∃ t : State, exec (.rollback b (some h)) s = .next t ∧ (t.part q).mode = .stopped ∧ (t.part q).remapDue = true ∧
      (t.phys.get (s.physAt b)).healthy = false ∧ t.bay b = (s.bay b).rolledBack ∧
      t.yard.errlog = s.yard.errlog ++ [.fault (faultRecord s b 9 (s.bay b).cls 0x21 (h.info.setWidth 72))] := by
  have hexec := exec_rollback_sram hq hmode hrest hc
  rw [hr, endReruns_disagree (rerunVerdict_disagree hpage hagree), hc] at hexec
  exact ⟨_, hexec, retirePhys_pod hq hfab⟩

end

end

/-- Settles O42, event by event. -/
theorem pagesAndRollback : Obligations.PagesAndRollback := by
  refine ⟨fun ch s q hq => ⟨exec_refreshCommand hq, exec_holdRefresh hq, exec_holdRefresh_retired hq⟩,
    fun q x s e he => ⟨fun c hc => ⟨fun hm => ?moving, migrationCopy_again he hc, endCopy_lands he hc⟩,
      fun d f hc hd hf => migrationCopy_first he hc hd hf, pageBring_lands he⟩, fun b s q hq => ?rollback⟩
  case moving =>
    rw [exec_migrationCopy_again hc he, if_pos hm]
  case rollback =>
    intro w stall
    have hstall : s.stallLen b = stall := stallLen_eq
    clear_value stall
    subst hstall
    intro hmode hrest
    exact ⟨fun p code hp hfree hhw hcode =>
        ⟨rollback_traps hq hmode hrest hp hfree hhw hcode, fun x raw e => rollback_asksPage hq hmode hrest hp hfree hhw⟩,
      fun h r h0 hc hr hpage => ⟨rollback_transient hq hmode hrest hc hr hpage h0, rollback_disagree hq hmode hrest hc hr hpage⟩,
      fun m k off data hm hundo hwf => rolledBack_writeStore hm hundo hwf⟩

end Sys2Proof
end

section
/-!
PROOF. GSYNC (R233, R371): the bays that a bay's gang consists of, when they agree, and what the trigger then does.
-/

namespace Sys2Proof
open Machine Laws

/-- The bays of a bent are those at the 24 positions of it. -/
theorem mem_peerBays {a b : BayId} : b ∈ (List.range 24).map (peerBay a) ↔ bentOf b = bentOf a := by
  have hb : b.val < 192 := b.isLt
  have ha : a.val < 192 := a.isLt
  simp only [List.mem_map, List.mem_range, peerBay, bentOf, Fin.ext_iff, Fin.val_ofNat]
  constructor
  · rintro ⟨q, hq, h⟩
    omega
  · intro h
    exact ⟨b.val % 24, by omega, by omega⟩

/-- A gang agrees on a value when each of its members but the bay itself issues a GSYNC of it. -/
theorem gangAgrees_iff {s : State} {v : BitVec 8} : s.gangAgrees v = true ↔ ∀ b : BayId, bentOf b = bentOf s.cur →
    (s.gangOf b = s.gangOf s.cur ∨ ∃ e ∈ (s.partAt b).entries, e.template = false ∧ e.bay = b.val ∧ e.gang = s.gangOf s.cur) →
      b ≠ s.cur → (s.bay b).gsync = some v := by
  simp only [State.gangAgrees, State.gangBays, List.all_eq_true, List.mem_filter, mem_peerBays, State.member, Bool.or_eq_true,
    decide_eq_true_eq, List.any_eq_true, Bool.and_eq_true, Bool.not_eq_true', and_imp, and_assoc, or_iff_not_imp_left]

/-- Ordering the members of a gang puts its effect off to the end of the clock cycle, and changes nothing before. -/
theorem orderGang_eq {s : State} {l : List BayId} : ∃ y, s.orderGang l = { s with later := y } := by
  have keeps (v : List (Nat × Nat)) (l : List BayId) : ∀ u : State, (∃ y, u = { s with later := y }) →
      ∃ y, l.foldl (fun acc b => acc.joinLater b.val v) u = { s with later := y } := by
    induction l with
    | nil => exact fun u hu => hu
    | cons b l ih =>
      rintro _ ⟨y, rfl⟩
      exact ih _ ⟨_, rfl⟩
  exact keeps _ l s ⟨s.later, rfl⟩

/-- The check of a GSYNC with a task of a gang, no hold and no reserved bit asks for the gang's agreement alone. -/
theorem gsyncChk_eq {s : State} {v : Val} (hv : v.addr.toNat < 256) (hg : s.gangOf s.cur ≠ 0) (hh : (s.partAt s.cur).held = false) :
    gsyncChk v s = if s.gangAgrees (v.addr.setWidth 8) = true then none
      else some (.gangSync, (v.addr.setWidth 8).setWidth 72) := by
  have h0 : bits v.addr 8 64 = 0 := by
    simp only [bits_eq, Nat.div_eq_of_lt (show v.addr.toNat < 2 ^ 8 from hv), Nat.zero_mod]
  cases h : s.gangAgrees (v.addr.setWidth 8) <;> simp [gsyncChk, hg, hh, h, h0]

/-- Settles O35, by the agreement that the check of a GSYNC asks for. -/
theorem gangSync : Obligations.GangSync := by
  intro c s hm hv hg hh v member agree
  have hchk := gsyncChk_eq hv hg hh
  refine ⟨fun ha => ?_, fun ha => ?_⟩
  · rw [if_pos (gangAgrees_iff.mpr ha)] at hchk
    obtain ⟨y, hy⟩ := orderGang_eq (s := s) (l := s.gangBays s.cur)
    have hexec : exec (.gsync c) s = .next (s.orderGang (s.gangBays s.cur)) := congrArg Host.Outcome.next (move_made hm hchk)
    exact ⟨_, hexec.trans (congrArg Host.Outcome.next hy), ⟨rfl, rfl, rfl, fun _ => rfl⟩, rfl, rfl, rfl, rfl⟩
  · rw [if_neg (fun h => ha (gangAgrees_iff.mp h))] at hchk
    exact congrArg Host.Outcome.next (move_refused hm hchk)

end Sys2Proof
end

section
/-!
PROOF. Accesses to shared memory as they perform (R213 to R215, R225, R229, R231, R380, R428).

What orders an access and what notes it leaves every byte and every bay (SameDevices); the access then changes its own bay alone, and a FETCHADD
its word.
-/

namespace Sys2Proof
open Machine Laws

variable {s t u : State} {q : PartId} {b : BayId} {a : Access} {id : Nat}

/-! ## A change of one bay, after what leaves every byte and every bay -/

theorem SameDevices.bay (h : SameDevices s u) (c : BayId) : u.bay c = s.bay c := congrArg (fun v => v.get c) h.bays

theorem SameDevices.onBay_bay {f : Bay → Bay} (h : SameDevices s u) : (u.onBay b f).bay b = f (s.bay b) := by
  rw [State.bay_onBay, h.bay]

theorem SameDevices.onBay_others {f : Bay → Bay} (h : SameDevices s u) {c : BayId} (hc : c ≠ b) : (u.onBay b f).bay c = s.bay c := by
  rw [State.bay_onBay_ne _ _ _ _ hc, h.bay]

/-- A change of a bay that leaves its stores leaves every memory. -/
theorem SameDevices.onBay_sameMemory {f : Bay → Bay} (h : SameDevices s u) (hf : bayMems (f (s.bay b)) = bayMems (s.bay b)) :
    SameMemory s (u.onBay b f) := by
  refine ⟨h.ring, h.lpddr, h.hostMem, fun c => ?_⟩
  by_cases hc : c = b
  · subst hc
    rw [h.onBay_bay, hf]
  · rw [h.onBay_others hc]

theorem SameDevices.readPlaceN (h : SameDevices s t) (pl : Place) (n : Nat) : t.readPlaceN pl n = s.readPlaceN pl n := by
  cases pl <;> simp only [State.readPlaceN, State.readPlace, h.ring, h.lpddr]

theorem SameDevices.applyBytes (h : SameDevices s t) (e : GEffect) : SameDevices (s.applyBytes e) (t.applyBytes e) := by
  cases e with
  | bytes pl d => exact h.writePlace
  | lineFull l pl d => exact h.writePlace
  | atomic op pl v =>
    simp only [State.applyBytes, h.readPlaceN]
    exact h.writePlace
  | lineEmpty l => exact h
  | hand r m => exact h

theorem SameDevices.ownView (h : SameDevices s t) (now : Nat) : SameDevices (s.ownView b now) (t.ownView b now) := by
  simp only [State.ownView, h.bay]
  generalize List.filter _ _ = l
  induction l generalizing s t with
  | nil => exact h
  | cons w l ih => exact ih (h.applyBytes w.eff)

/-- What a bay reads depends on the bytes and the bays alone. -/
theorem SameDevices.readAs (h : SameDevices s t) (now : Nat) (pl : Place) (n : Nat) : t.readAs b now pl n = s.readAs b now pl n :=
  (h.ownView now).readPlaceN pl n

@[simp] theorem readPlaceN_length (pl : Place) (n : Nat) : (s.readPlaceN pl n).length = n := by simp [State.readPlaceN]

@[simp] theorem readAs_length (now : Nat) (pl : Place) (n : Nat) : (s.readAs b now pl n).length = n := readPlaceN_length pl n

/-! ## What orders an access and what notes it -/

/-- What orders an access changes what its party is ordered after, and nothing else. -/
theorem orderAccess_eq {va : Addr} : ∃ v, s.orderAccess b va = { s with vclocks := v } := by
  have join_eq (r : State) (y : Nat) (c : List (Nat × Nat)) : ∃ v, r.join y c = { r with vclocks := v } := by
    unfold State.join
    split
    · exact ⟨r.vclocks, rfl⟩
    · exact ⟨_, rfl⟩
  unfold State.orderAccess
  dsimp only
  split
  · exact ⟨s.vclocks, rfl⟩
  · split
    · obtain ⟨v, hv⟩ := join_eq s b.val _
      rw [hv]
      exact join_eq { s with vclocks := v } b.val _
    · exact join_eq s b.val _

theorem sameDevices_orderAccess {va : Addr} : SameDevices s (s.orderAccess b va) := by
  obtain ⟨v, hv⟩ := orderAccess_eq (s := s) (b := b) (va := va)
  rw [hv]
  exact ⟨rfl, rfl, rfl, rfl, rfl⟩

@[simp] theorem poleTime_orderAccess {va : Addr} : (s.orderAccess b va).poleTime b = s.poleTime b := by
  obtain ⟨v, hv⟩ := orderAccess_eq (s := s) (b := b) (va := va)
  rw [hv]
  rfl

theorem notesOnly_note {pl : Place} {n kind stamp : Nat} {write : Bool} {seen : List (Nat × Nat)} :
    NotesOnly s (s.note b pl n write kind stamp seen) := by
  unfold State.note
  split
  · exact notesOnly_noteBy
  · exact .refl s

theorem sameDevices_useRegion {va : Addr} {party stamp : Nat} {seen : List (Nat × Nat)} :
    SameDevices s (s.useRegion q va party stamp seen) := by
  unfold State.useRegion
  split
  · exact .refl s
  · exact sameDevices_onPart

theorem sameDevices_noteRead {va : Addr} {pl : Place} {n : Nat} : SameDevices s (s.noteRead b va pl n) := by
  unfold State.noteRead
  split
  · exact .refl s
  · exact notesOnly_note.toSameDevices.trans sameDevices_useRegion

/-! ## A fault that belongs to no bundle -/

/-- A bay that has met a fault of no bundle: the first of a cycle counts. -/
def metFault (c : Cause) (info : Info) (y : Bay) : Bay :=
  match y.pending with
  | some _ => y
  | none => { y with pending := some ⟨⟨c, info, 0, false⟩, none, none, none⟩ }

theorem strayFault_eq {c : Cause} {info : Info} : s.strayFault b c info = s.onBay b (metFault c info) := rfl

theorem metFault_eq (c : Cause) (info : Info) (y : Bay) : metFault c info y = { y with pending := (metFault c info y).pending } := by
  unfold metFault
  split <;> rfl

theorem metFault_pending {c : Cause} {info : Info} {y : Bay} (h : y.pending = none) :
    (metFault c info y).pending.map (fun p => (p.fault.cause, p.fault.info)) = some (c, info) := by
  simp only [metFault, h, Option.map_some]

theorem bayMems_metFault {c : Cause} {info : Info} {y : Bay} : bayMems (metFault c info y) = bayMems y := by
  rw [metFault_eq]
  rfl

/-- A change of a bay that then meets a fault of no bundle. -/
theorem onBay_strayFault {f : Bay → Bay} {c : Cause} {info : Info} :
    (s.onBay b f).strayFault b c info = s.onBay b (fun x => metFault c info (f x)) := by
  rw [strayFault_eq, State.onBay_onBay]

/-- An access that faults is gone, and its bay has met the fault. -/
theorem faulted {f : Bay → Bay} {c : Cause} {info : Info} (hexec : exec (.accessPerform b id) s = .next ((s.onBay b f).strayFault b c info))
    (hmems : bayMems (f (s.bay b)) = bayMems (s.bay b)) (hpend : (f (s.bay b)).pending = (s.bay b).pending) :
    ∃ t : State, exec (.accessPerform b id) s = .next t ∧ SameMemory s t ∧ (t.bay b).inflight = (f (s.bay b)).inflight ∧
      (t.bay b).gbuf = (f (s.bay b)).gbuf ∧
      ((s.bay b).pending = none → (t.bay b).pending.map (fun p => (p.fault.cause, p.fault.info)) = some (c, info)) := by
  refine ⟨_, hexec, ?_⟩
  rw [onBay_strayFault]
  refine ⟨(SameDevices.refl s).onBay_sameMemory (bayMems_metFault.trans hmems), ?_⟩
  rw [State.bay_onBay]
  refine ⟨?_, ?_, fun h => metFault_pending (hpend.trans h)⟩ <;> rw [metFault_eq]

/-! ## Loads (R213, R229, R380) -/

variable {pl : Place} (hp : a.place = some pl) (hch : ∀ c t x, pl ≠ .chip c t x)
include hp hch

theorem lateAnswer_of_here : lateAnswer a = false := by
  cases pl with
  | ring t o => simp only [lateAnswer, hp]
  | lpddr t o => simp only [lateAnswer, hp]
  | chip c t x => exact absurd rfl (hch c t x)

theorem vaRead_of_here : s.vaRead b a = s.readAs b (s.poleTime b) pl a.size := by
  cases pl with
  | ring t o => simp only [State.vaRead, hp]
  | lpddr t o => simp only [State.vaRead, hp]
  | chip c t x => exact absurd rfl (hch c t x)

theorem performVaLoad_faults {k : RKind} {f : Cause × Info} (hf : lineChk (s.partAt b) (s.bay b) k a.addr = some f) :
    s.performVaLoad b a k = (s.onBay b (fun x => x.dropAcc a.id)).strayFault b f.1 f.2 := by
  simp only [State.performVaLoad, lateAnswer_of_here hp hch, hf, Bool.false_eq_true, if_false]

/-- A load delivers the bytes as its bay sees them; what waits in the buffer of a consumption and the window's replay log change beside. -/
theorem performVaLoad_delivers {k : RKind} {p : ResPort} (hf : lineChk (s.partAt b) (s.bay b) k a.addr = none) (hport : a.port = some p)
    (hs : a.size ∈ [1, 2, 4, 8]) : ∃ (u : State) (g : Bay → List GWrite), SameDevices s u ∧ s.performVaLoad b a k = u.onBay b (fun x =>
      { (delivered x a p true a.due (scalarOf (loaded a.signed a.size (leNat (s.readAs b (s.poleTime b) pl a.size))))).keepReplay
          (s.poleTime b) (leNat (s.readAs b (s.poleTime b) pl a.size)) with gbuf := g x }) := by
  have hread : (s.orderAccess b a.addr).vaRead b a = s.readAs b (s.poleTime b) pl a.size := by
    rw [vaRead_of_here hp hch, poleTime_orderAccess, sameDevices_orderAccess.readAs]
  have hvalue := loadValue_eq (signed := a.signed) (bs := s.readAs b (s.poleTime b) pl a.size) (by rw [readAs_length]; exact hs)
  rw [readAs_length] at hvalue
  refine ⟨(s.orderAccess b a.addr).noteRead b a.addr pl a.size, fun x => if k = .ldc then x.gbuf ++ [⟨a.id, a.addr, 128, a.entry,
    some (s.poleTime b), a.win, .lineEmpty (lineOf a.addr), (s.orderAccess b a.addr).seenBy b.val, 0, false⟩] else x.gbuf,
    sameDevices_orderAccess.trans sameDevices_noteRead, ?_⟩
  simp only [State.performVaLoad, lateAnswer_of_here hp hch, hf, Bool.false_eq_true, if_false, hp, hport, hread, hvalue]
  cases k <;> rfl

/-- A load of shared memory that is made. -/
theorem exec_load {k : RKind} {p : ResPort} (hf : lineChk (s.partAt b) (s.bay b) k a.addr = none) (hport : a.port = some p)
    (hs : a.size ∈ [1, 2, 4, 8]) (hexec : exec (.accessPerform b id) s = .next (s.performVaLoad b a k)) :
    ∃ t : State, exec (.accessPerform b id) s = .next t ∧ SameMemory s t ∧ (t.bay b).regs = (s.bay b).regs ∧
      (t.bay b).inflight = (delivered (s.bay b) a p true a.due
        (scalarOf (loaded a.signed a.size (leNat (s.readAs b (s.poleTime b) pl a.size))))).inflight ∧
      ∀ c : BayId, c ≠ b → t.bay c = s.bay c := by
  obtain ⟨u, g, hu, hload⟩ := performVaLoad_delivers hp hch hf hport hs
  refine ⟨_, hexec.trans (congrArg _ hload), hu.onBay_sameMemory rfl, ?_, ?_, fun c hc => hu.onBay_others hc⟩ <;> rw [hu.onBay_bay] <;> rfl

/-- A load that finds its channel line in the wrong state. -/
theorem exec_load_faults {k : RKind} {f : Cause × Info} (hf : lineChk (s.partAt b) (s.bay b) k a.addr = some f)
    (hexec : exec (.accessPerform b id) s = .next (s.performVaLoad b a k)) :
    ∃ t : State, exec (.accessPerform b id) s = .next t ∧ SameMemory s t ∧ (t.bay b).inflight = (s.bay b).inflight ∧
      ((s.bay b).pending = none → (t.bay b).pending.map (fun p => (p.fault.cause, p.fault.info)) = some f) := by
  obtain ⟨t, ht, hmem, hin, -, hpend⟩ := faulted (hexec.trans (congrArg _ (performVaLoad_faults hp hch hf))) rfl rfl
  exact ⟨t, ht, hmem, hin, hpend⟩

/-! ## FETCHADD (R231) -/

/-- What a FETCHADD makes of its bay. -/
def fetchedBay (a : Access) (p : ResPort) (pl : Place) (now old : Nat) (x : Bay) : Bay :=
  { (delivered x a p true a.due (BitVec.ofNat 2048 old)).keepResult now old with fetched := (pl, 8) :: x.fetched }

theorem performFetch_clash (h : (s.bay b).gatedClash (s.poleTime b) (.bytes pl (List.replicate 8 0)) = true) :
    s.performFetch b a = (s.onBay b (fun x => x.dropAcc a.id)).strayFault b .writeCollision a.addr := by
  simp only [State.performFetch, lateAnswer_of_here hp hch, hp, Option.any_some, h, Bool.false_eq_true, if_false, if_true]
  rfl

theorem performFetch_adds {p : ResPort} (hport : a.port = some p)
    (h : (s.bay b).gatedClash (s.poleTime b) (.bytes pl (List.replicate 8 0)) = false) :
    ∃ u, SameDevices (s.writePlace pl (leBytes 8 (leNat (s.readPlaceN pl 8) + (a.data.setWidth 64).toNat))) u ∧
      s.performFetch b a = u.onBay b (fetchedBay a p pl (s.poleTime b) (leNat (s.readPlaceN pl 8))) := by
  have noted (w : State) : SameDevices w (match s.partOf b with
      | some q => (w.note b pl 8 true 2 (s.poleTime b + 1) (s.seenBy b.val)).markLate q a.entry
      | none => w.note b pl 8 true 2 (s.poleTime b + 1) (s.seenBy b.val)) := by
    cases s.partOf b with
    | none => exact notesOnly_note.toSameDevices
    | some q => exact notesOnly_note.toSameDevices.trans sameDevices_onPart
  refine ⟨_, noted _, ?_⟩
  cases pl with
  | chip c t x => exact absurd rfl (hch c t x)
  | ring t o =>
    simp only [State.performFetch, lateAnswer_of_here hp hch, hp, Option.any_some, h, Bool.false_eq_true, if_false, hport]
    rfl
  | lpddr t o =>
    simp only [State.performFetch, lateAnswer_of_here hp hch, hp, Option.any_some, h, Bool.false_eq_true, if_false, hport]
    rfl

omit hp hch

/-! ## Gated writes (R213 to R215, R229) -/

theorem performVaStore_faults {k : RKind} {f : Cause × Info} (hf : lineChk (s.partAt b) (s.bay b) k a.addr = some f) :
    s.performVaStore b a k = (s.onBay b (fun x => (x.dropAcc a.id).dropG a.id)).strayFault b f.1 f.2 := by
  simp only [State.performVaStore, hf]

theorem performVaStore_collides {k : RKind} (hf : lineChk (s.partAt b) (s.bay b) k a.addr = none)
    (h : (s.bay b).rewritesG a.id (s.poleTime b) = true) :
    s.performVaStore b a k = (s.onBay b (fun x => (x.dropAcc a.id).dropG a.id)).strayFault b .writeCollision a.addr := by
  simp only [State.performVaStore, hf, h, if_true]
  rfl

theorem performVaStore_performs {k : RKind} (hf : lineChk (s.partAt b) (s.bay b) k a.addr = none)
    (h : (s.bay b).rewritesG a.id (s.poleTime b) = false) : s.performVaStore b a k = (s.orderAccess b a.addr).onBay b
      (fun x => (x.dropAcc a.id).performG a.id (s.poleTime b) ((s.orderAccess b a.addr).seenBy b.val)) := by
  simp only [State.performVaStore, hf, h, Bool.false_eq_true, if_false]

/-- A gated write that performs waits in the buffer as before, performed. -/
theorem performG_gbuf {x : Bay} {i now n : Nat} {seen : List (Nat × Nat)} {w : GWrite} (hw : x.gbuf[n]? = some w) :
    ∃ w' : GWrite, (x.performG i now seen).gbuf[n]? = some w' ∧ w'.eff = w.eff ∧
      w'.performed = if w.id = i then some now else w.performed := by
  refine ⟨if w.id = i then { w with performed := some now, seen := seen } else w, ?_, ?_, ?_⟩
  · simp only [Bay.performG, List.getElem?_map, hw, Option.map_some]
  · split <;> rfl
  · split <;> rfl

/-- A gated write performs, unseen by others, where its line's state and the cycle's other writes let it. -/
theorem exec_gated {k : RKind} (hexec : exec (.accessPerform b id) s = .next (s.performVaStore b a k))
    (hf : lineChk (s.partAt b) (s.bay b) k a.addr = none) :
    ((s.bay b).rewritesG a.id (s.poleTime b) = true → ∃ t : State, exec (.accessPerform b id) s = .next t ∧ SameMemory s t ∧
      (t.bay b).gbuf = (s.bay b).gbuf.filter (fun w => decide (w.id ≠ a.id)) ∧
      ((s.bay b).pending = none → (t.bay b).pending.map (fun p => (p.fault.cause, p.fault.info)) = some (.writeCollision, a.addr))) ∧
    ((s.bay b).rewritesG a.id (s.poleTime b) = false →
      ∃ t : State, exec (.accessPerform b id) s = .next t ∧ SameMemory s t ∧ (t.bay b).regs = (s.bay b).regs ∧
        (t.bay b).inflight = (s.bay b).inflight ∧ (t.bay b).gbuf.length = (s.bay b).gbuf.length ∧
        (∀ n : Nat, ∀ w : GWrite, (s.bay b).gbuf[n]? = some w → ∃ w' : GWrite, (t.bay b).gbuf[n]? = some w' ∧ w'.eff = w.eff ∧
          w'.performed = if w.id = a.id then some (s.poleTime b) else w.performed) ∧
        ∀ c : BayId, c ≠ b → t.bay c = s.bay c) := by
  refine ⟨fun h => ?_, fun h => ?_⟩
  · obtain ⟨t, ht, hmem, -, hg, hpend⟩ := faulted (hexec.trans (congrArg _ (performVaStore_collides hf h))) rfl rfl
    exact ⟨t, ht, hmem, hg, hpend⟩
  · have hord : SameDevices s (s.orderAccess b a.addr) := sameDevices_orderAccess
    refine ⟨_, hexec.trans (congrArg _ (performVaStore_performs hf h)), hord.onBay_sameMemory rfl, ?_⟩
    rw [hord.onBay_bay]
    exact ⟨rfl, rfl, List.length_map .., fun n w hw => performG_gbuf hw, fun c hc => hord.onBay_others hc⟩

/-- A gated write that finds its channel line in the wrong state. -/
theorem exec_gated_faults {k : RKind} {f : Cause × Info} (hexec : exec (.accessPerform b id) s = .next (s.performVaStore b a k))
    (hf : lineChk (s.partAt b) (s.bay b) k a.addr = some f) :
    ∃ t : State, exec (.accessPerform b id) s = .next t ∧ SameMemory s t ∧ (t.bay b).inflight = (s.bay b).inflight ∧
      ((s.bay b).pending = none → (t.bay b).pending.map (fun p => (p.fault.cause, p.fault.info)) = some f) := by
  obtain ⟨t, ht, hmem, hin, -, hpend⟩ := faulted (hexec.trans (congrArg _ (performVaStore_faults hf))) rfl rfl
  exact ⟨t, ht, hmem, hin, hpend⟩

/-! ## The statement -/

/-- Settles O37, by the kind of the access. -/
theorem sharedPerforms : Obligations.SharedPerforms := by
  intro b id s a pl h hp hch now faults loads performs
  have made {u : State} (hu : s.performAccess b a = u) : exec (.accessPerform b id) s = .next u :=
    (exec_accessPerform h).trans (congrArg _ hu)
  have loadMade {k : RKind} (hu : s.performAccess b a = s.performVaLoad b a k) : loads k ∧ ∀ f, faults k f :=
    ⟨fun hf p hport hs => exec_load hp hch hf hport hs (made hu), fun f hf => exec_load_faults hp hch hf (made hu)⟩
  have gatedMade {k : RKind} (hu : s.performAccess b a = s.performVaStore b a k) : performs k ∧ ∀ f, faults k f :=
    ⟨exec_gated (made hu), fun f => exec_gated_faults (made hu)⟩
  refine ⟨fun hk => loadMade (by simp only [State.performAccess, hk]), fun hk => loadMade (by simp only [State.performAccess, hk]),
    fun hk => gatedMade (by simp only [State.performAccess, hk]), fun hk => gatedMade (by simp only [State.performAccess, hk]),
    fun op hk => (gatedMade (by simp only [State.performAccess, hk])).1, fun hk => (gatedMade (by simp only [State.performAccess, hk])).1,
    fun p hk hport => ?_⟩
  have fetchMade {u : State} (hu : s.performFetch b a = u) : exec (.accessPerform b id) s = .next u :=
    made (by simp only [State.performAccess, hk, hu])
  refine ⟨fun hclash => ?adds, fun hclash => ?clash⟩
  case adds =>
    obtain ⟨u, hu, heq⟩ := performFetch_adds hp hch hport hclash
    have hbays (c : BayId) : u.bay c = s.bay c := (hu.bay c).trans (congrArg (fun v => v.get c) writePlace_bays)
    have hb : (u.onBay b (fetchedBay a p pl (s.poleTime b) (leNat (s.readPlaceN pl 8)))).bay b =
        fetchedBay a p pl (s.poleTime b) (leNat (s.readPlaceN pl 8)) (s.bay b) := by
      rw [State.bay_onBay, hbays]
    refine ⟨_, fetchMade heq, hu.hostMem.trans writePlace_hostMem, ?_, ?_, hu.ring, hu.lpddr, ?_, fun c hc => ?_⟩
    · rw [hb]; rfl
    · rw [hb]; rfl
    · rw [hb]; exact List.mem_cons_self
    · rw [State.bay_onBay_ne _ _ _ _ hc, hbays]
  case clash =>
    obtain ⟨t, ht, hmem, hin, -, hpend⟩ := faulted (fetchMade (performFetch_clash hp hch hclash)) rfl rfl
    exact ⟨t, ht, hmem, hin, hpend⟩

end Sys2Proof
end

section
/-!
PROOF. Walks that trigger and read their units (R226, R241 to R244, R247).

A unit's trigger and its read of a local store change the walking bay alone, but for a race noted (OnlyOwn); the read of a VA source changes
beside what orders accesses and what notes them.
-/

namespace Sys2Proof
open Machine Laws

variable {s t u : State} {b : BayId} {k : Fin 2} {c : Cmd} {w : WalkRun} {r : WalkUnit}

/-! ## One element of a list -/

section
variable {α σ : Type} {l l' : List α} {a : α}

/-- A function that acts on one element of a list. -/
theorem map_sole {p : α → Prop} [DecidablePred p] {f : α → α} (ha : p a) (hl : ∀ x ∈ l ++ l', ¬ p x) :
    (l ++ a :: l').map (fun x => if p x then f x else x) = l ++ f a :: l' := by
  obtain ⟨h, h'⟩ := List.forall_mem_append.mp hl
  have hsame (m : List α) (hm : ∀ x ∈ m, ¬ p x) : m.map (fun x => if p x then f x else x) = m :=
    (List.map_congr_left (g := id) (fun x hx => if_neg (hm x hx))).trans (List.map_id m)
  rw [List.map_append, List.map_cons, hsame l h, hsame l' h', if_pos ha]

theorem filter_sole {p : α → Bool} (ha : p a = true) (hl : ∀ x ∈ l ++ l', p x = false) : (l ++ a :: l').filter p = [a] := by
  obtain ⟨h, h'⟩ := List.forall_mem_append.mp hl
  have hnone (m : List α) (hm : ∀ x ∈ m, p x = false) : m.filter p = [] :=
    List.filter_eq_nil_iff.mpr (fun x hx => Bool.eq_false_iff.mp (hm x hx))
  rw [List.filter_append, List.filter_cons_of_pos ha, hnone l h, hnone l' h', List.nil_append]

theorem filter_out_sole {p : α → Bool} (ha : p a = false) (hl : ∀ x ∈ l ++ l', p x = true) : (l ++ a :: l').filter p = l ++ l' := by
  obtain ⟨h, h'⟩ := List.forall_mem_append.mp hl
  rw [List.filter_append, List.filter_cons_of_neg (Bool.eq_false_iff.mp ha), List.filter_eq_self.mpr h, List.filter_eq_self.mpr h']

theorem find_sole {p : α → Bool} (ha : p a = true) (hl : ∀ x ∈ l, p x = false) : (l ++ a :: l').find? p = some a := by
  rw [List.find?_append, List.find?_eq_none.mpr (fun x hx => Bool.eq_false_iff.mp (hl x hx)), Option.none_or,
    List.find?_cons_of_pos ha]

/-- Elements that leave the state as it is may be left out. -/
theorem foldl_idle {f : σ → α → σ} {v : σ} (hl : ∀ e ∈ l, f v e = v) : l.foldl f v = v := by
  induction l with
  | nil => rfl
  | cons e l ih =>
    rw [List.foldl_cons, hl e List.mem_cons_self]
    exact ih (fun x hx => hl x (List.mem_cons_of_mem _ hx))

/-- Of elements all but one of which leave the state as it is, that one acts. -/
theorem foldl_only {f : σ → α → σ} {v : σ} (hl : ∀ e ∈ l, f v e = v) (hl' : ∀ e ∈ l', f (f v a) e = f v a) :
    (l ++ a :: l').foldl f v = f v a := by
  rw [List.foldl_append, foldl_idle hl, List.foldl_cons, foldl_idle hl']

end

/-! ## Walks and units in a walker -/

@[simp] theorem walksOf_setWalks (x : Bay) (l : List WalkRun) : (x.setWalks k l).walksOf k = l := by
  simp [Bay.walksOf, Bay.setWalks, Vector.get_eq_getElem]

/-- The walk of a command changed, the others of its walker being walks of other commands. -/
theorem walksOf_onWalk {x : Bay} {l l' : List WalkRun} {f : WalkRun → WalkRun} (hx : x.walksOf k = l ++ w :: l')
    (ho : ∀ a ∈ l ++ l', a.cmd.id ≠ w.cmd.id) : (x.onWalk k w.cmd.id f).walksOf k = l ++ f w :: l' := by
  rw [Bay.onWalk, walksOf_setWalks, hx]
  exact map_sole (p := fun v : WalkRun => v.cmd.id = w.cmd.id) rfl ho

/-! ## A unit's trigger (R244, R253, R287) -/

/-- What a trigger, a local read and their faults may change of a bay beside the walkers. -/
def WalkOnly (x y : Bay) : Prop :=
  y = { x with walks := y.walks, nextId := y.nextId, starts := y.starts, window := y.window, banks := y.banks, lost := y.lost
               pending := y.pending }

theorem WalkOnly.refl (x : Bay) : WalkOnly x x := rfl

theorem WalkOnly.trans {x y z : Bay} (h : WalkOnly x y) (h' : WalkOnly y z) : WalkOnly x z := by
  unfold WalkOnly at h h' ⊢
  rw [h] at h'
  exact h'

theorem WalkOnly.frame {x y : Bay} (h : WalkOnly x y) : bayMems y = bayMems x ∧ y.regs = x.regs ∧ y.queues = x.queues ∧
    y.pegUse = x.pegUse ∧ y.pegs = x.pegs ∧ y.lead = x.lead := by
  rw [h]
  exact ⟨rfl, rfl, rfl, rfl, rfl, rfl⟩

/-- The unit that a trigger puts in its walk. -/
def newUnit (s : State) (b : BayId) (c : Cmd) (i : Nat) : WalkUnit :=
  ⟨i, (s.bay b).nextId, false, false,
    s.walkClock b c + (if (c.wend false).sp = 3 then c.unitLat (s.partAt b) b false (c.wva false (c.wu i)) else 0), none, [],
    (s.bay b).window.num⟩

/-- A bay in which a unit has triggered its read. -/
def Machine.Bay.unitTriggered (x : Bay) (k : Fin 2) (c : Cmd) (r : WalkUnit) : Bay :=
  { x.onWalk k c.id (fun v => v.add r) with
    nextId := x.nextId + 1
    window := { x.window with gstores := x.window.gstores + (if (c.wend true).sp = 3 ∧ 0 < c.writes (c.wu r.i) then 1 else 0) }
    starts := x.starts ++ (if (c.wend false).sp = 3 ∧ 0 < c.live (c.wu r.i) then [⟨k, c.id, r.id, false⟩] else []) }

theorem starts_unitTriggered {x : Bay} : (x.unitTriggered k c r).starts =
    x.starts ++ (if (c.wend false).sp = 3 ∧ 0 < c.live (c.wu r.i) then [⟨k, c.id, r.id, false⟩] else []) := rfl

theorem store_unitTriggered {x : Bay} (st : BayStore) : (x.unitTriggered k c r).store st = x.store st := by cases st <;> rfl

theorem walkOnly_unitTriggered {x : Bay} : WalkOnly x (x.unitTriggered k c r) := rfl

/-- A unit that finds room in the bookkeeping table and the window triggers. -/
theorem unitTrigger_eq (hroom : s.inFlightFull b = false)
    (hwrites : (w.cmd.wend true).sp = 3 → 0 < w.cmd.writes (w.cmd.wu w.next) → (s.bay b).window.gstores < 1024) :
    s.unitTrigger b k w = s.onBay b (fun x => x.unitTriggered k w.cmd (newUnit s b w.cmd w.next)) := by
  have hgated : (w.cmd.gatedUnit (w.cmd.wu w.next) && decide (1024 ≤ (s.bay b).window.gstores)) = false := by
    by_cases h : (w.cmd.wend true).sp = 3 ∧ 0 < w.cmd.writes (w.cmd.wu w.next)
    · simp [Nat.not_le.mpr (hwrites h.1 h.2)]
    · simp only [Cmd.gatedUnit, Bool.and_eq_false_iff, decide_eq_false_iff_not]
      exact .inl (not_and_or.mp h)
  simp only [State.unitTrigger, hroom, hgated, Bool.false_eq_true, if_false]
  refine onBay_congr ?_
  simp only [Bay.unitTriggered, newUnit, decide_eq_true_eq, Cmd.gatedUnit, Bool.and_eq_true]
  by_cases hw : (w.cmd.wend true).sp = 3 ∧ 0 < w.cmd.writes (w.cmd.wu w.next) <;>
    by_cases hl : (w.cmd.wend false).sp = 3 ∧ 0 < w.cmd.live (w.cmd.wu w.next) <;>
      simp only [hw, hl, and_self, if_true, if_false, Bay.startUnit, List.append_nil, Nat.add_zero] <;> rfl

/-! ## A unit's read of a local source (R173, R241, R247) -/

/-- The state with a unit's access to its local source noted. -/
def unitUsed (s : State) (b : BayId) (c : Cmd) (u : WU) : State :=
  if (c.wend false).sp = 3 ∨ c.live u = 0 then s else s.useStore b (spStore (c.wend false).sp) (c.woff false u).toNat (c.live u) false

theorem raceNoted_unitUsed {v : WU} : RaceNoted b s (unitUsed s b c v) := by
  unfold unitUsed
  split
  · exact raceNoted_refl
  · exact raceNoted_useStore

theorem unitUsed_onBay {v : WU} {f : Bay → Bay} : unitUsed (s.onBay b f) b c v = (unitUsed s b c v).onBay b f := by
  unfold unitUsed
  split
  · rfl
  · exact useStore_onBay

/-- What a read of banks may change of a bay. -/
def BanksOnly (x y : Bay) : Prop := y = { x with banks := y.banks, lost := y.lost, pending := y.pending }

theorem BanksOnly.walkOnly {x y : Bay} (h : BanksOnly x y) : WalkOnly x y := by
  rw [h]
  rfl

theorem BanksOnly.walker {x y : Bay} (h : BanksOnly x y) : y.walksOf k = x.walksOf k ∧ y.starts = x.starts ∧ y.window = x.window := by
  rw [h]
  exact ⟨rfl, rfl, rfl⟩

/-- A read of banks changes what is known of the banks in this cycle, and may meet a conflict. -/
theorem bankRead_eq {grp : Bool} {l : List Nat} : ∃ f : Bay → Bay, s.bankRead b grp l = s.onBay b f ∧ ∀ x, BanksOnly x (f x) := by
  unfold State.bankRead
  dsimp only
  split
  · refine ⟨_, onBay_strayFault, fun x => ?_⟩
    unfold BanksOnly
    rw [metFault_eq]
    rfl
  · exact ⟨_, rfl, fun x => rfl⟩

/-- The bytes of a local source that lie in their store are read. -/
theorem unitLocalRead_eq {v : WU} (hsp : (c.wend false).sp ≠ 3) (hin : 0 < c.live v → 0 ≤ c.woff false v ∧
      c.woff false v + c.live v ≤ s.storeSize b (spStore (c.wend false).sp)) :
    ∃ f : Bay → Bay, (∀ x, BanksOnly x (f x)) ∧
      s.unitLocalRead b c v = .ok ((unitUsed s b c v).onBay b f,
        Mem.readN ((s.bay b).store (spStore (c.wend false).sp)) (c.woff false v).toNat (c.live v)) := by
  by_cases h0 : c.live v = 0
  · refine ⟨fun x => x, fun x => rfl, ?_⟩
    simp only [State.unitLocalRead, unitUsed, h0, or_true, if_true, State.onBay_id]
    rfl
  · obtain ⟨hlow, hhigh⟩ := hin (Nat.pos_of_ne_zero h0)
    have hrange : ¬ (c.woff false v < 0 ∨ (s.storeSize b (spStore (c.wend false).sp) : Int) < c.woff false v + c.live v) := by omega
    have hused : unitUsed s b c v = s.useStore b (spStore (c.wend false).sp) (c.woff false v).toNat (c.live v) false :=
      if_neg (not_or.mpr ⟨hsp, h0⟩)
    by_cases hs : spStore (c.wend false).sp = .scratch
    · refine ⟨fun x => x, fun x => rfl, ?_⟩
      rw [hused, State.onBay_id]
      simp only [State.unitLocalRead, h0, hrange, if_false]
      rw [if_pos hs]
    · obtain ⟨f, hf, hx⟩ := bankRead_eq (s := unitUsed s b c v) (b := b) (grp := decide (spStore (c.wend false).sp = .opB))
        (l := banksOf (s.bankSize b) (c.woff false v).toNat (c.live v))
      refine ⟨f, hx, ?_⟩
      rw [← hf, hused]
      simp only [State.unitLocalRead, h0, hrange, if_false]
      rw [if_neg hs]

/-- A bay in which a unit has read its bytes, to land in cycle due. -/
def Machine.Bay.unitRead' (x : Bay) (k : Fin 2) (c : Cmd) (r : WalkUnit) (data : List Byte) (due : Nat) : Bay :=
  { x.onWalk k c.id (fun q => { q with units := q.units.map (fun v =>
      if v.id = r.id then { v with data := data, landDue := some due } else v) }) with
    starts := x.starts ++ (if (c.wend true).sp = 3 ∧ c.writes (c.wu r.i) ≠ 0 then [⟨k, c.id, r.id, true⟩] else []) }

theorem starts_unitRead' {x : Bay} {data : List Byte} {due : Nat} : (x.unitRead' k c r data due).starts =
    x.starts ++ (if (c.wend true).sp = 3 ∧ c.writes (c.wu r.i) ≠ 0 then [⟨k, c.id, r.id, true⟩] else []) := rfl

theorem walkOnly_unitRead' {x : Bay} {data : List Byte} {due : Nat} : WalkOnly x (x.unitRead' k c r data due) := rfl

/-- The walks of a walker, the last unit of the last of which has been read. -/
theorem walksOf_unitRead' {x : Bay} {l l' : List WalkRun} {us us' : List WalkUnit} {data : List Byte} {due : Nat}
    (hx : x.walksOf k = l ++ w :: l') (ho : ∀ a ∈ l ++ l', a.cmd.id ≠ w.cmd.id) (hu : w.units = us ++ r :: us')
    (hn : ∀ v ∈ us ++ us', v.id ≠ r.id) : (x.unitRead' k w.cmd r data due).walksOf k =
      l ++ { w with units := us ++ { r with data := data, landDue := some due } :: us' } :: l' := by
  refine (walksOf_onWalk hx ho).trans ?_
  rw [hu, map_sole (p := fun v : WalkUnit => v.id = r.id) rfl hn]

/-- The cycles from a unit's read to its landing. -/
def landLat (s : State) (b : BayId) (c : Cmd) (u : WU) : Nat :=
  if (c.wend true).sp = 3 then c.unitLat (s.partAt b) b true (c.wva true u) else if c.isM = true then 24 else 1

theorem unitRead_local (hsp : (w.cmd.wend false).sp ≠ 3) (hin : 0 < w.cmd.live (w.cmd.wu r.i) → 0 ≤ w.cmd.woff false (w.cmd.wu r.i) ∧
      w.cmd.woff false (w.cmd.wu r.i) + w.cmd.live (w.cmd.wu r.i) ≤ s.storeSize b (spStore (w.cmd.wend false).sp)) :
    ∃ f : Bay → Bay, (∀ x, BanksOnly x (f x)) ∧
      s.unitRead b k w r = (unitUsed s b w.cmd (w.cmd.wu r.i)).onBay b (fun x => (f x).unitRead' k w.cmd r
        (Mem.readN ((s.bay b).store (spStore (w.cmd.wend false).sp)) (w.cmd.woff false (w.cmd.wu r.i)).toNat (w.cmd.live (w.cmd.wu r.i)) ++
          List.replicate (w.cmd.writes (w.cmd.wu r.i) - w.cmd.live (w.cmd.wu r.i)) 0)
        (r.readDue + landLat s b w.cmd (w.cmd.wu r.i))) := by
  obtain ⟨f, hf, hread⟩ := unitLocalRead_eq (s := s) (b := b) hsp hin
  refine ⟨f, hf, ?_⟩
  simp only [State.unitRead, hsp, ne_eq, not_false_eq_true, decide_true, if_true, hread, readN_length, State.onBay_onBay]
  refine congrArg (State.onBay _ b) (funext fun x => ?_)
  by_cases hv : (w.cmd.wend true).sp = 3
  · by_cases hw : w.cmd.writes (w.cmd.wu r.i) = 0 <;>
      simp only [Bay.unitRead', landLat, hv, hw, decide_true, decide_false, Bool.and_true, Bool.and_false, not_true_eq_false,
        not_false_eq_true, and_self, and_false, if_true, if_false, Bool.false_eq_true, ne_eq, List.append_nil] <;> rfl
  · simp only [Bay.unitRead', landLat, hv, decide_false, Bool.false_and, false_and, if_false, Bool.false_eq_true, List.append_nil]
    rfl

/-! ## A unit that triggers and, of a local source, is read (R244) -/

theorem walkClock_onBay {f : Bay → Bay} (h : (f (s.bay b)).lead = (s.bay b).lead) : (s.onBay b f).walkClock b c = s.walkClock b c := by
  simp only [State.walkClock, State.now, State.bay_onBay, h, State.poleTime_onBay]

/-- The unit of a local source as its trigger and its read in the same cycle leave it. -/
def readUnit (s : State) (b : BayId) (c : Cmd) (i : Nat) : WalkUnit :=
  let n := newUnit s b c i
  { n with
    landDue := some (n.readDue + landLat s b c (c.wu i))
    data := Mem.readN ((s.bay b).store (spStore (c.wend false).sp)) (c.woff false (c.wu i)).toNat (c.live (c.wu i)) ++
      List.replicate (c.writes (c.wu i) - c.live (c.wu i)) 0 }

/-- What the trigger of the next unit of the last walk of a walker makes of its bay. -/
structure UnitBegun (s : State) (b : BayId) (k : Fin 2) (l : List WalkRun) (w : WalkRun) (y : Bay) : Prop where
  frame : WalkOnly (s.bay b) y
  writes : y.window.gstores = (s.bay b).window.gstores + (if (w.cmd.wend true).sp = 3 ∧ 0 < w.cmd.writes (w.cmd.wu w.next) then 1 else 0)
  near : (w.cmd.wend false).sp ≠ 3 → y.walksOf k = l ++ [w.add (readUnit s b w.cmd w.next)] ∧
    y.starts = (s.bay b).starts ++ (if (w.cmd.wend true).sp = 3 ∧ w.cmd.writes (w.cmd.wu w.next) ≠ 0 then
      [⟨k, w.cmd.id, (s.bay b).nextId, true⟩] else [])
  far : (w.cmd.wend false).sp = 3 → y.walksOf k = l ++ [w.add (newUnit s b w.cmd w.next)] ∧
    y.starts = (s.bay b).starts ++ (if 0 < w.cmd.live (w.cmd.wu w.next) then [⟨k, w.cmd.id, (s.bay b).nextId, false⟩] else [])

section
variable {l : List WalkRun} (hw : (s.bay b).walksOf k = l ++ [w]) (ho : ∀ a ∈ l, a.cmd.id ≠ w.cmd.id)
  (hu : ∀ v ∈ w.units, v.id ≠ (s.bay b).nextId ∧ v.reads (s.walkClock b w.cmd) = false) (hm : MayTrigger s b w.cmd w.next)
  (hmoves : s.walkMoves b w.cmd = true)
include hw ho hu hm hmoves

omit hu hmoves in
theorem walksOf_unitTrigger : ((s.unitTrigger b k w).bay b).walksOf k = l ++ [w.add (newUnit s b w.cmd w.next)] := by
  rw [unitTrigger_eq hm.room hm.writes, State.bay_onBay]
  exact walksOf_onWalk (x := s.bay b) (l' := []) hw (by simpa using ho)

/-- A unit triggers and, where its source is local, is read in the same cycle. -/
theorem trigger_reads : ∃ f : Bay → Bay, (s.unitTrigger b k w).walkReads b k (w.add (newUnit s b w.cmd w.next)) =
      (unitUsed s b w.cmd (w.cmd.wu w.next)).onBay b f ∧ UnitBegun s b k l w (f (s.bay b)) := by
  obtain ⟨hroom, hwrites, hinside, hlat⟩ := hm
  obtain ⟨n, hn⟩ : ∃ n, newUnit s b w.cmd w.next = n := ⟨_, rfl⟩
  have hid : n.id = (s.bay b).nextId := by rw [← hn]; rfl
  have hi : n.i = w.next := by rw [← hn]; rfl
  have hwalks : ((s.bay b).unitTriggered k w.cmd n).walksOf k = l ++ [w.add n] :=
    walksOf_onWalk (x := s.bay b) (l' := []) hw (by simpa using ho)
  have hclock : (s.onBay b (fun x => x.unitTriggered k w.cmd n)).walkClock b w.cmd = s.walkClock b w.cmd := walkClock_onBay rfl
  have hmoves' : (s.onBay b (fun x => x.unitTriggered k w.cmd n)).walkMoves b (w.add n).cmd = true := hmoves
  have hbefore : ∀ v ∈ w.units, v.reads (s.walkClock b w.cmd) = false := fun v hv => (hu v hv).2
  have hcmd : (w.add n).cmd = w.cmd := rfl
  rw [unitTrigger_eq hroom hwrites, hn, State.walkReads, if_pos hmoves', hcmd, hclock]
  by_cases hsp : (w.cmd.wend false).sp = 3
  · have hn0 : n.reads (s.walkClock b w.cmd) = false := by
      have hpos := hlat hsp
      rw [← hn]
      simp only [WalkUnit.reads, newUnit, hsp, if_true, Option.isNone_none, Bool.true_and, decide_eq_false_iff_not]
      omega
    have hnone : (w.add n).units.filter (fun r => r.reads (s.walkClock b w.cmd)) = [] := by
      rw [List.filter_eq_nil_iff]
      intro v hv
      rcases List.mem_append.mp hv with hv | hv
      · simp [hbefore v hv]
      · simp [List.mem_singleton.mp hv, hn0]
    refine ⟨fun x => x.unitTriggered k w.cmd n, ?_, walkOnly_unitTriggered, ?_, fun h => absurd hsp h, fun _ => ⟨hn ▸ hwalks, ?_⟩⟩
    · rw [hnone, unitUsed, if_pos (.inl hsp)]
      rfl
    · simp only [Bay.unitTriggered, hi]
    · simp only [Bay.unitTriggered, hi, hid, hsp, true_and]
  · have hn1 : n.reads (s.walkClock b w.cmd) = true := by
      rw [← hn]
      simp [WalkUnit.reads, newUnit, hsp]
    have hone : (w.add n).units.filter (fun r => r.reads (s.walkClock b w.cmd)) = [n] := filter_sole hn1 (by simpa using hbefore)
    obtain ⟨f, hf, hread⟩ := unitRead_local (s := s.onBay b (fun x => x.unitTriggered k w.cmd n)) (b := b) (k := k) (w := w.add n) (r := n)
      hsp (by rw [hi]; exact hinside hsp)
    obtain ⟨hfw, hfs, hfwin⟩ := (hf ((s.bay b).unitTriggered k w.cmd n)).walker (k := k)
    rw [hcmd, hi, State.bay_onBay, store_unitTriggered] at hread
    rw [hone, List.foldl_cons, List.foldl_nil, hread, unitUsed_onBay, State.onBay_onBay]
    refine ⟨_, rfl, (walkOnly_unitTriggered.trans (hf _).walkOnly).trans walkOnly_unitRead', ?_, fun _ => ⟨?_, ?_⟩, fun h => absurd h hsp⟩
    · refine (congrArg Window.gstores hfwin).trans ?_
      simp only [Bay.unitTriggered, hi]
    · refine (walksOf_unitRead' (w := w.add n) (r := n) (us' := []) (hfw.trans hwalks) (by simpa [hcmd] using ho) rfl
        (by simpa [hid] using fun v hv => (hu v hv).1)).trans ?_
      rw [readUnit, hn]
      rfl
    · rw [starts_unitRead', hfs, starts_unitTriggered, if_neg (fun h => hsp h.1), List.append_nil, hi, hid]
end

/-- What a bay keeps where its command leaves its queue and a walk joins a walker: all that a trigger looks at. -/
structure Keeps (x y : Bay) : Prop where
  stores : ∀ st : BayStore, y.store st = x.store st
  mems : bayMems y = bayMems x
  regs : y.regs = x.regs
  nextId : y.nextId = x.nextId
  window : y.window = x.window
  starts : y.starts = x.starts
  lead : y.lead = x.lead

/-- A unit that triggers, told of the state before its walk joined the walker. -/
theorem triggered_of_begun {f g : Bay → Bay} {l : List WalkRun} (hg : Keeps (s.bay b) (g (s.bay b)))
    (h : UnitBegun (s.onBay b g) b k l w (f (g (s.bay b)))) (hu : RaceNoted b s u) :
    Triggered s (u.onBay b (fun x => f (g x))) b k w.cmd w.next (fun r => l ++ [w.add r]) := by
  have hclock : (s.onBay b g).walkClock b w.cmd = s.walkClock b w.cmd := walkClock_onBay hg.lead
  obtain ⟨hframe, hwrites, hnear, hfar⟩ := h
  rw [State.bay_onBay] at hframe hwrites hnear hfar
  have hnew : newUnit (s.onBay b g) b w.cmd w.next = newUnit s b w.cmd w.next := by
    simp only [newUnit, State.bay_onBay, hg.nextId, hg.window, hclock, State.partAt_onBay]
  have hread : readUnit (s.onBay b g) b w.cmd w.next = readUnit s b w.cmd w.next := by
    simp only [readUnit, hnew, State.bay_onBay, hg.stores]
    rfl
  have hbay : (u.onBay b (fun x => f (g x))).bay b = f (g (s.bay b)) := by rw [State.bay_onBay, hu.bay]
  obtain ⟨hmems, hregs, -, -, -, -⟩ := hframe.frame
  refine ⟨hu.onlyOwn, ?_, ?_, ?_, fun hsp => ?_, fun hsp => ?_⟩ <;> rw [hbay]
  · exact hmems.trans hg.mems
  · exact hregs.trans hg.regs
  · rw [hwrites, hg.window]
  · obtain ⟨hw, hs⟩ := hnear hsp
    rw [hw, hs, hread, hg.starts, hg.nextId]
    refine ⟨?_, rfl⟩
    simp only [readUnit, newUnit, if_neg hsp, Nat.add_zero, landLat]
  · obtain ⟨hw, hs⟩ := hfar hsp
    rw [hw, hs, hnew, hg.starts, hg.nextId]
    refine ⟨?_, rfl⟩
    simp only [newUnit, if_pos hsp]

/-! ## A walk begins (R226, R244) -/

/-- The engine of a walker. -/
def walkerEngine (k : Fin 2) : Engine := if k = 0 then .wk0 else .wk1

theorem walkerEngine_eq : (if k = 0 then Engine.wk0 else .wk1) = walkerEngine k := rfl

/-- A walk without units on their way adds nothing to the bookkeeping table. -/
theorem booked_join {f : Bay → Bay} {l : List WalkRun} (hacc : (f (s.bay b)).acc = (s.bay b).acc)
    (harr : (f (s.bay b)).arriving = (s.bay b).arriving) (hl : (s.bay b).walksOf k = l) (hu : w.units = [])
    (hw : (f (s.bay b)).walks = (s.bay b).walks.set k.val (l ++ [w]) k.isLt) : (s.onBay b f).booked b = s.booked b := by
  have harrAll (c : BayId) : ((s.onBay b f).bay c).arriving = (s.bay c).arriving := by
    by_cases hc : c = b
    · rw [hc, State.bay_onBay, harr]
    · rw [State.bay_onBay_ne _ _ _ _ hc]
  have hunits : ((s.bay b).walks.set k.val (l ++ [w]) k.isLt).toList.map (fun l => (l.map (fun w => w.units.length)).sum) =
      (s.bay b).walks.toList.map (fun l => (l.map (fun w => w.units.length)).sum) := by
    have hk : k.val < (s.bay b).walks.toList.length := by rw [Vector.length_toList]; exact k.isLt
    have hget : (s.bay b).walks.toList[k.val] = l := by
      rw [← hl, Bay.walksOf, Vector.get_eq_getElem]
      simp
    rw [Vector.toList_set, List.map_set, List.map_append, List.sum_append, List.map_singleton, hu, List.length_nil, List.sum_singleton,
      Nat.add_zero]
    conv_rhs => rw [← List.set_getElem_self (as := (s.bay b).walks.toList.map _) (i := k.val) (by rw [List.length_map]; exact hk)]
    rw [List.getElem_map, hget]
  simp only [State.booked, State.bayN, harrAll]
  rw [State.bay_onBay, hacc, hw, hunits]

section
variable {rest : List Cmd} {l : List WalkRun}

/-- A bay whose walk has left its queue and joined its walker. -/
def Machine.Bay.walkJoined (x : Bay) (k : Fin 2) (c : Cmd) (l : List WalkRun) : Bay :=
  ((x.dequeue (walkerEngine k)).consume c).setWalks k l

theorem walkJoined_eq {x : Bay} : x.walkJoined k c l = { x with
    queues := (x.dequeue (walkerEngine k)).queues, pegUse := c.consumes ++ x.pegUse, walks := x.walks.set k.val l k.isLt } := rfl

theorem keeps_walkJoined {x : Bay} : Keeps x (x.walkJoined k c l) := by
  rw [walkJoined_eq]
  exact ⟨fun st => by cases st <;> rfl, rfl, rfl, rfl, rfl, rfl, rfl⟩

theorem booking_walkJoined {x : Bay} : (x.walkJoined k c l).acc = x.acc ∧ (x.walkJoined k c l).arriving = x.arriving ∧
    (x.walkJoined k c l).walks = x.walks.set k.val l k.isLt := by
  rw [walkJoined_eq]
  exact ⟨rfl, rfl, rfl⟩

theorem walksOf_consumed {x : Bay} {e : Engine} : ((x.dequeue e).consume c).walksOf k = x.walksOf k := rfl

variable (h : Begins s b (walkerEngine k) c rest)
include h

theorem begun_walk {y : Bay} (hy : y.queues = ((s.bay b).dequeue (walkerEngine k)).queues)
    (huse : y.pegUse = c.consumes ++ (s.bay b).pegUse) (hpegs : y.pegs = (s.bay b).pegs) (hregs : y.regs = (s.bay b).regs)
    (ht : t.bay b = y) : Begun s t b (walkerEngine k) c rest := by
  have hq (e : Engine) : y.queue e = ((s.bay b).setQueue (walkerEngine k) rest).queue e := by
    rw [Bay.queue, hy, h.dequeue, Bay.queue]
  unfold Begun
  rw [ht]
  refine ⟨(hq _).trans (queue_setQueue ..), fun e' he => (hq e').trans (queue_setQueue_ne _ _ he), huse, hpegs, hregs⟩

variable (hl : (s.bay b).walksOf k = l) (hfree : ∀ a ∈ l, a.next = a.total ∧ a.begun + a.total ≤ s.walkClock b a.cmd ∧ a.cmd.id ≠ c.id)
  (hmoves : c.bothLocal = true ∨ (s.partAt b).held = false)
include hl hfree hmoves

omit h hmoves in
theorem walker_free : ((s.bay b).walksOf k).all (fun w => decide (w.next = w.total) &&
    decide (w.begun + w.total ≤ s.walkClock b w.cmd)) = true := by
  rw [hl, List.all_eq_true]
  intro a ha
  obtain ⟨hnext, hbegun, -⟩ := hfree a ha
  simp [hnext, hbegun]

omit h hl hfree in
theorem walkMoves_of : s.walkMoves b c = true := by
  rcases hmoves with hb | hh <;> simp [State.walkMoves, *]

/-- A walk whose region check fails has left its queue, and its bay has met the fault (R226). -/
theorem exec_walkBegin_forbidden {va : Addr} (hf : c.forbidden (s.partAt b) b = some va) :
    exec (.walkBegin b k) s = .next (s.onBay b (fun x => metFault .region va ((x.dequeue (walkerEngine k)).consume c))) := by
  change execWalkBegin b k s = _
  simp only [execWalkBegin, walkerEngine_eq, h.headReady, walker_free hl hfree, walkMoves_of hmoves, hf, Bool.not_true, Bool.or_self,
    Bool.false_eq_true, if_false, onBay_strayFault]
  rfl

/-- A walk that begins joins its walker, its first unit triggers, and where its source is local is read (R244). -/
theorem exec_walkBegin {w : WalkRun} (hw : w = ⟨c, s.walkClock b c, c.units, 0, [], 0⟩) (hf : c.forbidden (s.partAt b) b = none)
    (ha : c.isAsync (s.partAt b) = false) (hm : MayTrigger s b c 0) :
    ∃ f : Bay → Bay, exec (.walkBegin b k) s = .next ((unitUsed s b c (c.wu 0)).onBay b (fun x => f (x.walkJoined k c (l ++ [w])))) ∧
      UnitBegun (s.onBay b (fun x => x.walkJoined k c (l ++ [w]))) b k l w (f ((s.bay b).walkJoined k c (l ++ [w]))) := by
  have hcmd : w.cmd = c := by rw [hw]
  have hnext : w.next = 0 := by rw [hw]
  have hunits : w.units = [] := by rw [hw]
  have ho : ∀ a ∈ l, a.cmd.id ≠ w.cmd.id := fun a ha => by rw [hcmd]; exact (hfree a ha).2.2
  have hkeep : Keeps (s.bay b) ((s.bay b).walkJoined k c (l ++ [w])) := keeps_walkJoined
  obtain ⟨s2, hs2⟩ : ∃ s2, s.onBay b (fun x => x.walkJoined k c (l ++ [w])) = s2 := ⟨_, rfl⟩
  have hbay : s2.bay b = (s.bay b).walkJoined k c (l ++ [w]) := by rw [← hs2, State.bay_onBay]
  have hmay : MayTrigger s2 b w.cmd w.next := by
    obtain ⟨hroom, hwrites, hinside, hlat⟩ := hm
    rw [hcmd, hnext]
    refine ⟨?_, ?_, ?_, ?_⟩
    · obtain ⟨hacc, harr, hset⟩ := booking_walkJoined (x := s.bay b) (k := k) (c := c) (l := l ++ [w])
      have hb := booked_join (f := fun x => x.walkJoined k c (l ++ [w])) hacc harr hl hunits hset
      rw [hs2] at hb
      rw [State.inFlightFull, hb, ← hs2]
      exact hroom
    · rw [hbay, hkeep.window]
      exact hwrites
    · rw [← hs2]
      exact hinside
    · rw [← hs2]
      exact hlat
  have hmoves2 : s2.walkMoves b w.cmd = true := by
    rw [hcmd, ← hs2]
    exact walkMoves_of hmoves
  have hwalks : (s2.bay b).walksOf k = l ++ [w] := by rw [hbay]; exact walksOf_setWalks _ _
  have hjoin : (s.onBay b (fun x => (x.dequeue (walkerEngine k)).consume c)).onBay b (fun x => x.setWalks k (x.walksOf k ++ [w])) = s2 := by
    rw [State.onBay_onBay, ← hs2]
    refine onBay_congr ?_
    simp only [walksOf_consumed, hl, Bay.walkJoined]
  obtain ⟨f, hf2, hbegun⟩ := trigger_reads hwalks ho (by simp [hunits]) hmay hmoves2
  rw [hbay] at hbegun
  rw [hs2]
  refine ⟨f, ?_, hbegun⟩
  change execWalkBegin b k s = _
  simp only [execWalkBegin, walkerEngine_eq, h.headReady, walker_free hl hfree, walkMoves_of hmoves, hf, ha, Bool.not_true, Bool.or_self,
    Bool.false_eq_true, if_false, ← hw, hjoin, walksOf_unitTrigger hwalks ho hmay]
  rw [foldl_only (l' := []) (fun a hmem => if_neg (hfree a hmem).2.2) (fun _ hmem => absurd hmem List.not_mem_nil)]
  rw [if_pos (by exact congrArg Cmd.id hcmd), hf2, hcmd, hnext, ← hs2, unitUsed_onBay, State.onBay_onBay]

end

end Sys2Proof
end

section
/-!
PROOF. Walks that begin and trigger (R226, R244).
-/

namespace Sys2Proof
open Machine Laws

variable {s t u : State} {b : BayId} {k : Fin 2} {c : Cmd} {w : WalkRun} {r : WalkUnit}

/-! ## The walk's first unit, and the units after it -/

theorem walkJoined_frame {x : Bay} {l : List WalkRun} : (x.walkJoined k c l).queues = (x.dequeue (walkerEngine k)).queues ∧
    (x.walkJoined k c l).pegUse = c.consumes ++ x.pegUse ∧ (x.walkJoined k c l).pegs = x.pegs ∧ (x.walkJoined k c l).regs = x.regs :=
  ⟨rfl, rfl, rfl, rfl⟩

theorem walk_begins {rest : List Cmd} {l : List WalkRun} (h : Begins s b (walkerEngine k) c rest) (hl : (s.bay b).walksOf k = l)
    (hfree : ∀ a ∈ l, a.next = a.total ∧ a.begun + a.total ≤ s.walkClock b a.cmd ∧ a.cmd.id ≠ c.id)
    (hmoves : c.bothLocal = true ∨ (s.partAt b).held = false) (hf : c.forbidden (s.partAt b) b = none)
    (ha : c.isAsync (s.partAt b) = false) (hm : MayTrigger s b c 0) :
    ∃ t : State, exec (.walkBegin b k) s = .next t ∧ Begun s t b (walkerEngine k) c rest ∧
      Triggered s t b k c 0 (fun r => l ++ [⟨c, s.walkClock b c, c.units, 1, [r], 0⟩]) := by
  obtain ⟨w, hw⟩ : ∃ w, (⟨c, s.walkClock b c, c.units, 0, [], 0⟩ : WalkRun) = w := ⟨_, rfl⟩
  obtain ⟨f, hexec, hbegun⟩ := exec_walkBegin h hl hfree hmoves hw.symm hf ha hm
  have hbay : ((unitUsed s b c (c.wu 0)).onBay b (fun x => f (x.walkJoined k c (l ++ [w])))).bay b =
      f ((s.bay b).walkJoined k c (l ++ [w])) := by
    rw [State.bay_onBay, raceNoted_unitUsed.bay]
  have hframe := hbegun.frame
  rw [State.bay_onBay] at hframe
  obtain ⟨-, hregs, hqueues, huse, hpegs, -⟩ := hframe.frame
  obtain ⟨hqueues', huse', hpegs', hregs'⟩ := walkJoined_frame (x := s.bay b) (k := k) (c := c) (l := l ++ [w])
  refine ⟨_, hexec, begun_walk h (hqueues.trans hqueues') (huse.trans huse') (hpegs.trans hpegs') (hregs.trans hregs') hbay, ?_⟩
  have htrig := triggered_of_begun (u := unitUsed s b c (c.wu 0)) (g := fun x => x.walkJoined k c (l ++ [w])) keeps_walkJoined hbegun
    raceNoted_unitUsed
  rw [← hw] at htrig ⊢
  exact htrig

/-- What a fault leaves of the bay that meets it. -/
theorem metFault_frame {f : Cause} {i : Info} {y : Bay} : (metFault f i y).queues = y.queues ∧ (metFault f i y).pegUse = y.pegUse ∧
    (metFault f i y).pegs = y.pegs ∧ (metFault f i y).regs = y.regs ∧ (metFault f i y).walks = y.walks ∧
    (metFault f i y).pegSet = y.pegSet := by
  rw [metFault_eq]
  exact ⟨rfl, rfl, rfl, rfl, rfl, rfl⟩

theorem walk_forbidden {rest : List Cmd} {l : List WalkRun} {va : Addr} (h : Begins s b (walkerEngine k) c rest)
    (hl : (s.bay b).walksOf k = l) (hfree : ∀ a ∈ l, a.next = a.total ∧ a.begun + a.total ≤ s.walkClock b a.cmd ∧ a.cmd.id ≠ c.id)
    (hmoves : c.bothLocal = true ∨ (s.partAt b).held = false) (hf : c.forbidden (s.partAt b) b = some va)
    (hp : (s.bay b).pending = none) :
    ∃ t : State, exec (.walkBegin b k) s = .next t ∧ OnlyBay b s t ∧ Begun s t b (walkerEngine k) c rest ∧ (t.bay b).walksOf k = l ∧
      (t.bay b).pegSet = (s.bay b).pegSet ∧ bayMems (t.bay b) = bayMems (s.bay b) ∧
      (t.bay b).pending.map (fun p => (p.fault.cause, p.fault.info)) = some (.region, va) := by
  refine ⟨_, exec_walkBegin_forbidden h hl hfree hmoves hf, onlyBay_onBay .., ?_⟩
  obtain ⟨hqueues, huse, hpegs, hregs, hwalks, hset⟩ :=
    metFault_frame (f := .region) (i := va) (y := ((s.bay b).dequeue (walkerEngine k)).consume c)
  refine ⟨begun_walk h hqueues huse hpegs hregs (State.bay_onBay ..), ?_⟩
  rw [State.bay_onBay]
  refine ⟨?_, hset, bayMems_metFault, metFault_pending hp⟩
  rw [Bay.walksOf, hwalks]
  exact hl

theorem walkReads_idle (h : ∀ v ∈ w.units, v.reads (s.walkClock b w.cmd) = false) : s.walkReads b k w = s := by
  unfold State.walkReads
  split
  · rw [List.filter_eq_nil_iff.mpr (fun v hv => Bool.eq_false_iff.mp (h v hv))]
    rfl
  · rfl

theorem walk_triggers {l : List WalkRun} (hw : (s.bay b).walksOf k = l ++ [w]) (hmoves : s.walkMoves b w.cmd = true)
    (hnext : w.next < w.total) (hdue : w.begun + w.next ≤ s.walkClock b w.cmd) (hm : MayTrigger s b w.cmd w.next)
    (hl : ∀ a ∈ l, a.next = a.total ∧ a.cmd.id ≠ w.cmd.id ∧ ∀ v ∈ a.units, v.reads (s.walkClock b a.cmd) = false)
    (hu : ∀ v ∈ w.units, v.id ≠ (s.bay b).nextId ∧ v.reads (s.walkClock b w.cmd) = false) :
    ∃ t : State, exec (.walkUnitRead b k) s = .next t ∧ (t.bay b).queues = (s.bay b).queues ∧
      Triggered s t b k w.cmd w.next (fun r => l ++ [{ w with next := w.next + 1, units := w.units ++ [r] }]) := by
  have ho : ∀ a ∈ l, a.cmd.id ≠ w.cmd.id := fun a ha => (hl a ha).2.1
  obtain ⟨f, hread, hbegun⟩ := trigger_reads hw ho hu hm hmoves
  have hclock (a : WalkRun) : (s.unitTrigger b k w).walkClock b a.cmd = s.walkClock b a.cmd := by
    rw [unitTrigger_eq hm.room hm.writes]
    exact walkClock_onBay rfl
  have hexec : exec (.walkUnitRead b k) s = .next ((unitUsed s b w.cmd (w.cmd.wu w.next)).onBay b f) := by
    change execWalkUnitRead b k s = _
    unfold execWalkUnitRead
    dsimp only
    rw [hw, foldl_only (l' := []) (fun a ha => if_neg (fun hc => hc.2.1.ne (hl a ha).1)) (fun _ h => absurd h List.not_mem_nil),
      if_pos ⟨hmoves, hnext, hdue⟩, walksOf_unitTrigger hw ho hm,
      foldl_only (l' := []) (fun a ha => walkReads_idle (by rw [hclock]; exact (hl a ha).2.2)) (fun _ h => absurd h List.not_mem_nil), hread]
  refine ⟨_, hexec, ?_, triggered_of_begun (g := fun x => x) ⟨fun _ => rfl, rfl, rfl, rfl, rfl, rfl, rfl⟩ ?_ raceNoted_unitUsed⟩
  · rw [State.bay_onBay, raceNoted_unitUsed.bay]
    exact hbegun.frame.frame.2.2.1
  · rw [State.onBay_id]
    exact hbegun

end Sys2Proof
end

section
/-!
PROOF. What units look at of a plan, and the read of a unit of a VA source (R203, R241, R244).
-/

namespace Sys2Proof
open Machine Laws

variable {s t u : State} {q : PartId} {b : BayId} {k : Fin 2} {c : Cmd} {w : WalkRun} {r : WalkUnit}

/-! ## What is kept of partitions -/

/-- What a partition keeps while accesses are noted and its pages are marked: its bents, time, spaces, pages and walks. -/
structure PartKept (p p' : Part) : Prop where
  mode : p'.mode = p.mode
  hdr : p'.hdr = p.hdr
  framec : p'.framec = p.framec
  polec : p'.polec = p.polec
  mem : p'.mem = p.mem
  regions : p'.regions = p.regions
  fab : p'.fab = p.fab
  asyncs : p'.asyncs = p.asyncs
  entry : ∀ a : Nat, findEntry p'.tt a = findEntry p.tt a

theorem PartKept.refl (p : Part) : PartKept p p := ⟨rfl, rfl, rfl, rfl, rfl, rfl, rfl, rfl, fun _ => rfl⟩

theorem PartKept.trans {p p' p'' : Part} (h : PartKept p p') (h' : PartKept p' p'') : PartKept p p'' :=
  ⟨h'.mode.trans h.mode, h'.hdr.trans h.hdr, h'.framec.trans h.framec, h'.polec.trans h.polec, h'.mem.trans h.mem,
    h'.regions.trans h.regions, h'.fab.trans h.fab, h'.asyncs.trans h.asyncs, fun a => (h'.entry a).trans (h.entry a)⟩

theorem PartKept.time {p p' : Part} (h : PartKept p p') : p'.time = p.time := by
  simp only [Part.time, h.framec, h.hdr, h.polec]

theorem PartKept.formed {p p' : Part} (h : PartKept p p') : p'.formed = p.formed := by
  simp only [Part.formed, h.mode]

theorem PartKept.regionAt {p p' : Part} (h : PartKept p p') (a : Nat) : Machine.regionAt p' a = Machine.regionAt p a := by
  have hsize (r : Region) : regionSize p' r = regionSize p r := by
    simp only [regionSize, granule]
    rw [h.entry]
  simp only [Machine.regionAt, hsize, h.regions]

theorem PartKept.gatePlace {p p' : Part} (h : PartKept p p') (va : Addr) : Machine.gatePlace p' va = Machine.gatePlace p va := by
  simp only [Machine.gatePlace, h.entry, h.mem, h.regionAt]

/-- Every partition keeps its bents, time, spaces, pages and walks. -/
def PlanKept (s t : State) : Prop := ∀ q : PartId, PartKept (s.part q) (t.part q)

theorem PlanKept.refl (s : State) : PlanKept s s := fun q => .refl (s.part q)

theorem PlanKept.trans (h : PlanKept s t) (h' : PlanKept t u) : PlanKept s u := fun q => (h q).trans (h' q)

theorem planKept_onPart {f : Part → Part} (h : ∀ p, PartKept p (f p)) : PlanKept s (s.onPart q f) := by
  intro q'
  by_cases hq : q' = q
  · subst hq
    rw [State.part_onPart]
    exact h _
  · rw [State.part_onPart_ne _ _ _ _ hq]
    exact .refl _

theorem NotesOnly.planKept (h : NotesOnly s t) : PlanKept s t := by
  intro q
  obtain ⟨r, hr⟩ := h.part q
  rw [hr]
  exact ⟨rfl, rfl, rfl, rfl, rfl, rfl, rfl, rfl, fun _ => rfl⟩

theorem PlanKept.partOf (h : PlanKept s t) : t.partOf b = s.partOf b := by
  simp only [State.partOf, State.partOfBent, (h _).formed, (h _).hdr]

theorem PlanKept.partAt (h : PlanKept s t) : PartKept (s.partAt b) (t.partAt b) := by
  unfold State.partAt
  rw [h.partOf]
  split
  · exact h _
  · exact .refl _

theorem PlanKept.poleTime (h : PlanKept s t) : t.poleTime b = s.poleTime b := h.partAt.time

theorem PlanKept.walkClock (h : PlanKept s t) (hlead : (t.bay b).lead = (s.bay b).lead) : t.walkClock b c = s.walkClock b c := by
  simp only [State.walkClock, State.now, h.poleTime, hlead]

/-- Gate places and devices are all that arrivals look at. -/
theorem CountsAt.of_kept {s' : State} {gate : Addr} {n : Nat} (h : CountsAt t u q gate n) (hp : gatePlace (t.part q) gate = gatePlace (s.part q) gate)
    (hdev : t.ring = s.ring ∧ t.lpddr = s.lpddr ∧ t.hostMem = s.hostMem)
    (hu : s'.ring = u.ring ∧ s'.lpddr = u.lpddr ∧ s'.hostMem = u.hostMem ∧ (s'.part q).gatesDue = (u.part q).gatesDue) :
    CountsAt s s' q gate n := by
  obtain ⟨hring, hlpddr, hhost⟩ := hdev
  obtain ⟨hring', hlpddr', hhost', hdue⟩ := hu
  obtain ⟨hzero, hgate⟩ := h
  refine ⟨fun h0 => ?_, fun pl h0 hpl => ?_⟩
  · obtain ⟨hr, hl, hh⟩ := hzero h0
    exact ⟨hring'.trans (hr.trans hring), hlpddr'.trans (hl.trans hlpddr), hhost'.trans (hh.trans hhost)⟩
  · have hat : t.gateAt pl = s.gateAt pl := by
      cases pl <;> simp only [State.gateAt, State.readPlaceN, State.readPlace, hring, hlpddr]
    have hwrite (d : List Byte) : (t.writePlace pl d).ring = (s.writePlace pl d).ring ∧
        (t.writePlace pl d).lpddr = (s.writePlace pl d).lpddr := by
      cases pl <;> simp only [State.writePlace, hring, hlpddr, and_self]
    obtain ⟨new, ⟨hr, hl, hh⟩, hexp, harr, hphase, hmem⟩ := hgate pl h0 (hp.trans hpl)
    obtain ⟨hwr, hwl⟩ := hwrite (leBytes 16 new.toNat)
    rw [hat] at hexp harr hphase
    exact ⟨new, ⟨hring'.trans (hr.trans hwr), hlpddr'.trans (hl.trans hwl), hhost'.trans (hh.trans hhost)⟩, hexp, harr, hphase,
      hdue ▸ hmem⟩

/-! ## The read of a unit of a VA source -/

theorem planKept_orderAccess {va : Addr} : PlanKept s (s.orderAccess b va) := by
  obtain ⟨v, hv⟩ := orderAccess_eq (s := s) (b := b) (va := va)
  rw [hv]
  exact .refl s

theorem planKept_useRegion {va : Addr} {party stamp : Nat} {seen : List (Nat × Nat)} :
    PlanKept s (s.useRegion q va party stamp seen) := by
  unfold State.useRegion
  split
  · exact .refl s
  · exact planKept_onPart (fun _ => ⟨rfl, rfl, rfl, rfl, rfl, rfl, rfl, rfl, fun _ => rfl⟩)

theorem planKept_noteRead {va : Addr} {pl : Place} {n : Nat} : PlanKept s (s.noteRead b va pl n) := by
  unfold State.noteRead
  split
  · exact .refl s
  · exact (NotesOnly.planKept (t := s.note b pl n false 0 (s.poleTime b) (s.seenBy b.val)) notesOnly_note).trans planKept_useRegion

/-- A unit of a VA source on a page of this chip reads the bytes as its bay sees them. -/
theorem unitVaRead_here {x : Xlat} {v : WU} (hlive : 0 < c.live v) (hx : unitVaChk s b false (c.wva false v) = .ok x)
    (hch : ∀ f e a, x.place ≠ .chip f e a) :
    ∃ t : State, s.unitVaRead b c r v = .ok (t, s.readAs b (s.poleTime b) x.place (c.live v)) ∧ SameDevices s t ∧ PlanKept s t := by
  have hord : SameDevices s (s.orderAccess b (c.wva false v)) := sameDevices_orderAccess
  refine ⟨(s.orderAccess b (c.wva false v)).noteRead b (c.wva false v) x.place (c.live v), ?_,
    hord.trans sameDevices_noteRead, planKept_orderAccess.trans planKept_noteRead⟩
  unfold State.unitVaRead
  simp only [Nat.ne_of_gt hlive, if_false, hx]
  rw [hord.readAs]
  cases hpl : x.place with
  | chip f e a => exact absurd hpl (hch f e a)
  | ring a n => rfl
  | lpddr a n => rfl

/-- A unit of a VA source on a page of this chip, as its read leaves it (R244). -/
def farUnit (s : State) (b : BayId) (c : Cmd) (r : WalkUnit) (x : Xlat) : WalkUnit :=
  { r with
    data := s.readAs b (s.poleTime b) x.place (c.live (c.wu r.i)) ++ List.replicate (c.writes (c.wu r.i) - c.live (c.wu r.i)) 0
    landDue := some (r.readDue + landLat s b c (c.wu r.i)) }

theorem unitRead_far {x : Xlat} (hsp : (w.cmd.wend false).sp = 3) (hlive : 0 < w.cmd.live (w.cmd.wu r.i))
    (hx : unitVaChk s b false (w.cmd.wva false (w.cmd.wu r.i)) = .ok x) (hch : ∀ f e a, x.place ≠ .chip f e a) :
    ∃ (u : State) (f : Bay → Bay), s.unitRead b k w r = u.onBay b f ∧ SameDevices s u ∧ PlanKept s u ∧
      ∀ y : Bay, f y = (y.unitRead' k w.cmd r (farUnit s b w.cmd r x).data (r.readDue + landLat s b w.cmd (w.cmd.wu r.i))).keepReplay
        (s.poleTime b) (leNat (s.readAs b (s.poleTime b) x.place (w.cmd.live (w.cmd.wu r.i)))) := by
  obtain ⟨u, hread, hdev, hplan⟩ := unitVaRead_here (r := r) hlive hx hch
  refine ⟨u, _, ?_, hdev, hplan, fun y => rfl⟩
  simp only [State.unitRead, hsp, ne_eq, not_true_eq_false, decide_false, Bool.false_eq_true, if_false, hread, readAs_length, farUnit]
  refine congrArg (State.onBay u b) (funext fun y => ?_)
  by_cases hv : (w.cmd.wend true).sp = 3
  · by_cases hw : w.cmd.writes (w.cmd.wu r.i) = 0 <;>
      simp only [Bay.unitRead', landLat, hv, hw, decide_true, decide_false, Bool.and_true, Bool.and_false, not_true_eq_false,
        not_false_eq_true, and_self, and_false, if_true, if_false, Bool.false_eq_true, ne_eq, List.append_nil] <;> rfl
  · simp only [Bay.unitRead', landLat, hv, decide_false, Bool.false_and, false_and, if_false, Bool.false_eq_true, List.append_nil]
    rfl

/-- The units of a walker's walks whose reads perform are read, where no unit triggers. -/
theorem exec_walkUnitRead_quiet {l : List WalkRun} (hl : (s.bay b).walksOf k = l)
    (h : ∀ a ∈ l, a.next = a.total ∨ s.walkClock b a.cmd < a.begun + a.next) :
    exec (.walkUnitRead b k) s = .next (l.foldl (fun acc w => acc.walkReads b k w) s) := by
  have hnone : ∀ a ∈ l, ¬ (s.walkMoves b a.cmd = true ∧ a.next < a.total ∧ a.begun + a.next ≤ s.walkClock b a.cmd) := by
    intro a ha ⟨_, hn, hd⟩
    rcases h a ha with hn' | hd' <;> omega
  change execWalkUnitRead b k s = _
  unfold execWalkUnitRead
  dsimp only
  rw [hl, foldl_idle (v := s) (fun a ha => if_neg (hnone a ha)), hl]

theorem walkReads_sole {us us' : List WalkUnit} (hmoves : s.walkMoves b w.cmd = true) (hunits : w.units = us ++ r :: us')
    (hr : r.reads (s.walkClock b w.cmd) = true) (hidle : ∀ v ∈ us ++ us', v.reads (s.walkClock b w.cmd) = false) :
    s.walkReads b k w = s.unitRead b k w r := by
  rw [State.walkReads, if_pos hmoves, hunits, filter_sole (p := fun v : WalkUnit => v.reads (s.walkClock b w.cmd)) hr hidle]
  rfl

/-- What a read of shared memory keeps of its bay. -/
theorem readFar_frame {x : Bay} {data : List Byte} {due now n : Nat} :
    ((x.unitRead' k c r data due).keepReplay now n).lead = x.lead ∧ ((x.unitRead' k c r data due).keepReplay now n).regs = x.regs ∧
      bayMems ((x.unitRead' k c r data due).keepReplay now n) = bayMems x := by
  obtain ⟨w, l, h⟩ : ∃ w l, x.unitRead' k c r data due = { x with walks := w, starts := l } := ⟨_, _, rfl⟩
  rw [h]
  exact ⟨rfl, rfl, rfl⟩

theorem walk_reads_far {l l' : List WalkRun} {us us' : List WalkUnit} {x : Xlat} (h : SoleUnit (s.bay b) k l l' w us us' r)
    (hmoves : s.walkMoves b w.cmd = true) (hsp : (w.cmd.wend false).sp = 3) (hlive : 0 < w.cmd.live (w.cmd.wu r.i))
    (hnot : r.landDue = none) (hdue : r.readDue ≤ s.walkClock b w.cmd)
    (hquiet : ∀ a ∈ l ++ w :: l', a.next = a.total ∨ s.walkClock b a.cmd < a.begun + a.next)
    (hidle : ∀ a ∈ l ++ l', ∀ v ∈ a.units, v.reads (s.walkClock b a.cmd) = false)
    (hunits : ∀ v ∈ us ++ us', v.reads (s.walkClock b w.cmd) = false)
    (hx : unitVaChk s b false (w.cmd.wva false (w.cmd.wu r.i)) = .ok x) (hch : ∀ f e a, x.place ≠ .chip f e a) :
    ∃ t : State, exec (.walkUnitRead b k) s = .next t ∧ SameMemory s t ∧ (∀ b' : BayId, b' ≠ b → t.bay b' = s.bay b') ∧
      (t.bay b).regs = (s.bay b).regs ∧
      (t.bay b).walksOf k = l ++ { w with units := us ++ farUnit s b w.cmd r x :: us' } :: l' := by
  obtain ⟨hwalks, hof, hnamed, hothers⟩ := h
  obtain ⟨hbefore, hafter⟩ := List.forall_mem_append.mp hidle
  obtain ⟨u, f, hread, hdev, hplan, hf⟩ := unitRead_far (k := k) hsp hlive hx hch
  have hreads : r.reads (s.walkClock b w.cmd) = true := by simp [WalkUnit.reads, hnot, hdue]
  obtain ⟨hlead', hregs, hmems⟩ := readFar_frame (x := s.bay b) (k := k) (c := w.cmd) (r := r) (data := (farUnit s b w.cmd r x).data)
    (due := r.readDue + landLat s b w.cmd (w.cmd.wu r.i)) (now := s.poleTime b)
    (n := leNat (s.readAs b (s.poleTime b) x.place (w.cmd.live (w.cmd.wu r.i))))
  rw [← hf] at hlead' hregs hmems
  have hlead : ((u.onBay b f).bay b).lead = (s.bay b).lead := by rw [hdev.onBay_bay, hlead']
  have hclock (a : WalkRun) : (u.onBay b f).walkClock b a.cmd = s.walkClock b a.cmd :=
    PlanKept.walkClock (fun q => hplan q) hlead
  have hwalk : s.walkReads b k w = u.onBay b f := (walkReads_sole hmoves hof hreads hunits).trans hread
  have hfold : (l ++ w :: l').foldl (fun acc v => acc.walkReads b k v) s = u.onBay b f := by
    rw [← hwalk]
    refine foldl_only (fun a ha => walkReads_idle (hbefore a ha)) fun a ha => ?_
    rw [hwalk]
    exact walkReads_idle (by rw [hclock]; exact hafter a ha)
  refine ⟨u.onBay b f, ?_, hdev.onBay_sameMemory hmems, fun b' hb => hdev.onBay_others hb, ?_, ?_⟩
  · rw [exec_walkUnitRead_quiet hwalks hquiet, hfold]
  · rw [hdev.onBay_bay, hregs]
  · rw [hdev.onBay_bay, hf]
    exact walksOf_unitRead' hwalks hothers hof hnamed

end Sys2Proof
end

section
/-!
PROOF. Units that land (R244 to R247).

A unit lands in the stores of its receivers one after another, each of which leaves what the next one's landing looks at; then its bytes arrive
at the gate, and the unit leaves its walk.
-/

namespace Sys2Proof
open Machine Laws

variable {s t u : State} {q : PartId} {b y : BayId} {k : Fin 2} {c : Cmd} {w : WalkRun} {r : WalkUnit}

/-! ## What landings in stores of bays leave -/

/-- The devices but the bays, the plans, and what sizes stores are as before. -/
structure ShapeKept (s t : State) : Prop where
  ring : t.ring = s.ring
  lpddr : t.lpddr = s.lpddr
  hostMem : t.hostMem = s.hostMem
  plan : PlanKept s t
  bents : t.bents = s.bents
  chipmap : t.chipmap = s.chipmap

theorem ShapeKept.refl (s : State) : ShapeKept s s := ⟨rfl, rfl, rfl, .refl s, rfl, rfl⟩

theorem ShapeKept.trans (h : ShapeKept s t) (h' : ShapeKept t u) : ShapeKept s u :=
  ⟨h'.ring.trans h.ring, h'.lpddr.trans h.lpddr, h'.hostMem.trans h.hostMem, h.plan.trans h'.plan, h'.bents.trans h.bents,
    h'.chipmap.trans h.chipmap⟩

theorem shapeKept_race : ShapeKept s (s.race q) :=
  ⟨rfl, rfl, rfl, planKept_onPart (fun _ => ⟨rfl, rfl, rfl, rfl, rfl, rfl, rfl, rfl, fun _ => rfl⟩), rfl, rfl⟩

theorem RaceNoted.shapeKept (h : RaceNoted b s u) : ShapeKept s u := by
  rcases h.1 with rfl | ⟨q, -, rfl⟩
  · exact .refl u
  · exact shapeKept_race

theorem ShapeKept.onBay {f : Bay → Bay} (h : ShapeKept s u) : ShapeKept s (u.onBay b f) :=
  ⟨h.ring, h.lpddr, h.hostMem, fun q => h.plan q, h.bents, h.chipmap⟩

theorem ShapeKept.storeSize (h : ShapeKept s t) (st : BayStore) : t.storeSize b st = s.storeSize b st := by
  have hsliced : t.sliced b = s.sliced b := by
    simp only [State.sliced, State.remapEntry, State.chipSliced, State.chipEntry, h.bents, h.chipmap, h.plan.partAt.fab]
  have hhalf (n : Nat) : t.half b n = s.half b n := by simp only [State.half, hsliced]
  cases st <;> exact hhalf _

theorem ShapeKept.bankSize (h : ShapeKept s t) : t.bankSize b = s.bankSize b := by
  simp only [State.bankSize, h.storeSize]

theorem ShapeKept.mayLand {st : BayStore} {runs : List (Nat × List Byte)} {scale : Bool} (h : ShapeKept s t) (hb : t.bay b = s.bay b)
    (hl : MayLand s b st runs scale) : MayLand t b st runs scale := by
  unfold MayLand at hl ⊢
  rw [hb, h.bankSize]
  exact hl

theorem landed_walker {x : Bay} {st : BayStore} {runs : List (Nat × List Byte)} {scale : Bool} {bank : Nat} :
    (x.landed st runs scale bank).walks = x.walks ∧ (x.landed st runs scale bank).pending = x.pending := by
  have hnow : (x.landNow st runs).walks = x.walks ∧ (x.landNow st runs).pending = x.pending := by
    cases st <;> simp only [Bay.landNow, Bay.writeRuns, Bay.setStore, reduceCtorEq, if_true, if_false, and_self]
  unfold Bay.landed
  split
  · exact hnow
  · simp only [Bay.useBanks, Bay.loseBanks, and_self]

/-! ## The receivers of a unit (R245, R247) -/

/-- A bay in a store of which a unit's bytes have landed: b is the commanding bay. -/
def Machine.Bay.unitLanded (x : Bay) (b y : BayId) (st : BayStore) (off : Nat) (data : List Byte) (bank now : Nat) : Bay :=
  if y = b then x.landed st [(off, data)] false bank else (x.landed st [(off, data)] false bank).keepReplay now (leNat data)

section
variable {x : Bay} {st : BayStore} {off bank now : Nat} {data : List Byte}

theorem unitLanded_frame : (x.unitLanded b y st off data bank now).walks = x.walks ∧
    (x.unitLanded b y st off data bank now).pending = x.pending ∧ (x.unitLanded b y st off data bank now).pegSet = x.pegSet := by
  obtain ⟨hwalks, hpending⟩ := landed_walker (x := x) (st := st) (runs := [(off, data)]) (scale := false) (bank := bank)
  obtain ⟨-, -, -, -, -, -, -, hset⟩ := landed_frame (x := x) (k := st) (runs := [(off, data)]) (scale := false) (bank := bank)
  unfold Bay.unitLanded
  split <;> exact ⟨hwalks, hpending, hset⟩

theorem landedIn_unitLanded (hwf : (x.store st).wf = true) : LandedIn x (x.unitLanded b y st off data bank now) st [(off, data)] false := by
  have h := landedIn_landed (runs := [(off, data)]) (scale := false) (bank := bank) hwf
  unfold Bay.unitLanded
  split
  · exact h
  · obtain ⟨hregs, hops, hhandles, himem, hjigmem, hothers, hnow, hlater⟩ := h
    have hstore (k' : BayStore) : ((x.landed st [(off, data)] false bank).keepReplay now (leNat data)).store k' =
        (x.landed st [(off, data)] false bank).store k' := by cases k' <;> rfl
    refine ⟨hregs, hops, hhandles, himem, hjigmem, fun k' hk => (hstore k').trans (hothers k' hk), fun h => ?_, fun h h' => ?_⟩
    · rw [hstore]
      exact hnow h
    · rw [hstore]
      exact hlater h h'
end

/-- A unit may land in a store of a bay: its bytes lie in the store, and nothing keeps them out of it. -/
def UnitFits (s : State) (c : Cmd) (v : WU) (data : List Byte) (y : BayId) : Prop :=
  c.woff true v + data.length ≤ s.storeSize y (spStore (c.wend true).sp) ∧
    MayLand s y (spStore (c.wend true).sp) [((c.woff true v).toNat, data)] false

section
variable {v : WU} {data : List Byte} (hne : data ≠ []) (hoff : 0 ≤ c.woff true v)
include hne hoff

theorem unitLandLocal_eq (h : UnitFits s c v data y) : ∃ u : State, RaceNoted y s u ∧ s.unitLandLocal b y c v data =
    u.onBay y (fun x => x.unitLanded b y (spStore (c.wend true).sp) (c.woff true v).toNat data (s.bankSize y) (s.poleTime y)) := by
  obtain ⟨hin, hland⟩ := h
  have hrange : ¬ (c.woff true v < 0 ∨ (s.storeSize y (spStore (c.wend true).sp) : Int) < c.woff true v + data.length) := by omega
  refine ⟨s.useStore y (spStore (c.wend true).sp) (c.woff true v).toNat data.length true, raceNoted_useStore, ?_⟩
  simp only [State.unitLandLocal, hne, hrange, if_false, land_eq hland, List.foldl_cons, List.foldl_nil, State.onBay_onBay]
  split
  · next heq => exact congrArg (State.onBay _ y) (funext fun x => (if_pos heq).symm)
  · next heq => exact congrArg (State.onBay _ y) (funext fun x => (if_neg heq).symm)

/-- What the landings of a unit in its receivers leave. -/
structure UnitLandings (s t : State) (c : Cmd) (v : WU) (data : List Byte) (ts : List BayId) : Prop where
  shape : ShapeKept s t
  others : ∀ y : BayId, y ∉ ts → t.bay y = s.bay y
  lands : ∀ y ∈ ts, LandedIn (s.bay y) (t.bay y) (spStore (c.wend true).sp) [((c.woff true v).toNat, data)] false
  frame : ∀ y : BayId, (t.bay y).walks = (s.bay y).walks ∧ (t.bay y).pending = (s.bay y).pending ∧ (t.bay y).pegSet = (s.bay y).pegSet

theorem unit_lands {ts : List BayId} (hts : ts.Nodup) (h : ∀ y ∈ ts, UnitFits s c v data y) :
    UnitLandings s (ts.foldl (fun acc y => acc.unitLandLocal b y c v data) s) c v data ts := by
  induction ts generalizing s with
  | nil => exact ⟨.refl s, fun _ _ => rfl, fun _ hy => absurd hy List.not_mem_nil, fun _ => ⟨rfl, rfl, rfl⟩⟩
  | cons a ts ih =>
    obtain ⟨hnot, hnodup⟩ := List.nodup_cons.mp hts
    have hfits : UnitFits s c v data a := h a List.mem_cons_self
    obtain ⟨u, hrace, hu⟩ := unitLandLocal_eq (b := b) hne hoff hfits
    obtain ⟨s1, hs1⟩ : ∃ s1, s.unitLandLocal b a c v data = s1 := ⟨_, rfl⟩
    have hshape : ShapeKept s s1 := by rw [← hs1, hu]; exact hrace.shapeKept.onBay
    have hbay (y : BayId) (hy : y ≠ a) : s1.bay y = s.bay y := by rw [← hs1, hu, State.bay_onBay_ne _ _ _ _ hy, hrace.bay]
    have hland : s1.bay a = (s.bay a).unitLanded b a (spStore (c.wend true).sp) (c.woff true v).toNat data (s.bankSize a) (s.poleTime a) := by
      rw [← hs1, hu, State.bay_onBay, hrace.bay]
    have hrest : ∀ y ∈ ts, UnitFits s1 c v data y := fun y hy => by
      obtain ⟨hin, hmay⟩ := h y (List.mem_cons_of_mem _ hy)
      refine ⟨?_, hshape.mayLand (hbay y (fun e => hnot (e ▸ hy))) hmay⟩
      rw [hshape.storeSize]
      exact hin
    obtain ⟨hshape', hothers, hlands, hframe⟩ := ih hnodup hrest
    rw [List.foldl_cons, hs1]
    refine ⟨hshape.trans hshape', fun y hy => ?_, fun y hy => ?_, fun y => ?_⟩
    · obtain ⟨hya, hyts⟩ := not_or.mp (mt List.mem_cons.mpr hy)
      exact (hothers y hyts).trans (hbay y hya)
    · rcases List.mem_cons.mp hy with rfl | hy
      · rw [hothers y hnot, hland]
        exact landedIn_unitLanded hfits.2.1
      · rw [← hbay y (fun e => hnot (e ▸ hy))]
        exact hlands y hy
    · obtain ⟨hw, hp, hset⟩ := hframe y
      rw [hw, hp, hset]
      by_cases hya : y = a
      · subst hya
        rw [hland]
        exact unitLanded_frame
      · rw [hbay y hya]
        exact ⟨rfl, rfl, rfl⟩

end

/-! ## The unit leaves its walk (R244) -/

/-- A bay one of whose units is over. -/
def Machine.Bay.unitDone (x : Bay) (k : Fin 2) (c : Cmd) (id : Nat) : Bay :=
  (x.onWalk k c.id (fun q => { q with landed := q.landed + 1, units := q.units.filter (fun v => decide (v.id ≠ id)) })).walkOver k c

theorem dropUnit_eq {id : Nat} : s.dropUnit b k c id = s.onBay b (fun x => x.unitDone k c id) := rfl

theorem unitDone_frame (x : Bay) (id : Nat) : x.unitDone k c id =
    { x with walks := (x.unitDone k c id).walks, pegSet := (x.unitDone k c id).pegSet } := by
  unfold Bay.unitDone Bay.walkOver
  split
  · rfl
  · split
    · rw [produce_eq]
      rfl
    · rfl

theorem unitOver_unitDone {x z : Bay} {l l' : List WalkRun} {us us' : List WalkUnit} (h : SoleUnit x k l l' w us us' r)
    (hwalks : z.walks = x.walks) (hset : z.pegSet = x.pegSet) : UnitOver x (z.unitDone k w.cmd r.id) k l l' w (us ++ us') := by
  obtain ⟨hx, hunits, hnamed, hothers⟩ := h
  obtain ⟨w', hw'⟩ : ∃ w' : WalkRun, { w with landed := w.landed + 1, units := us ++ us' } = w' := ⟨_, rfl⟩
  have hcmd : w'.cmd = w.cmd := by rw [← hw']
  have hfilter : w.units.filter (fun v => decide (v.id ≠ r.id)) = us ++ us' := by
    rw [hunits]
    exact filter_out_sole (by simp) (fun v hv => by simpa using hnamed v hv)
  obtain ⟨z1, hz1⟩ : ∃ z1, z.onWalk k w.cmd.id (fun q => { q with
    landed := q.landed + 1, units := q.units.filter (fun v => decide (v.id ≠ r.id)) }) = z1 := ⟨_, rfl⟩
  have hset1 : z1.pegSet = x.pegSet := by rw [← hz1]; exact hset
  have hz : z1.walksOf k = l ++ w' :: l' := by
    rw [← hz1, walksOf_onWalk ((congrArg (fun m => m.get k) hwalks).trans hx) hothers, hfilter, hw']
  have hfind : (z1.walksOf k).find? (fun q => decide (q.cmd.id = w.cmd.id)) = some w' := by
    rw [hz]
    exact find_sole (by simp [hcmd]) (fun a ha => by simpa using hothers a (List.mem_append_left _ ha))
  have htotal : w'.landed = w'.total ↔ w.landed + 1 = w.total := by rw [← hw']
  unfold Bay.unitDone
  rw [hz1]
  unfold Bay.walkOver
  simp only [hfind, htotal]
  refine ⟨fun hlast => ?_, fun hmore => ?_⟩
  · have hout : (l ++ w' :: l').filter (fun v => decide (v.cmd.id ≠ w.cmd.id)) = l ++ l' :=
      filter_out_sole (by simp [hcmd]) (fun a ha => by simpa using hothers a ha)
    rw [if_pos hlast, produce_eq, hz, hout]
    refine ⟨walksOf_setWalks (k := k) z1 (l ++ l'), ?_⟩
    change (if w.cmd.ppeg = 63 then z1.pegSet else z1.pegSet ++ [w.cmd.ppeg]) = _
    rw [hset1]
  · rw [if_neg hmore, hw']
    exact ⟨hz, hset1⟩

end Sys2Proof
end

section
/-!
PROOF. The landing of a unit of a walk, local, of a WALKM and at a VA, with its arrival at the gate (R244 to R247).
-/

namespace Sys2Proof
open Machine Laws

variable {s t u : State} {q : PartId} {b : BayId} {k : Fin 2} {c : Cmd} {w : WalkRun} {r : WalkUnit}

/-! ## The one unit that lands in a cycle -/

/-- A unit lands in a cycle of its walk's clock. -/
def Machine.WalkUnit.lands (v : WalkUnit) (now : Nat) : Bool :=
  match v.landDue with
  | some d => decide (d ≤ now)
  | none => false

theorem lands_of_due {due now : Nat} (h : r.landDue = some due) : r.lands now = decide (due ≤ now) := by
  rw [WalkUnit.lands, h]

theorem lands_later {now : Nat} (h : ∀ d : Nat, r.landDue = some d → now < d) : r.lands now = false := by
  unfold WalkUnit.lands
  split
  · next d hd => exact decide_eq_false (Nat.not_le.mpr (h d hd))
  · rfl

theorem exec_walkUnitLanding_sole {l l' : List WalkRun} {us us' : List WalkUnit} (h : SoleUnit (s.bay b) k l l' w us us' r)
    (hmoves : s.walkMoves b w.cmd = true) (hr : r.lands (s.walkClock b w.cmd) = true)
    (hothers : ∀ a ∈ l ++ l', ∀ v ∈ a.units, v.lands (s.walkClock b a.cmd) = false)
    (hunits : ∀ v ∈ us ++ us', v.lands (s.walkClock b w.cmd) = false) :
    exec (.walkUnitLanding b k) s = .next (s.unitLand b k w r) := by
  obtain ⟨hbefore, hafter⟩ := List.forall_mem_append.mp hothers
  have hidle (acc : State) (a : WalkRun) (ha : ∀ v ∈ a.units, v.lands (s.walkClock b a.cmd) = false) :
      (if s.walkMoves b a.cmd = true then (a.units.filter (fun v => v.lands (s.walkClock b a.cmd))).foldl
        (fun acc2 v => acc2.unitLand b k a v) acc else acc) = acc := by
    rw [List.filter_eq_nil_iff.mpr (fun v hv => Bool.eq_false_iff.mp (ha v hv))]
    exact ite_self _
  change Host.Outcome.next (((s.bay b).walksOf k).foldl (fun acc a =>
    if s.walkMoves b a.cmd = true then (a.units.filter (fun v => v.lands (s.walkClock b a.cmd))).foldl
      (fun acc2 v => acc2.unitLand b k a v) acc else acc) s) = _
  rw [h.walks, foldl_only (fun a ha => hidle _ a (hbefore a ha)) (fun a ha => hidle _ a (hafter a ha)), if_pos hmoves, h.units,
    filter_sole (p := fun v : WalkUnit => v.lands (s.walkClock b w.cmd)) hr hunits]
  rfl

/-! ## The landing, its arrival and its end -/

/-- The number that orders a unit's landing and the state that has given it out (R236). -/
def unitTag (s : State) (c : Cmd) : Nat × State := if c.gva = 0 then (0, s) else s.freshTag

theorem unitTag_eq : ∃ n, (unitTag s c).2 = { s with nextTag := n } := by
  unfold unitTag
  split
  · exact ⟨s.nextTag, rfl⟩
  · exact ⟨_, rfl⟩

theorem shapeKept_unitTag : ShapeKept s (unitTag s c).2 := by
  obtain ⟨n, hn⟩ := unitTag_eq (s := s) (c := c)
  rw [hn]
  exact ⟨rfl, rfl, rfl, .refl s, rfl, rfl⟩

theorem bay_unitTag {y : BayId} : (unitTag s c).2.bay y = s.bay y := by
  obtain ⟨n, hn⟩ := unitTag_eq (s := s) (c := c)
  rw [hn]
  rfl

/-- A unit's bytes where its end takes them. -/
def unitAtEnd (s : State) (b : BayId) (c : Cmd) (r : WalkUnit) : State :=
  if (c.wend true).sp = 3 then (unitTag s c).2.unitLandVa b c r (c.wu r.i) (unitTag s c).1
  else (c.landsIn b (c.wu r.i)).foldl (fun acc y => acc.unitLandLocal b y c (c.wu r.i) r.data) (unitTag s c).2

/-- A unit that its end takes without a fault lands, arrives at its gate and leaves its walk. -/
theorem unitLand_eq (hq : s.partOf b = some q) (hhere : s.destAbsent b w.cmd (w.cmd.wu r.i) = false)
    (hpending : ((unitAtEnd s b w.cmd r).bay b).pending = (s.bay b).pending) :
    s.unitLand b k w r = ((unitAtEnd s b w.cmd r).arriveAt q b.val w.cmd.gva ((w.cmd.landsIn b (w.cmd.wu r.i)).length * w.cmd.unit)
      (tagClock (unitTag s w.cmd).1)).dropUnit b k w.cmd r.id := by
  have hp : ((unitAtEnd s b w.cmd r).bay b).pending = (s.bay b).pending ↔ True := iff_true_intro hpending
  simp only [unitAtEnd, unitTag] at hp ⊢
  simp only [State.unitLand, hhere, Bool.false_eq_true, if_false, hq, hp, if_true]

section
variable {l l' : List WalkRun} {us us' : List WalkUnit} {gate : Addr} {n : Nat} {cover : List (Nat × Nat)}

/-- What the arrival and the end of a unit leave of the bays. -/
theorem bay_arrive_dropUnit {y : BayId} : (((t.arriveAt q b.val gate n cover).dropUnit b k c r.id).bay y) =
    if y = b then (t.bay b).unitDone k c r.id else t.bay y := by
  have hbay (y : BayId) : (t.arriveAt q b.val gate n cover).bay y = t.bay y := by rw [State.bay, arriveAt_bays, State.bay]
  rw [dropUnit_eq]
  split
  · next h => rw [h, State.bay_onBay, hbay]
  · next h => rw [State.bay_onBay_ne _ _ _ _ h, hbay]

theorem countsAt_arrive_dropUnit (h : ShapeKept s t) :
    CountsAt s ((t.arriveAt q b.val gate n cover).dropUnit b k c r.id) q gate n :=
  countsAt_arriveAt.of_kept ((h.plan q).gatePlace gate) ⟨h.ring, h.lpddr, h.hostMem⟩ ⟨rfl, rfl, rfl, rfl⟩

theorem unitDone_ops {x : Bay} {id : Nat} : bayMems (x.unitDone k c id) = bayMems x ∧ (x.unitDone k c id).regs = x.regs ∧
    (x.unitDone k c id).gbuf = x.gbuf := by
  rw [unitDone_frame]
  exact ⟨rfl, rfl, rfl⟩

theorem LandedIn.unitDone {x z : Bay} {st : BayStore} {runs : List (Nat × List Byte)} {scale : Bool} {id : Nat}
    (h : LandedIn x z st runs scale) : LandedIn x (z.unitDone k c id) st runs scale := by
  rw [unitDone_frame]
  obtain ⟨hregs, hops, hhandles, himem, hjigmem, hothers, hnow, hlater⟩ := h
  exact ⟨hregs, hops, hhandles, himem, hjigmem, fun k' hk => (by cases k' <;> rfl : _ = z.store k').trans (hothers k' hk),
    fun h => by cases st <;> exact hnow h, fun h h' => by cases st <;> exact hlater h h'⟩

variable (h : SoleUnit (s.bay b) k l l' w us us' r) (hmoves : s.walkMoves b w.cmd = true) (hq : s.partOf b = some q)
  (hr : r.lands (s.walkClock b w.cmd) = true) (hothers : ∀ a ∈ l ++ l', ∀ v ∈ a.units, v.lands (s.walkClock b a.cmd) = false)
  (hunits : ∀ v ∈ us ++ us', v.lands (s.walkClock b w.cmd) = false)
include h hmoves hq hr hothers hunits

/-- A unit of a local destination lands in its receivers. -/
theorem walk_lands_local (hsp : (w.cmd.wend true).sp ≠ 3) (hne : r.data ≠ []) (hoff : 0 ≤ w.cmd.woff true (w.cmd.wu r.i))
    (hnodup : (w.cmd.landsIn b (w.cmd.wu r.i)).Nodup)
    (hfits : ∀ y ∈ w.cmd.landsIn b (w.cmd.wu r.i), UnitFits s w.cmd (w.cmd.wu r.i) r.data y) :
    ∃ t : State, exec (.walkUnitLanding b k) s = .next t ∧ UnitOver (s.bay b) (t.bay b) k l l' w (us ++ us') ∧
      (∀ y ∈ w.cmd.landsIn b (w.cmd.wu r.i), LandedIn (s.bay y) (t.bay y) (spStore (w.cmd.wend true).sp)
        [((w.cmd.woff true (w.cmd.wu r.i)).toNat, r.data)] false) ∧
      (b ∉ w.cmd.landsIn b (w.cmd.wu r.i) → bayMems (t.bay b) = bayMems (s.bay b) ∧ (t.bay b).regs = (s.bay b).regs) ∧
      (∀ y : BayId, y ≠ b → y ∉ w.cmd.landsIn b (w.cmd.wu r.i) → t.bay y = s.bay y) ∧
      CountsAt s t q w.cmd.gva ((w.cmd.landsIn b (w.cmd.wu r.i)).length * w.cmd.unit) := by
  have hhere : s.destAbsent b w.cmd (w.cmd.wu r.i) = false := if_neg (fun hc => hsp hc.1)
  have hkept := shapeKept_unitTag (s := s) (c := w.cmd)
  have hfits' : ∀ y ∈ w.cmd.landsIn b (w.cmd.wu r.i), UnitFits (unitTag s w.cmd).2 w.cmd (w.cmd.wu r.i) r.data y := fun y hy => by
    obtain ⟨hin, hmay⟩ := hfits y hy
    refine ⟨?_, hkept.mayLand bay_unitTag hmay⟩
    rw [hkept.storeSize]
    exact hin
  obtain ⟨hshape, hrest, hlands, hframe⟩ := unit_lands (b := b) hne hoff hnodup hfits'
  obtain ⟨t1, ht1⟩ : ∃ t1, unitAtEnd s b w.cmd r = t1 := ⟨_, rfl⟩
  have hend : t1 = (w.cmd.landsIn b (w.cmd.wu r.i)).foldl (fun acc y => acc.unitLandLocal b y w.cmd (w.cmd.wu r.i) r.data)
      (unitTag s w.cmd).2 := by rw [← ht1, unitAtEnd, if_neg hsp]
  rw [← hend] at hshape hrest hlands hframe
  simp only [bay_unitTag] at hrest hlands hframe
  obtain ⟨hwalks, hpending, hset⟩ := hframe b
  have hland := unitLand_eq (k := k) hq hhere (by rw [ht1]; exact hpending)
  rw [ht1] at hland
  refine ⟨_, (exec_walkUnitLanding_sole h hmoves hr hothers hunits).trans (congrArg Host.Outcome.next hland), ?_, fun y hy => ?_, fun hb => ?_,
    fun y hy hts => ?_, countsAt_arrive_dropUnit (hkept.trans hshape)⟩
  · rw [bay_arrive_dropUnit, if_pos rfl]
    exact unitOver_unitDone h hwalks hset
  · rw [bay_arrive_dropUnit]
    split
    · next he => exact he ▸ (hlands y hy).unitDone
    · exact hlands y hy
  · obtain ⟨hmems, hregs, -⟩ := unitDone_ops (k := k) (c := w.cmd) (x := t1.bay b) (id := r.id)
    rw [bay_arrive_dropUnit, if_pos rfl, hmems, hregs, hrest b hb]
    exact ⟨rfl, rfl⟩
  · rw [bay_arrive_dropUnit, if_neg hy]
    exact hrest y hts

/-- A unit of a VA destination is a gated write that has performed. -/
theorem walk_lands_va {x : Xlat} (hsp : (w.cmd.wend true).sp = 3) (hw : 0 < w.cmd.writes (w.cmd.wu r.i)) (hone : w.cmd.isM = false)
    (hx : unitVaChk s b true (w.cmd.wva true (w.cmd.wu r.i)) = .ok x)
    (hclash : (s.bay b).gatedClash (s.poleTime b) (.bytes x.place r.data) = false) :
    ∃ (t : State) (seen : List (Nat × Nat)) (tag : Nat), exec (.walkUnitLanding b k) s = .next t ∧
      UnitOver (s.bay b) (t.bay b) k l l' w (us ++ us') ∧ bayMems (t.bay b) = bayMems (s.bay b) ∧
      (t.bay b).regs = (s.bay b).regs ∧ (∀ b' : BayId, b' ≠ b → t.bay b' = s.bay b') ∧ CountsAt s t q w.cmd.gva w.cmd.unit ∧
      (t.bay b).gbuf = (s.bay b).gbuf ++ [⟨r.id, w.cmd.wva true (w.cmd.wu r.i), r.data.length, x.entry, some (s.poleTime b), r.win,
        .bytes x.place r.data, seen, tag, false⟩] := by
  have hhere : s.destAbsent b w.cmd (w.cmd.wu r.i) = false := by
    rw [State.destAbsent, if_pos ⟨hsp, Nat.ne_of_gt hw⟩, hx]
  have hsole : (w.cmd.landsIn b (w.cmd.wu r.i)).length * w.cmd.unit = w.cmd.unit := by
    simp [Cmd.landsIn, hone]
  obtain ⟨n, hn⟩ := unitTag_eq (s := s) (c := w.cmd)
  have hx' : unitVaChk (unitTag s w.cmd).2 b true (w.cmd.wva true (w.cmd.wu r.i)) = .ok x := by rw [hn]; exact hx
  have hclash' : ((unitTag s w.cmd).2.bay b).gatedClash (s.poleTime b) (.bytes x.place r.data) = false := by
    rw [bay_unitTag]; exact hclash
  have hpole : (unitTag s w.cmd).2.poleTime b = s.poleTime b := by rw [hn]; rfl
  obtain ⟨s1, hs1⟩ : ∃ s1, (unitTag s w.cmd).2.orderAccess b (w.cmd.wva true (w.cmd.wu r.i)) = s1 := ⟨_, rfl⟩
  have hord : ShapeKept s s1 ∧ s1.bays = s.bays := by
    obtain ⟨v, hv⟩ := orderAccess_eq (s := (unitTag s w.cmd).2) (b := b) (va := w.cmd.wva true (w.cmd.wu r.i))
    rw [← hs1, hv, hn]
    exact ⟨⟨rfl, rfl, rfl, .refl s, rfl, rfl⟩, rfl⟩
  obtain ⟨hshape, hbays⟩ := hord
  have hbay (y : BayId) : s1.bay y = s.bay y := by rw [State.bay, hbays, State.bay]
  obtain ⟨g, hg⟩ : ∃ g : GWrite, ⟨r.id, w.cmd.wva true (w.cmd.wu r.i), r.data.length, x.entry, some (s.poleTime b), r.win,
    .bytes x.place r.data, s1.seenBy b.val, (unitTag s w.cmd).1, false⟩ = g := ⟨_, rfl⟩
  have hend : unitAtEnd s b w.cmd r = s1.onBay b (fun y => { y with gbuf := y.gbuf ++ [g] }) := by
    rw [unitAtEnd, if_pos hsp]
    simp only [State.unitLandVa, Nat.ne_of_gt hw, if_false, hx', hpole, hclash', Bool.false_eq_true, hs1, hg]
  have hpending : ((unitAtEnd s b w.cmd r).bay b).pending = (s.bay b).pending := by rw [hend, State.bay_onBay, hbay]
  have hland := unitLand_eq (k := k) hq hhere hpending
  rw [hend, hsole] at hland
  refine ⟨_, s1.seenBy b.val, (unitTag s w.cmd).1, (exec_walkUnitLanding_sole h hmoves hr hothers hunits).trans (congrArg Host.Outcome.next hland),
    ?_, ?_⟩
  · rw [bay_arrive_dropUnit, if_pos rfl, State.bay_onBay, hbay]
    exact unitOver_unitDone h rfl rfl
  · obtain ⟨hmems, hregs, hgbuf⟩ := unitDone_ops (k := k) (c := w.cmd) (x := { s.bay b with gbuf := (s.bay b).gbuf ++ [g] }) (id := r.id)
    rw [bay_arrive_dropUnit, if_pos rfl, State.bay_onBay, hbay, hmems, hregs, hgbuf, hg]
    refine ⟨rfl, rfl, fun b' hb => ?_, countsAt_arrive_dropUnit hshape.onBay, rfl⟩
    rw [bay_arrive_dropUnit, if_neg hb, State.bay_onBay_ne _ _ _ _ hb, hbay]

end

end Sys2Proof
end

section
/-!
PROOF. What the agent of asynchronous walks keeps (R248, R249).

A unit that has landed or failed stays so as long as its walk is there, and the yard's log grows at its end: every operation of the agent keeps
to this (AgentMoves). One that brings nothing to flash changes nothing beyond the walks and what leaves the chip (AgentOnly).
-/

namespace Sys2Proof
open Machine Laws

variable {s t u : State} {q : PartId} {b : BayId} {c : Cmd} {w : AsyncWalk} {i id n : Nat}

/-! ## Walks go on -/

/-- The walks of l' are walks of l, of which more units may have landed or failed. -/
def WalksOn (l l' : List AsyncWalk) : Prop := ∀ v' ∈ l', ∃ v ∈ l, v'.id = v.id ∧ v.failed ⊆ v'.failed ∧ v.landed ⊆ v'.landed

theorem WalksOn.refl (l : List AsyncWalk) : WalksOn l l := fun v hv => ⟨v, hv, rfl, fun _ h => h, fun _ h => h⟩

theorem WalksOn.trans {l l' l'' : List AsyncWalk} (h : WalksOn l l') (h' : WalksOn l' l'') : WalksOn l l'' := by
  intro v'' hv''
  obtain ⟨v', hv', hid', hfailed', hlanded'⟩ := h' v'' hv''
  obtain ⟨v, hv, hid, hfailed, hlanded⟩ := h v' hv'
  exact ⟨v, hv, hid'.trans hid, fun _ h => hfailed' (hfailed h), fun _ h => hlanded' (hlanded h)⟩

theorem walksOn_filter {l : List AsyncWalk} {p : AsyncWalk → Bool} : WalksOn l (l.filter p) :=
  fun v hv => ⟨v, (List.mem_filter.mp hv).1, rfl, fun _ h => h, fun _ h => h⟩

/-- A walk of a partition changed so that it goes on. -/
theorem walksOn_onAsync {p : Part} {f : AsyncWalk → AsyncWalk}
    (hf : ∀ v, (f v).id = v.id ∧ v.failed ⊆ (f v).failed ∧ v.landed ⊆ (f v).landed) : WalksOn p.asyncs (p.onAsync id f).asyncs := by
  intro v' hv'
  obtain ⟨v, hv, rfl⟩ := List.mem_map.mp hv'
  refine ⟨v, hv, ?_⟩
  split
  · exact hf v
  · exact ⟨rfl, fun _ h => h, fun _ h => h⟩

/-- The walks of every partition go on, and the yard's log grows at its end. -/
structure AgentMoves (s t : State) : Prop where
  log : s.yard.errlog <+: t.yard.errlog
  walks : ∀ q : PartId, WalksOn (s.part q).asyncs (t.part q).asyncs

theorem AgentMoves.refl (s : State) : AgentMoves s s := ⟨List.prefix_refl _, fun _ => .refl _⟩

theorem AgentMoves.of_same (hyard : t.yard = s.yard) (hparts : t.parts = s.parts) : AgentMoves s t := by
  refine ⟨by rw [hyard], fun q => ?_⟩
  have hpart : t.part q = s.part q := congrArg (fun l : Vector Part 8 => l.get q) hparts
  rw [hpart]
  exact .refl _

theorem AgentMoves.trans (h : AgentMoves s t) (h' : AgentMoves t u) : AgentMoves s u :=
  ⟨h.log.trans h'.log, fun q => (h.walks q).trans (h'.walks q)⟩

theorem agentMoves_foldl {α : Type} {f : State → α → State} {l : List α} (hf : ∀ t a, AgentMoves t (f t a)) : AgentMoves s (l.foldl f s) :=
  List.foldlRecOn (motive := fun t => AgentMoves s t) l f (.refl s) fun t ht a _ => ht.trans (hf t a)

theorem agentMoves_onBay {f : Bay → Bay} : AgentMoves s (s.onBay b f) := .of_same rfl rfl

theorem agentMoves_emit {o : Out} : AgentMoves s (s.emit o) := .of_same rfl rfl

theorem agentMoves_onPart {f : Part → Part} (hf : ∀ p, WalksOn p.asyncs (f p).asyncs) : AgentMoves s (s.onPart q f) := by
  refine ⟨List.prefix_refl _, fun q' => ?_⟩
  by_cases hq : q' = q
  · subst hq
    rw [State.part_onPart]
    exact hf _
  · rw [State.part_onPart_ne _ _ _ _ hq]
    exact .refl _

theorem agentMoves_onAsync {f : AsyncWalk → AsyncWalk} (hf : ∀ v, (f v).id = v.id ∧ v.failed ⊆ (f v).failed ∧ v.landed ⊆ (f v).landed) :
    AgentMoves s (s.onPart q (fun p => p.onAsync id f)) :=
  agentMoves_onPart fun _ => walksOn_onAsync hf

/-- A unit of a walk has failed. -/
theorem agentMoves_failed : AgentMoves s (s.onPart q (fun p => p.onAsync id (fun v => { v with failed := i :: v.failed }))) :=
  agentMoves_onAsync fun _ => ⟨rfl, fun _ h => List.mem_cons_of_mem _ h, fun _ h => h⟩

theorem agentMoves_past : AgentMoves s (s.onPart q (fun p => p.onAsync id AsyncWalk.past)) :=
  agentMoves_onAsync fun _ => ⟨rfl, fun _ h => h, fun _ h => h⟩

theorem agentMoves_log {e : LogEntry} : AgentMoves s (s.log e) := ⟨List.prefix_append _ _, fun _ => .refl _⟩

theorem agentMoves_writePlace {pl : Place} {data : List Byte} : AgentMoves s (s.writePlace pl data) := by cases pl <;> exact .of_same rfl rfl

theorem agentMoves_noteAt {party tag kind stamp : Nat} {key : Nat × Nat} {write : Bool} {v : List (Nat × Nat)} :
    AgentMoves s (s.noteAt q party tag key n write kind stamp v) := by
  unfold State.noteAt
  dsimp only
  split
  · exact .refl s
  · split
    · exact (agentMoves_onPart fun _ => .refl _ : AgentMoves s (s.race q)).trans (.of_same rfl rfl)
    · exact .of_same rfl rfl

theorem agentMoves_noteBy {party tag kind stamp : Nat} {pl : Place} {write : Bool} {v : List (Nat × Nat)} :
    AgentMoves s (s.noteBy q party tag pl n write kind stamp v) := by
  unfold State.noteBy
  split
  · exact .refl s
  · exact agentMoves_noteAt

theorem agentMoves_markAt {va : Addr} : AgentMoves s (s.markAt q va) := by
  unfold State.markAt
  split
  · exact agentMoves_onPart fun _ => .refl _
  · exact .refl s

theorem agentMoves_onGate {va : Addr} {f : BitVec 128 → BitVec 128} : AgentMoves s (s.onGate q va f) := by
  unfold State.onGate
  split
  · exact .refl s
  · refine (agentMoves_writePlace.trans agentMoves_markAt).trans (agentMoves_onPart fun p => ?_)
    split <;> exact .refl _

theorem agentMoves_noteGate {party : Nat} {va : Addr} : AgentMoves s (s.noteGate q party va) := by
  unfold State.noteGate
  split
  · exact .refl _
  · exact agentMoves_noteBy

theorem agentMoves_arriveAt {party : Nat} {gate : Addr} {cover : List (Nat × Nat)} : AgentMoves s (s.arriveAt q party gate n cover) := by
  unfold State.arriveAt State.arrive
  split
  · exact .refl s
  · exact (agentMoves_onGate.trans agentMoves_noteGate).trans (agentMoves_onPart fun _ => .refl _)

/-! ## What a unit does at its destination -/

theorem LinksOnly.agentMoves (h : LinksOnly s t) : AgentMoves s t := by
  obtain ⟨_, _, _, rfl⟩ := h
  exact .of_same rfl rfl

theorem agentMoves_asyncWrite {x : Xlat} {va : Addr} {off tag : Nat} {data : List Byte} {seen : List (Nat × Nat)}
    (h : s.asyncWrite q b x va off data tag seen = some t) : AgentMoves s t := by
  unfold State.asyncWrite at h
  obtain ⟨u, hu, rfl⟩ := Option.map_eq_some_iff.mp h
  refine AgentMoves.trans ?_ (agentMoves_onPart fun _ => .refl _)
  split at hu
  · split at hu
    · obtain rfl := Option.some.inj hu
      exact linksOnly_remoteSend.agentMoves
    · cases hu
  · obtain ⟨a, -, rfl⟩ := Option.map_eq_some_iff.mp hu
    exact .of_same rfl rfl
  · cases hu
  · obtain rfl := Option.some.inj hu
    exact agentMoves_writePlace.trans agentMoves_noteBy

theorem agentMoves_asyncLocal {y : BayId} {v : WU} {tag : Nat} {data : List Byte} {seen : List (Nat × Nat)}
    (h : s.asyncLocal q b y c v data tag seen = some t) : AgentMoves s t := by
  unfold State.asyncLocal at h
  dsimp only at h
  split at h
  · obtain rfl := Option.some.inj h
    exact .refl s
  · split at h
    · cases h
    · obtain rfl := Option.some.inj h
      exact agentMoves_onBay.trans agentMoves_noteAt

/-- A fold that may fail keeps to what its steps keep to. -/
theorem agentMoves_foldl_option {α : Type} {f : Option State → α → Option State} {l : List α}
    (hf : ∀ o a t, f o a = some t → ∃ u, o = some u ∧ AgentMoves u t) (h : l.foldl f (some s) = some t) : AgentMoves s t := by
  have key (l : List α) (o : Option State) (ho : l.foldl f o = some t) : ∃ u, o = some u ∧ AgentMoves u t := by
    induction l generalizing o with
    | nil => exact ⟨t, ho, .refl t⟩
    | cons a l ih =>
      obtain ⟨u, hu, hmoves⟩ := ih (f o a) ho
      obtain ⟨v, hv, hmoves'⟩ := hf o a u hu
      exact ⟨v, hv, hmoves'.trans hmoves⟩
  obtain ⟨u, hu, hmoves⟩ := key l (some s) h
  obtain rfl := Option.some.inj hu
  exact hmoves

theorem agentMoves_asyncDest {v : WU} {tag : Nat} {data : List Byte} {seen : List (Nat × Nat)}
    (h : s.asyncDest q b c v data tag seen = some t) : AgentMoves s t := by
  unfold State.asyncDest at h
  split at h
  · obtain rfl := Option.some.inj h
    exact .refl s
  · split at h
    · refine agentMoves_foldl_option (fun o a t ho => ?_) h
      cases o with
      | none => cases ho
      | some u => exact ⟨u, rfl, agentMoves_asyncLocal ho⟩
    · refine agentMoves_foldl_option (fun o a t ho => ?_) h
      split at ho
      · next u z _ =>
        refine ⟨u, rfl, ?_⟩
        split at ho
        · obtain rfl := Option.some.inj ho
          exact .refl u
        · exact agentMoves_asyncWrite ho
      · cases ho

/-! ## What follows -/

theorem agentMoves_askFlash {fuel : Nat} : AgentMoves s (s.askFlash q id fuel) := by
  induction fuel generalizing s with
  | zero => exact .refl s
  | succ fuel ih =>
    unfold State.askFlash
    dsimp only
    split
    · exact .refl s
    · split
      · exact .refl s
      · split
        · exact agentMoves_past.trans ih
        · split
          · exact .refl s
          · exact (agentMoves_emit.trans agentMoves_past).trans ih

theorem agentMoves_askAll : AgentMoves s s.askAll :=
  agentMoves_foldl fun _ _ => agentMoves_foldl fun _ _ => agentMoves_askFlash

theorem agentMoves_flashWritten {pair off : Nat} {data : List Byte} :
    AgentMoves s ((s.emit (.flashWrite pair off data)).flashPut pair off data) := .of_same rfl rfl

/-- A walk whose list of waiting units or place has changed goes on. -/
theorem agentMoves_waiting {f : AsyncWalk → AsyncWalk} (hid : ∀ v, (f v).id = v.id) (hfailed : ∀ v, (f v).failed = v.failed)
    (hlanded : ∀ v, (f v).landed = v.landed) : AgentMoves s (s.onPart q (fun p => p.onAsync id f)) :=
  agentMoves_onAsync fun v => ⟨hid v, by rw [hfailed]; exact fun _ h => h, by rw [hlanded]; exact fun _ h => h⟩

theorem agentMoves_writeBlock {pair off : Nat} : AgentMoves s (s.writeBlock q w pair off) := by
  unfold State.writeBlock
  dsimp only
  split
  · exact agentMoves_waiting (fun _ => rfl) (fun _ => rfl) (fun _ => rfl)
  · refine ((AgentMoves.trans ?_ agentMoves_flashWritten).trans agentMoves_markAt).trans agentMoves_arriveAt
    exact agentMoves_waiting (fun _ => rfl) (fun _ => rfl) (fun _ => rfl)

theorem agentMoves_freshTag : AgentMoves s s.freshTag.2 := .of_same rfl rfl

theorem agentMoves_landMoved : AgentMoves s (s.landMoved q w) := by
  refine agentMoves_foldl fun t x => ?_
  dsimp only
  have hgone : AgentMoves t (t.freshTag.2.onPart q (fun y => y.onAsync w.id (fun v =>
      { v with waiting := v.waiting.filter (fun z => decide (z.1 ≠ x.1)) }))) :=
    agentMoves_freshTag.trans (agentMoves_waiting (fun _ => rfl) (fun _ => rfl) (fun _ => rfl))
  split
  · next v hv => exact hgone.trans ((agentMoves_asyncDest hv).trans agentMoves_arriveAt)
  · exact (hgone.trans agentMoves_failed).trans agentMoves_log

theorem agentMoves_writeFlash {fuel : Nat} : AgentMoves s (s.writeFlash q id fuel) := by
  induction fuel generalizing s with
  | zero => exact .refl s
  | succ fuel ih =>
    unfold State.writeFlash
    dsimp only
    split
    · exact .refl s
    · split
      · exact .refl s
      · split
        · exact (agentMoves_landMoved.trans agentMoves_past).trans ih
        · split
          · exact agentMoves_writeBlock.trans ih
          · exact .refl s

theorem agentMoves_asyncNext : AgentMoves s (s.asyncNext q w) :=
  (agentMoves_writeFlash.trans agentMoves_askAll).trans (agentMoves_onPart fun _ => walksOn_filter)

/-! ## What follows where nothing goes to flash -/

/-- Nothing but the walks of partitions and what leaves the chip has changed. -/
structure AgentOnly (s t : State) : Prop where
  state : ∃ (p : Vector Part 8) (o : List Out), t = { s with parts := p, outs := o }
  part : ∀ q : PartId, ∃ l : List AsyncWalk, t.part q = { s.part q with asyncs := l }

theorem AgentOnly.refl (s : State) : AgentOnly s s := ⟨⟨s.parts, s.outs, rfl⟩, fun q => ⟨(s.part q).asyncs, rfl⟩⟩

theorem AgentOnly.trans (h : AgentOnly s t) (h' : AgentOnly t u) : AgentOnly s u := by
  obtain ⟨⟨p, o, ht⟩, hpart⟩ := h
  obtain ⟨⟨p', o', hu⟩, hpart'⟩ := h'
  refine ⟨⟨p', o', by rw [hu, ht]⟩, fun q => ?_⟩
  obtain ⟨l, hl⟩ := hpart q
  obtain ⟨l', hl'⟩ := hpart' q
  exact ⟨l', by rw [hl', hl]⟩

theorem agentOnly_foldl {α : Type} {f : State → α → State} {l : List α} (hf : ∀ t a, AgentOnly t (f t a)) : AgentOnly s (l.foldl f s) :=
  List.foldlRecOn (motive := fun t => AgentOnly s t) l f (.refl s) fun t ht a _ => ht.trans (hf t a)

theorem agentOnly_onPart {f : Part → Part} (hf : ∀ p, ∃ l, f p = { p with asyncs := l }) : AgentOnly s (s.onPart q f) := by
  refine ⟨⟨_, s.outs, rfl⟩, fun q' => ?_⟩
  by_cases hq : q' = q
  · subst hq
    rw [State.part_onPart]
    exact hf _
  · rw [State.part_onPart_ne _ _ _ _ hq]
    exact ⟨_, rfl⟩

theorem agentOnly_onAsync {f : AsyncWalk → AsyncWalk} : AgentOnly s (s.onPart q (fun p => p.onAsync id f)) :=
  agentOnly_onPart fun _ => ⟨_, rfl⟩

theorem agentOnly_emit {o : Out} : AgentOnly s (s.emit o) := ⟨⟨s.parts, _, rfl⟩, fun q => ⟨(s.part q).asyncs, rfl⟩⟩

theorem agentOnly_askFlash {fuel : Nat} : AgentOnly s (s.askFlash q id fuel) := by
  induction fuel generalizing s with
  | zero => exact .refl s
  | succ fuel ih =>
    unfold State.askFlash
    dsimp only
    split
    · exact .refl s
    · split
      · exact .refl s
      · split
        · exact agentOnly_onAsync.trans ih
        · split
          · exact .refl s
          · exact (agentOnly_emit.trans agentOnly_onAsync).trans ih

theorem agentOnly_askAll : AgentOnly s s.askAll :=
  agentOnly_foldl fun _ _ => agentOnly_foldl fun _ _ => agentOnly_askFlash

theorem writeFlash_inward {fuel : Nat} (hw : (s.part q).asyncs.find? (fun v => decide (v.id = id)) = some w)
    (h : w.cmd.outward (s.part q) = false) : s.writeFlash q id (fuel + 1) = s := by
  unfold State.writeFlash
  simp only [hw, h, true_or, if_true]

theorem agentOnly_asyncNext {v : AsyncWalk} (hv : (s.part q).asyncs.find? (fun v => decide (v.id = w.id)) = some v)
    (h : v.cmd.outward (s.part q) = false) : AgentOnly s (s.asyncNext q w) := by
  unfold State.asyncNext
  rw [writeFlash_inward hv h]
  exact agentOnly_askAll.trans (agentOnly_onPart fun _ => ⟨_, rfl⟩)

theorem AgentOnly.sameMemory (h : AgentOnly s t) : SameMemory s t := by
  obtain ⟨⟨_, _, rfl⟩, -⟩ := h
  exact ⟨rfl, rfl, rfl, fun _ => rfl⟩

theorem AgentOnly.bay (h : AgentOnly s t) : t.bay b = s.bay b := by
  obtain ⟨⟨_, _, rfl⟩, -⟩ := h
  rfl

theorem AgentOnly.yard (h : AgentOnly s t) : t.yard = s.yard := by
  obtain ⟨⟨_, _, rfl⟩, -⟩ := h
  rfl

theorem AgentOnly.gatesDue (h : AgentOnly s t) : (t.part q).gatesDue = (s.part q).gatesDue := by
  obtain ⟨l, hl⟩ := h.part q
  rw [hl]

end Sys2Proof
end

section
/-!
PROOF. The units of asynchronous walks (R245, R248).
-/

namespace Sys2Proof
open Machine Laws

variable {s t u : State} {q : PartId} {b y : BayId} {c : Cmd} {w : AsyncWalk} {i walk n : Nat} {came data : List Byte}

/-! ## Marks of translation entries -/

/-- A search of a translation table looks at the bits of its entries alone. -/
theorem findEntry_raws (tt : List TTEntry) (a : Nat) : findEntry tt a = ((tt.map TTEntry.raw).zipIdx.find? (fun x =>
    teValid x.1 && decide (teBase x.1 ≤ a) && decide (a < teBase x.1 + teSize x.1))).map (fun x => (x.2, x.1)) := by
  rw [List.zipIdx_map, List.find?_map, Option.map_map]
  rfl

theorem findEntry_markPending {x : Nat} (a : Nat) (tt : List TTEntry) :
    findEntry (tt.zipIdx.map (fun e => if e.2 = x then { e.1 with pending := true } else e.1)) a = findEntry tt a := by
  have hraw : (tt.zipIdx.map (fun e => if e.2 = x then { e.1 with pending := true } else e.1)).map TTEntry.raw = tt.map TTEntry.raw := by
    rw [List.map_map]
    conv_rhs => rw [← List.zipIdx_map_fst 0 tt, List.map_map]
    refine List.map_congr_left fun e _ => ?_
    simp only [Function.comp_apply]
    split <;> rfl
  rw [findEntry_raws, findEntry_raws, hraw]

theorem planKept_markPending {x : Nat} : PlanKept s (s.markPending q x) :=
  planKept_onPart fun p => ⟨rfl, rfl, rfl, rfl, rfl, rfl, rfl, rfl, fun a => findEntry_markPending a p.tt⟩

theorem planKept_markAt {va : Addr} : PlanKept s (s.markAt q va) := by
  unfold State.markAt
  split
  · exact planKept_onPart fun _ => ⟨rfl, rfl, rfl, rfl, rfl, rfl, rfl, rfl, fun _ => rfl⟩
  · exact .refl s

theorem planKept_writePlace {pl : Place} : PlanKept s (s.writePlace pl data) := fun q => by
  rw [writePlace_part]
  exact .refl _

theorem planKept_arriveAt {party : Nat} {gate : Addr} {cover : List (Nat × Nat)} : PlanKept s (s.arriveAt q party gate n cover) := by
  unfold State.arriveAt State.arrive State.onGate
  split
  · exact .refl s
  · refine PlanKept.trans (PlanKept.trans ?_ notesOnly_noteGate.planKept)
      (planKept_onPart fun _ => ⟨rfl, rfl, rfl, rfl, rfl, rfl, rfl, rfl, fun _ => rfl⟩)
    split
    · exact .refl s
    · refine (planKept_writePlace.trans planKept_markAt).trans (planKept_onPart fun p => ?_)
      split
      · exact .refl p
      · exact ⟨rfl, rfl, rfl, rfl, rfl, rfl, rfl, rfl, fun _ => rfl⟩

/-! ## What a page lets a unit do depends on -/

theorem PartKept.asyncXlat {p p' : Part} (h : PartKept p p') (dst : Bool) (va : Addr) :
    Machine.asyncXlat p' b dst va = Machine.asyncXlat p b dst va := by
  have hallow (k : RKind) (m : Word) : regionAllows p' b k m = regionAllows p b k m := by
    simp only [regionAllows, Part.lchip, h.fab]
  have hregion (k : RKind) : regionOk p' b k va = regionOk p b k va := by
    simp only [regionOk, h.regionAt, hallow]
  have htranslate (need : Need) : translate p' va need true = translate p va need true := by
    unfold Machine.translate
    rw [h.mem, h.entry]
  simp only [Machine.asyncXlat, htranslate, hregion]

theorem outward_congr {p p' : Part} (h : ∀ a : Nat, findEntry p'.tt a = findEntry p.tt a) : c.outward p' = c.outward p := by
  have hw : c.wtier p' true = c.wtier p true := by simp only [Cmd.wtier, h]
  rw [Cmd.outward, hw, Cmd.outward]

theorem outward_local {p : Part} (h : (c.wend true).sp ≠ 3) : c.outward p = false := by
  simp [Cmd.outward, Cmd.wtier, h]

/-! ## A unit's accesses counted and noted (R23, R207) -/

/-- Nothing has changed but a bay's count of accesses, and what partitions note. -/
structure UnitNoted (b : BayId) (s t : State) : Prop where
  shape : ShapeKept s t
  yard : t.yard = s.yard
  bay : ∃ n, t.bay b = { s.bay b with counted := n }
  others : ∀ y : BayId, y ≠ b → t.bay y = s.bay y

theorem UnitNoted.of_bays (hshape : ShapeKept s t) (hyard : t.yard = s.yard) (hbays : t.bays = s.bays) : UnitNoted b s t := by
  have hbay (y : BayId) : t.bay y = s.bay y := by rw [State.bay, hbays, State.bay]
  exact ⟨hshape, hyard, ⟨_, hbay b⟩, fun y _ => hbay y⟩

theorem UnitNoted.refl (s : State) : UnitNoted b s s := .of_bays (.refl s) rfl rfl

theorem UnitNoted.trans (h : UnitNoted b s t) (h' : UnitNoted b t u) : UnitNoted b s u := by
  obtain ⟨m, hm⟩ := h.bay
  obtain ⟨m', hm'⟩ := h'.bay
  exact ⟨h.shape.trans h'.shape, h'.yard.trans h.yard, ⟨m', by rw [hm', hm]⟩, fun y hy => (h'.others y hy).trans (h.others y hy)⟩

theorem unitNoted_foldl {α : Type} {f : State → α → State} {l : List α} (hf : ∀ t a, UnitNoted b t (f t a)) :
    UnitNoted b s (l.foldl f s) :=
  List.foldlRecOn (motive := fun t => UnitNoted b s t) l f (.refl s) fun t ht a _ => ht.trans (hf t a)

theorem UnitNoted.bayMems (h : UnitNoted b s t) : Sys2Proof.bayMems (t.bay y) = Sys2Proof.bayMems (s.bay y) := by
  by_cases hy : y = b
  · obtain ⟨n, hn⟩ := h.bay
    rw [hy, hn]
    rfl
  · rw [h.others y hy]

theorem UnitNoted.sameMemory (h : UnitNoted b s t) : SameMemory s t :=
  ⟨h.shape.ring, h.shape.lpddr, h.shape.hostMem, fun _ => h.bayMems⟩

theorem shapeKept_onPart {f : Part → Part} (h : ∀ p, PartKept p (f p)) : ShapeKept s (s.onPart q f) :=
  ⟨rfl, rfl, rfl, planKept_onPart h, rfl, rfl⟩

theorem partKept_commitSample {p : Part} {r : HotRec} : PartKept p (p.commitSample r) := by
  unfold Part.commitSample
  dsimp only
  split <;> exact ⟨rfl, rfl, rfl, rfl, rfl, rfl, rfl, rfl, fun _ => rfl⟩

theorem unitNoted_onPart {f : Part → Part} (h : ∀ p, PartKept p (f p)) : UnitNoted b s (s.onPart q f) :=
  .of_bays (shapeKept_onPart h) rfl rfl

theorem unitNoted_counted : UnitNoted b s (s.onBay b (fun y => { y with counted := y.counted + 1 })) := by
  refine ⟨(ShapeKept.refl s).onBay, rfl, ⟨(s.bay b).counted + 1, ?_⟩, fun y hy => State.bay_onBay_ne _ _ _ _ hy⟩
  rw [State.bay_onBay]

theorem unitNoted_sampleVa {typ : Nat} {va : Addr} {raw : BitVec 128} : UnitNoted b s (s.sampleVa b false typ va raw) := by
  unfold State.sampleVa
  dsimp only
  split
  · rw [if_neg (by simp)]
    exact unitNoted_counted.trans (unitNoted_onPart fun _ => partKept_commitSample)
  · exact unitNoted_counted

theorem unitNoted_asyncCount {v : WU} : UnitNoted b s (s.asyncCount q b c v) := by
  refine unitNoted_foldl fun t d => ?_
  split
  · refine unitNoted_foldl fun t j => ?_
    dsimp only
    split
    · split
      · exact .refl t
      · exact unitNoted_sampleVa
    · exact .refl t
  · exact .refl t

theorem unitNoted_noteAt {party tag kind stamp : Nat} {key : Nat × Nat} {write : Bool} {v : List (Nat × Nat)} :
    UnitNoted b s (s.noteAt q party tag key n write kind stamp v) := by
  unfold State.noteAt
  dsimp only
  split
  · exact .refl s
  · split
    · exact .of_bays ((shapeKept_race (q := q)).trans ⟨rfl, rfl, rfl, .refl _, rfl, rfl⟩) rfl rfl
    · exact .of_bays ⟨rfl, rfl, rfl, .refl s, rfl, rfl⟩ rfl rfl

theorem unitNoted_noteBy {party tag kind stamp : Nat} {pl : Place} {write : Bool} {v : List (Nat × Nat)} :
    UnitNoted b s (s.noteBy q party tag pl n write kind stamp v) := by
  unfold State.noteBy
  split
  · exact .refl s
  · exact unitNoted_noteAt

theorem unitNoted_noteSource {v : WU} {tag : Nat} {seen : List (Nat × Nat)} : UnitNoted b s (s.noteSource q b c v tag seen) := by
  unfold State.noteSource
  split
  · exact unitNoted_noteAt
  · refine unitNoted_foldl fun t x => ?_
    split
    · split
      · exact unitNoted_noteBy
      · exact .refl t
    · exact .refl t

theorem unitNoted_freshTag : UnitNoted b s s.freshTag.2 := .of_bays ⟨rfl, rfl, rfl, .refl s, rfl, rfl⟩ rfl rfl

/-! ## A unit fails (R248) -/

/-- A unit of a walk that has failed: it is logged, and where its walk brings nothing to flash no memory changes. -/
def UnitFailed (s t : State) (q : PartId) (walk i : Nat) (inward : Prop) : Prop :=
  (∀ v ∈ (t.part q).asyncs, v.id = walk → i ∈ v.failed) ∧ (∃ l : List LogEntry, t.yard.errlog = s.yard.errlog ++ .note 248 walk :: l) ∧
    (inward → SameMemory s t ∧ t.yard.errlog = s.yard.errlog ++ [.note 248 walk])

theorem find_onAsync {p : Part} {f : AsyncWalk → AsyncWalk} (hid : ∀ v, (f v).id = v.id)
    (hw : p.asyncs.find? (fun v => decide (v.id = walk)) = some w) :
    (p.onAsync w.id f).asyncs.find? (fun v => decide (v.id = walk)) = some (f w) := by
  have hwid : w.id = walk := by simpa using List.find?_some hw
  have hsame : ((fun v : AsyncWalk => decide (v.id = walk)) ∘ fun v => if v.id = w.id then f v else v) = fun v => decide (v.id = walk) := by
    funext v
    simp only [Function.comp_apply]
    split
    · rw [hid]
    · rfl
  rw [Part.onAsync, List.find?_map, hsame, hw, Option.map_some, if_pos rfl]

theorem mem_onAsync {p : Part} {f : AsyncWalk → AsyncWalk} {v : AsyncWalk} {P : AsyncWalk → Prop} (hP : ∀ v, P (f v))
    (hv : v ∈ (p.onAsync walk f).asyncs) (h : v.id = walk) : P v := by
  obtain ⟨v0, -, rfl⟩ := List.mem_map.mp hv
  by_cases h0 : v0.id = walk
  · rw [if_pos h0]
    exact hP v0
  · rw [if_neg h0] at h
    exact absurd h h0

theorem part_log {e : LogEntry} : (s.log e).part q = s.part q := rfl

theorem unitFailed_asyncFail (hw : (s.part q).asyncs.find? (fun v => decide (v.id = walk)) = some w) (h : UnitNoted b s t) :
    UnitFailed s (t.asyncFail q w i) q walk i (w.cmd.outward (s.part q) = false) := by
  have hwid : w.id = walk := by simpa using List.find?_some hw
  have hkept := h.shape.plan q
  have hwt : (t.part q).asyncs.find? (fun v => decide (v.id = walk)) = some w := by rw [hkept.asyncs, hw]
  obtain ⟨u, hu⟩ : ∃ u, (t.onPart q (fun p => p.onAsync w.id (fun v => { v with failed := i :: v.failed }))).log (.note 248 w.id) = u :=
    ⟨_, rfl⟩
  have hpart : u.part q = (t.part q).onAsync w.id (fun v => { v with failed := i :: v.failed }) := by
    rw [← hu, part_log, State.part_onPart]
  have hlog : u.yard.errlog = s.yard.errlog ++ [.note 248 walk] := by
    rw [← hu, ← hwid, ← h.yard]
    rfl
  have hmem : SameMemory s u := by
    rw [← hu]
    exact h.sameMemory
  have hmoves : AgentMoves u (u.asyncNext q w) := agentMoves_asyncNext
  have hfail : t.asyncFail q w i = u.asyncNext q w := by rw [← hu]; rfl
  rw [hfail]
  refine ⟨fun v hv hid => ?_, ?_, fun hin => ?_⟩
  · obtain ⟨v0, hv0, hid0, hfailed, -⟩ := hmoves.walks q v hv
    rw [hpart, hwid] at hv0
    exact hfailed (mem_onAsync (f := fun v => { v with failed := i :: v.failed }) (P := fun v => i ∈ v.failed)
      (fun _ => List.mem_cons_self) hv0 (hid0.symm.trans hid))
  · obtain ⟨l, hl⟩ := hmoves.log
    exact ⟨l, by rw [← hl, hlog, List.append_assoc]; rfl⟩
  · have hfind := find_onAsync (f := fun v => { v with failed := i :: v.failed }) (fun _ => rfl) hwt
    rw [← hpart, ← hwid] at hfind
    have honly : AgentOnly u (u.asyncNext q w) := by
      refine agentOnly_asyncNext hfind ((outward_congr (c := w.cmd) fun a => ?_).trans hin)
      rw [hpart]
      exact hkept.entry a
    obtain ⟨hring, hlpddr, hhost, hbays⟩ := honly.sameMemory
    obtain ⟨hring', hlpddr', hhost', hbays'⟩ := hmem
    exact ⟨⟨hring.trans hring', hlpddr.trans hlpddr', hhost.trans hhost', fun b => (hbays b).trans (hbays' b)⟩,
      by rw [honly.yard, hlog]⟩

end Sys2Proof
end

section
/-!
PROOF. The units of asynchronous walks that land (R201, R242, R245, R246, R248).
-/

namespace Sys2Proof
open Machine Laws

variable {s t u : State} {q : PartId} {b y : BayId} {c : Cmd} {w : AsyncWalk} {i walk n : Nat} {came data : List Byte} {v : WU}

/-! ## A unit waits for its slots (R24) -/

/-- Transfers that take slots at a list of places for an act: the last of them acts. -/
def placeBursts (code : Nat) (act : Traffic) (now : Nat) (l : List (Place × Nat)) : List Burst :=
  l.dropLast.map (fun x => ⟨code, some x.1, x.2, 0, .bulk, now⟩) ++
    [⟨code, l.getLast?.map (fun x => x.1), (l.getLast?.map (fun x => x.2)).getD 0, 0, act, now⟩]

/-- A partition with more transfers that wait. -/
def Machine.Part.queued (p : Part) (l : List Burst) : Part := { p with traffic := p.traffic ++ l }

theorem queued_queued {p : Part} {l l' : List Burst} : (p.queued l).queued l' = p.queued (l ++ l') := by
  simp only [Part.queued, List.append_assoc]

theorem queueBurst_queued {code : Nat} {pl : Option Place} {act : Traffic} (ha : ∀ r, act ≠ .tier5 r) :
    s.queueBurst q code pl n act = s.onPart q (fun p => p.queued [⟨code, pl, n, 0, act, s.clock⟩]) := by
  have hput (m : List Burst) : putBurst m ⟨code, pl, n, 0, act, s.clock⟩ = m ++ [⟨code, pl, n, 0, act, s.clock⟩] := putBurst_eq_append ha
  simp only [State.queueBurst, hput]
  rfl

theorem queueAll_eq {code : Nat} {act : Traffic} {l : List (Place × Nat)} (ha : ∀ r, act ≠ .tier5 r) :
    s.queueAll q code act l = s.onPart q (fun p => p.queued (placeBursts code act s.clock l)) := by
  induction l generalizing s with
  | nil => exact queueBurst_queued ha
  | cons x l ih =>
    cases l with
    | nil => exact queueBurst_queued ha
    | cons z l =>
      have hbulk : ∀ r, Traffic.bulk ≠ .tier5 r := fun _ => by simp
      rw [State.queueAll, ih, queueBurst_queued hbulk, onPart_onPart]
      · simp only [queued_queued]
        rfl
      · simp

theorem exec_asyncUnitLanding (hw : (s.part q).asyncs.find? (fun v => decide (v.id = walk)) = some w) (hi : i < w.total)
    (hsettled : w.settled i = false) (d : Option (List Byte)) : exec (.asyncUnitLanding q walk i d) s = .next (match d with
      | none => s.asyncFail q w i
      | some l => s.queueAll q 0xF0 (.unit walk i l) (asyncPlaces (s.part q) w.cmd (w.cmd.wu i))) := by
  change execAsyncUnitLanding q walk i d s = _
  have hopen : ¬ (w.total ≤ i ∨ w.settled i = true) := by simp [hsettled, hi]
  simp only [execAsyncUnitLanding, hw, hopen, if_false]
  cases d <;> rfl

theorem performBurst_unit {x : Burst} (hmode : (s.part q).mode ≠ .preempted) (hx : x.act = .unit walk i came)
    (hw : (s.part q).asyncs.find? (fun v => decide (v.id = walk)) = some w) (hsettled : w.settled i = false) :
    s.performBurst q x = s.asyncLand q w i came := by
  simp only [State.performBurst, hx, within_of_ne hmode, hw, hsettled, Bool.false_eq_true, if_false]

/-! ## What has landed -/

/-- What follows a unit that has landed in state s: it is counted at the gate of its walk and as landed, and what waits goes on. -/
def asyncLanded (s : State) (q : PartId) (w : AsyncWalk) (i party n : Nat) (cover : List (Nat × Nat)) : State :=
  ((s.onPart q (fun p => p.onAsync w.id (fun v => { v with landed := i :: v.landed }))).arriveAt q party w.cmd.gva n cover).asyncNext q w

theorem asyncLand_eq {l : List Byte} (hsource : s.asyncSource (s.part q) (Fin.ofNat 192 w.bay) w.cmd (w.cmd.wu i) came = some l)
    (hblock : w.cmd.blockAt (s.part q) true (i / w.cmd.perBlock) = none)
    (hdata : l ++ List.replicate (w.cmd.writes (w.cmd.wu i) - l.length) 0 = data)
    (hroom : s.asyncFull (Fin.ofNat 192 w.bay) w.cmd (w.cmd.wu i) data = []) :
    ∃ (s1 : State) (tag : Nat), UnitNoted (Fin.ofNat 192 w.bay) s s1 ∧
      ∀ s2 : State, s1.asyncDest q (Fin.ofNat 192 w.bay) w.cmd (w.cmd.wu i) data tag w.begun = some s2 →
        s.asyncLand q w i came = asyncLanded s2 q w i (agentParty (Fin.ofNat 192 w.bay))
          ((w.cmd.landsIn (Fin.ofNat 192 w.bay) (w.cmd.wu i)).length * w.cmd.unit) (tagClock tag) := by
  obtain ⟨s0, hs0⟩ : ∃ s0, s.asyncCount q (Fin.ofNat 192 w.bay) w.cmd (w.cmd.wu i) = s0 := ⟨_, rfl⟩
  have hcount : UnitNoted (Fin.ofNat 192 w.bay) s s0 := hs0 ▸ unitNoted_asyncCount
  refine ⟨s0.freshTag.2.noteSource q (Fin.ofNat 192 w.bay) w.cmd (w.cmd.wu i) s0.freshTag.1 w.begun, s0.freshTag.1,
    (hcount.trans unitNoted_freshTag).trans unitNoted_noteSource, fun s2 hdest => ?_⟩
  simp only [State.asyncLand, hsource, hblock, Option.isSome_none, Bool.false_eq_true, if_false, hdata, hroom, hs0, hdest]
  rfl

theorem asyncLand_fails (hsource : s.asyncSource (s.part q) (Fin.ofNat 192 w.bay) w.cmd (w.cmd.wu i) came = none) :
    s.asyncLand q w i came = (s.asyncCount q (Fin.ofNat 192 w.bay) w.cmd (w.cmd.wu i)).asyncFail q w i := by
  simp only [State.asyncLand, hsource]

section
variable {party : Nat} {cover : List (Nat × Nat)} (hw : (s.part q).asyncs.find? (fun v => decide (v.id = walk)) = some w)
  (hplan : PlanKept s u) (hin : w.cmd.outward (s.part q) = false)
include hw

theorem took_asyncLanded : ∀ v ∈ ((asyncLanded u q w i party n cover).part q).asyncs, v.id = walk → i ∈ v.landed := by
  have hwid : w.id = walk := by simpa using List.find?_some hw
  intro v hv hid
  obtain ⟨v0, hv0, hid0, -, hlanded⟩ := (agentMoves_asyncNext.walks q) v hv
  rw [(planKept_arriveAt q).asyncs, State.part_onPart, hwid] at hv0
  exact hlanded (mem_onAsync (f := fun v => { v with landed := i :: v.landed }) (P := fun v => i ∈ v.landed)
    (fun _ => List.mem_cons_self) hv0 (hid0.symm.trans hid))

include hplan hin

theorem agentOnly_asyncLanded : AgentOnly ((u.onPart q (fun p => p.onAsync w.id (fun v => { v with landed := i :: v.landed }))).arriveAt q
    party w.cmd.gva n cover) (asyncLanded u q w i party n cover) := by
  have hwid : w.id = walk := by simpa using List.find?_some hw
  have hwu : (u.part q).asyncs.find? (fun v => decide (v.id = walk)) = some w := by rw [(hplan q).asyncs, hw]
  have hfind := find_onAsync (f := fun v => { v with landed := i :: v.landed }) (fun _ => rfl) hwu
  obtain ⟨u1, hu1⟩ : ∃ u1, u.onPart q (fun p => p.onAsync w.id (fun v => { v with landed := i :: v.landed })) = u1 := ⟨_, rfl⟩
  have hpart : u1.part q = (u.part q).onAsync w.id (fun v => { v with landed := i :: v.landed }) := by
    rw [← hu1, State.part_onPart]
  have hkept : PlanKept u1 (u1.arriveAt q party w.cmd.gva n cover) := planKept_arriveAt
  rw [← hpart, ← (hkept q).asyncs, ← hwid] at hfind
  unfold asyncLanded
  rw [hu1]
  refine agentOnly_asyncNext hfind ((outward_congr (c := w.cmd) fun a => ?_).trans hin)
  rw [(hkept q).entry, hpart]
  exact (hplan q).entry a

theorem bay_asyncLanded : (asyncLanded u q w i party n cover).bay y = u.bay y := by
  rw [(agentOnly_asyncLanded hw hplan hin).bay, State.bay, arriveAt_bays]
  rfl

/-- The unit counts at its walk's gate, told of a state with the same memory and the same place of the gate. -/
theorem countsAt_asyncLanded {s0 : State} (hgate : gatePlace (u.part q) w.cmd.gva = gatePlace (s0.part q) w.cmd.gva)
    (hring : u.ring = s0.ring) (hlpddr : u.lpddr = s0.lpddr) (hhost : u.hostMem = s0.hostMem) :
    CountsAt s0 (asyncLanded u q w i party n cover) q w.cmd.gva n := by
  have honly := agentOnly_asyncLanded (i := i) (n := n) (party := party) (cover := cover) hw hplan hin
  obtain ⟨u1, hu1⟩ : ∃ u1, u.onPart q (fun p => p.onAsync w.id (fun v => { v with landed := i :: v.landed })) = u1 := ⟨_, rfl⟩
  have hgate1 : gatePlace (u1.part q) w.cmd.gva = gatePlace (s0.part q) w.cmd.gva := by
    rw [← hu1, State.part_onPart, ← hgate]
    rfl
  have hdev : u1.ring = s0.ring ∧ u1.lpddr = s0.lpddr ∧ u1.hostMem = s0.hostMem := by
    rw [← hu1]
    exact ⟨hring, hlpddr, hhost⟩
  rw [hu1] at honly
  obtain ⟨hr, hl, hh, -⟩ := honly.sameMemory
  exact countsAt_arriveAt.of_kept hgate1 hdev ⟨hr, hl, hh, honly.gatesDue⟩

end

/-! ## A unit lands in stores of bays -/

theorem asyncLocal_eq {tag : Nat} {seen : List (Nat × Nat)} (hne : data ≠ []) (hoff : 0 ≤ c.woff true v)
    (hin : c.woff true v + data.length ≤ s.storeSize y (spStore (c.wend true).sp))
    (hwf : ((s.bay y).store (spStore (c.wend true).sp)).wf = true) :
    ∃ t : State, s.asyncLocal q b y c v data tag seen = some t ∧ ShapeKept s t ∧ (∀ z : BayId, z ≠ y → t.bay z = s.bay z) ∧
      Stored ((s.bay y).store (spStore (c.wend true).sp)) ((t.bay y).store (spStore (c.wend true).sp)) (c.woff true v).toNat data ∧
      (t.bay y).regs = (s.bay y).regs := by
  have hrange : ¬ (c.woff true v < 0 ∨ (s.storeSize y (spStore (c.wend true).sp) : Int) < c.woff true v + data.length) := by omega
  obtain ⟨f, hf⟩ : ∃ f : Bay → Bay, (fun x : Bay => if x.mode = .idle then
    { x.writeStore (spStore (c.wend true).sp) (c.woff true v).toNat data with window := x.window }
      else x.writeStore (spStore (c.wend true).sp) (c.woff true v).toNat data) = f := ⟨_, rfl⟩
  have hstore : (f (s.bay y)).store (spStore (c.wend true).sp) =
      Mem.writeN ((s.bay y).store (spStore (c.wend true).sp)) (c.woff true v).toNat data := by
    have hw := store_writeRuns (x := s.bay y) (k := spStore (c.wend true).sp) (runs := [((c.woff true v).toNat, data)])
      (spStore (c.wend true).sp)
    rw [if_pos rfl] at hw
    rw [← hf]
    dsimp only
    split
    · refine Eq.trans ?_ hw
      cases spStore (c.wend true).sp <;> rfl
    · exact hw
  have hregs : (f (s.bay y)).regs = (s.bay y).regs := by
    have hw := (writeRuns_frame (x := s.bay y) (k := spStore (c.wend true).sp) (runs := [((c.woff true v).toNat, data)])).1
    rw [← hf]
    dsimp only
    split <;> exact hw
  refine ⟨(s.onBay y f).noteAt q (agentParty b) tag (storeKey y (spStore (c.wend true).sp) (c.woff true v).toNat) data.length true 0 0 seen,
    ?_, ?_⟩
  · simp only [State.asyncLocal, hne, hrange, if_false, hf]
  · have hnote : UnitNoted y (s.onBay y f) ((s.onBay y f).noteAt q (agentParty b) tag
      (storeKey y (spStore (c.wend true).sp) (c.woff true v).toNat) data.length true 0 0 seen) := unitNoted_noteAt
    obtain ⟨hshape, -, -, -⟩ := hnote
    have hbay (z : BayId) : ((s.onBay y f).noteAt q (agentParty b) tag (storeKey y (spStore (c.wend true).sp) (c.woff true v).toNat)
        data.length true 0 0 seen).bay z = (s.onBay y f).bay z := by
      rw [State.bay, notesOnly_noteAt.bays, State.bay]
    refine ⟨(ShapeKept.refl s).onBay.trans hshape, fun z hz => ?_, ?_⟩
    · rw [hbay, State.bay_onBay_ne _ _ _ _ hz]
    · rw [hbay, State.bay_onBay, hstore, hregs]
      exact ⟨writeN_stored _ _ _ hwf, rfl⟩

/-- A unit that is within its stores lands in each of its receivers. -/
theorem asyncDest_local {tag : Nat} {seen : List (Nat × Nat)} (hsp : (c.wend true).sp ≠ 3) (hne : data ≠ []) (hoff : 0 ≤ c.woff true v)
    (hnodup : (c.landsIn b v).Nodup) (h : ∀ y ∈ c.landsIn b v, c.woff true v + data.length ≤ s.storeSize y (spStore (c.wend true).sp) ∧
      ((s.bay y).store (spStore (c.wend true).sp)).wf = true) :
    ∃ t : State, s.asyncDest q b c v data tag seen = some t ∧ ShapeKept s t ∧
      (∀ y ∈ c.landsIn b v, Stored ((s.bay y).store (spStore (c.wend true).sp)) ((t.bay y).store (spStore (c.wend true).sp))
        (c.woff true v).toNat data ∧ (t.bay y).regs = (s.bay y).regs) ∧
      ∀ y : BayId, y ∉ c.landsIn b v → t.bay y = s.bay y := by
  simp only [State.asyncDest, hne, hsp, ne_eq, not_false_eq_true, if_true, if_false]
  generalize c.landsIn b v = ts at hnodup h ⊢
  induction ts generalizing s with
  | nil => exact ⟨s, rfl, .refl s, fun _ hy => absurd hy List.not_mem_nil, fun _ _ => rfl⟩
  | cons a ts ih =>
    obtain ⟨hnot, hnodup'⟩ := List.nodup_cons.mp hnodup
    obtain ⟨hin, hwf⟩ := h a List.mem_cons_self
    obtain ⟨s1, hs1, hshape, hothers, hstored⟩ := asyncLocal_eq (q := q) (b := b) (tag := tag) (seen := seen) hne hoff hin hwf
    have hrest : ∀ y ∈ ts, c.woff true v + data.length ≤ s1.storeSize y (spStore (c.wend true).sp) ∧
        ((s1.bay y).store (spStore (c.wend true).sp)).wf = true := fun y hy => by
      rw [hshape.storeSize, hothers y (fun e => hnot (e ▸ hy))]
      exact h y (List.mem_cons_of_mem _ hy)
    obtain ⟨t, ht, hshape', hlands, hothers'⟩ := ih hnodup' hrest
    refine ⟨t, ?_, hshape.trans hshape', fun y hy => ?_, fun y hy => ?_⟩
    · rw [List.foldl_cons, ← ht]
      simp only [hs1]
    · rcases List.mem_cons.mp hy with rfl | hy
      · rw [hothers' y hnot]
        exact hstored
      · rw [← hothers y (fun e => hnot (e ▸ hy))]
        exact hlands y hy
    · obtain ⟨hya, hyts⟩ := not_or.mp (mt List.mem_cons.mpr hy)
      exact (hothers' y hyts).trans (hothers y hya)

/-! ## A unit lands at a VA -/

theorem unitPieces_sole {va : Addr} {k : Nat} (h : vaNat va % 65536 + k ≤ 65536) : unitPieces va k = [(va, 0, k)] := by
  simp only [unitPieces]
  rw [if_pos (by omega)]

theorem asyncDest_va {tag : Nat} {seen : List (Nat × Nat)} {z : Xlat} (hsp : (c.wend true).sp = 3) (hne : data ≠ [])
    (hone : vaNat (c.wva true v) % 65536 + data.length ≤ 65536) (hz : asyncXlat (s.part q) b true (c.wva true v) = some z)
    (htier : teTier z.raw ≤ 4) : s.asyncDest q b c v data tag seen =
      some (((s.writePlace z.place data).noteBy q (agentParty b) tag z.place data.length true 0 0 seen).markPending q z.entry) := by
  have hlen : data.length ≠ 0 := fun h => hne (List.length_eq_zero_iff.mp h)
  simp only [State.asyncDest, hne, hsp, ne_eq, not_true_eq_false, if_false, unitPieces_sole hone, List.foldl_cons, List.foldl_nil, hz, hlen,
    List.drop_zero, List.take_length, State.asyncWrite]
  split
  · omega
  · omega
  · omega
  · rfl

end Sys2Proof
end

section
/-!
PROOF. O45: walks begin, read and land their units, and asynchronous ones land theirs.
-/

namespace Sys2Proof
open Machine Laws

variable {s t : State} {q : PartId} {w : AsyncWalk} {i walk : Nat} {came l data : List Byte}

/-! ## A unit of an asynchronous walk that lands (R245, R246, R248) -/

/-- The memory of this chip that a unit passes through at one of its ends. -/
def placeAtEnd (p : Part) (c : Cmd) (v : WU) (d : Bool) : List (Place × Nat) :=
  if (c.wend d).sp = 3 ∧ c.spanAt d v ≠ 0 then
    match findEntry p.tt ((c.wva d v).toNat % 2 ^ 64) with
    | some (_, e) => if teTier e ≤ 4 then [(tePlace e ((c.wva d v).toNat % 2 ^ 64 - teBase e), c.spanAt d v)] else []
    | none => []
  else []

theorem asyncPlaces_eq (p : Part) (c : Cmd) (v : WU) : asyncPlaces p c v = placeAtEnd p c v false ++ placeAtEnd p c v true := by
  have hends (f : Bool → Option (Place × Nat)) : ([false, true] : List Bool).filterMap f = (f false).toList ++ (f true).toList := by
    cases h : f false <;> cases h' : f true <;> simp [h, h']
  have hend (d : Bool) : Option.toList (if (c.wend d).sp = 3 ∧ c.spanAt d v ≠ 0 then
      match findEntry p.tt (vaNat (c.wva d v)) with
      | some (_, e) => if teTier e ≤ 4 then some (tePlace e (vaNat (c.wva d v) - teBase e), c.spanAt d v) else none
      | none => none
    else none) = placeAtEnd p c v d := by
    unfold placeAtEnd
    rw [vaNat_eq]
    split
    · split
      · split <;> rfl
      · rfl
    · rfl
  exact (hends _).trans (congrArg₂ (· ++ ·) (hend false) (hend true))

theorem asyncFull_none {b : BayId} {c : Cmd} {v : WU}
    (h : ∀ y ∈ c.landsIn b v, (s.bay y).mode = .idle ∨ (s.bay y).linesNow + (runLines [((c.woff true v).toNat, data)]).length ≤ 256) :
    s.asyncFull b c v data = [] := by
  unfold State.asyncFull
  split
  · rfl
  · rw [List.filter_eq_nil_iff]
    intro y hy
    rcases h y hy with hidle | hlines
    · simp [hidle]
    · simp [hlines]

section
variable (hmode : (s.part q).mode ≠ .preempted) (hw : (s.part q).asyncs.find? (fun v => decide (v.id = walk)) = some w)
  (hsettled : w.settled i = false) {x : Burst} (hx : x.act = .unit walk i came)
  (hsource : s.asyncSource (s.part q) (Fin.ofNat 192 w.bay) w.cmd (w.cmd.wu i) came = some l)
  (hdata : l ++ List.replicate (w.cmd.writes (w.cmd.wu i) - l.length) 0 = data) (hne : data ≠ [])
include hmode hw hsettled hx hsource hdata hne

theorem async_lands_local (hsp : (w.cmd.wend true).sp ≠ 3) (hoff : 0 ≤ w.cmd.woff true (w.cmd.wu i))
    (hnodup : (w.cmd.landsIn (Fin.ofNat 192 w.bay) (w.cmd.wu i)).Nodup)
    (hfits : ∀ y ∈ w.cmd.landsIn (Fin.ofNat 192 w.bay) (w.cmd.wu i),
      w.cmd.woff true (w.cmd.wu i) + data.length ≤ s.storeSize y (spStore (w.cmd.wend true).sp) ∧
      ((s.bay y).store (spStore (w.cmd.wend true).sp)).wf = true ∧
      ((s.bay y).mode = .idle ∨ (s.bay y).linesNow + (runLines [((w.cmd.woff true (w.cmd.wu i)).toNat, data)]).length ≤ 256)) :
    let t := s.performBurst q x
    (∀ v ∈ (t.part q).asyncs, v.id = walk → i ∈ v.landed) ∧
      (∀ y ∈ w.cmd.landsIn (Fin.ofNat 192 w.bay) (w.cmd.wu i), Stored ((s.bay y).store (spStore (w.cmd.wend true).sp))
        ((t.bay y).store (spStore (w.cmd.wend true).sp)) (w.cmd.woff true (w.cmd.wu i)).toNat data ∧ (t.bay y).regs = (s.bay y).regs) ∧
      (∀ y : BayId, y ≠ Fin.ofNat 192 w.bay → y ∉ w.cmd.landsIn (Fin.ofNat 192 w.bay) (w.cmd.wu i) → t.bay y = s.bay y) ∧
      CountsAt s t q w.cmd.gva ((w.cmd.landsIn (Fin.ofNat 192 w.bay) (w.cmd.wu i)).length * w.cmd.unit) := by
  intro t
  have hblock : w.cmd.blockAt (s.part q) true (i / w.cmd.perBlock) = none := if_neg (fun h => hsp h.1)
  obtain ⟨s1, tag, hnoted, hland⟩ := asyncLand_eq hsource hblock hdata (asyncFull_none fun y hy => (hfits y hy).2.2)
  have hstore (y : BayId) : (s1.bay y).store (spStore (w.cmd.wend true).sp) = (s.bay y).store (spStore (w.cmd.wend true).sp) ∧
      (s1.bay y).regs = (s.bay y).regs := by
    by_cases hy : y = Fin.ofNat 192 w.bay
    · obtain ⟨n, hn⟩ := hnoted.bay
      rw [hy, hn]
      exact ⟨by cases spStore (w.cmd.wend true).sp <;> rfl, rfl⟩
    · rw [hnoted.others y hy]
      exact ⟨rfl, rfl⟩
  obtain ⟨s2, hdest, hshape, hlands, hothers⟩ := asyncDest_local (s := s1) (q := q) (tag := tag) (seen := w.begun) hsp hne hoff hnodup
    (fun y hy => by
      obtain ⟨hin, hwf, -⟩ := hfits y hy
      rw [hnoted.shape.storeSize, (hstore y).1]
      exact ⟨hin, hwf⟩)
  have hkept := hnoted.shape.trans hshape
  have ht : t = _ := (performBurst_unit hmode hx hw hsettled).trans (hland s2 hdest)
  have hin : w.cmd.outward (s.part q) = false := outward_local hsp
  rw [ht]
  refine ⟨took_asyncLanded hw, fun y hy => ?_, fun y hy hts => ?_,
    countsAt_asyncLanded hw hkept.plan hin ((hkept.plan q).gatePlace _) hkept.ring hkept.lpddr hkept.hostMem⟩
  · rw [bay_asyncLanded hw hkept.plan hin, ← (hstore y).1, ← (hstore y).2]
    exact hlands y hy
  · rw [bay_asyncLanded hw hkept.plan hin, hothers y hts, hnoted.others y hy]

theorem async_lands_va {z : Xlat} (hsp : (w.cmd.wend true).sp = 3) (hone : w.cmd.isM = false)
    (hpage : (w.cmd.wva true (w.cmd.wu i)).toNat % 65536 + data.length ≤ 65536)
    (hz : asyncXlat (s.part q) (Fin.ofNat 192 w.bay) true (w.cmd.wva true (w.cmd.wu i)) = some z) (htier : teTier z.raw ≤ 4)
    (hblock : w.cmd.blockAt (s.part q) true (i / w.cmd.perBlock) = none) (hin : w.cmd.outward (s.part q) = false) :
    let t := s.performBurst q x
    (∀ v ∈ (t.part q).asyncs, v.id = walk → i ∈ v.landed) ∧ CountsAt (s.writePlace z.place data) t q w.cmd.gva w.cmd.unit ∧
      ∀ b' : BayId, bayMems (t.bay b') = bayMems (s.bay b') := by
  intro t
  have hroom : s.asyncFull (Fin.ofNat 192 w.bay) w.cmd (w.cmd.wu i) data = [] := if_pos (.inl hsp)
  have hsole : (w.cmd.landsIn (Fin.ofNat 192 w.bay) (w.cmd.wu i)).length * w.cmd.unit = w.cmd.unit := by simp [Cmd.landsIn, hone]
  obtain ⟨s1, tag, hnoted, hland⟩ := asyncLand_eq hsource hblock hdata hroom
  have hpage' : vaNat (w.cmd.wva true (w.cmd.wu i)) % 65536 + data.length ≤ 65536 := by
    rw [vaNat_eq]
    omega
  have hdest := asyncDest_va (s := s1) (q := q) (b := Fin.ofNat 192 w.bay) (tag := tag) (seen := w.begun) hsp hne hpage'
    (((hnoted.shape.plan q).asyncXlat true _).trans hz) htier
  obtain ⟨s2, hs2⟩ : ∃ s2, ((s1.writePlace z.place data).noteBy q (agentParty (Fin.ofNat 192 w.bay)) tag z.place data.length true 0 0
    w.begun).markPending q z.entry = s2 := ⟨_, rfl⟩
  rw [hs2] at hdest
  have hnote : NotesOnly (s1.writePlace z.place data) ((s1.writePlace z.place data).noteBy q (agentParty (Fin.ofNat 192 w.bay)) tag z.place
    data.length true 0 0 w.begun) := notesOnly_noteBy
  have hdev : SameDevices (s1.writePlace z.place data) s2 := hs2 ▸ hnote.toSameDevices.trans sameDevices_markPending
  have hplan : PlanKept s s2 := hs2 ▸ ((hnoted.shape.plan.trans planKept_writePlace).trans hnote.planKept).trans planKept_markPending
  have hring : (s1.writePlace z.place data).ring = (s.writePlace z.place data).ring ∧
      (s1.writePlace z.place data).lpddr = (s.writePlace z.place data).lpddr ∧
      (s1.writePlace z.place data).hostMem = (s.writePlace z.place data).hostMem := by
    cases z.place <;> simp only [State.writePlace, hnoted.shape.ring, hnoted.shape.lpddr, hnoted.shape.hostMem, and_self]
  obtain ⟨hr, hl, hh⟩ := hring
  have ht : t = _ := (performBurst_unit hmode hx hw hsettled).trans (hland s2 hdest)
  rw [ht, hsole]
  refine ⟨took_asyncLanded hw, countsAt_asyncLanded hw hplan hin ?_ (hdev.ring.trans hr) (hdev.lpddr.trans hl) (hdev.hostMem.trans hh),
    fun b' => ?_⟩
  · rw [writePlace_part]
    exact (hplan q).gatePlace _
  · rw [bay_asyncLanded hw hplan hin, hdev.bay, State.bay, writePlace_bays]
    exact hnoted.bayMems

end

theorem queues_unit (hw : (s.part q).asyncs.find? (fun v => decide (v.id = walk)) = some w) (hi : i < w.total)
    (hsettled : w.settled i = false) : ∃ t : State, exec (.asyncUnitLanding q walk i (some came)) s = .next t ∧ OnlyPart q s t ∧
      (t.part q).traffic = (s.part q).traffic ++ placeBursts 0xF0 (.unit walk i came) s.clock
        (placeAtEnd (s.part q) w.cmd (w.cmd.wu i) false ++ placeAtEnd (s.part q) w.cmd (w.cmd.wu i) true) := by
  refine ⟨_, exec_asyncUnitLanding hw hi hsettled (some came), ?_, ?_⟩ <;>
    simp only [queueAll_eq (fun r => (by simp : Traffic.unit walk i came ≠ .tier5 r)), asyncPlaces_eq]
  · exact onlyPart_onPart
  · rw [State.part_onPart]
    rfl

/-! ## O45 -/

/-- Settles O45: a walk's steps by the rule for each of its events, on the one unit or the one new unit that acts. -/
theorem walks : Obligations.Walks := by
  unfold Obligations.Walks
  refine ⟨?begins, ?triggers, ?units, ?asyncs⟩
  case begins =>
    intro b k s c rest l h hl hfree hmoves
    exact ⟨walk_begins h hl hfree hmoves, fun va hf hp => walk_forbidden h hl hfree hmoves hf hp⟩
  case triggers =>
    intro b k s l w hw hmoves hnext hdue hm hl hu
    exact walk_triggers hw hmoves hnext hdue hm hl hu
  case units =>
    intro b k s l l' w us us' r h hmoves
    dsimp only
    refine ⟨fun x hsp hlive hnot hdue hquiet hidle hunits hx hch =>
      walk_reads_far h hmoves hsp hlive hnot hdue hquiet hidle hunits hx hch, fun due q hdue hnow hq hothers hunits => ?_⟩
    have hr : r.lands (s.walkClock b w.cmd) = true := (lands_of_due hdue).trans (decide_eq_true hnow)
    have hothers' : ∀ a ∈ l ++ l', ∀ v ∈ a.units, v.lands (s.walkClock b a.cmd) = false :=
      fun a ha v hv => lands_later (hothers a ha v hv)
    have hunits' : ∀ v ∈ us ++ us', v.lands (s.walkClock b w.cmd) = false := fun v hv => lands_later (hunits v hv)
    exact ⟨fun hsp hne hoff hnodup hfits => walk_lands_local h hmoves hq hr hothers' hunits' hsp hne hoff hnodup hfits,
      fun x hsp hw hone hx hclash => walk_lands_va h hmoves hq hr hothers' hunits' hsp hw hone hx hclash⟩
  case asyncs =>
    intro q walk i s w hmode hw hi hlanded hfailed
    have hsettled : w.settled i = false := by simp [AsyncWalk.settled, hlanded, hfailed]
    dsimp only
    refine ⟨⟨_, exec_asyncUnitLanding hw hi hsettled none, unitFailed_asyncFail hw (b := Fin.ofNat 192 w.bay) (.refl s)⟩,
      fun came => ⟨?_, fun x hx => ⟨fun hnone => ?_, fun l hsource hlen => ?_⟩⟩⟩
    · obtain ⟨t, ht, honly, htraffic⟩ := queues_unit (came := came) hw hi hsettled
      exact ⟨t, ht, honly, htraffic.trans (List.append_assoc ..).symm⟩
    · rw [performBurst_unit hmode hx hw hsettled, asyncLand_fails hnone]
      exact unitFailed_asyncFail hw unitNoted_asyncCount
    · rw [← hlen]
      exact ⟨fun hsp hne hoff hnodup hfits => async_lands_local hmode hw hsettled hx hsource rfl hne hsp hoff hnodup hfits,
        fun z hsp hone hne hpage hz htier hblock hin =>
          async_lands_va hmode hw hsettled hx hsource rfl hne hsp hone hpage hz htier hblock hin⟩

end Sys2Proof
end

section
/-!
PROOF. Flits, their numbers and flit times, and PTP messages (R310, R311, R313).

A port's state changes by onLink alone: what waits there, what was sent, and the number expected next.
-/

namespace Sys2Proof
open Machine Laws

variable {s t : State} {port out : Port} {x : Flit} {w : Waiting}

/-! ## The state of a port -/

/-- The state of one port changed. -/
def Machine.State.onLink (s : State) (port : Port) (f : Link → Link) : State :=
  { s with links := s.links.set (portIdx port).val (f (s.links.get (portIdx port))) (portIdx port).isLt }

/-- The state of a port. -/
def Machine.State.link (s : State) (port : Port) : Link := s.links.get (portIdx port)

theorem onLink_onLink {f g : Link → Link} : (s.onLink port f).onLink port g = s.onLink port (fun l => g (f l)) := by
  simp [State.onLink, Vector.get_eq_getElem]

theorem onLink_congr {f g : Link → Link} (h : f (s.link port) = g (s.link port)) : s.onLink port f = s.onLink port g := by
  simp only [State.link] at h
  simp only [State.onLink, h]

/-- A parcel that waits for a reserved flit time of a port from cycle now on (R310). -/
def Machine.Link.asked (l : Link) (now : Nat) (p : Parcel) : Link :=
  { l with waiting := l.waiting ++ [⟨.yard, 0, 0, now, 24 / l.width, p⟩] }

theorem enqueue_yard {p : Parcel} : s.enqueue port .yard 0 0 p = s.onLink port (fun l => l.asked s.clock p) := rfl

/-! ## A flit that comes (R311, R318) -/

/-- A flit accepted: the next number is expected. -/
def accepted (s : State) (port : Port) : State := s.onLink port (fun l => { l with expect := l.expect + 1 })

theorem podHeader_accepted : (accepted s port).podHeader = s.podHeader := rfl

section
variable {seq : BitVec 16} (hnext : seq = (s.link port).expect)
include hnext

theorem exec_linkFlit_accepted : exec (.linkFlit port seq true x.dest x.load) s =
    if s.samePhys x.dest = true then
      (if x.load.ix + 1 = x.load.count then (accepted s port).accept port x.dest x.load.msg else .next (accepted s port))
    else .next ((accepted s port).forward x) := by
  change execLinkFlit port seq true x.dest x.load s = _
  unfold execLinkFlit
  dsimp only
  rw [if_pos ⟨rfl, hnext⟩]
  rfl

theorem linkFlit_verdict {v : Verdict} (hhere : ∀ f : FabHeader, s.podHeader = some f → f.lchip = x.dest)
    (hmsg : x.load.msg = .verdict v) (hlast : x.load.ix + 1 = x.load.count) :
    exec (.linkFlit port seq true x.dest x.load) s = .next ((accepted s port).takeVerdict v) := by
  have hsame : s.samePhys x.dest = true := by
    unfold State.samePhys
    split
    · next f hf => simp [hhere f hf]
    · rfl
  rw [exec_linkFlit_accepted hnext, if_pos hsame, if_pos hlast]
  unfold State.accept
  rw [podHeader_accepted, hmsg]
  cases hf : s.podHeader with
  | none => rfl
  | some f => exact if_pos (hhere f hf)

theorem linkFlit_part (hsame : s.samePhys x.dest = true) (hmore : x.load.ix + 1 ≠ x.load.count) :
    exec (.linkFlit port seq true x.dest x.load) s = .next (accepted s port) := by
  rw [exec_linkFlit_accepted hnext, if_pos hsame, if_neg hmore]

theorem linkFlit_passes {f : FabHeader} (hsame : s.samePhys x.dest = false) (hf : s.podHeader = some f)
    (hout : f.firstPort (s.physOf f f.lchip) (s.physOf f x.dest) = some out) (hmsg : ∀ v : NodeVal, x.load.msg ≠ .node v) :
    exec (.linkFlit port seq true x.dest x.load) s = .next ((accepted s port).sendFlit out x) := by
  have hout' : f.firstPort ((accepted s port).physOf f f.lchip) ((accepted s port).physOf f x.dest) = some out := hout
  rw [exec_linkFlit_accepted hnext, hsame, if_neg Bool.false_ne_true]
  unfold State.forward
  rw [podHeader_accepted, hf]
  dsimp only
  rw [hout']
  cases hm : x.load.msg with
  | node v => exact absurd hm (hmsg v)
  | _ => rfl

end

theorem linkFlit_again {seq : BitVec 16} (hnot : seq ≠ (s.link port).expect) (hold : ((s.link port).expect - seq).toNat < 2 ^ 15) :
    exec (.linkFlit port seq true x.dest x.load) s = .next s := by
  change execLinkFlit port seq true x.dest x.load s = _
  unfold execLinkFlit
  dsimp only
  rw [if_neg (fun h => hnot h.2), if_pos ⟨rfl, hold⟩]

theorem linkFlit_lost {seq : BitVec 16} {intact : Bool} (h : intact = false ∨ 2 ^ 15 ≤ ((s.link port).expect - seq).toNat) :
    exec (.linkFlit port seq intact x.dest x.load) s =
      .next (s.onLink port (fun l => l.asked s.clock (.retry (s.link port).expect))) := by
  have hnext : ¬ (intact = true ∧ seq = (s.links.get (portIdx port)).expect) := by
    rintro ⟨hi, rfl⟩
    rcases h with h | h
    · simp [hi] at h
    · simp [State.link] at h
  have hold : ¬ (intact = true ∧ ((s.links.get (portIdx port)).expect - seq).toNat < 2 ^ 15) := by
    rintro ⟨hi, hlt⟩
    rcases h with h | h
    · simp [hi] at h
    · exact absurd hlt (Nat.not_lt.mpr h)
  change execLinkFlit port seq intact x.dest x.load s = _
  unfold execLinkFlit
  dsimp only
  rw [if_neg hnext, if_neg hold]
  rfl

/-- A verdict that a router takes: it waits for its delivery, and is the status of its round. -/
theorem takeVerdict_eq {v : Verdict} : ∃ y : RSlot, s.takeVerdict v = { s with router := s.router.set v.slot.val y v.slot.isLt } ∧
    y.verdicts = (s.router.get v.slot).verdicts ++ [v] ∧ y.round = (s.router.get v.slot).round ∧ y.held = (s.router.get v.slot).held ∧
    y.status.toNat % 2 ^ 8 = (if bits (s.router.get v.slot).status 8 24 = v.round % 2 ^ 24 then v.status % 2 ^ 8
      else (s.router.get v.slot).status.toNat % 2 ^ 8) := by
  refine ⟨_, rfl, rfl, rfl, rfl, ?_⟩
  dsimp only
  split
  · have hself := bits_setBits_self (lo := 0) (n := 8) (v := v.status) (x := (s.router.get v.slot).status) (by decide)
    rw [← hself]
    simp [bits]
  · rfl

/-! ## Flits sent again (R311) -/

theorem onLink_id : s.onLink port (fun l => l) = s := by
  simp [State.onLink, Vector.get_eq_getElem]

theorem foldl_asked {α : Type} {f : α → Parcel} {l : List α} : l.foldl (fun acc r => acc.enqueue port .yard 0 0 (f r)) s =
    s.onLink port (fun k => { k with waiting := k.waiting ++ l.map (fun r => ⟨.yard, 0, 0, s.clock, 24 / k.width, f r⟩) }) := by
  induction l generalizing s with
  | nil => simp only [List.foldl_nil, List.map_nil, List.append_nil, onLink_id]
  | cons a l ih =>
    rw [List.foldl_cons, enqueue_yard, ih, onLink_onLink]
    refine onLink_congr ?_
    simp only [Link.asked, List.map_cons, List.append_assoc, List.singleton_append]
    rfl

theorem exec_replay {next : BitVec 16} : exec (.replay port next) s = .next (s.onLink port (fun l => { l with
    waiting := l.waiting.filter (fun w => !w.load.isAgain) ++
      ((l.replay.filter (fun r => decide ((r.1 - next).toNat < 2 ^ 15))).reverse.map
        (fun r => ⟨.yard, 0, 0, s.clock, 24 / l.width, .again r.1⟩)) })) := by
  change execReplay port next s = _
  have hfold := foldl_asked (s := s.onLink port (fun l => { l with waiting := l.waiting.filter (fun w => !w.load.isAgain) })) (port := port)
    (f := fun r : BitVec 16 × Flit => .again r.1)
    (l := ((s.link port).replay.filter (fun r => decide ((r.1 - next).toNat < 2 ^ 15))).reverse)
  rw [onLink_onLink] at hfold
  refine congrArg Host.Outcome.next (hfold.trans (onLink_congr rfl))

/-! ## Flit times (R310, R318) -/

/-- The first that may go of those that wait for one use is the only one that may. -/
theorem find_sorted_sole {may : Waiting → Bool} {l : List Waiting} (hw : w ∈ l) (hmay : may w = true)
    (hsole : ∀ y ∈ l, may y = true → y = w) : (sortOn Waiting.key l).find? may = some w := by
  cases h : (sortOn Waiting.key l).find? may with
  | none =>
    exact absurd hmay (List.find?_eq_none.mp h w (mem_sortOn.mpr hw))
  | some y =>
    rw [hsole y (mem_sortOn.mp (List.mem_of_find?_eq_some h)) (List.find?_some h)]

section
variable {may : Waiting → Bool} (hw : w ∈ (s.link port).waiting) (hmay : may w = true)
  (hsole : ∀ y ∈ (s.link port).waiting, may y = true → y = w)
include hw hmay hsole

theorem takeFlit_waits (hleft : 2 ≤ w.left) : s.takeFlit port may =
    s.onLink port (fun l => { l with waiting := { w with left := w.left - 1 } :: l.waiting.erase w }) := by
  have hfind := find_sorted_sole hw hmay hsole
  simp only [State.link] at hfind
  simp only [State.takeFlit, hfind, if_neg (Nat.not_le.mpr hleft)]
  rfl

theorem takeFlit_departs (hleft : w.left ≤ 1) : s.takeFlit port may = (s.depart port w.load).1.onLink port (fun l => { l with
    waiting := match (s.depart port w.load).2 with
      | some x => { w with left := (s.link port).perFlit, load := x } :: (s.link port).waiting.erase w
      | none => (s.link port).waiting.erase w }) := by
  have hfind := find_sorted_sole hw hmay hsole
  simp only [State.link] at hfind
  simp only [State.takeFlit, hfind, if_pos hleft]
  rfl

end

/-- A message of which a flit has left, and which may have more to send. -/
theorem sendFlit_eq : s.sendFlit port x = (s.emit (.flit port (s.link port).next x)).onLink port (fun l => { l with
    next := l.next + 1, replay := ((l.next, x) :: l.replay).take 512 }) := rfl

theorem depart_again {n : BitVec 16} (hin : (n, x) ∈ (s.link port).replay) (hone : ∀ y ∈ (s.link port).replay, y.1 = n → y.2 = x) :
    s.depart port (.again n) = (s.emit (.flit port n x), none) := by
  have hfind : ∃ y, (s.links.get (portIdx port)).replay.find? (fun r => decide (r.1 = n)) = some y ∧ y.2 = x := by
    cases h : (s.links.get (portIdx port)).replay.find? (fun r => decide (r.1 = n)) with
    | none => exact absurd (by simp) (List.find?_eq_none.mp h (n, x) hin)
    | some y => exact ⟨y, rfl, hone y (List.mem_of_find?_eq_some h) (by simpa using List.find?_some h)⟩
  obtain ⟨y, hy, hyx⟩ := hfind
  simp only [State.depart, hy, hyx]

/-- A port from which a parcel that waits has departed, for good or with a flit gone. -/
def departed (s t : State) (port : Port) (w : Waiting) (rest : List Waiting) : State :=
  t.onLink port (fun l => { l with waiting := rest ++ (s.link port).waiting.erase w })

section
variable {may : Waiting → Bool} (hw : w ∈ (s.link port).waiting) (hmay : may w = true)
  (hsole : ∀ y ∈ (s.link port).waiting, may y = true → y = w) (hleft : w.left ≤ 1)
include hw hmay hsole hleft

theorem takeFlit_gone (hdep : s.depart port w.load = (t, none)) : s.takeFlit port may = departed s t port w [] := by
  rw [takeFlit_departs hw hmay hsole hleft, hdep]
  rfl

theorem takeFlit_flits {dest gone count : Nat} {m : Msg} (hload : w.load = .flits dest m gone count) : s.takeFlit port may =
    (s.emit (.flit port (s.link port).next ⟨dest, m, gone, count⟩)).onLink port (fun l => { l with
      next := l.next + 1
      replay := ((l.next, ⟨dest, m, gone, count⟩) :: l.replay).take 512
      waiting := (if gone + 1 < count then [{ w with left := 24 / (s.link port).width, load := .flits dest m (gone + 1) count }] else [])
        ++ (s.link port).waiting.erase w }) := by
  rw [takeFlit_departs hw hmay hsole hleft, hload]
  unfold State.depart
  dsimp only
  rw [sendFlit_eq, onLink_onLink]
  by_cases h : gone + 1 < count
  · simp only [if_pos h]
    rfl
  · simp only [if_neg h]
    rfl

end

/-! ## PTP messages (R313) -/

theorem exec_ptp_received {m : PtpMsg} (h : m.received = true) : exec (.ptpEventMessage m) s = .next
    { (if ptpAsks m = true then (s.emit (.timestamp s.ptp)).sendPtp m.port (.ptpAnswer s.ptp) (.ptpAnswer none s.ptp)
        else s.emit (.timestamp s.ptp)) with ptp := ((s.ptp : Int) + m.correction).toNat } := by
  change execPtpEventMessage m s = _
  rw [execPtpEventMessage, if_pos h]

theorem exec_ptp_sent {m : PtpMsg} (h : m.received = false) : exec (.ptpEventMessage m) s = .next
    (if m.port.isNone = true then (s.sendPtp m.port (.ptp m.kind) (.ptpSent none m.kind)).emit (.timestamp s.ptp)
      else s.sendPtp m.port (.ptp m.kind) (.ptpSent none m.kind)) := by
  change execPtpEventMessage m s = _
  rw [execPtpEventMessage, if_neg (by simp [h])]

theorem ptpAsks_iff {m : PtpMsg} (h : m.received = true) : ptpAsks m = true ↔
    (m.port = none ∧ m.kind = .delayReq) ∨ (m.port ≠ none ∧ m.kind = .pdelayReq) := by
  cases hp : m.port <;> simp [ptpAsks, h, hp]

/-- A PTP message of a port waits for a reserved flit time, and one of the Ethernet side is sent. -/
theorem sendPtp_port {p : Parcel} {o : Out} : s.sendPtp (some port) p o = s.onLink port (fun l => l.asked s.clock p) := rfl

theorem sendPtp_none {p : Parcel} {o : Out} : s.sendPtp none p o = s.emit o := rfl

end Sys2Proof
end

section
/-!
PROOF. What other yards of a pod tell: offset reports, lost chips, nominal frame starts and tables (R314, R315, R317, R327).
-/

namespace Sys2Proof
open Machine Laws

variable {s t u : State} {q : PartId} {chip fr offset : Nat}

/-! ## Messages to other yards -/

theorem linksOnly_sendBy {use : FlitUse} {ready n : Nat} {f : FabHeader} {m : Msg} : LinksOnly s (s.sendBy use q ready n f chip m) := by
  unfold State.sendBy
  split
  · exact ⟨_, s.inputs, s.outs, rfl⟩
  · exact linksOnly_sendChip

theorem linksOnly_sendAll {f : FabHeader} {m : Msg} : LinksOnly s (s.sendAll q f m) := linksOnly_foldl (fun _ _ => linksOnly_sendBy) _

/-- What messages leave as it was. -/
theorem LinksOnly.frame (h : LinksOnly s t) : t.bays = s.bays ∧ SameMemory s t ∧ t.yard = s.yard ∧ t.parts = s.parts ∧ t.clock = s.clock := by
  obtain ⟨_, _, _, rfl⟩ := h
  exact ⟨rfl, ⟨rfl, rfl, rfl, fun _ => rfl⟩, rfl, rfl, rfl⟩

theorem LinksOnly.part (h : LinksOnly s t) : t.part q = s.part q := by
  obtain ⟨_, _, _, rfl⟩ := h
  rfl

/-- Nothing but partitions, messages and the yard has changed. -/
structure BaysKept (s t : State) : Prop where
  bays : t.bays = s.bays
  memory : SameMemory s t
  clock : t.clock = s.clock

theorem BaysKept.refl (s : State) : BaysKept s s := ⟨rfl, ⟨rfl, rfl, rfl, fun _ => rfl⟩, rfl⟩

theorem BaysKept.trans (h : BaysKept s t) (h' : BaysKept t u) : BaysKept s u := by
  obtain ⟨hring, hlpddr, hhost, hbay⟩ := h.memory
  obtain ⟨hring', hlpddr', hhost', hbay'⟩ := h'.memory
  exact ⟨h'.bays.trans h.bays, ⟨hring'.trans hring, hlpddr'.trans hlpddr, hhost'.trans hhost, fun b => (hbay' b).trans (hbay b)⟩,
    h'.clock.trans h.clock⟩

theorem LinksOnly.baysKept (h : LinksOnly s t) : BaysKept s t := by
  obtain ⟨hbays, hmem, -, -, hclock⟩ := h.frame
  exact ⟨hbays, hmem, hclock⟩

theorem baysKept_onPart {f : Part → Part} : BaysKept s (s.onPart q f) := ⟨rfl, ⟨rfl, rfl, rfl, fun _ => rfl⟩, rfl⟩

theorem baysKept_parts {v : Vector Part 8} {y : Yard} : BaysKept s { s with parts := v, yard := y } :=
  ⟨rfl, ⟨rfl, rfl, rfl, fun _ => rfl⟩, rfl⟩

/-! ## Offset reports (R315) -/

theorem part_offsetReport : ({ s with parts := s.parts.map (fun p => p.hear chip fr offset s.clock) } : State).part q =
    (s.part q).hear chip fr offset s.clock := mapParts_part

theorem hear_single {p : Part} {clock : Nat} (h : p.fab = none) : p.hear chip fr offset clock = p := by
  simp only [Part.hear, h]

theorem hear_pod {p : Part} {clock : Nat} (h : p.fab ≠ none) (hlate : p.mode = .waiting ∨ p.framec < fr + p.podLag) :
    (p.hear chip fr offset clock).pod.reports = p.pod.reports ++ [(fr, offset)] ∧
      (p.hear chip fr offset clock).framec = p.framec ∧ (chip, clock) ∈ (p.hear chip fr offset clock).pod.heard := by
  obtain ⟨f, hf⟩ := Option.ne_none_iff_exists'.mp h
  have hin : ¬ (p.mode ≠ .waiting ∧ fr + p.podLag ≤ p.framec) := by
    rintro ⟨hm, hle⟩
    exact hlate.elim hm (Nat.not_lt.mpr hle)
  refine ⟨?_, ?_, ?_⟩ <;> simp only [Part.hear, hf, if_neg hin]
  exact List.mem_append_right _ (List.mem_singleton.mpr rfl)

/-! ## A silent chip (R315, R327) -/

/-- A partition of the pod plan that stands when a chip is lost. -/
def Machine.Part.podHalted (p : Part) : Bool := p.fab.isSome && decide (p.mode ≠ .unformed) && decide (p.mode ≠ .preempted)

theorem part_halt : ∃ st sl, (s.halt q).part q = { s.part q with mode := .stopped, stop := st, slips := sl } := by
  obtain ⟨st, sl, h⟩ := standStill_part (s := s) (q := q)
  exact ⟨st, sl, by rw [State.halt, State.part_onPart, h]⟩

/-- The pod plan's partitions stop, and keep what they heard; nothing else changes. -/
theorem haltPod_stops : (∃ v, s.haltPod = { s with parts := v }) ∧ ∀ q : PartId, (s.haltPod.part q).pod = (s.part q).pod ∧
    (s.haltPod.part q).mode = if (s.part q).podHalted = true then .stopped else (s.part q).mode := by
  refine foldl_each (s := s) (R := fun t => ∃ v, t = { s with parts := v }) (P := fun q p => p.pod = (s.part q).pod ∧
    p.mode = if (s.part q).podHalted = true then .stopped else (s.part q).mode) ⟨s.parts, rfl⟩ ?_ ?_ ?_
  · rintro t r ⟨v, rfl⟩
    split
    · obtain ⟨v', hv'⟩ := standStill_eq (s := { s with parts := v }) (q := r)
      rw [State.halt, hv']
      exact ⟨_, rfl⟩
    · exact ⟨v, rfl⟩
  · intro t r q hq
    split
    · rw [State.halt, State.part_onPart_ne _ _ _ _ hq, standStill_part_ne hq]
    · rfl
  · intro t q _ hq
    rw [hq]
    change ((if (s.part q).podHalted = true then t.halt q else t).part q).pod = _ ∧
      ((if (s.part q).podHalted = true then t.halt q else t).part q).mode = _
    split
    · obtain ⟨st, sl, hpart⟩ := part_halt (s := t) (q := q)
      rw [hpart, hq]
      exact ⟨rfl, rfl⟩
    · rw [hq]
      exact ⟨rfl, rfl⟩

/-- A chip that is lost is noted, and where it was not before the pod plan stops. -/
theorem chipLost_stops : BaysKept s (s.chipLost chip) ∧ chip ∈ (s.chipLost chip).yard.lost ∧
    ∀ q : PartId, ((s.chipLost chip).part q).pod = (s.part q).pod ∧ ((s.chipLost chip).part q).mode =
      if chip ∉ s.yard.lost ∧ (s.part q).podHalted = true then .stopped else (s.part q).mode := by
  by_cases h : chip ∈ s.yard.lost
  · rw [State.chipLost, if_pos (List.contains_iff_mem.mpr h)]
    exact ⟨.refl s, h, fun q => ⟨rfl, by rw [if_neg (fun hc => hc.1 h)]⟩⟩
  · rw [State.chipLost, if_neg (by simpa using h)]
    obtain ⟨s1, hs1⟩ : ∃ s1, ({ s with yard := { s.yard with lost := s.yard.lost ++ [chip] } } : State).log (.note 315 chip) = s1 :=
      ⟨_, rfl⟩
    obtain ⟨⟨v, hv⟩, hparts⟩ := haltPod_stops (s := s1)
    have hpart (q : PartId) : s1.part q = s.part q := by rw [← hs1]; rfl
    rw [hs1]
    refine ⟨?_, ?_, fun q => ?_⟩
    · rw [hv, ← hs1]
      exact baysKept_parts
    · rw [hv, ← hs1]
      exact List.mem_append_right _ (List.mem_singleton.mpr rfl)
    · obtain ⟨hpod, hmode⟩ := hparts q
      rw [hpart] at hpod hmode
      refine ⟨hpod, hmode.trans ?_⟩
      simp only [h, not_false_eq_true, true_and]

theorem linksOnly_allLost : LinksOnly (s.chipLost chip) (s.allLost chip) := by
  refine linksOnly_foldl (fun t q => ?_) _
  split
  · exact linksOnly_sendAll
  · exact .refl t

/-- A partition that has forgotten the reports of a chip. -/
def Machine.Part.forgets (p : Part) (chip : Nat) : Part :=
  { p with pod := { p.pod with heard := p.pod.heard.filter (fun h => decide (h.1 ≠ chip)) } }

theorem exec_unresponsive (h : (s.part q).silent chip s.clock = true) : exec (.unresponsive chip) s =
    .next ((State.allLost { s with parts := s.parts.map (fun p => p.forgets chip) } chip).emit (.unresponsive chip)) := by
  change execUnresponsive chip s = _
  unfold execUnresponsive
  rw [if_pos (any_parts.mpr ⟨q, h⟩)]
  rfl

theorem unresponsive_stops (h : (s.part q).silent chip s.clock = true) :
    ∃ t : State, exec (.unresponsive chip) s = .next t ∧ t.bays = s.bays ∧ SameMemory s t ∧ .unresponsive chip ∈ t.outs ∧
      chip ∈ t.yard.lost ∧ ∀ q' : PartId, (t.part q').pod.heard = (s.part q').pod.heard.filter (fun h => decide (h.1 ≠ chip)) ∧
        (t.part q').mode = (if chip ∉ s.yard.lost ∧ (s.part q').fab.isSome = true ∧ (s.part q').mode ≠ .unformed ∧
          (s.part q').mode ≠ .preempted then .stopped else (s.part q').mode) := by
  obtain ⟨s1, hs1⟩ : ∃ s1, ({ s with parts := s.parts.map (fun p => p.forgets chip) } : State) = s1 := ⟨_, rfl⟩
  have hkept : BaysKept s s1 := hs1 ▸ baysKept_parts
  have hpart (q' : PartId) : s1.part q' = (s.part q').forgets chip := by rw [← hs1]; exact mapParts_part
  have hyard : s1.yard = s.yard := by rw [← hs1]
  obtain ⟨hlost, hmem, hparts⟩ := chipLost_stops (s := s1) (chip := chip)
  have hlinks : LinksOnly (s1.chipLost chip) (s1.allLost chip) := linksOnly_allLost
  obtain ⟨s2, hs2⟩ : ∃ s2, s1.allLost chip = s2 := ⟨_, rfl⟩
  rw [hs2] at hlinks
  obtain ⟨-, -, hyard', -, -⟩ := hlinks.frame
  have hall := (hkept.trans hlost).trans hlinks.baysKept
  refine ⟨s2.emit (.unresponsive chip), ?_, hall.bays, hall.memory, List.mem_append_right _ (List.mem_singleton.mpr rfl),
    hyard' ▸ hmem, fun q' => ?_⟩
  · rw [exec_unresponsive h, hs1, hs2]
  · obtain ⟨hpod, hmode⟩ := hparts q'
    have hpart2 : (s2.emit (.unresponsive chip)).part q' = (s1.chipLost chip).part q' := hlinks.part
    have hiff : ((s.part q').forgets chip).podHalted = true ↔ (s.part q').fab.isSome = true ∧ (s.part q').mode ≠ .unformed ∧
        (s.part q').mode ≠ .preempted := by
      simp [Part.podHalted, Part.forgets, and_assoc]
    rw [hpart2, hpod, hmode, hpart, hyard]
    refine ⟨rfl, ?_⟩
    simp only [hiff]
    rfl

/-! ## Nominal frame starts (R315) -/

theorem nominalReport_none (h : (s.part q).nominalDue s.clock = none) : s.nominalReport q = s := by
  simp only [State.nominalReport, h]

theorem nominalReport_due {f : Nat} (h : (s.part q).nominalDue s.clock = some f) : LinksOnly (s.onPart q (fun x => { x with
    pod := { x.pod with nominal := f + 1, reports := x.pod.reports ++ [(f, (s.part q).pod.offset + (s.part q).pod.excess)] } }))
    (s.nominalReport q) := by
  obtain ⟨g, hg⟩ : ∃ g, (s.part q).fab = some g := by
    cases hf : (s.part q).fab with
    | none => simp [Part.nominalDue, hf] at h
    | some g => exact ⟨g, rfl⟩
  simp only [State.nominalReport, h, hg]
  exact linksOnly_sendAll

theorem nominalReport_kept : BaysKept s (s.nominalReport q) ∧ ∀ r : PartId, r ≠ q → (s.nominalReport q).part r = s.part r := by
  cases h : (s.part q).nominalDue s.clock with
  | none =>
    rw [nominalReport_none h]
    exact ⟨.refl s, fun _ _ => rfl⟩
  | some f =>
    have hlinks := nominalReport_due h
    exact ⟨baysKept_onPart.trans hlinks.baysKept, fun r hr => hlinks.part.trans (State.part_onPart_ne _ _ _ _ hr)⟩

theorem nominal_reports : ∃ t : State, exec .nominalFrameStart s = .next t ∧ t.bays = s.bays ∧ SameMemory s t ∧
    ∀ (q : PartId) (f : Nat), (s.part q).nominalDue s.clock = some f → (t.part q).pod.nominal = f + 1 ∧
      (t.part q).pod.reports = (s.part q).pod.reports ++ [(f, (s.part q).pod.offset + (s.part q).pod.excess)] := by
  obtain ⟨hkept, hparts⟩ := foldl_each (s := s) (F := fun acc q => acc.nominalReport q) (R := BaysKept s)
    (P := fun q p => ∀ f : Nat, (s.part q).nominalDue s.clock = some f → p.pod.nominal = f + 1 ∧
      p.pod.reports = (s.part q).pod.reports ++ [(f, (s.part q).pod.offset + (s.part q).pod.excess)])
    (.refl s) (fun t r h => h.trans nominalReport_kept.1) (fun t r q hq => nominalReport_kept.2 q hq)
    (fun t q ht hq f hf => by
      have hdue : (t.part q).nominalDue t.clock = some f := by rw [hq, ht.clock, hf]
      rw [(nominalReport_due hdue).part, State.part_onPart, hq]
      exact ⟨rfl, rfl⟩)
  exact ⟨_, rfl, hkept.bays, hkept.memory, hparts⟩

end Sys2Proof
end

section
/-!
PROOF. The tables that the yards of a pod plan exchange at load (R317).
-/

namespace Sys2Proof
open Machine Laws

variable {s t u : State} {q : PartId} {chip : Nat} {tables : PodTables}

/-! ## The chips that rounds join -/

theorem podGroup_mono {l : List (Nat × PodTables)} {n c : Nat} {g : List Nat} (h : c ∈ g) : c ∈ podGroup l n g := by
  induction n generalizing g with
  | zero => exact h
  | succ n ih => exact ih (List.mem_eraseDups.mpr (List.mem_append_left _ h))

/-- Chips that the tables of a listed chip list are joined. -/
theorem podGroup_next {l : List (Nat × PodTables)} {n c : Nat} {g : List Nat} {d : PodDesc} (hn : n ≠ 0) (ht : (chip, tables) ∈ l)
    (hg : chip ∈ g) (hd : d ∈ tables.descs) (hc : c ∈ d.chips) : c ∈ podGroup l n g := by
  obtain ⟨n, rfl⟩ := Nat.exists_eq_succ_of_ne_zero hn
  rw [podGroup]
  refine podGroup_mono (List.mem_eraseDups.mpr (List.mem_append_right _ ?_))
  refine List.mem_flatMap.mpr ⟨(chip, tables), List.mem_filter.mpr ⟨ht, List.contains_iff_mem.mpr hg⟩, ?_⟩
  exact List.mem_flatMap.mpr ⟨d, hd, hc⟩

/-! ## Tables that come -/

/-- A partition with the tables of one chip more. -/
def Machine.Part.withTables (p : Part) (chip : Nat) (x : PodTables) : Part := { p with tables := p.tables ++ [(chip, x)] }

/-- A chip whose tables a partition does not have when those of another come. -/
def Lacks (s : State) (chip : Nat) (p : Part) (c : Nat) : Prop :=
  c ≠ p.lchip ∧ c ≠ chip ∧ ∀ x ∈ p.tables ++ s.yard.podTables, x.1 ≠ c

/-- The tables that a partition may take as others come: its own, and those that the yard keeps. -/
def Machine.State.tablesFor (s : State) (p : Part) : List (Nat × PodTables) :=
  p.tables ++ s.yard.podTables.filter (fun t => !p.tables.any (fun x => decide (x.1 = t.1)))

/-- The chips that the rounds of a partition join, as far as its tables tell (R317). -/
def Machine.State.groupOf (s : State) (p : Part) : List Nat := podGroup (s.tablesFor p) (s.tablesFor p).length p.listed

/-- A partition with the tables that it may take of its group's chips, awaiting those of the others. -/
def Machine.Part.regrouped (p : Part) (s : State) : Part :=
  { p with
    tables := (s.tablesFor p).filter (fun t => decide (t.1 = p.lchip) || (s.groupOf p).contains t.1)
    awaiting := (s.groupOf p).filter (fun c => decide (c ≠ p.lchip) && !(s.tablesFor p).any (fun t => decide (t.1 = c))) }

theorem regroup_eq : s.regroup q =
    { (s.onPart q (fun p => p.regrouped s)) with
      yard := { s.yard with
        podTables := s.yard.podTables.filter (fun t =>
          !(decide (t.1 = (s.part q).lchip) || (s.groupOf (s.part q)).contains t.1)) } } := rfl

theorem regroup_part : (s.regroup q).part q = (s.part q).regrouped s :=
  (congrArg (fun t : State => t.part q) regroup_eq).trans (State.part_onPart s q (fun p => p.regrouped s))

theorem regroup_part_ne {r : PartId} (h : r ≠ q) : (s.regroup q).part r = s.part r :=
  (congrArg (fun t : State => t.part r) regroup_eq).trans (State.part_onPart_ne s q r (fun p => p.regrouped s) h)

theorem regroup_frame : BaysKept s (s.regroup q) ∧ (∀ r : PartId, r ≠ q → (s.regroup q).part r = s.part r) ∧
    (s.regroup q).yard = { s.yard with podTables := (s.regroup q).yard.podTables } ∧
    ∀ x ∈ (s.regroup q).yard.podTables, x ∈ s.yard.podTables :=
  ⟨⟨rfl, ⟨rfl, rfl, rfl, fun _ => rfl⟩, rfl⟩, fun _ hr => regroup_part_ne hr, rfl, fun _ hx => (List.mem_filter.mp hx).1⟩

/-! ## Tables of one partition leave the others -/

theorem part_sendCheck_ne {ok : Bool} {r : PartId} (h : r ≠ q) : (s.sendCheck q ok).part r = s.part r := by
  unfold State.sendCheck
  split
  · rw [State.part_onPart_ne _ _ _ _ h, linksOnly_sendAll.part]
  · rfl

theorem part_answerPod_ne {ok : Bool} {r : PartId} (h : r ≠ q) : (s.answerPod q ok).part r = s.part r := by
  have hfirst : (if ok then s else (s.log (.note 317 q.val)).dissolve q).part r = s.part r := by
    cases ok
    · exact part_dissolve_ne h
    · rfl
  unfold State.answerPod
  dsimp only
  split
  · exact hfirst
  · rw [State.part_onPart_ne _ _ _ _ h, respond_part, hfirst]

theorem part_checksDone_ne {r : PartId} (h : r ≠ q) : (s.checksDone q).part r = s.part r := by
  unfold State.checksDone
  split
  · dsimp only
    split
    · rw [part_answerPod_ne h, part_sendCheck_ne h]
    · exact part_sendCheck_ne h
  · rw [part_answerPod_ne h, part_sendCheck_ne h]

theorem part_hearTables_ne {r : PartId} (h : r ≠ q) : (s.hearTables q chip tables).part r = s.part r := by
  have hregroup : ((s.onPart q (fun p => p.withTables chip tables)).regroup q).part r = s.part r :=
    (regroup_frame.2.1 r h).trans (State.part_onPart_ne _ _ _ _ h)
  unfold State.hearTables
  split
  · dsimp only
    split
    · exact (part_checksDone_ne h).trans hregroup
    · exact hregroup
  · rfl

/-! ## Tables that come to a partition -/

theorem hearTables_not (h : chip ∉ (s.part q).awaiting) : s.hearTables q chip tables = s := by
  rw [State.hearTables, if_neg (by simpa using h)]

/-- What tables that come make of a partition that awaits them. -/
structure Heard (s : State) (chip : Nat) (tables : PodTables) (p p' : Part) : Prop where
  frame : p' = { p with tables := p'.tables, awaiting := p'.awaiting }
  has : (chip, tables) ∈ p'.tables
  done : chip ∉ p'.awaiting
  awaits : ∀ c : Nat, Lacks s chip p c → (c ∈ p.listed ∨ ∃ d ∈ tables.descs, c ∈ d.chips) → c ∈ p'.awaiting

/-- Tables of a listed chip that come, in a state whose yard keeps no tables that s does not keep. -/
theorem heard_regroup (hlisted : chip ∈ (t.part q).listed) (hyard : ∀ x ∈ t.yard.podTables, x ∈ s.yard.podTables) :
    Heard s chip tables (t.part q) (((t.onPart q (fun p => p.withTables chip tables)).regroup q).part q) := by
  obtain ⟨u, hu⟩ : ∃ u, t.onPart q (fun p => p.withTables chip tables) = u := ⟨_, rfl⟩
  have hpart : u.part q = (t.part q).withTables chip tables := by rw [← hu, State.part_onPart]
  have hyard' : u.yard = t.yard := by rw [← hu]; rfl
  obtain ⟨l, hl⟩ : ∃ l, u.tablesFor (u.part q) = l := ⟨_, rfl⟩
  have hg : u.groupOf (u.part q) = podGroup l l.length (t.part q).listed := by
    rw [State.groupOf, hl, hpart]
    rfl
  have hmem : (chip, tables) ∈ l := by
    rw [← hl, hpart]
    exact List.mem_append_left _ (List.mem_append_right _ (List.mem_singleton.mpr rfl))
  have hlack (c : Nat) (hc : Lacks s chip (t.part q) c) : ∀ x ∈ l, x.1 ≠ c := by
    obtain ⟨-, hchip, hnone⟩ := hc
    intro x hx
    rw [← hl, hpart] at hx
    rcases List.mem_append.mp hx with hx | hx
    · rcases List.mem_append.mp hx with hx | hx
      · exact hnone x (List.mem_append_left _ hx)
      · rw [List.mem_singleton.mp hx]
        exact Ne.symm hchip
    · rw [hyard'] at hx
      exact hnone x (List.mem_append_right _ (hyard x (List.mem_filter.mp hx).1))
  have hne : l.length ≠ 0 := fun h => by
    rw [List.length_eq_zero_iff.mp h] at hmem
    cases hmem
  have hgroup : (u.part q).lchip = (t.part q).lchip := by
    rw [hpart]
    rfl
  rw [hu, regroup_part, Part.regrouped, hl, hg, hgroup]
  refine ⟨?_, ?_, ?_, fun c hc hin => ?_⟩
  · rw [hpart]
    rfl
  · refine List.mem_filter.mpr ⟨hmem, ?_⟩
    rw [List.contains_iff_mem.mpr (podGroup_mono hlisted), Bool.or_true]
  · intro h
    have hany := (List.mem_filter.mp h).2
    rw [List.any_eq_true.mpr ⟨(chip, tables), hmem, by simp⟩] at hany
    simp at hany
  · refine List.mem_filter.mpr ⟨?_, ?_⟩
    · rcases hin with hin | ⟨d, hd, hcd⟩
      · exact podGroup_mono hin
      · exact podGroup_next hne hmem hlisted hd hcd
    · have hnone : l.any (fun x => decide (x.1 = c)) = false := by
        rw [List.any_eq_false]
        intro x hx
        simpa using hlack c hc x hx
      rw [hnone]
      simp [hc.1]

/-- Tables that come to a partition that awaits them and others. -/
theorem hearTables_more (h : chip ∈ (s.part q).awaiting) (hdescs : tables.descs ≠ [])
    (hmore : (((s.onPart q (fun p => p.withTables chip tables)).regroup q).part q).awaiting ≠ []) :
    s.hearTables q chip tables = (s.onPart q (fun p => p.withTables chip tables)).regroup q := by
  have hopen : ¬ ((((s.onPart q (fun p => p.withTables chip tables)).regroup q).part q).awaiting = [] ∨ tables.descs = []) :=
    not_or.mpr ⟨hmore, hdescs⟩
  rw [State.hearTables, if_pos (List.contains_iff_mem.mpr h)]
  exact if_neg hopen

/-! ## The tables of a chip reach every partition that awaits them -/

/-- What holds while the partitions take tables in turn: only partitions and the tables that the yard keeps change, and one that still awaits
these is as it was. -/
structure Hearing (s : State) (chip : Nat) (t : State) : Prop where
  kept : BaysKept s t
  yard : t.yard = { s.yard with podTables := t.yard.podTables }
  fewer : ∀ x ∈ t.yard.podTables, x ∈ s.yard.podTables
  waits : ∀ q : PartId, chip ∈ (t.part q).awaiting → t.part q = s.part q

/-- Every partition that awaits the tables of a chip lists it, and lacks those of another listed chip. -/
def AwaitsMore (s : State) (chip : Nat) (tables : PodTables) : Prop :=
  ∀ q : PartId, chip ∈ (s.part q).awaiting →
    tables.descs ≠ [] ∧ chip ∈ (s.part q).listed ∧ ∃ c ∈ (s.part q).listed, Lacks s chip (s.part q) c

section
variable (hmore : AwaitsMore s chip tables)
include hmore

theorem hearTables_awaited (h : Hearing s chip t) (hq : t.part q = s.part q) (hin : chip ∈ (s.part q).awaiting) :
    t.hearTables q chip tables = (t.onPart q (fun p => p.withTables chip tables)).regroup q ∧
      Heard s chip tables (s.part q) ((t.hearTables q chip tables).part q) := by
  obtain ⟨hdescs, hlisted, c, hc, hlack⟩ := hmore q hin
  have hheard := heard_regroup (s := s) (t := t) (q := q) (tables := tables) (hq ▸ hlisted) h.fewer
  rw [hq] at hheard
  have hne := List.ne_nil_of_mem (hheard.awaits c hlack (.inl hc))
  have heq := hearTables_more (hq ▸ hin) hdescs hne
  exact ⟨heq, heq ▸ hheard⟩

theorem hearing_hearTables (h : Hearing s chip t) : Hearing s chip (t.hearTables q chip tables) := by
  by_cases hin : chip ∈ (t.part q).awaiting
  · have hq := h.waits q hin
    obtain ⟨heq, hheard⟩ := hearTables_awaited hmore h hq (hq ▸ hin)
    obtain ⟨hkept, hothers, hyard, hfewer⟩ := regroup_frame (s := t.onPart q (fun p => p.withTables chip tables)) (q := q)
    rw [← heq] at hkept hothers hyard hfewer
    refine ⟨(h.kept.trans baysKept_onPart).trans hkept, ?_, fun x hx => h.fewer x (hfewer x hx), fun r hr => ?_⟩
    · rw [hyard]
      exact congrArg (fun y : Yard => { y with podTables := (t.hearTables q chip tables).yard.podTables }) h.yard
    · have hrq : r ≠ q := fun e => hheard.done (e ▸ hr)
      have hsame : (t.hearTables q chip tables).part r = t.part r := (hothers r hrq).trans (State.part_onPart_ne _ _ _ _ hrq)
      rw [hsame] at hr ⊢
      exact h.waits r hr
  · rw [hearTables_not hin]
    exact h

end

end Sys2Proof
end

section
/-!
PROOF. O49: flits and PTP messages, what other yards tell, and tier 5 requests at their home (R225, R310 to R317, R327).
-/

namespace Sys2Proof
open Machine Laws

variable {s t : State} {q : PartId} {chip : Nat} {tables : PodTables} {r : Tier5Req}

theorem emit_emit {o o' : Out} : (s.emit o).emit o' = { s with outs := s.outs ++ [o, o'] } := by
  simp [State.emit]

/-! ## The tables of a chip (R317) -/

theorem tables_kept (h : ∀ q : PartId, chip ∉ (s.part q).awaiting) : exec (.podWideChecks chip tables) s =
    .next { s with yard := { s.yard with
      podTables := s.yard.podTables.filter (fun x => decide (x.1 ≠ chip)) ++ [(chip, tables)] } } := by
  have hnone : ¬ (s.parts.toList.any (fun p => p.awaiting.contains chip) = true) := by
    rw [any_parts]
    rintro ⟨q, hq⟩
    exact h q (List.contains_iff_mem.mp hq)
  change execPodWideChecks chip tables s = _
  rw [execPodWideChecks, if_neg hnone]

theorem tables_come (hq : chip ∈ (s.part q).awaiting) (hmore : AwaitsMore s chip tables) :
    ∃ t : State, exec (.podWideChecks chip tables) s = .next t ∧ Hearing s chip t ∧ ∀ q : PartId,
      (chip ∉ (s.part q).awaiting → t.part q = s.part q) ∧
      (chip ∈ (s.part q).awaiting → Heard s chip tables (s.part q) (t.part q)) := by
  have hany : s.parts.toList.any (fun p => p.awaiting.contains chip) = true := any_parts.mpr ⟨q, List.contains_iff_mem.mpr hq⟩
  obtain ⟨hhearing, hparts⟩ := foldl_each (s := s) (F := fun acc q => acc.hearTables q chip tables) (R := Hearing s chip)
    (P := fun q p => (chip ∉ (s.part q).awaiting → p = s.part q) ∧ (chip ∈ (s.part q).awaiting → Heard s chip tables (s.part q) p))
    ⟨.refl s, rfl, fun _ hx => hx, fun _ _ => rfl⟩ (fun t r ht => hearing_hearTables hmore ht) (fun t r q hq => part_hearTables_ne hq)
    (fun t q ht hsame => ⟨fun hout => by rw [hearTables_not (hsame ▸ hout), hsame],
      fun hin => (hearTables_awaited hmore ht hsame hin).2⟩)
  refine ⟨_, ?_, hhearing, hparts⟩
  change execPodWideChecks chip tables s = _
  rw [execPodWideChecks, if_pos hany]

/-! ## Tier 5 requests at their home (R225, R312) -/

theorem homeAllows_mode {x : Nat × Region} (hbay : r.bay < 192) (hx : regionAt (s.part q) (vaNat r.va) = some x)
    (hmode : 2 ≤ mwMode x.2.mode) (hne : r.mode ≠ some (mwMode x.2.mode)) : homeAllows (s.part q) r = false := by
  have hsame : (decide (mwMode x.2.mode < 2) || decide (r.mode = some (mwMode x.2.mode))) = false := by
    simp only [hne, decide_false, Bool.or_false, decide_eq_false_iff_not, Nat.not_lt]
    exact hmode
  unfold homeAllows
  dsimp only
  rw [remoteAllows, hx]
  simp only [hsame, Bool.and_false, Bool.or_false, decide_eq_false_iff_not, Nat.not_le]
  exact hbay

theorem sameDevices_noteHome : SameDevices s (s.noteHome q r) := by
  have hput {party tag n kind stamp stamp' : Nat} {pl : Place} {write : Bool} {v v' : List (Nat × Nat)} {va : Addr} {party' : Nat} :
      SameDevices s ((s.noteBy q party tag pl n write kind stamp v).useRegion q va party' stamp' v') :=
    notesOnly_noteBy.toSameDevices.trans sameDevices_useRegion
  unfold State.noteHome
  dsimp only
  split <;> exact hput

theorem sameDevices_markFrame {b : Fin 8} {n : Nat} : SameDevices s (s.markFrame q b n) := sameDevices_onPart

/-- The memory that a request names at its home. -/
def Tier5Req.place (r : Tier5Req) : Place := .lpddr r.bent r.pa

/-- What marks the pages of a request's bytes. -/
def homeMark (q : PartId) (r : Tier5Req) (t : State) : State := t.markFrame q r.bent (r.pa / 65536)

theorem serveTier5_write {data : List Byte} (hk : r.kind = .write data) :
    s.serveTier5 q r = (homeMark q r (s.writePlace r.place data), none) := by
  simp only [State.serveTier5, hk]
  rfl

theorem serveTier5_atomic {op : AtomicOp} {v : BitVec 96} (hk : r.kind = .atomic op v) :
    s.serveTier5 q r = (homeMark q r (s.applyBytes (.atomic op r.place v)), none) := by
  simp only [State.serveTier5, hk]
  rfl

theorem serveTier5_read {n : Nat} (hk : r.kind = .read n) : s.serveTier5 q r = (s, some (s.readPlaceN r.place n)) := by
  simp only [State.serveTier5, hk]
  rfl

theorem serveTier5_fetchAdd {v : Word} (hk : r.kind = .fetchAdd v) :
    s.serveTier5 q r = (homeMark q r (s.writePlace r.place (leBytes 8 (leNat (s.readPlaceN r.place 8) + v.toNat))),
      some (leBytes 8 (leNat (s.readPlaceN r.place 8)))) := by
  simp only [State.serveTier5, hk]
  rfl

theorem homeServe_silent {u : State} (h : (s.noteHome q r).serveTier5 q r = (u, none)) : s.homeServe q r = u := by
  unfold State.homeServe
  dsimp only
  rw [h]

theorem homeServe_answers {u : State} {d : List Byte} {f : FabHeader} (h : (s.noteHome q r).serveTier5 q r = (u, some d))
    (hf : (s.part q).fab = some f) : s.homeServe q r = if r.chip = f.lchip then u.takeAnswer r.bay r.id d
      else u.remoteSend q (s.part q).time f r.chip (.tier5Answer r.bay r.id d) := by
  unfold State.homeServe
  dsimp only
  rw [h, hf]

theorem performBurst_tier5 {x : Burst} (hx : x.act = .tier5 r) : s.performBurst q x = s.homeServe q r := by
  simp only [State.performBurst, hx]

/-- Bytes written at the home of a request, and their pages marked. -/
theorem sameDevices_homeWrite {data : List Byte} :
    SameDevices (s.writePlace r.place data) (homeMark q r ((s.noteHome q r).writePlace r.place data)) :=
  sameDevices_noteHome.writePlace.trans sameDevices_markFrame

theorem home_write {data : List Byte} (hk : r.kind = .write data) :
    WritesPlace s (s.homeServe q r) r.place data ∧ (s.homeServe q r).bays = s.bays ∧ (s.homeServe q r).outs = s.outs := by
  rw [homeServe_silent (serveTier5_write hk)]
  exact ⟨sameDevices_homeWrite.writesPlace, sameDevices_homeWrite.bays.trans writePlace_bays,
    sameDevices_homeWrite.outs.trans writePlace_outs⟩

theorem home_atomic {op : AtomicOp} {v : BitVec 96} (hk : r.kind = .atomic op v) : (s.homeServe q r).bays = s.bays ∧
    WritesPlace s (s.homeServe q r) r.place
      (leBytes 16 (atomicCell op (BitVec.ofNat 128 (leNat (s.readPlaceN r.place 16))) v).toNat) := by
  rw [homeServe_silent (serveTier5_atomic hk)]
  simp only [State.applyBytes, sameDevices_noteHome.readPlaceN]
  exact ⟨sameDevices_homeWrite.bays.trans writePlace_bays, sameDevices_homeWrite.writesPlace⟩

section
variable {f : FabHeader} (hf : (s.part q).fab = some f)
include hf

theorem home_read {n : Nat} (hk : r.kind = .read n) : ∃ u : State, SameMemory s u ∧ u.bays = s.bays ∧
    s.homeServe q r = if r.chip = f.lchip then u.takeAnswer r.bay r.id (s.readPlaceN r.place n)
      else u.remoteSend q (s.part q).time f r.chip (.tier5Answer r.bay r.id (s.readPlaceN r.place n)) := by
  have h := homeServe_answers (serveTier5_read hk) hf
  rw [sameDevices_noteHome.readPlaceN] at h
  exact ⟨s.noteHome q r, sameDevices_noteHome.sameMemory, sameDevices_noteHome.bays, h⟩

theorem home_fetchAdd {v : Word} (hk : r.kind = .fetchAdd v) : ∃ u : State,
    WritesPlace s u r.place (leBytes 8 (leNat (s.readPlaceN r.place 8) + v.toNat)) ∧ u.bays = s.bays ∧
    s.homeServe q r = if r.chip = f.lchip then u.takeAnswer r.bay r.id (leBytes 8 (leNat (s.readPlaceN r.place 8)))
      else u.remoteSend q (s.part q).time f r.chip (.tier5Answer r.bay r.id (leBytes 8 (leNat (s.readPlaceN r.place 8)))) := by
  have h := homeServe_answers (serveTier5_fetchAdd hk) hf
  rw [sameDevices_noteHome.readPlaceN] at h
  exact ⟨_, sameDevices_homeWrite.writesPlace, sameDevices_homeWrite.bays.trans writePlace_bays, h⟩

end

theorem exec_tier5Request (hq : s.partOfBent r.bent = some q) : exec (.tier5Request r) s =
    if homeAllows (s.part q) r = true then .next (s.queueBurst q 0xF1 (some r.place) (tier5Bytes r.kind) (.tier5 r))
    else .next (s.log (.note 225 r.chip)) := by
  change execTier5Request r s = _
  cases h : homeAllows (s.part q) r <;> simp only [execTier5Request, hq, h] <;> rfl

/-! ## O49 -/

/-- Settles O49: by the rule for each event of the fabric. -/
theorem fabric : Obligations.Fabric := by
  unfold Obligations.Fabric
  refine ⟨?flits, ?replay, ?flitTime, ?ptp, ?offset, ?silent, ?nominal, ?tables, ?tier5⟩
  case flits =>
    intro port seq intact x s
    dsimp only
    refine ⟨fun v hintact hnext hhere hmsg hlast => ?_, fun hintact hnext hsame hmore => ?_,
      fun f out hintact hnext hsame hf hout hmsg => ?_, fun hintact hnot hold => ?_, linkFlit_lost⟩
    · obtain ⟨y, hy, hrest⟩ := takeVerdict_eq (s := accepted s port) (v := v)
      rw [hintact, linkFlit_verdict hnext hhere hmsg hlast, hy]
      exact ⟨y, rfl, hrest⟩
    · rw [hintact]
      exact linkFlit_part hnext hsame hmore
    · rw [hintact]
      exact linkFlit_passes hnext hsame hf hout hmsg
    · rw [hintact]
      exact linkFlit_again hnot hold
  case replay =>
    intro port next s
    exact exec_replay
  case flitTime =>
    intro port may w s
    dsimp only
    intro hw hmay hsole
    refine ⟨takeFlit_waits hw hmay hsole, fun hleft => ⟨fun next hl => ?_, fun n x hl hin hone => ?_, fun k hl => ?_, fun at' hl => ?_,
      fun dest gone count m hl => takeFlit_flits hw hmay hsole hleft hl⟩⟩
    · exact takeFlit_gone hw hmay hsole hleft (by rw [hl]; rfl)
    · exact takeFlit_gone hw hmay hsole hleft (by rw [hl]; exact depart_again hin hone)
    · refine (takeFlit_gone hw hmay hsole hleft (by rw [hl]; rfl)).trans ?_
      simp only [departed, emit_emit]
      rfl
    · refine (takeFlit_gone hw hmay hsole hleft (by rw [hl]; rfl)).trans ?_
      simp only [departed, emit_emit]
      rfl
  case ptp =>
    intro m s
    dsimp only
    refine ⟨fun hrec hdelay hpdelay => ?_, fun hrec hkind hport => ?_, fun p hrec hkind hport => ?_, fun hsent hport => ?_,
      fun p hsent hport => ?_⟩
    · have hnot : ¬ ptpAsks m = true := by
        rw [ptpAsks_iff hrec]
        rintro (⟨hp, hk⟩ | ⟨hp, hk⟩)
        · exact hdelay hk hp
        · exact hp (hpdelay hk)
      rw [exec_ptp_received hrec, if_neg hnot]
      rfl
    · rw [exec_ptp_received hrec, if_pos ((ptpAsks_iff hrec).mpr (.inl ⟨hport, hkind⟩)), hport, sendPtp_none, emit_emit]
    · rw [exec_ptp_received hrec, if_pos ((ptpAsks_iff hrec).mpr (.inr ⟨by simp [hport], hkind⟩)), hport]
      rfl
    · rw [exec_ptp_sent hsent, hport, if_pos Option.isNone_none, sendPtp_none, emit_emit]
    · rw [exec_ptp_sent hsent, hport, if_neg (by simp), sendPtp_port]
      simp only [List.append_nil]
      rfl
  case offset =>
    intro chip fr offset s
    refine ⟨_, rfl, rfl, ⟨rfl, rfl, rfl, fun _ => rfl⟩, fun q => ?_⟩
    rw [part_offsetReport]
    exact ⟨hear_single, hear_pod⟩
  case silent =>
    intro chip s q h
    exact unresponsive_stops h
  case nominal =>
    intro s
    exact nominal_reports
  case tables =>
    intro chip tables s
    refine ⟨tables_kept, fun q₀ hq₀ => ?_⟩
    intro missing hmore
    obtain ⟨t, ht, ⟨hkept, hyard, hfewer, -⟩, hparts⟩ := tables_come hq₀ hmore
    refine ⟨t, ht, hkept.bays, hkept.memory, hyard, hfewer, fun q => ⟨(hparts q).1, fun hin => ?_⟩⟩
    obtain ⟨hframe, hhas, hdone, hawaits⟩ := (hparts q).2 hin
    exact ⟨hframe, hhas, hdone, hawaits⟩
  case tier5 =>
    intro r s q hq
    dsimp only
    refine ⟨fun h => ?_, fun x => homeAllows_mode, fun h => ?_, fun x hx => ?_⟩
    · rw [exec_tier5Request hq, if_neg (by simp [h])]
    · rw [exec_tier5Request hq, if_pos h]
      rfl
    · rw [performBurst_tier5 hx]
      exact ⟨fun data => home_write, fun op v => home_atomic, fun f hf => ⟨fun n => home_read hf, fun v => home_fetchAdd hf⟩⟩

end Sys2Proof
end

section
/-!
PROOF. What the scarf engine leaves as it is: what it notes of a read, puts into the buffer of its commanding bay and writes of its progress, and
how it stops (R271 to R273).
-/

namespace Sys2Proof
open Machine Laws

variable {s t u : State} {q : PartId} {b : BayId} {va : Addr} {n : Nat}

/-! ## The contexts -/

@[simp] theorem scarfOf_onScarf {f : Scarf → Scarf} : (s.onScarf q f).scarfOf q = f (s.scarfOf q) := by
  simp [State.scarfOf, State.onScarf, Vector.get_eq_getElem]

theorem scarfOf_onScarf_ne {r : PartId} {f : Scarf → Scarf} (h : r ≠ q) : (s.onScarf q f).scarfOf r = s.scarfOf r := by
  have hne : q.val ≠ r.val := fun e => h (Fin.ext e).symm
  simp [State.scarfOf, State.onScarf, Vector.get_eq_getElem, hne]

@[simp] theorem bay_onScarf {f : Scarf → Scarf} : (s.onScarf q f).bay b = s.bay b := rfl

theorem scarfOf_congr (h : t.scarf = s.scarf) : t.scarfOf q = s.scarfOf q := congrArg (fun v => v.get q) h

/-! ## What the engine leaves as it is -/

/-- What the engine leaves beside its contexts, while it notes reads and puts writes into the buffer of a bay. -/
structure EngineSide (b : BayId) (s t : State) : Prop where
  ring : t.ring = s.ring
  lpddr : t.lpddr = s.lpddr
  hostMem : t.hostMem = s.hostMem
  scarf : t.scarf = s.scarf
  bay : ∃ g n, t.bay b = { s.bay b with gbuf := g, nextId := n }
  others : ∀ c : BayId, c ≠ b → t.bay c = s.bay c
  time : ∀ q : PartId, (t.part q).time = (s.part q).time

theorem EngineSide.of_kept (h : SameDevices s t) (hscarf : t.scarf = s.scarf) (htime : ∀ q : PartId, (t.part q).time = (s.part q).time) :
    EngineSide b s t :=
  ⟨h.ring, h.lpddr, h.hostMem, hscarf, ⟨_, _, h.bay b⟩, fun c _ => h.bay c, htime⟩

theorem EngineSide.refl (s : State) : EngineSide b s s := .of_kept (.refl s) rfl fun _ => rfl

theorem EngineSide.trans (h : EngineSide b s t) (h' : EngineSide b t u) : EngineSide b s u := by
  obtain ⟨g, n, hg⟩ := h.bay
  obtain ⟨g', n', hg'⟩ := h'.bay
  rw [hg] at hg'
  exact ⟨h'.ring.trans h.ring, h'.lpddr.trans h.lpddr, h'.hostMem.trans h.hostMem, h'.scarf.trans h.scarf, ⟨g', n', hg'⟩,
    fun c hc => (h'.others c hc).trans (h.others c hc), fun r => (h'.time r).trans (h.time r)⟩

theorem EngineSide.scarfOf (h : EngineSide b s t) : t.scarfOf q = s.scarfOf q := scarfOf_congr h.scarf

/-- What the bay keeps. -/
theorem EngineSide.kept (h : EngineSide b s t) : (t.bay b).pegSet = (s.bay b).pegSet ∧ (t.bay b).window = (s.bay b).window ∧
    (t.bay b).pending = (s.bay b).pending ∧ (t.bay b).regs = (s.bay b).regs ∧ (t.bay b).kseed = (s.bay b).kseed := by
  obtain ⟨g, n, hg⟩ := h.bay
  rw [hg]
  exact ⟨rfl, rfl, rfl, rfl, rfl⟩

theorem EngineSide.landsFull (h : EngineSide b s t) : t.landsFull b = s.landsFull b := by
  obtain ⟨-, hwindow, -⟩ := h.kept
  rw [State.landsFull, hwindow, State.landsFull]

theorem EngineSide.bayMems (h : EngineSide b s t) (c : BayId) : bayMems (t.bay c) = bayMems (s.bay c) := by
  by_cases hc : c = b
  · subst hc
    obtain ⟨g, n, hg⟩ := h.bay
    rw [hg]
    rfl
  · rw [h.others c hc]

theorem EngineSide.sameMemory (h : EngineSide b s t) : SameMemory s t := ⟨h.ring, h.lpddr, h.hostMem, h.bayMems⟩

theorem time_onPart {f : Part → Part} (hf : ∀ p, (f p).time = p.time) (r : PartId) : ((s.onPart q f).part r).time = (s.part r).time := by
  by_cases h : r = q
  · subst h
    rw [State.part_onPart, hf]
  · rw [State.part_onPart_ne _ _ _ _ h]

theorem engineSide_onPart {f : Part → Part} (hf : ∀ p, (f p).time = p.time) : EngineSide b s (s.onPart q f) :=
  .of_kept sameDevices_onPart rfl (time_onPart hf)

/-! ## Reads that are noted (R212) -/

theorem engineSide_orderAccess {c : BayId} : EngineSide b s (s.orderAccess c va) := by
  obtain ⟨v, hv⟩ := orderAccess_eq (s := s) (b := c) (va := va)
  rw [hv]
  exact .of_kept ⟨rfl, rfl, rfl, rfl, rfl⟩ rfl fun _ => rfl

theorem scarf_noteBy {party tag kind stamp : Nat} {pl : Place} {write : Bool} {v : List (Nat × Nat)} :
    (s.noteBy q party tag pl n write kind stamp v).scarf = s.scarf := by
  unfold State.noteBy State.noteAt
  dsimp only
  split
  · rfl
  · split
    · rfl
    · split <;> rfl

theorem engineSide_noteRead {c : BayId} {pl : Place} : EngineSide b s (s.noteRead c va pl n) := by
  unfold State.noteRead
  split
  · exact .refl s
  · have hnote : EngineSide b s (s.note c pl n false 0 (s.poleTime c) (s.seenBy c.val)) := by
      refine .of_kept notesOnly_note.toSameDevices ?_ fun r => ?_
      · unfold State.note
        split
        · exact scarf_noteBy
        · rfl
      · exact (notesOnly_note.planKept r).time
    refine hnote.trans ?_
    unfold State.useRegion
    split
    · exact .refl _
    · exact engineSide_onPart fun _ => rfl

theorem kept_scarfNote {P : State → State → Prop} (hrefl : ∀ s, P s s) (htrans : ∀ {s t u}, P s t → P t u → P s u)
    (hone : ∀ (s : State) (va : Addr) (pl : Place) (n : Nat), P s ((s.orderAccess b va).noteRead b va pl n)) : P s (s.scarfNote q b va n) := by
  unfold State.scarfNote
  refine List.foldlRecOn (motive := P s) _ _ (hrefl s) fun t ht x _ => ?_
  split
  · exact ht
  · exact htrans ht (hone ..)

theorem sameDevices_scarfNote : SameDevices s (s.scarfNote q b va n) :=
  kept_scarfNote .refl .trans fun _ _ _ _ => sameDevices_orderAccess.trans sameDevices_noteRead

theorem engineSide_scarfNote {c : BayId} : EngineSide b s (s.scarfNote q c va n) :=
  kept_scarfNote .refl .trans fun _ _ _ _ => engineSide_orderAccess.trans engineSide_noteRead

/-! ## Writes of the commanding bay (R214, R271) -/

theorem engineSide_queueBurst {code : Nat} {pl : Option Place} {act : Traffic} : EngineSide b s (s.queueBurst q code pl n act) :=
  engineSide_onPart fun _ => rfl

theorem engineSide_onBay {f : Bay → Bay} (hf : ∃ g n, f (s.bay b) = { s.bay b with gbuf := g, nextId := n }) : EngineSide b s (s.onBay b f) := by
  obtain ⟨g, n, hg⟩ := hf
  exact ⟨rfl, rfl, rfl, rfl, ⟨g, n, by rw [State.bay_onBay, hg]⟩, fun c hc => State.bay_onBay_ne _ _ _ _ hc, fun _ => rfl⟩

theorem engineSide_scarfPiece {data : List Byte} (h : s.scarfPiece q b va data = .ok t) : EngineSide b s t := by
  unfold State.scarfPiece at h
  dsimp only at h
  split at h
  · simp at h
  · split at h
    · simp at h
    · rw [← Except.ok.inj h]
      exact engineSide_orderAccess.trans ((engineSide_onBay ⟨_, _, rfl⟩).trans engineSide_queueBurst)

theorem engineSide_scarfPieces {l : List (Addr × List Byte)} (h : s.scarfPieces q b l = .ok t) : EngineSide b s t := by
  induction l generalizing s with
  | nil =>
    rw [← Except.ok.inj h]
    exact .refl s
  | cons x l ih =>
    rw [State.scarfPieces] at h
    split at h
    · simp at h
    · next hx => exact (engineSide_scarfPiece hx).trans (ih h)

/-! ## Progress and the end of a command (R272, R273, R275) -/

theorem scarfProgress_kept {result : Option Word} : (s.scarfProgress q result).bays = s.bays ∧
    (s.scarfProgress q result).scarf = s.scarf := by
  have hwrite (r : State) (pl : Place) (d : List Byte) : (r.writePlace pl d).bays = r.bays ∧ (r.writePlace pl d).scarf = r.scarf := by
    cases pl <;> exact ⟨rfl, rfl⟩
  unfold State.scarfProgress
  dsimp only
  split
  · exact ⟨rfl, rfl⟩
  · split
    · exact hwrite ..
    · exact ⟨(hwrite ..).1.trans (hwrite ..).1, (hwrite ..).2.trans (hwrite ..).2⟩

/-- The commanding bay of a context, once its command has left. -/
def madePeg (c : Scarf) (x : Bay) : Bay :=
  match c.cmd with
  | none => x
  | some m => x.produce m

theorem scarfLeave_eq : s.scarfLeave q =
    (s.onBay (s.scarfOf q).party (madePeg (s.scarfOf q))).onScarf q (fun y => { y with cmd := none }) := by
  unfold State.scarfLeave madePeg
  dsimp only
  cases hc : (s.scarfOf q).cmd with
  | some m => rfl
  | none =>
    have hsame : (fun y : Scarf => { y with cmd := none }) (s.scarf.get q) = s.scarf.get q := by
      rw [← (show (s.scarf.get q).cmd = none from hc)]
    simp only [State.onBay_id, State.onScarf, hsame]
    simp [Vector.get_eq_getElem]

theorem madePeg_eq (c : Scarf) (x : Bay) : ∃ l, madePeg c x = { x with pegSet := l } := by
  unfold madePeg
  split
  · exact ⟨_, rfl⟩
  · exact ⟨_, produce_eq ..⟩

theorem madePeg_pegSet {c : Scarf} {m : Cmd} (h : c.cmd = some m) (x : Bay) :
    (madePeg c x).pegSet = if m.ppeg = 63 then x.pegSet else x.pegSet ++ [m.ppeg] := by
  rw [madePeg, h]
  dsimp only
  rw [produce_eq]

/-- A context and its commanding bay after a change f of the context, the progress written, and its command gone. -/
theorem leave_after {f : Scarf → Scarf} {result : Option Word} (hbay : ∀ c, (f c).bay = c.bay) (hcmd : ∀ c, (f c).cmd = c.cmd) :
    let t := ((s.onScarf q f).scarfProgress q result).scarfLeave q
    t.scarfOf q = { f (s.scarfOf q) with cmd := none } ∧ (∀ r : PartId, r ≠ q → t.scarfOf r = s.scarfOf r) ∧
      ∀ b : BayId, t.bay b = if b = (s.scarfOf q).party then madePeg (s.scarfOf q) (s.bay b) else s.bay b := by
  obtain ⟨hbays, hscarf⟩ := scarfProgress_kept (s := s.onScarf q f) (q := q) (result := result)
  have hctx : ((s.onScarf q f).scarfProgress q result).scarfOf q = f (s.scarfOf q) := by
    rw [scarfOf_congr hscarf, scarfOf_onScarf]
  have hparty : (f (s.scarfOf q)).party = (s.scarfOf q).party := by rw [Scarf.party, hbay, Scarf.party]
  have hmade : madePeg (f (s.scarfOf q)) = madePeg (s.scarfOf q) := by
    unfold madePeg
    rw [hcmd]
  have hb (b : BayId) : ((s.onScarf q f).scarfProgress q result).bay b = s.bay b := by
    rw [State.bay, hbays]
    rfl
  dsimp only
  rw [scarfLeave_eq, hctx, hparty, hmade]
  refine ⟨?_, fun r hr => ?_, fun b => ?_⟩
  · rw [scarfOf_onScarf]
    exact congrArg (fun c : Scarf => { c with cmd := none }) hctx
  · rw [scarfOf_onScarf_ne hr]
    refine Eq.trans ?_ (scarfOf_onScarf_ne (f := f) hr)
    exact scarfOf_congr hscarf
  · change (((s.onScarf q f).scarfProgress q result).onBay (s.scarfOf q).party (madePeg (s.scarfOf q))).bay b = _
    split
    · next h => rw [h, State.bay_onBay, hb]
    · next h => rw [State.bay_onBay_ne _ _ _ _ h, hb]

/-- The context that has stopped with a code. -/
def stoppedAt (c : Scarf) (code : Nat) : Scarf :=
  { c with mode := .stopped, code := code, toIssue := [], flights := [], orWait := false, orRound := none, cmd := none }

theorem scarfStop_eq {code : Nat} : (s.scarfStop q code).scarfOf q = stoppedAt (s.scarfOf q) code ∧
    (∀ r : PartId, r ≠ q → (s.scarfStop q code).scarfOf r = s.scarfOf r) ∧
    ∀ b : BayId, (s.scarfStop q code).bay b = if b = (s.scarfOf q).party then madePeg (s.scarfOf q) (s.bay b) else s.bay b :=
  leave_after (f := fun c => { c with
    mode := .stopped, code := code, toIssue := [], flights := [], orWait := false, orRound := none }) (fun _ => rfl) fun _ => rfl

/-- A context has stopped with a code: its command is gone and has produced its peg, and the other contexts are as before. -/
def Stopped (s t : State) (q : PartId) (code : Nat) : Prop :=
  (t.scarfOf q).mode = .stopped ∧ (t.scarfOf q).code = code ∧ (t.scarfOf q).flights = [] ∧ (t.scarfOf q).toIssue = [] ∧
    (t.scarfOf q).cmd = none ∧
    (∀ m : Cmd, (s.scarfOf q).cmd = some m → (t.bay (s.scarfOf q).party).pegSet =
      if m.ppeg = 63 then (s.bay (s.scarfOf q).party).pegSet else (s.bay (s.scarfOf q).party).pegSet ++ [m.ppeg]) ∧
    ∀ r : PartId, r ≠ q → t.scarfOf r = s.scarfOf r

theorem stopped_scarfStop {code : Nat} (h : EngineSide (s.scarfOf q).party s u) : Stopped s (u.scarfStop q code) q code := by
  obtain ⟨hctx, hothers, hbay⟩ := scarfStop_eq (s := u) (q := q) (code := code)
  obtain ⟨hpeg, -⟩ := h.kept
  unfold Stopped
  rw [hctx, hbay, h.scarfOf, if_pos rfl]
  refine ⟨rfl, rfl, rfl, rfl, rfl, fun m hm => ?_, fun r hr => (hothers r hr).trans h.scarfOf⟩
  rw [madePeg_pegSet hm, hpeg]

end Sys2Proof
end

section
/-!
PROOF. The code of a record's check (R268): the tests in their order, and what a record that passes one satisfies.
-/

namespace Sys2Proof
open Machine Laws

variable {p : Part} {b : BayId} {r : Layout} {unknown : Bool} {at' : Addr} {src dst : Option (List Nat)} {table : Option (List Word)}

/-! ## Fields of a record -/

theorem bits_join {w : Nat} {x : BitVec w} {lo n m : Nat} (h : bits x lo n = 0) (h' : bits x (lo + n) m = 0) : bits x lo (n + m) = 0 := by
  rw [bits_eq] at h h' ⊢
  rw [pow_add, Nat.mod_mul, h, Nat.div_div_eq_div_mul, ← pow_add, h', Nat.mul_zero]

theorem getLsbD_of_bits {w : Nat} {x : BitVec w} {lo n k : Nat} (h : bits x lo n = 0) (hlo : lo ≤ k) (hn : k < lo + n) :
    x.getLsbD k = false := by
  have hz : x.extractLsb' lo n = 0#n := BitVec.eq_of_toNat_eq h
  have hbit := congrArg (fun y => y.getLsbD (k - lo)) hz
  simp only [BitVec.getLsbD_extractLsb', BitVec.getLsbD_zero] at hbit
  rw [decide_eq_true (by omega), Bool.true_and, Nat.add_sub_cancel' hlo] at hbit
  exact hbit

theorem nbits_bits {w : Nat} {x : BitVec w} {lo k n m : Nat} (hm : k + n ≤ m) : nbits (bits x lo m) k n = bits x (lo + k) n := by
  rw [nbits, bits_eq, bits_eq, pow_add, ← Nat.div_div_eq_div_mul]
  obtain ⟨d, rfl⟩ := Nat.le.dest hm
  rw [add_assoc, pow_add 2 k, Nat.mod_mul_right_div_self, pow_add 2 n, Nat.mod_mul_right_mod]

/-! ## The tests in their order -/

/-- The code of a check is that of one of the first n tests. -/
def Fails (code n : Nat) : Prop := 1 ≤ code ∧ code ≤ n

theorem recordCode_le : recordCode r unknown ≤ 3 := by
  unfold recordCode
  dsimp only
  split_ifs <;> omega

/-- The first test of a version that the engine does not know (R123). -/
def versionBad (r : Layout) : Prop := bits r 0 8 = 0 ∨ bits r 8 8 < 4 ∨ (bits r 0 8 = 1 ∧ bits r 8 8 ≠ 4)

theorem recordCode_eq_one : recordCode r unknown = 1 ↔ versionBad r := by
  unfold recordCode versionBad
  dsimp only
  split_ifs <;> simp_all

theorem recordCode_eq_two : recordCode r unknown = 2 ↔ ¬ versionBad r ∧ unknown = true := by
  unfold recordCode versionBad
  dsimp only
  split_ifs <;> simp_all

/-- The logical chips of a partition's plan. -/
def chipsOf (p : Part) : Nat :=
  match p.fab with
  | some f => f.nlchip
  | none => 1

/-- The tests after those of the record, each with its code. -/
theorem checkCode_eq : checkCode p b r unknown at' src dst table =
    if recordCode r unknown ≠ 0 then recordCode r unknown
    else if lyMerge r ∧ (table.getD []).any (fun e => decide (bits e 56 8 ≠ 0)) then 3
    else if formatBad r then 4
    else if geometryBad r src dst (chipsOf p) p.lchip then 5
    else if rangeBad p b r (table.getD []) ((src.getD []).contains p.lchip) then 6
    else if lyMerge r ∧ mergeMisaligned r (table.getD []) then 7
    else if overlapBad r at' ((src.getD []).contains p.lchip) then 8
    else 0 := rfl

theorem checkCode_le : checkCode p b r unknown at' src dst table ≤ 8 := by
  have h := recordCode_le (r := r) (unknown := unknown)
  rw [checkCode_eq]
  split_ifs <;> omega

theorem checkCode_of_record {n : Nat} (hn : n = 1 ∨ n = 2) : checkCode p b r unknown at' src dst table = n ↔ recordCode r unknown = n := by
  rw [checkCode_eq]
  split_ifs <;> omega

section
variable {n : Nat} (h : ¬ Fails (checkCode p b r unknown at' src dst table) n)
include h

theorem passes_record (hn : 3 ≤ n) : recordCode r unknown = 0 := by
  by_contra hne
  have hle := recordCode_le (r := r) (unknown := unknown)
  refine h ?_
  rw [checkCode_eq, if_pos hne]
  exact ⟨by omega, by omega⟩

theorem passes_table (hn : 3 ≤ n) : ¬ (lyMerge r = true ∧ (table.getD []).any (fun e => decide (bits e 56 8 ≠ 0)) = true) := by
  intro ht
  refine h ?_
  rw [checkCode_eq, if_neg (not_not.mpr (passes_record h hn)), if_pos ht]
  exact ⟨by omega, hn⟩

theorem passes_format (hn : 4 ≤ n) : ¬ formatBad r = true := by
  intro hf
  refine h ?_
  rw [checkCode_eq, if_neg (not_not.mpr (passes_record h (by omega))), if_neg (passes_table h (by omega)), if_pos hf]
  exact ⟨by omega, hn⟩

theorem passes_geometry (hn : 5 ≤ n) : ¬ geometryBad r src dst (chipsOf p) p.lchip = true := by
  intro hg
  refine h ?_
  rw [checkCode_eq, if_neg (not_not.mpr (passes_record h (by omega))), if_neg (passes_table h (by omega)),
    if_neg (passes_format h (by omega)), if_pos hg]
  exact ⟨by omega, hn⟩

theorem passes_range (hn : 6 ≤ n) : ¬ rangeBad p b r (table.getD []) ((src.getD []).contains p.lchip) = true := by
  intro hg
  refine h ?_
  rw [checkCode_eq, if_neg (not_not.mpr (passes_record h (by omega))), if_neg (passes_table h (by omega)),
    if_neg (passes_format h (by omega)), if_neg (passes_geometry h (by omega)), if_pos hg]
  exact ⟨by omega, hn⟩

theorem passes_tiling (hn : 7 ≤ n) : ¬ (lyMerge r = true ∧ mergeMisaligned r (table.getD []) = true) := by
  intro hg
  refine h ?_
  rw [checkCode_eq, if_neg (not_not.mpr (passes_record h (by omega))), if_neg (passes_table h (by omega)),
    if_neg (passes_format h (by omega)), if_neg (passes_geometry h (by omega)), if_neg (passes_range h (by omega)), if_pos hg]
  exact ⟨by omega, hn⟩

theorem passes_overlap (hn : 8 ≤ n) : ¬ overlapBad r at' ((src.getD []).contains p.lchip) = true := by
  intro hg
  refine h ?_
  rw [checkCode_eq, if_neg (not_not.mpr (passes_record h (by omega))), if_neg (passes_table h (by omega)),
    if_neg (passes_format h (by omega)), if_neg (passes_geometry h (by omega)), if_neg (passes_range h (by omega)),
    if_neg (passes_tiling h (by omega)), if_pos hg]
  exact ⟨by omega, hn⟩

end

/-! ## What a record that passes satisfies -/

/-- A record that passes the rules of R123 sets no reserved bit, and no field that it does not use. -/
theorem record_fields (h : recordCode r unknown = 0) : bits r 942 1106 = 0 ∧ bits r 34 14 = 0 ∧
    (∀ k < 6, lyNdim r ≤ k → bits r (64 + 32 * k) 32 = 0 ∧ lyPlace r false k = 0 ∧ lyPlace r true k = 0) ∧
    (lyMerge r = false → bits r 24 40 = 0 ∧ bits r 744 198 = 0) := by
  unfold recordCode at h
  dsimp only at h
  split_ifs at h with _ _ hbad
  simp only [not_or, not_not, Bool.not_eq_true] at hbad
  obtain ⟨hres, hmid, hhigh, hplain, -⟩ := hbad
  refine ⟨hres, hmid, fun k hk hle => ?_, fun hm => ?_⟩
  · have hk' := (List.any_eq_false.mp hhigh) k (List.mem_range.mpr hk)
    simp only [Bool.and_eq_true, Bool.or_eq_true, decide_eq_true_eq, not_and, not_or, not_not, ne_eq] at hk'
    obtain ⟨⟨hsrc, hdst⟩, hsize⟩ := hk' hle
    exact ⟨hsize, hsrc, hdst⟩
  · simp only [hm, Bool.not_false, Bool.true_and, Bool.or_eq_false_iff, decide_eq_false_iff_not, not_not, ne_eq] at hplain
    obtain ⟨⟨⟨⟨⟨⟨hslot, hmn⟩, htable⟩, hstage⟩, hbase⟩, hmode⟩, hstream⟩ := hplain
    have h24 : bits r 24 (4 + 6 + 14 + 16) = 0 := bits_join (bits_join (bits_join hmode hbase) hmid) hstream
    have h744 : bits r 744 (72 + 72 + 48 + 6) = 0 :=
      bits_join (bits_join (bits_join (congrArg BitVec.toNat hstage) (congrArg BitVec.toNat htable)) hmn) hslot
    exact ⟨h24, h744⟩

theorem mem_lyDims {d : Bool} {k : Nat} (h : k < lyNdim r) : lyDim r d k ∈ lyDims r d :=
  List.mem_map.mpr ⟨k, List.mem_range.mpr h, rfl⟩

theorem format_fields (h : ¬ formatBad r = true) : lyFmt r ≤ 3 ∧ (lyMerge r = true → lyMode r < 6) ∧
    ∀ (d : Bool) (k : Nat), k < lyNdim r → (lyDim r d k).pl ≠ 3 ∧ (lyDim r d k).ax ≠ 3 := by
  simp only [formatBad, Bool.or_eq_true, not_or, decide_eq_true_eq, Bool.and_eq_true, not_and, List.any_eq_true, not_exists, not_lt,
    not_le] at h
  obtain ⟨⟨⟨hfmt, -⟩, hdims⟩, hmode⟩ := h
  refine ⟨hfmt, hmode, fun d k hk => ?_⟩
  refine hdims _ (List.mem_append.mpr ?_)
  cases d
  · exact .inl (mem_lyDims hk)
  · exact .inr (mem_lyDims hk)

theorem nodup_of_eraseDups {l : List Nat} (h : l.eraseDups.length = l.length) : l.Nodup := by
  have hnd := nodup_eraseDups l
  have hperm : l.eraseDups.Perm l :=
    (hnd.subperm fun x hx => List.mem_eraseDups.mp hx).perm_of_length_le h.ge
  exact hperm.nodup_iff.mp hnd

theorem geometry_fields {nl lchip : Nat} (h : ¬ geometryBad r src dst nl lchip = true) :
    (∀ l, src = some l ∨ dst = some l → l.Nodup ∧ ∀ c ∈ l, c < nl) ∧ (∀ l, dst = some l → lchip ∈ l) ∧ lyNdim r ≠ 0 ∧
      lyNdim r ≤ 6 ∧ (lyMerge r = true → (lyMesh r false).rep ≠ 1 ∧ lyMn r ≠ 0 ∧ lyMn r ≤ 2 ^ 42) := by
  simp only [geometryBad, Bool.or_eq_true, not_or, decide_eq_true_eq, Bool.and_eq_true, not_and, not_lt, not_not, ne_eq] at h
  obtain ⟨⟨⟨⟨⟨⟨⟨⟨⟨-, hsrc⟩, hdst⟩, hany⟩, hrep⟩, hin⟩, hzero⟩, hsix⟩, -⟩, hmn⟩ := h
  have hlow (c : Nat) (hc : c ∈ src.getD [] ++ dst.getD []) : c < nl := by
    by_contra hge
    exact hany (List.any_eq_true.mpr ⟨c, hc, decide_eq_true (not_lt.mp hge)⟩)
  refine ⟨fun l hl => ?_, fun l hl => ?_, hzero, hsix, fun hm => ⟨hrep hm, hmn hm⟩⟩
  · rcases hl with rfl | rfl
    · exact ⟨nodup_of_eraseDups hsrc, fun c hc => hlow c (List.mem_append_left _ hc)⟩
    · exact ⟨nodup_of_eraseDups hdst, fun c hc => hlow c (List.mem_append_right _ hc)⟩
  · subst hl
    simpa using hin

/-- A span that passes begins on a page that passes. -/
theorem spanOk_start {va : Addr} {n : Nat} {need : Need} (h : spanOk p b va n need = true) :
    (∃ x, translate p va need false = .ok x) ∧ (need.r = true → regionOk p b .ldg va = true) ∧
      (need.w = true → regionOk p b .stg va = true) := by
  have h0 := (List.all_eq_true.mp h) 0 (List.mem_range.mpr (Nat.succ_pos _))
  have hzero : va + BitVec.ofNat 72 0 = va := BitVec.add_zero va
  simp only [Nat.mul_zero, Nat.zero_min, hzero] at h0
  split at h0
  · simp at h0
  · next x hx =>
    simp only [Bool.and_eq_true, Bool.or_eq_true, Bool.not_eq_true'] at h0
    obtain ⟨⟨-, hr⟩, hw⟩ := h0
    refine ⟨⟨x, hx⟩, fun hn => hr.resolve_left (by simp [hn]), fun hn => hw.resolve_left (by simp [hn])⟩

theorem range_fields {isSrc : Bool} {tab : List Word} (h : ¬ rangeBad p b r tab isSrc = true) :
    spanOk p b (lyDstVa r) (lyBytes r true) ⟨false, true, false⟩ = true ∧
    (isSrc = true → spanOk p b (lySrcVa r) (lyBytes r false) ⟨true, false, false⟩ = true) ∧
    spanOk p b (lySrcList r) (2 * (lyMesh r false).chips) ⟨true, false, false⟩ = true ∧
    spanOk p b (lyDstList r) (2 * (lyMesh r true).chips) ⟨true, false, false⟩ = true ∧
    spanOk p b (lyProg r) 16 ⟨true, true, false⟩ = true ∧ vaNat (lyProg r) % 16 = 0 ∧
    (lyMerge r = true → vaNat (lyTable r) % 8 = 0 ∧ vaNat (lyStage r) % 64 = 0) := by
  simp only [rangeBad, Bool.or_eq_true, not_or, decide_eq_true_eq, Bool.and_eq_true, not_and, not_not, Bool.not_eq_true', ne_eq,
    Bool.not_eq_false] at h
  obtain ⟨⟨⟨⟨⟨⟨⟨-, hdst⟩, hsrc⟩, hsl⟩, hdl⟩, hprog⟩, halign⟩, hmerge⟩ := h
  refine ⟨hdst, hsrc, hsl, hdl, hprog, halign, fun hm => ?_⟩
  obtain ⟨⟨⟨-, ht⟩, hs⟩, -⟩ := hmerge hm
  exact ⟨ht, hs⟩

theorem tiles_start {n : Nat} {l : List Word} (hn : n ≠ 0) (h : tiles n 0 l = true) : ∃ e ∈ l, tabStart e = 0 := by
  cases l with
  | nil => exact absurd (by simpa [tiles] using h) hn
  | cons e l =>
    simp only [tiles, Bool.and_eq_true, decide_eq_true_eq] at h
    exact ⟨e, List.mem_cons_self, h.1.1.1⟩

theorem tiling_fields {tab : List Word} (hmn : lyMn r ≠ 0) (h : ¬ mergeMisaligned r tab = true) : (∃ e ∈ tab, tabStart e = 0) ∧
    (lyMode r ≠ 2 → ∀ x ∈ tab, ∀ y ∈ tab, x.extractLsb' 48 8 = y.extractLsb' 48 8) := by
  simp only [mergeMisaligned, Bool.or_eq_true, not_or, Bool.and_eq_true, not_and, decide_eq_true_eq, Bool.not_eq_true', Bool.not_eq_false,
    ne_eq, List.any_eq_true, not_exists, not_not] at h
  obtain ⟨htiles, hexp⟩ := h
  obtain ⟨e, he, h0⟩ := tiles_start hmn htiles
  refine ⟨⟨e, mem_sortOn.mp he, h0⟩, fun hmode x hx y hy => ?_⟩
  exact BitVec.eq_of_toInt_eq ((hexp hmode x hx).trans (hexp hmode y hy).symm)

theorem overlap_record {isSrc : Bool} (h : ¬ overlapBad r at' isSrc = true) (hva : lyDstVa r = at') : lyBytes r true = 0 := by
  by_contra hne
  refine h (List.any_eq_true.mpr ⟨_, List.mem_cons_self, List.any_eq_true.mpr ⟨(at', 256), ?_, ?_⟩⟩)
  · exact List.mem_append_right _ List.mem_cons_self
  · simp only [overlaps, hva, Bool.and_eq_true, decide_eq_true_eq]
    omega

end Sys2Proof
end

section
/-!
PROOF. Which records fail the check, and at which of its codes (R268, R279).
-/

namespace Sys2Proof
open Machine Laws

variable {p : Part} {b : BayId} {r : Layout} {unknown : Bool} {at' : Addr} {src dst : Option (List Nat)} {table : Option (List Word)}

/-- A field of a record, as a number. -/
def fieldOf (r : Layout) (lo n : Nat) : Nat := r.toNat / 2 ^ lo % 2 ^ n

theorem fieldOf_eq (lo n : Nat) : fieldOf r lo n = bits r lo n := (bits_eq ..).symm

/-! ## Reserved bits and unused fields (R123) -/

theorem fails_reserved (h : ∃ k, 942 ≤ k ∧ r.getLsbD k = true) : Fails (checkCode p b r unknown at' src dst table) 3 := by
  obtain ⟨k, hk, hbit⟩ := h
  by_contra hn
  obtain ⟨hres, -⟩ := record_fields (passes_record hn le_rfl)
  have hlt : k < 2048 := by
    by_contra hge
    simp [BitVec.getLsbD_of_ge r k (not_lt.mp hge)] at hbit
  simp [getLsbD_of_bits hres hk (by omega)] at hbit

theorem fails_middle (h : fieldOf r 34 14 ≠ 0) : Fails (checkCode p b r unknown at' src dst table) 3 := by
  by_contra hn
  obtain ⟨-, hmid, -⟩ := record_fields (passes_record hn le_rfl)
  exact h (fieldOf_eq .. ▸ hmid)

theorem fails_plain (hm : r.getLsbD 23 = false) (h : fieldOf r 24 40 ≠ 0 ∨ fieldOf r 744 198 ≠ 0) :
    Fails (checkCode p b r unknown at' src dst table) 3 := by
  by_contra hn
  obtain ⟨-, -, -, hplain⟩ := record_fields (passes_record hn le_rfl)
  obtain ⟨h24, h744⟩ := hplain hm
  rw [fieldOf_eq, fieldOf_eq] at h
  exact h.elim (absurd h24) (absurd h744)

theorem fails_beyond {k : Nat} (hk : k < 6) (hle : fieldOf r 20 3 ≤ k)
    (h : fieldOf r (64 + 32 * k) 32 ≠ 0 ∨ fieldOf r (256 + 8 * k) 8 ≠ 0 ∨ fieldOf r (304 + 8 * k) 8 ≠ 0) :
    Fails (checkCode p b r unknown at' src dst table) 3 := by
  by_contra hn
  obtain ⟨-, -, hhigh, -⟩ := record_fields (passes_record hn le_rfl)
  rw [fieldOf_eq] at hle
  obtain ⟨hsize, hsrc, hdst⟩ := hhigh k hk hle
  rw [fieldOf_eq, fieldOf_eq, fieldOf_eq] at h
  rcases h with h | h | h
  · exact h hsize
  · exact h hsrc
  · exact h hdst

theorem fails_entry {l : List Word} {e : Word} (hm : r.getLsbD 23 = true) (ht : table = some l) (he : e ∈ l) (h : e.toNat / 2 ^ 56 ≠ 0) :
    Fails (checkCode p b r unknown at' src dst table) 3 := by
  by_contra hn
  refine passes_table hn le_rfl ⟨hm, List.any_eq_true.mpr ⟨e, by rw [ht]; exact he, decide_eq_true ?_⟩⟩
  have hlt := e.isLt
  rw [bits_eq, Nat.mod_eq_of_lt (by omega)]
  exact h

/-! ## Formats (R268) -/

theorem fails_format (h : 3 < fieldOf r 16 4) : Fails (checkCode p b r unknown at' src dst table) 4 := by
  by_contra hn
  obtain ⟨hfmt, -⟩ := format_fields (passes_format hn le_rfl)
  rw [fieldOf_eq] at h
  exact absurd hfmt (not_le.mpr h)

theorem fails_mode (hm : r.getLsbD 23 = true) (h : 6 ≤ fieldOf r 24 4) : Fails (checkCode p b r unknown at' src dst table) 4 := by
  by_contra hn
  obtain ⟨-, hmode, -⟩ := format_fields (passes_format hn le_rfl)
  rw [fieldOf_eq] at h
  exact absurd (hmode hm) (not_lt.mpr h)

theorem lyDim_fields (d : Bool) (k : Nat) : (lyDim r d k).pl = fieldOf r ((if d then 304 else 256) + 8 * k) 2 ∧
    (lyDim r d k).ax = fieldOf r ((if d then 304 else 256) + 8 * k + 2) 2 := by
  rw [fieldOf_eq, fieldOf_eq]
  exact ⟨nbits_bits (by omega), nbits_bits (by omega)⟩

theorem fails_placement {k : Nat} (hk : k < fieldOf r 20 3) : ∀ o ∈ [256 + 8 * k, 304 + 8 * k],
    fieldOf r o 2 = 3 ∨ fieldOf r (o + 2) 2 = 3 → Fails (checkCode p b r unknown at' src dst table) 4 := by
  intro o ho h
  by_contra hn
  obtain ⟨-, -, hdims⟩ := format_fields (passes_format hn le_rfl)
  rw [fieldOf_eq] at hk
  obtain ⟨d, rfl⟩ : ∃ d : Bool, o = (if d then 304 else 256) + 8 * k := by
    simp only [List.mem_cons, List.not_mem_nil, or_false] at ho
    exact ho.elim (fun e => ⟨false, e⟩) fun e => ⟨true, e⟩
  obtain ⟨hpl, hax⟩ := hdims d k hk
  rw [(lyDim_fields d k).1] at hpl
  rw [(lyDim_fields d k).2] at hax
  exact h.elim hpl hax

/-! ## Geometry (R268) -/

theorem fails_list {l : List Nat} (hl : src = some l ∨ dst = some l) (h : ¬ l.Nodup ∨ ∃ c ∈ l, chipsOf p ≤ c) :
    Fails (checkCode p b r unknown at' src dst table) 5 := by
  by_contra hn
  obtain ⟨hlists, -⟩ := geometry_fields (passes_geometry hn le_rfl)
  obtain ⟨hnodup, hlow⟩ := hlists l hl
  rcases h with h | ⟨c, hc, hge⟩
  · exact h hnodup
  · exact absurd (hlow c hc) (not_lt.mpr hge)

theorem fails_absent {l : List Nat} (hl : dst = some l) (h : p.lchip ∉ l) : Fails (checkCode p b r unknown at' src dst table) 5 := by
  by_contra hn
  obtain ⟨-, hin, -⟩ := geometry_fields (passes_geometry hn le_rfl)
  exact h (hin l hl)

theorem fails_dims (h : fieldOf r 20 3 = 0 ∨ 6 < fieldOf r 20 3) : Fails (checkCode p b r unknown at' src dst table) 5 := by
  by_contra hn
  obtain ⟨-, -, hzero, hsix, -⟩ := geometry_fields (passes_geometry hn le_rfl)
  rw [fieldOf_eq] at h
  exact h.elim hzero (not_lt.mpr hsix)

theorem fails_merge (hm : r.getLsbD 23 = true) (h : fieldOf r 364 4 = 0 ∨ fieldOf r 888 48 = 0 ∨ 2 ^ 42 < fieldOf r 888 48) :
    Fails (checkCode p b r unknown at' src dst table) 5 := by
  by_contra hn
  obtain ⟨-, -, -, -, hmerge⟩ := geometry_fields (passes_geometry hn le_rfl)
  obtain ⟨hrep, hmn, hmax⟩ := hmerge hm
  rw [fieldOf_eq, fieldOf_eq] at h
  rcases h with h | h | h
  · exact hrep (congrArg (· + 1) h)
  · exact hmn h
  · exact absurd hmax (not_le.mpr h)

/-! ## Ranges (R268) -/

theorem fails_span {va : Addr} {need : Need} (hva : (va, need) ∈ ([(lyDstVa r, ⟨false, true, false⟩), (lySrcList r, ⟨true, false, false⟩),
      (lyDstList r, ⟨true, false, false⟩), (lyProg r, ⟨true, true, false⟩)] : List (Addr × Need)))
    (h : (∃ e, translate p va need false = .error e) ∨ (need.w = true ∧ regionOk p b .stg va = false) ∨
      (need.r = true ∧ regionOk p b .ldg va = false)) : Fails (checkCode p b r unknown at' src dst table) 6 := by
  by_contra hn
  obtain ⟨hdst, -, hsl, hdl, hprog, -⟩ := range_fields (passes_range hn le_rfl)
  obtain ⟨n, hspan⟩ : ∃ n, spanOk p b va n need = true := by
    simp only [List.mem_cons, Prod.mk.injEq, List.not_mem_nil, or_false] at hva
    rcases hva with ⟨rfl, rfl⟩ | ⟨rfl, rfl⟩ | ⟨rfl, rfl⟩ | ⟨rfl, rfl⟩
    · exact ⟨_, hdst⟩
    · exact ⟨_, hsl⟩
    · exact ⟨_, hdl⟩
    · exact ⟨_, hprog⟩
  obtain ⟨⟨x, hx⟩, hread, hwrite⟩ := spanOk_start hspan
  rcases h with ⟨e, he⟩ | ⟨hw, hreg⟩ | ⟨hr, hreg⟩
  · simp [hx] at he
  · simp [hwrite hw] at hreg
  · simp [hread hr] at hreg

theorem fails_source {l : List Nat} {e : Cause × Info} (hl : src = some l) (hin : p.lchip ∈ l)
    (h : translate p (lySrcVa r) ⟨true, false, false⟩ false = .error e) : Fails (checkCode p b r unknown at' src dst table) 6 := by
  by_contra hn
  obtain ⟨-, hsrc, -⟩ := range_fields (passes_range hn le_rfl)
  obtain ⟨⟨x, hx⟩, -⟩ := spanOk_start (hsrc (by rw [hl]; exact List.contains_iff_mem.mpr hin))
  simp [hx] at h

/-- The low bits of a VA field of a record. -/
theorem vaNat_low {lo k : Nat} (hk : k ≤ 64) : vaNat (r.extractLsb' lo 72) % 2 ^ k = fieldOf r lo k := by
  rw [fieldOf_eq, vaNat, bits_eq, Nat.mod_mod_of_dvd _ (Nat.pow_dvd_pow 2 hk), pow_zero, Nat.div_one]
  change bits r lo 72 % 2 ^ k = _
  rw [bits_eq, bits_eq, Nat.mod_mod_of_dvd _ (Nat.pow_dvd_pow 2 (by omega))]

theorem fails_progress (h : fieldOf r 672 4 ≠ 0) : Fails (checkCode p b r unknown at' src dst table) 6 := by
  by_contra hn
  obtain ⟨-, -, -, -, -, halign, -⟩ := range_fields (passes_range hn le_rfl)
  exact h ((vaNat_low (lo := 672) (by omega)).symm.trans halign)

theorem fails_aligned (hm : r.getLsbD 23 = true) (h : fieldOf r 816 3 ≠ 0 ∨ fieldOf r 744 6 ≠ 0) :
    Fails (checkCode p b r unknown at' src dst table) 6 := by
  by_contra hn
  obtain ⟨-, -, -, -, -, -, hmerge⟩ := range_fields (passes_range hn le_rfl)
  obtain ⟨htable, hstage⟩ := hmerge hm
  rcases h with h | h
  · exact h ((vaNat_low (lo := 816) (by omega)).symm.trans htable)
  · exact h ((vaNat_low (lo := 744) (by omega)).symm.trans hstage)

/-! ## Tiling and overlap (R268, R279) -/

theorem fails_tiling {l : List Word} (hm : r.getLsbD 23 = true) (ht : table = some l)
    (h : (∀ e ∈ l, e.toNat % 2 ^ 42 ≠ 0) ∨ (fieldOf r 24 4 ≠ 2 ∧ ∃ x ∈ l, ∃ y ∈ l, x.extractLsb' 48 8 ≠ y.extractLsb' 48 8)) :
    Fails (checkCode p b r unknown at' src dst table) 7 := by
  by_contra hn
  obtain ⟨-, -, -, -, hmerge⟩ := geometry_fields (passes_geometry hn (by omega))
  obtain ⟨-, hmn, -⟩ := hmerge hm
  obtain ⟨⟨e, he, hstart⟩, hexp⟩ := tiling_fields hmn (fun hmis => passes_tiling hn le_rfl ⟨hm, hmis⟩)
  rw [ht] at he hexp
  rcases h with h | ⟨hmode, x, hx, y, hy, hne⟩
  · refine h e he ?_
    rw [tabStart, bits_eq, pow_zero, Nat.div_one] at hstart
    exact hstart
  · rw [fieldOf_eq] at hmode
    exact hne (hexp hmode x hx y hy)

theorem fails_overlap (hva : lyDstVa r = at') (h : 0 < lyBytes r true) : Fails (checkCode p b r unknown at' src dst table) 8 := by
  by_contra hn
  exact absurd (overlap_record (passes_overlap hn le_rfl) hva) h.ne'

end Sys2Proof
end

section
/-!
PROOF. How a command of the scarf engine begins, how its check ends, and how it issues its requests (R268, R271, R276).
-/

namespace Sys2Proof
open Machine Laws

variable {s t u : State} {q : PartId} {b : BayId} {m : Cmd} {rest : List Cmd}

/-! ## What the engine reads -/

/-- The bytes of this chip's shared memory are the same. -/
def SameBytes (s t : State) : Prop := t.ring = s.ring ∧ t.lpddr = s.lpddr

theorem SameBytes.readPlaceN (h : SameBytes s t) (pl : Place) (n : Nat) : t.readPlaceN pl n = s.readPlaceN pl n := by
  obtain ⟨hring, hlpddr⟩ := h
  cases pl <;> simp only [State.readPlaceN, State.readPlace, hring, hlpddr]

theorem SameBytes.writePlace (h : SameBytes s t) (pl : Place) (d : List Byte) : SameBytes (s.writePlace pl d) (t.writePlace pl d) := by
  obtain ⟨hring, hlpddr⟩ := h
  cases pl <;> simp only [SameBytes, State.writePlace, hring, hlpddr, and_self]

theorem SameBytes.applyBytes (h : SameBytes s t) (e : GEffect) : SameBytes (s.applyBytes e) (t.applyBytes e) := by
  cases e with
  | bytes pl d => exact h.writePlace pl d
  | lineFull l pl d => exact h.writePlace pl d
  | atomic op pl v =>
    simp only [State.applyBytes, h.readPlaceN]
    exact h.writePlace ..
  | lineEmpty l => exact h
  | hand r m => exact h

/-- What a bay reads depends on memory and on what waits in the bay's buffer alone. -/
theorem SameBytes.readAs (h : SameBytes s t) (hg : (t.bay b).gbuf = (s.bay b).gbuf) (now : Nat) (pl : Place) (n : Nat) :
    t.readAs b now pl n = s.readAs b now pl n := by
  refine SameBytes.readPlaceN ?_ pl n
  simp only [State.ownView, hg]
  clear hg
  generalize List.filter _ _ = l
  induction l generalizing s t with
  | nil => exact h
  | cons w l ih => exact ih (h.applyBytes w.eff)

theorem scarfRead_congr (h : SameBytes s t) (hg : (t.bay b).gbuf = (s.bay b).gbuf) (hp : t.part q = s.part q) (va : Addr) (n : Nat) :
    t.scarfRead q b va n = s.scarfRead q b va n := by
  simp only [State.scarfRead, hp, h.readAs hg]

/-! ## Begin (R276) -/

theorem bays_sorted (p : Part) : p.bays.Pairwise (· < ·) := (List.pairwise_lt_finRange 192).filter _

/-- The lowest bay of a partition with a command that may begin. -/
theorem findSome_lowest {α : Type} {l : List BayId} {f : BayId → Option α} {x : α} (hl : l.Pairwise (· < ·)) (hb : b ∈ l)
    (hlow : ∀ a ∈ l, a < b → f a = none) (hx : f b = some x) : l.findSome? f = some x := by
  induction l with
  | nil => exact absurd hb List.not_mem_nil
  | cons a l ih =>
    obtain ⟨ha, hl'⟩ := List.pairwise_cons.mp hl
    rcases List.mem_cons.mp hb with rfl | hb'
    · rw [List.findSome?_cons, hx]
    · rw [List.findSome?_cons, hlow a List.mem_cons_self (ha b hb')]
      exact ih hl' hb' fun c hc => hlow c (List.mem_cons_of_mem _ hc)

/-- A state whose bay b has begun its command m, before the engine notes its read of the record. -/
def scarfBegun (s : State) (b : BayId) (m : Cmd) : State := s.onBay b (fun x => (x.dequeue .scarf).consume m)

/-- The context of a command that has begun. -/
def scarfStarted (s : State) (q : PartId) (b : BayId) (m : Cmd) : Scarf :=
  { Scarf.reset with
    mode := .checking, bay := b.val, cmd := some m
    record := BitVec.ofNat 2048 (leNat (((scarfBegun s b m).scarfRead q b m.a0 256).getD []))
    checkEnd := (s.part q).time + checkTime (BitVec.ofNat 2048 (leNat (((scarfBegun s b m).scarfRead q b m.a0 256).getD [])))
    run := s.nextTag }

/-- The state in which a context has begun a command. -/
def scarfReading (s : State) (q : PartId) (b : BayId) (m : Cmd) : State :=
  (((scarfBegun s b m).scarfNote q b m.a0 256).freshTag.2).onScarf q (fun _ => scarfStarted s q b m)

section
variable (h : Begins s b .scarf m rest) (hb : b ∈ (s.part q).bays) (hc : (s.scarfOf q).mode ≠ .checking)
  (hr : (s.scarfOf q).mode ≠ .running) (hheld : (s.part q).held = false)
  (hlow : ∀ a ∈ (s.part q).bays, a < b → (s.bay a).queue .scarf = [])
include h hb hc hr hheld hlow

theorem exec_reshardBegin : exec (.reshardBegin q) s = .next (if regionOk (s.part q) b .ldg m.a0 = true then scarfReading s q b m
    else (scarfReading s q b m).scarfStop q 10) := by
  have hfind := findSome_lowest (f := fun a => ((s.bay a).headReady .scarf (s.now a) (fun _ => true)).map (fun m => (a, m)))
    (bays_sorted _) hb (fun a ha hlt => by simp [Bay.headReady, hlow a ha hlt]) (congrArg (Option.map (fun m => (b, m))) h.headReady)
  change execReshardBegin q s = _
  unfold execReshardBegin
  dsimp only
  rw [if_neg (by simp [hc, hr, hheld]), hfind]
  rfl

end

theorem sameDevices_onScarf {f : Scarf → Scarf} : SameDevices s (s.onScarf q f) := ⟨rfl, rfl, rfl, rfl, rfl⟩

theorem sameDevices_reading : SameDevices (scarfBegun s b m) (scarfReading s q b m) := by
  have hfresh (u : State) : SameDevices u u.freshTag.2 := ⟨rfl, rfl, rfl, rfl, rfl⟩
  exact (sameDevices_scarfNote.trans (hfresh _)).trans sameDevices_onScarf

theorem begun_reading (h : Begins s b .scarf m rest) (l : List Nat) (ht : t.bay b = { (scarfReading s q b m).bay b with pegSet := l }) :
    Begun s t b .scarf m rest := by
  have hbay : (scarfReading s q b m).bay b = ((s.bay b).dequeue .scarf).consume m := by
    have hbegun : (scarfBegun s b m).bay b = ((s.bay b).dequeue .scarf).consume m := State.bay_onBay ..
    rw [sameDevices_reading.bay, hbegun]
  rw [hbay] at ht
  refine h.begun ?_ ?_ ?_ ?_ <;> rw [ht] <;> rfl

theorem sameMemory_reading : SameMemory s (scarfReading s q b m) := by
  have hbegun : SameMemory s (scarfBegun s b m) := (SameDevices.refl s).onBay_sameMemory rfl
  obtain ⟨hring, hlpddr, hhost, hbay⟩ := hbegun
  have hread : SameDevices (scarfBegun s b m) (scarfReading s q b m) := sameDevices_reading
  exact ⟨hread.ring.trans hring, hread.lpddr.trans hlpddr, hread.hostMem.trans hhost,
    fun c => (congrArg bayMems (hread.bay c)).trans (hbay c)⟩

theorem scarfOf_reading : (scarfReading s q b m).scarfOf q = scarfStarted s q b m := scarfOf_onScarf

theorem party_started : (scarfStarted s q b m).party = b := Fin.ofNat_val_eq_self b

/-- The record is read as the bay sees it before it begins. -/
theorem record_started : (scarfStarted s q b m).record = BitVec.ofNat 2048 (leNat ((s.scarfRead q b m.a0 256).getD [])) := by
  have hbay : (scarfBegun s b m).bay b = ((s.bay b).dequeue .scarf).consume m := State.bay_onBay ..
  have hg : ((scarfBegun s b m).bay b).gbuf = (s.bay b).gbuf := by
    rw [hbay]
    rfl
  exact congrArg (fun d => BitVec.ofNat 2048 (leNat (d.getD []))) 
    (scarfRead_congr (s := s) (t := scarfBegun s b m) ⟨rfl, rfl⟩ hg rfl m.a0 256)

/-- The context stops where the region of its record forbids the read, its command begun (log 96). -/
theorem begun_refused (h : Begins s b .scarf m rest) : Begun s ((scarfReading s q b m).scarfStop q 10) b .scarf m rest := by
  obtain ⟨-, -, hbay⟩ := scarfStop_eq (s := scarfReading s q b m) (q := q) (code := 10)
  obtain ⟨l, hl⟩ := madePeg_eq (scarfStarted s q b m) ((scarfReading s q b m).bay b)
  refine begun_reading (q := q) h l ?_
  rw [hbay, scarfOf_reading, party_started, if_pos rfl, hl]

/-! ## The end of a check (R268, R274) -/

/-- A chip list of the record in a context, as its check reads it. -/
def readList (s : State) (q : PartId) (d : Bool) : Option (List Nat) :=
  s.scarfWords q (s.scarfOf q).party (if d then lyDstList (s.scarfOf q).record else lySrcList (s.scarfOf q).record) 2
    (min 4096 (lyMesh (s.scarfOf q).record d).chips)

/-- The merge descriptor table of the record in a context, as its check reads it. -/
def readTable (s : State) (q : PartId) : Option (List Word) :=
  if lyMerge (s.scarfOf q).record then
    (s.scarfWords q (s.scarfOf q).party (lyTable (s.scarfOf q).record) 8 (lyMesh (s.scarfOf q).record false).rep).map
      (fun l => l.map (BitVec.ofNat 64))
  else some []

/-- The code of the check of a context's command. -/
def checkedCode (s : State) (q : PartId) (m : Cmd) : Nat :=
  checkCode (s.part q) (s.scarfOf q).party (s.scarfOf q).record
    (s.scarfNonzero q (s.scarfOf q).party (m.a0 + 256) (lyExtra (s.scarfOf q).record)) m.a0 (readList s q false) (readList s q true)
    (readTable s q)

/-- The reads of the lists and the table, noted. -/
def listsNoted (s : State) (q : PartId) : State :=
  ([(lySrcList (s.scarfOf q).record, 2 * ((readList s q false).getD []).length),
    (lyDstList (s.scarfOf q).record, 2 * ((readList s q true).getD []).length),
    (lyTable (s.scarfOf q).record, 8 * ((readTable s q).getD []).length)] : List (Addr × Nat)).foldl
      (fun acc x => acc.scarfNote q (s.scarfOf q).party x.1 x.2) s

/-- The context that runs a plan from transfer n on. -/
def runsFrom (s : State) (q : PartId) (plan : List Transfer) (n : Nat) (c : Scarf) : Scarf :=
  { c with
    mode := .running, srcList := (readList s q false).getD [], dstList := (readList s q true).getD [], table := (readTable s q).getD []
    plan := plan, toIssue := plan.filter (fun x => decide (n ≤ x.index))
    landed := (plan.filter (fun x => decide (x.index < n))).map (fun x => (x.index, 0)), next := n }

section
variable (hmode : (s.scarfOf q).mode = .checking) (hcmd : (s.scarfOf q).cmd = some m) (hend : (s.scarfOf q).checkEnd ≤ (s.part q).time)
  (hheld : (s.part q).held = false)
include hmode hcmd hend hheld

theorem exec_checkEnd_refuses (hcode : checkedCode s q m ≠ 0) :
    exec (.reshardCheckEnd q) s = .next (s.scarfStop q (checkedCode s q m)) := by
  change execReshardCheckEnd q s = _
  simp only [execReshardCheckEnd, hmode, hcmd]
  rw [if_neg (by simp [hend, hheld])]
  exact if_pos hcode

theorem exec_checkEnd_runs {x : Transfer} {more : List Transfer} (hcode : checkedCode s q m = 0) (hword : m.word.getLsbD 29 = false)
    (hplan : planOf (s.scarfOf q).record ((readList s q false).getD []) ((readList s q true).getD []) (s.part q).lchip = x :: more) :
    exec (.reshardCheckEnd q) s =
      .next (((listsNoted s q).onScarf q (runsFrom s q (x :: more) x.index)).scarfGathered q) := by
  have hbit : bitAt m.word 29 = false := hword
  change execReshardCheckEnd q s = _
  simp only [execReshardCheckEnd, hmode, hcmd]
  rw [if_neg (by simp [hend, hheld])]
  refine (if_neg (not_not.mpr hcode)).trans ?_
  simp only [readList, Bool.false_eq_true, if_false, if_true] at hplan
  simp only [hbit, Bool.false_eq_true, if_false, hplan]
  rfl

end

theorem sameDevices_listsNoted : SameDevices s (listsNoted s q) :=
  List.foldlRecOn (motive := SameDevices s) _ _ (.refl s) fun _ ht _ _ => ht.trans sameDevices_scarfNote

/-- While a transfer of the plan has not landed the pass goes on. -/
theorem scarfGathered_waits {x : Transfer} (hx : x ∈ (s.scarfOf q).plan) (hnot : ∀ y ∈ (s.scarfOf q).landed, y.1 ≠ x.index) :
    s.scarfGathered q = s := by
  unfold State.scarfGathered
  dsimp only
  rw [if_neg]
  rintro ⟨-, -, hall⟩
  obtain ⟨y, hy, he⟩ := List.any_eq_true.mp (List.all_eq_true.mp hall x hx)
  exact hnot y hy (of_decide_eq_true he)

theorem scarfGathered_stopped (h : (s.scarfOf q).mode ≠ .running) : s.scarfGathered q = s := by
  unfold State.scarfGathered
  dsimp only
  rw [if_neg fun hc => h hc.1]

/-- A check without faults: the context runs the plan from its first transfer on. -/
theorem checkEnd_runs {x : Transfer} {more : List Transfer} (hmode : (s.scarfOf q).mode = .checking) (hcmd : (s.scarfOf q).cmd = some m)
    (hend : (s.scarfOf q).checkEnd ≤ (s.part q).time) (hheld : (s.part q).held = false) (hcode : checkedCode s q m = 0)
    (hword : m.word.getLsbD 29 = false)
    (hplan : planOf (s.scarfOf q).record ((readList s q false).getD []) ((readList s q true).getD []) (s.part q).lchip = x :: more) :
    ∃ t : State, exec (.reshardCheckEnd q) s = .next t ∧ t.bays = s.bays ∧ SameMemory s t ∧ (t.scarfOf q).mode = .running ∧
      (t.scarfOf q).plan = x :: more ∧ (t.scarfOf q).next = x.index ∧
      (t.scarfOf q).toIssue = (x :: more).filter (fun y => decide (x.index ≤ y.index)) := by
  have hdev : SameDevices s ((listsNoted s q).onScarf q (runsFrom s q (x :: more) x.index)) :=
    sameDevices_listsNoted.trans sameDevices_onScarf
  have hctx : ((listsNoted s q).onScarf q (runsFrom s q (x :: more) x.index)).scarfOf q =
      runsFrom s q (x :: more) x.index ((listsNoted s q).scarfOf q) := scarfOf_onScarf
  have hexec := exec_checkEnd_runs hmode hcmd hend hheld hcode hword hplan
  rw [scarfGathered_waits (x := x) (by rw [hctx]; exact List.mem_cons_self)] at hexec
  · refine ⟨_, hexec, hdev.bays, hdev.sameMemory, ?_⟩
    rw [hctx]
    exact ⟨rfl, rfl, rfl, rfl⟩
  · rw [hctx]
    intro y hy
    obtain ⟨z, hz, rfl⟩ := List.mem_map.mp hy
    exact (of_decide_eq_true (List.mem_filter.mp hz).2).ne

/-! ## Requests (R271) -/

theorem not_allowed_iff {p : Part} {l : List Addr} : (¬ ∀ a ∈ l, regionOk p b .ldg a = true) ↔
    l.any (fun a => !regionOk p b .ldg a) = true := by
  simp

section
variable {x : Transfer} {more : List Transfer} (hmode : (s.scarfOf q).mode = .running) (hpass : (s.scarfOf q).pass = 0)
  (hroom : (s.scarfOf q).flights.length < 64) (hheld : (s.part q).held = false) (hissue : (s.scarfOf q).toIssue = x :: more)
include hmode hpass hroom hheld hissue

theorem exec_request_unmapped (hchip : x.chip = (s.part q).lchip)
    (hpage : findEntry (s.part q).tt (vaNat (x.srcVa (s.scarfOf q).record)) = none) :
    exec (.scarfRequest q) s = .next (s.scarfStop q 6) := by
  change execScarfRequest q s = _
  unfold execScarfRequest
  dsimp only
  rw [if_neg (by simp [hmode, hpass, hroom, hheld]), hissue]
  simp only [if_pos hchip, hpage]

theorem exec_request_local {k : Nat} {e : BitVec 128} (hchip : x.chip = (s.part q).lchip)
    (hpage : findEntry (s.part q).tt (vaNat (x.srcVa (s.scarfOf q).record)) = some (k, e)) : exec (.scarfRequest q) s =
    .next ((s.scarfFly q x ((s.part q).time + tierLatency (s.scarfOf q).party e)).queueBurst q 0xF1
      (some (tePlace e (vaNat (x.srcVa (s.scarfOf q).record) - teBase e))) (elemSpan (s.scarfOf q).record x.src x.count) .bulk) := by
  change execScarfRequest q s = _
  unfold execScarfRequest
  dsimp only
  rw [if_neg (by simp [hmode, hpass, hroom, hheld]), hissue]
  simp only [if_pos hchip, hpage]

theorem exec_request_remote {f : FabHeader} (hchip : x.chip ≠ (s.part q).lchip) (hf : (s.part q).fab = some f) :
    exec (.scarfRequest q) s =
      if (pageEnds (x.srcVa (s.scarfOf q).record) (elemSpan (s.scarfOf q).record x.src x.count)).any
          (fun a => !regionOk (s.part q) (s.scarfOf q).party .ldg a) = true then .next (s.scarfStop q 10)
      else if s.bulkSlot q f x.chip = true then
        .next ((s.scarfFly q x ((s.part q).time + 380 + 360 * f.hops (s.physOf f f.lchip) (s.physOf f x.chip))).sendChip f x.chip 1
          (.scarfRead ⟨f.lchip, (s.scarfOf q).bay, placedMode (s.part q) (x.srcVa (s.scarfOf q).record), q, (s.scarfOf q).run, x.index,
            x.srcVa (s.scarfOf q).record, elemSpan (s.scarfOf q).record x.src x.count⟩))
      else .next s := by
  change execScarfRequest q s = _
  unfold execScarfRequest
  dsimp only
  rw [if_neg (by simp [hmode, hpass, hroom, hheld]), hissue]
  dsimp only
  rw [if_neg hchip, hf]

omit hmode hpass hroom hheld in
/-- A request that has entered flight. -/
theorem flies_of {due : Nat} (hbays : t.bays = s.bays) (hmem : SameMemory s t) (hscarf : t.scarf = (s.scarfFly q x due).scarf) :
    t.bays = s.bays ∧ SameMemory s t ∧ (t.scarfOf q).toIssue = more ∧
      (t.scarfOf q).flights = (s.scarfOf q).flights ++ [⟨x, due, none⟩] := by
  refine ⟨hbays, hmem, ?_⟩
  rw [scarfOf_congr hscarf, State.scarfFly, scarfOf_onScarf]
  exact ⟨congrArg List.tail hissue, rfl⟩

omit hmode hpass hroom hheld in
/-- A request that has entered flight, and a message that asks for it. -/
theorem flies_sent {due : Nat} (h : LinksOnly (s.scarfFly q x due) t) :
    t.bays = s.bays ∧ SameMemory s t ∧ (t.scarfOf q).toIssue = more ∧
      (t.scarfOf q).flights = (s.scarfOf q).flights ++ [⟨x, due, none⟩] := by
  obtain ⟨hbays, hmem, -⟩ := h.frame
  obtain ⟨_, _, _, rfl⟩ := h
  exact flies_of hissue hbays hmem rfl

end

end Sys2Proof
end

section
/-!
PROOF. Transfers that land (R271, R273): in the window of the commanding bay where it has room, or with a fault of the bay or a stop.
-/

namespace Sys2Proof
open Machine Laws

variable {s t u s1 : State} {q : PartId} {b : BayId} {f : Flight} {d : List Byte} {e : Nat}

/-! ## A landing counted, and one without room (R214, R286, R287) -/

theorem landChk_full {l : List (Addr × List Byte)} (h : s.landsFull b = true) : s.landChk q b l = some (.windowOverflow, 2) := by
  rw [State.landChk, if_pos h]

theorem landChk_free {l : List (Addr × List Byte)} (h : s.landsFull b = false) (hclash : s.piecesClash q b l = false) :
    s.landChk q b l = none := by
  rw [State.landChk, h, hclash]
  rfl

/-- A state in which landing k of a context is counted in its bay's window. -/
theorem scarfLanded_eq {k : Nat} : (s.scarfLanded q b k).scarfOf q =
      { s.scarfOf q with landed := (s.scarfOf q).landed ++ [(k, (s.bay b).window.num)] } ∧
    (∀ r : PartId, r ≠ q → (s.scarfLanded q b k).scarfOf r = s.scarfOf r) ∧ SameMemory s (s.scarfLanded q b k) ∧
    (s.scarfLanded q b k).bay b =
      { s.bay b with window := { (s.bay b).window with gstores := (s.bay b).window.gstores + 1 } } := by
  unfold State.scarfLanded
  dsimp only
  refine ⟨scarfOf_onScarf, fun r hr => scarfOf_onScarf_ne hr, ?_, ?_⟩
  · exact (SameDevices.refl s).onBay_sameMemory (b := b)
      (f := fun x => { x with window := { x.window with gstores := x.window.gstores + 1 } }) rfl
  · rw [bay_onScarf, State.bay_onBay]

/-- A bay of the engine that finds no room for a landing meets a fault, and nothing else changes. -/
theorem overflow_fault (h : EngineSide b s u) {c : Cause} {info : Info} : SameMemory s (u.strayFault b c info) ∧
    (∀ r : PartId, (u.strayFault b c info).scarfOf r = s.scarfOf r) ∧
    ((s.bay b).pending = none →
      ((u.strayFault b c info).bay b).pending.map (fun p => (p.fault.cause, p.fault.info)) = some (c, info)) := by
  obtain ⟨-, -, hpend, -⟩ := h.kept
  obtain ⟨hring, hlpddr, hhost, hbay⟩ := h.sameMemory
  have hfault : SameMemory u (u.strayFault b c info) := (SameDevices.refl u).onBay_sameMemory bayMems_metFault
  obtain ⟨hring', hlpddr', hhost', hbay'⟩ := hfault
  refine ⟨⟨hring'.trans hring, hlpddr'.trans hlpddr, hhost'.trans hhost, fun a => (hbay' a).trans (hbay a)⟩, fun r => h.scarfOf,
    fun hnone => ?_⟩
  rw [strayFault_eq, State.bay_onBay]
  exact metFault_pending (hpend.trans hnone)

/-! ## A flight (R271) -/

/-- A flight waits for its cycle, and one of a context that runs no longer is past. -/
theorem flightLand_idle (h : (s.scarfOf q).mode = .running → (s.part q).time < f.due) : s.flightLand q f = s := by
  unfold State.flightLand
  dsimp only
  rw [if_pos]
  by_cases hmode : (s.scarfOf q).mode = .running
  · exact .inr (h hmode)
  · exact .inl hmode

/-- The read of a flight's source on this chip, noted. -/
def sourceNoted (s : State) (q : PartId) (f : Flight) : State :=
  if f.tr.chip = (s.part q).lchip then
    s.scarfNote q (s.scarfOf q).party (f.tr.srcVa (s.scarfOf q).record) (elemSpan (s.scarfOf q).record f.tr.src f.tr.count)
  else s

theorem engineSide_sourceNoted : EngineSide b s (sourceNoted s q f) := by
  unfold sourceNoted
  split
  · exact engineSide_scarfNote
  · exact .refl s

/-- The pieces that a transfer's bytes land as: its elements in the shard, or widened in its replica's staging plane (R280). -/
def landPieces (u : State) (q : PartId) (c : Scarf) (x : Transfer) (d : List Byte) : List (Addr × List Byte) :=
  if lyMerge c.record = true then pagePieces (stageVa c.record x.replica x.dst)
    (stageBytes ((rawElems c.record x.src x.count d).map (fun v => sext (v : Nat) (lyWidth c.record))))
  else pagePieces (u.runBytes q c.party c.record (lyDstVa c.record) x.dst (rawElems c.record x.src x.count d)).1
    (u.runBytes q c.party c.record (lyDstVa c.record) x.dst (rawElems c.record x.src x.count d)).2

section
variable (hmode : (s.scarfOf q).mode = .running) (hdue : f.due ≤ (s.part q).time) (hdata : s.flightData q (s.scarfOf q) f = some (.ok d))
  (hu : sourceNoted s q f = u)
include hmode hdue hdata hu

theorem flightLand_lands : s.flightLand q f = u.scarfLand q f.tr d := by
  unfold State.flightLand
  dsimp only
  rw [if_neg (by simp [hmode, hdue]), hdata]
  dsimp only
  rw [← hu]
  rfl

omit hmode hdue hdata in
theorem scarfLand_eq : u.scarfLand q f.tr d = match u.landChk q (s.scarfOf q).party (landPieces u q (s.scarfOf q) f.tr d) with
    | some x => u.strayFault (s.scarfOf q).party x.1 x.2
    | none =>
      match u.scarfPieces q (s.scarfOf q).party (landPieces u q (s.scarfOf q) f.tr d) with
      | .error e => u.scarfStop q e
      | .ok s1 => (s1.scarfLanded q (s.scarfOf q).party f.tr.index).onScarf q (fun y => { y with
          flights := y.flights.filter (fun g => decide (g.tr.index ≠ f.tr.index)) }) := by
  have hside : EngineSide (s.scarfOf q).party s u := hu ▸ engineSide_sourceNoted
  have hctx : u.scarfOf q = s.scarfOf q := hside.scarfOf
  rw [← hctx]
  rfl

variable {l l' : List Flight} {x : Transfer} (hheld : (s.part q).held = false) (hflights : (s.scarfOf q).flights = l ++ f :: l')
  (hothers : ∀ g ∈ l ++ l', (s.part q).time < g.due ∧ g.tr.index ≠ f.tr.index) (hx : x ∈ (s.scarfOf q).plan) (hxf : x.index ≠ f.tr.index)
  (hnot : ∀ y ∈ (s.scarfOf q).landed, y.1 ≠ x.index)
include hheld hflights hothers

theorem exec_landing (hrest : (u.scarfLand q f.tr d |>.scarfOf q).mode = .running → ((u.scarfLand q f.tr d).part q).time = (s.part q).time) :
    exec (.scarfLanding q) s = .next ((u.scarfLand q f.tr d).scarfGathered q) := by
  obtain ⟨hl, hl'⟩ := List.forall_mem_append.mp hothers
  have hland := flightLand_lands hmode hdue hdata hu
  change execScarfLanding q s = _
  have hfold : (l ++ f :: l').foldl (fun acc g => acc.flightLand q g) s = s.flightLand q f := by
    refine foldl_only (fun g hg => flightLand_idle fun _ => (hl g hg).1) fun g hg => ?_
    rw [hland]
    exact flightLand_idle fun hm => by rw [hrest hm]; exact (hl' g hg).1
  rw [execScarfLanding, hheld, if_neg Bool.false_ne_true, hflights, hfold, hland]

include hx hnot

theorem landing_full (hfull : s.landsFull (s.scarfOf q).party = true) (hpend : (s.bay (s.scarfOf q).party).pending = none) :
    ∃ t : State, exec (.scarfLanding q) s = .next t ∧ SameMemory s t ∧ t.scarfOf q = s.scarfOf q ∧
      (t.bay (s.scarfOf q).party).pending.map (fun p => (p.fault.cause, p.fault.info)) = some (.windowOverflow, 2) := by
  have hside : EngineSide (s.scarfOf q).party s u := hu ▸ engineSide_sourceNoted
  have hland : u.scarfLand q f.tr d = u.strayFault (s.scarfOf q).party .windowOverflow 2 := by
    rw [scarfLand_eq hu, landChk_full (hside.landsFull.trans hfull)]
  obtain ⟨hmem, hctx, hfault⟩ := overflow_fault (c := .windowOverflow) (info := 2) hside
  have hexec := exec_landing hmode hdue hdata hu hheld hflights hothers fun _ => by rw [hland]; exact hside.time q
  rw [hland, scarfGathered_waits (x := x) (by rw [hctx]; exact hx) (by rw [hctx]; exact hnot)] at hexec
  exact ⟨_, hexec, hmem, hctx q, hfault hpend⟩

omit hx hnot in
theorem landing_stops (hfree : s.landsFull (s.scarfOf q).party = false)
    (hclash : u.piecesClash q (s.scarfOf q).party (landPieces u q (s.scarfOf q) f.tr d) = false)
    (herr : u.scarfPieces q (s.scarfOf q).party (landPieces u q (s.scarfOf q) f.tr d) = .error e) :
    ∃ t : State, exec (.scarfLanding q) s = .next t ∧ Stopped s t q e := by
  have hside : EngineSide (s.scarfOf q).party s u := hu ▸ engineSide_sourceNoted
  have hland : u.scarfLand q f.tr d = u.scarfStop q e := by
    rw [scarfLand_eq hu, landChk_free (hside.landsFull.trans hfree) hclash, herr]
  have hstopped : Stopped s (u.scarfStop q e) q e := stopped_scarfStop hside
  have hexec := exec_landing hmode hdue hdata hu hheld hflights hothers fun hm => by
    rw [hland, hstopped.1] at hm
    exact absurd hm (by decide)
  rw [hland, scarfGathered_stopped (by rw [hstopped.1]; decide)] at hexec
  exact ⟨_, hexec, hstopped⟩

include hxf in
theorem landing_lands (hfree : s.landsFull (s.scarfOf q).party = false)
    (hclash : u.piecesClash q (s.scarfOf q).party (landPieces u q (s.scarfOf q) f.tr d) = false)
    (hok : u.scarfPieces q (s.scarfOf q).party (landPieces u q (s.scarfOf q) f.tr d) = .ok s1) :
    ∃ t : State, exec (.scarfLanding q) s = .next t ∧ SameMemory s t ∧ (t.scarfOf q).mode = .running ∧
      (t.scarfOf q).flights = l ++ l' ∧
      (t.scarfOf q).landed = (s.scarfOf q).landed ++ [(f.tr.index, (s.bay (s.scarfOf q).party).window.num)] ∧
      (t.bay (s.scarfOf q).party).gbuf = (s1.bay (s.scarfOf q).party).gbuf ∧
      (t.bay (s.scarfOf q).party).regs = (s.bay (s.scarfOf q).party).regs ∧
      (t.bay (s.scarfOf q).party).window.gstores = (s.bay (s.scarfOf q).party).window.gstores + 1 := by
  have hside : EngineSide (s.scarfOf q).party s u := hu ▸ engineSide_sourceNoted
  have hside1 : EngineSide (s.scarfOf q).party s s1 := hside.trans (engineSide_scarfPieces hok)
  obtain ⟨-, hwindow1, -, hregs1, -⟩ := hside1.kept
  obtain ⟨hctx, -, hmem, hbay⟩ := scarfLanded_eq (s := s1) (q := q) (b := (s.scarfOf q).party) (k := f.tr.index)
  have hland : u.scarfLand q f.tr d = (s1.scarfLanded q (s.scarfOf q).party f.tr.index).onScarf q (fun y => { y with
      flights := y.flights.filter (fun g => decide (g.tr.index ≠ f.tr.index)) }) := by
    rw [scarfLand_eq hu, landChk_free (hside.landsFull.trans hfree) hclash, hok]
  have hctx' : (u.scarfLand q f.tr d).scarfOf q = { s.scarfOf q with
      flights := (s.scarfOf q).flights.filter (fun g => decide (g.tr.index ≠ f.tr.index))
      landed := (s.scarfOf q).landed ++ [(f.tr.index, (s.bay (s.scarfOf q).party).window.num)] } := by
    rw [hland, scarfOf_onScarf, hctx, hside1.scarfOf, hwindow1]
  have hbay' : (u.scarfLand q f.tr d).bay (s.scarfOf q).party = (s1.scarfLanded q (s.scarfOf q).party f.tr.index).bay (s.scarfOf q).party := by
    rw [hland]
    rfl
  have hexec := exec_landing hmode hdue hdata hu hheld hflights hothers fun _ => by rw [hland]; exact hside1.time q
  rw [scarfGathered_waits (x := x) (by rw [hctx']; exact hx) (by
    rw [hctx']
    intro y hy
    rcases List.mem_append.mp hy with hy | hy
    · exact hnot y hy
    · rw [List.mem_singleton.mp hy]
      exact hxf.symm)] at hexec
  refine ⟨_, hexec, ?_⟩
  rw [hctx', hbay', hbay, hwindow1, hregs1]
  refine ⟨?_, hmode, ?_, rfl, rfl, rfl, rfl⟩
  · rw [hland]
    obtain ⟨hring, hlpddr, hhost, hmems⟩ := hside1.sameMemory
    obtain ⟨hring', hlpddr', hhost', hmems'⟩ := hmem
    exact ⟨hring'.trans hring, hlpddr'.trans hlpddr, hhost'.trans hhost, fun a => (hmems' a).trans (hmems a)⟩
  · dsimp only
    rw [hflights]
    exact filter_out_sole (by simp) fun g hg => by simp [(hothers g hg).2]

end

end Sys2Proof
end

section
/-!
PROOF. The passes of a merge (R280, R281): a segment that ends, the end of a pass, the roots of two nodes and the overflow rounds.
-/

namespace Sys2Proof
open Machine Laws

variable {s t u s1 v : State} {q : PartId} {b : BayId} {e : Nat}

/-! ## Nodes (R156) -/

theorem sat_eq_heldTo (w : Nat) (x : Int) : Machine.sat x w = heldTo w x := by
  have hpos : (1 : Int) ≤ 2 ^ (w - 1) := one_le_pow₀ (by norm_num)
  unfold Machine.sat heldTo
  dsimp only
  split_ifs <;> omega

theorem sshr_eq (w : Nat) (x n : Int) (r : Word) : (sshr x n w r).1 = heldTo w (shiftedBy x n r.toNat) := by
  rw [sshr, sat_eq_heldTo]
  rfl

/-- The sum of a SHIFT node: the child of the lower exponent is shifted to the other's. -/
theorem nodeElem_shift {c : NodeCtx} {kv : Word} {ea eb x y : Int} (hmode : c.mode = .shift) :
    (nodeElem c kv ea eb x y).1 = if eb ≤ ea then x + heldTo c.w (shiftedBy y (ea - eb) kv.toNat)
      else heldTo c.w (shiftedBy x (eb - ea) kv.toNat) + y := by
  simp only [nodeElem, hmode, ge_iff_le, sshr_eq]
  split <;> rfl

/-- What joins two nodes in a mode other than SHIFT (R155). -/
def rootOf (mode w : Nat) (a b : Int) : Int :=
  match mode with
  | 0 | 1 => heldTo w (a + b)
  | 3 => max a b
  | 4 => min a b
  | _ => (BitVec.ofInt 96 a ||| BitVec.ofInt 96 b).toInt

theorem nodeElem_root {c : NodeCtx} {mode : Nat} {kv : Word} {ea eb a b : Int} (hc : c.mode = (modeOf mode).getD .sat)
    (hne : mode ≠ 2) (hlt : mode < 6) :
    (rootClamp c ⟨[(nodeElem c kv ea eb a b).1], ea⟩).1.elems.getD 0 0 = rootOf mode c.w a b := by
  have hmodes : mode = 0 ∨ mode = 1 ∨ mode = 3 ∨ mode = 4 ∨ mode = 5 := by omega
  rcases hmodes with rfl | rfl | rfl | rfl | rfl
  · have h : c.mode = .exact := hc
    simp only [rootClamp, nodeElem, h, if_true]
    exact sat_eq_heldTo ..
  · have h : c.mode = .sat := hc
    simp only [rootClamp, nodeElem, h]
    exact sat_eq_heldTo ..
  · have h : c.mode = .max := hc
    simp only [rootClamp, nodeElem, h]
    exact (max_def' a b).symm
  · have h : c.mode = .min := hc
    simp only [rootClamp, nodeElem, h]
    exact (min_def a b).symm
  · have h : c.mode = .or := hc
    simp only [rootClamp, nodeElem, h]
    rfl

/-- Two nodes of level 0 make the root of level 1. -/
theorem combine_pair {c : NodeCtx} {base : Nat} {x y : TVal} :
    (combine c base 1 0 [(0, 0, x), (0, 1, y)]).1 = some (node2 c (base + 1) 0 x y).1 := by
  simp [combine, node]

theorem node2_single {c : NodeCtx} {lev j : Nat} {a b ea eb : Int} (hc : c.mode ≠ .shift) :
    (node2 c lev j ⟨[a], ea⟩ ⟨[b], eb⟩).1 = ⟨[(nodeElem c (nodeKerf c lev j 1 0) ea eb a b).1], ea⟩ := by
  simp [node2, hc, nodeElems]

theorem sext_ofNat (n : Nat) : sext (n : Nat) 64 = (BitVec.ofNat 64 n).toInt := by
  simp only [sext, BitVec.toInt_eq_toNat_cond, BitVec.toNat_ofNat]
  split_ifs <;> omega

/-- The value of an element in a staging plane, as the commanding bay reads it. -/
def stagedAt (s : State) (q : PartId) (c : Scarf) (plane i : Nat) : Int :=
  (BitVec.ofNat 64 (leNat ((s.scarfRead q c.party (lyStage c.record + BitVec.ofNat 72 (8 * (plane * lyElems c.record true + i))) 8).getD
    []))).toInt

theorem staged_eq {c : Scarf} {ctx : NodeCtx} {lev j plane : Nat} {exp : Int} {i : Nat × Nat} :
    s.staged q c.party c.record ctx ⟨lev, j, plane, exp, none⟩ i = (stagedAt s q c plane i.1, false) := by
  simp only [State.staged, sext_ofNat]
  rfl

/-- The roots of a merge of two nodes. -/
theorem segRoots_pair {c : Scarf} {pos k m n : Nat} {em en : Int} (hnodes : c.nodes = [⟨0, 0, m, em, none⟩, ⟨0, 1, n, en, none⟩])
    (hmn : lyMn c.record = 2) (hne : lyMode c.record ≠ 2) (hlt : lyMode c.record < 6) :
    ∀ y ∈ (s.segRoots q c pos k).1, (y.2 : Int) =
      rootOf (lyMode c.record) (lyWidth c.record) (stagedAt s q c m y.1) (stagedAt s q c n y.1) % 2 ^ lyWidth c.record := by
  have htop : bitlen ((lyMn c.record : Int) - 1) = 1 := by
    rw [hmn]
    decide
  have hshift (seed : Word) : (mergeCtx c.record seed).mode ≠ .shift := by
    have hmodes : lyMode c.record = 0 ∨ lyMode c.record = 1 ∨ lyMode c.record = 3 ∨ lyMode c.record = 4 ∨ lyMode c.record = 5 := by omega
    rcases hmodes with h | h | h | h | h <;> simp [mergeCtx, h, modeOf]
  intro y hy
  simp only [State.segRoots, List.map_map, List.mem_map, Function.comp_apply] at hy
  obtain ⟨i, -, rfl⟩ := hy
  simp only [hnodes, List.map_cons, List.map_nil, Function.comp_apply, staged_eq, htop]
  rw [combine_pair, node2_single (hshift _)]
  dsimp only
  rw [nodeElem_root (mode := lyMode c.record) rfl hne hlt]
  exact Int.toNat_of_nonneg (Int.emod_nonneg _ (by positivity))

end Sys2Proof
end

section
/-!
PROOF. A segment of a pass of a merge, the end of a pass, and the overflow rounds between the levels of a SHIFT merge (R280).
-/

namespace Sys2Proof
open Machine Laws

variable {s t u s1 v : State} {q : PartId} {b : BayId} {e : Nat} {pieces : List (Addr × List Byte)} {g : Scarf → Scarf}

/-! ## A segment (R280) -/

theorem kept_noteStaged {c : Scarf} {es : List (Nat × Nat)} : SameDevices s (s.noteStaged q c es) ∧ EngineSide b s (s.noteStaged q c es) := by
  unfold State.noteStaged
  split
  · exact ⟨List.foldlRecOn (motive := SameDevices s) _ _ (.refl s) fun _ ht _ _ => ht.trans sameDevices_scarfNote,
      List.foldlRecOn (motive := EngineSide b s) _ _ (.refl s) fun _ ht _ _ => ht.trans engineSide_scarfNote⟩
  · exact ⟨.refl s, .refl s⟩

/-- The segment in course of a context ends with writes of pieces: g tells its context of overflows and clamps. -/
def landSegment (s : State) (q : PartId) (pieces : List (Addr × List Byte)) (g : Scarf → Scarf) : State :=
  match s.landChk q (s.scarfOf q).party pieces with
  | some f => s.strayFault (s.scarfOf q).party f.1 f.2
  | none =>
    match s.scarfPieces q (s.scarfOf q).party pieces with
    | .error e => s.scarfStop q e
    | .ok s1 =>
      ((s1.noteStaged q (s.scarfOf q) (segElems (s.scarfOf q).record ((s.scarfOf q).pos (s.part q).lchip) (s.scarfOf q).seg)).scarfLanded q
        (s.scarfOf q).party (s.scarfOf q).seg).onScarf q g

/-- The function changes the flags of a level and acc.SAT alone. -/
def FlagsOnly (g : Scarf → Scarf) : Prop := ∀ y, g y = { y with flags := (g y).flags, sat := (g y).sat }

/-- The segment in course of the pass that a context is in. -/
def passSegment (s : State) (q : PartId) : State :=
  if lyMode (s.scarfOf q).record = 2 ∧ (s.scarfOf q).writing = false then s.levelSegment q (s.scarfOf q) (s.scarfOf q).seg
  else s.writeRoots q (s.scarfOf q) (s.scarfOf q).seg
    (s.segRoots q (s.scarfOf q) ((s.scarfOf q).pos (s.part q).lchip) (s.scarfOf q).seg).1
    (s.segRoots q (s.scarfOf q) ((s.scarfOf q).pos (s.part q).lchip) (s.scarfOf q).seg).2

/-- A context that goes on with the next segment. -/
def nextSegment (s v : State) (q : PartId) : State :=
  v.onScarf q (fun y => { y with seg := y.seg + 1, segDue := (s.part q).time + 2 })

/-- A segment has landed in state t, after its pieces were put into the buffer in state s1: its context is at the next segment. -/
structure Advanced (s s1 : State) (q : PartId) (t : State) : Prop where
  memory : SameMemory s t
  others : ∀ r : PartId, r ≠ q → t.scarfOf r = s.scarfOf r
  context : ∃ fl st, t.scarfOf q = { s.scarfOf q with
    seg := (s.scarfOf q).seg + 1, segDue := (s.part q).time + 2, flags := fl, sat := st
    landed := (s.scarfOf q).landed ++ [((s.scarfOf q).seg, (s.bay (s.scarfOf q).party).window.num)] }
  gbuf : (t.bay (s.scarfOf q).party).gbuf = (s1.bay (s.scarfOf q).party).gbuf
  regs : (t.bay (s.scarfOf q).party).regs = (s.bay (s.scarfOf q).party).regs

section
variable (hmode : (s.scarfOf q).mode = .running) (hpass : (s.scarfOf q).pass ≠ 0) (hheld : (s.part q).held = false)
  (hround : (s.scarfOf q).orRound = none)
include hmode hpass hheld hround

theorem exec_mergePass_contributes (hwait : (s.scarfOf q).orWait = true) : exec (.mergePass q) s = .next (s.scarfContribute q) := by
  change execMergePass q s = _
  unfold execMergePass
  dsimp only
  rw [if_neg (by simp [hmode, hpass, hheld, hround]), if_pos hwait]

variable (hwait : (s.scarfOf q).orWait = false) (hdue : (s.scarfOf q).segDue ≤ (s.part q).time)
include hwait hdue

theorem exec_mergePass_segment : exec (.mergePass q) s =
    if ((passSegment s q).scarfOf q).mode ≠ .running ∨
        ((passSegment s q).scarfOf q).landed.any (fun x => decide (x.1 = (s.scarfOf q).seg)) = false then .next (passSegment s q)
    else .next (if lySegs (s.scarfOf q).record ≤ (s.scarfOf q).seg + 1 then (nextSegment s (passSegment s q) q).passEnd q
      else nextSegment s (passSegment s q) q) := by
  change execMergePass q s = _
  unfold execMergePass
  dsimp only
  rw [if_neg (by simp [hmode, hpass, hheld, hround]), if_neg (by simp [hwait]), if_neg (by omega)]
  rfl

variable (hnew : ∀ l ∈ (s.scarfOf q).landed, l.1 ≠ (s.scarfOf q).seg) (hseg : passSegment s q = landSegment s q pieces g) (hg : FlagsOnly g)
include hnew hseg

theorem segment_full (hfull : s.landsFull (s.scarfOf q).party = true) : ∃ t : State, exec (.mergePass q) s = .next t ∧
    t.scarfOf q = s.scarfOf q ∧ SameMemory s t ∧ ((s.bay (s.scarfOf q).party).pending = none →
      (t.bay (s.scarfOf q).party).pending.map (fun p => (p.fault.cause, p.fault.info)) = some (.windowOverflow, 2)) := by
  have hland : passSegment s q = s.strayFault (s.scarfOf q).party .windowOverflow 2 := by
    rw [hseg, landSegment, landChk_full hfull]
  obtain ⟨hmem, hctx, hfault⟩ := overflow_fault (c := .windowOverflow) (info := 2) (EngineSide.refl s (b := (s.scarfOf q).party))
  have hnone : (s.scarfOf q).landed.any (fun x => decide (x.1 = (s.scarfOf q).seg)) = false := by
    rw [List.any_eq_false]
    intro y hy
    simp [hnew y hy]
  have hexec := exec_mergePass_segment hmode hpass hheld hround hwait hdue
  rw [hland, if_pos (.inr (by rw [hctx]; exact hnone))] at hexec
  exact ⟨_, hexec, hctx q, hmem, hfault⟩

variable (hfree : s.landsFull (s.scarfOf q).party = false) (hclash : s.piecesClash q (s.scarfOf q).party pieces = false)
include hfree hclash

omit hnew in
theorem segment_stops (herr : s.scarfPieces q (s.scarfOf q).party pieces = .error e) :
    ∃ t : State, exec (.mergePass q) s = .next t ∧ Stopped s t q e := by
  have hland : passSegment s q = s.scarfStop q e := by
    rw [hseg, landSegment, landChk_free hfree hclash, herr]
  have hstopped : Stopped s (s.scarfStop q e) q e := stopped_scarfStop (.refl s)
  have hexec := exec_mergePass_segment hmode hpass hheld hround hwait hdue
  rw [hland, if_pos (.inl (by rw [hstopped.1]; decide))] at hexec
  exact ⟨_, hexec, hstopped⟩

variable (hok : s.scarfPieces q (s.scarfOf q).party pieces = .ok s1)
include hok hg

omit hpass hheld hround hwait hdue hnew in
theorem advanced_segment : Advanced s s1 q (nextSegment s (passSegment s q) q) ∧ ((passSegment s q).scarfOf q).mode = .running ∧
    ((passSegment s q).scarfOf q).landed.any (fun x => decide (x.1 = (s.scarfOf q).seg)) = true := by
  obtain ⟨u, hu⟩ : ∃ u, s1.noteStaged q (s.scarfOf q)
    (segElems (s.scarfOf q).record ((s.scarfOf q).pos (s.part q).lchip) (s.scarfOf q).seg) = u := ⟨_, rfl⟩
  obtain ⟨hdev, hnote⟩ : SameDevices s1 u ∧ EngineSide (s.scarfOf q).party s1 u := hu ▸ kept_noteStaged
  have hside := (engineSide_scarfPieces hok).trans hnote
  obtain ⟨-, hwindow, -, hregs, -⟩ := hside.kept
  obtain ⟨hctx, hothers, hmem, hbay⟩ := scarfLanded_eq (s := u) (q := q) (b := (s.scarfOf q).party) (k := (s.scarfOf q).seg)
  have hland : passSegment s q = (u.scarfLanded q (s.scarfOf q).party (s.scarfOf q).seg).onScarf q g := by
    rw [hseg, landSegment, landChk_free hfree hclash, hok, ← hu]
  have hctx' : ∃ fl st, (passSegment s q).scarfOf q = { s.scarfOf q with
      flags := fl, sat := st
      landed := (s.scarfOf q).landed ++ [((s.scarfOf q).seg, (s.bay (s.scarfOf q).party).window.num)] } := by
    rw [hland, scarfOf_onScarf, hg, hctx, hside.scarfOf, hwindow]
    exact ⟨_, _, rfl⟩
  obtain ⟨fl, st, hfl⟩ := hctx'
  refine ⟨⟨?_, fun r hr => ?_, ⟨fl, st, ?_⟩, ?_, ?_⟩, ?_, ?_⟩
  · rw [hland]
    obtain ⟨hring, hlpddr, hhost, hmems⟩ := hside.sameMemory
    obtain ⟨hring', hlpddr', hhost', hmems'⟩ := hmem
    exact ⟨hring'.trans hring, hlpddr'.trans hlpddr, hhost'.trans hhost, fun a => (hmems' a).trans (hmems a)⟩
  · rw [nextSegment, scarfOf_onScarf_ne hr, hland, scarfOf_onScarf_ne hr, hothers r hr, hside.scarfOf]
  · rw [nextSegment, scarfOf_onScarf, hfl]
  · rw [nextSegment, bay_onScarf, hland, bay_onScarf, hbay, hdev.bay]
  · rw [nextSegment, bay_onScarf, hland, bay_onScarf, hbay]
    exact hregs
  · rw [hfl]
    exact hmode
  · rw [hfl]
    simp

omit hnew in
theorem segment_lands : ∃ v : State, Advanced s s1 q v ∧
    exec (.mergePass q) s = .next (if lySegs (s.scarfOf q).record ≤ (s.scarfOf q).seg + 1 then v.passEnd q else v) := by
  obtain ⟨hadv, hrun, hlanded⟩ := advanced_segment hmode hseg hg hfree hclash hok
  refine ⟨_, hadv, (exec_mergePass_segment hmode hpass hheld hround hwait hdue).trans ?_⟩
  rw [if_neg (by simp [hrun, hlanded])]

end

/-! ## The end of a pass (R280, R281) -/

/-- What the end of a pass keeps of the bay that commands it and of the other contexts. -/
structure EndsAs (s v t : State) (q : PartId) : Prop where
  others : ∀ r : PartId, r ≠ q → t.scarfOf r = v.scarfOf r
  gbuf : (t.bay (s.scarfOf q).party).gbuf = (v.bay (s.scarfOf q).party).gbuf
  regs : (t.bay (s.scarfOf q).party).regs = (v.bay (s.scarfOf q).party).regs

theorem EndsAs.refl : EndsAs s v v q := ⟨fun _ _ => rfl, rfl, rfl⟩

section
variable (h : Advanced s s1 q v)
include h

theorem passEnd_completes (hcomb : lyMode (s.scarfOf q).record ≠ 2 ∨ (s.scarfOf q).writing = true) : EndsAs s v (v.passEnd q) q ∧
    ((v.passEnd q).scarfOf q).mode = .done ∧ ((v.passEnd q).scarfOf q).cmd = none := by
  obtain ⟨fl, st, hctx⟩ := h.context
  have hcomb' : lyMode (v.scarfOf q).record ≠ 2 ∨ (v.scarfOf q).writing = true := by
    rw [hctx]
    exact hcomb
  obtain ⟨result, hdone⟩ : ∃ result, v.passEnd q = ((v.onScarf q (fun y => { y with mode := .done })).scarfProgress q result).scarfLeave q :=
    ⟨_, (if_pos hcomb').trans rfl⟩
  obtain ⟨hctx', hothers, hbay⟩ := leave_after (s := v) (q := q) (f := fun y => { y with mode := .done }) (result := result)
    (fun _ => rfl) fun _ => rfl
  rw [hdone]
  obtain ⟨l, hl⟩ := madePeg_eq (v.scarfOf q) (v.bay (s.scarfOf q).party)
  refine ⟨⟨hothers, ?_, ?_⟩, ?_, ?_⟩
  · rw [hbay, hl]
    split <;> rfl
  · rw [hbay, hl]
    split <;> rfl
  · rw [hctx']
  · rw [hctx']

theorem passEnd_level (hmode2 : lyMode (s.scarfOf q).record = 2) (hwriting : (s.scarfOf q).writing = false) :
    EndsAs s v (v.passEnd q) q ∧ SameMemory s (v.passEnd q) ∧ ((v.passEnd q).scarfOf q).orWait = true ∧
    ((v.passEnd q).scarfOf q).nodes = levelNodes (s.scarfOf q).nodes (s.scarfOf q).level := by
  obtain ⟨fl, st, hctx⟩ := h.context
  have hlevel : v.passEnd q = v.onScarf q (fun y => { y with nodes := levelNodes y.nodes y.level, orWait := true }) := by
    rw [State.passEnd, if_neg]
    rw [hctx]
    rintro (hm | hw)
    · exact hm hmode2
    · exact absurd (hw.symm.trans hwriting) (by decide)
  rw [hlevel]
  refine ⟨⟨fun r hr => scarfOf_onScarf_ne hr, rfl, rfl⟩, h.memory, ?_, ?_⟩
  · rw [scarfOf_onScarf]
  · rw [scarfOf_onScarf, hctx]
    rfl

end

/-- A segment of a pass ends where the window of the commanding bay has room for its pieces; after the last one the state is as last says. -/
theorem segment_ends {last : State → Prop} (hmode : (s.scarfOf q).mode = .running) (hpass : (s.scarfOf q).pass ≠ 0)
    (hheld : (s.part q).held = false) (hround : (s.scarfOf q).orRound = none) (hwait : (s.scarfOf q).orWait = false)
    (hdue : (s.scarfOf q).segDue ≤ (s.part q).time) (hnew : ∀ l ∈ (s.scarfOf q).landed, l.1 ≠ (s.scarfOf q).seg)
    (hseg : passSegment s q = landSegment s q pieces g) (hg : FlagsOnly g)
    (hlast : ∀ s1 v, Advanced s s1 q v → EndsAs s v (v.passEnd q) q ∧ (last (v.passEnd q))) :
    (s.landsFull (s.scarfOf q).party = true → ∃ t : State, exec (.mergePass q) s = .next t ∧ t.scarfOf q = s.scarfOf q ∧ SameMemory s t ∧
      ((s.bay (s.scarfOf q).party).pending = none →
        (t.bay (s.scarfOf q).party).pending.map (fun p => (p.fault.cause, p.fault.info)) = some (.windowOverflow, 2))) ∧
    (s.landsFull (s.scarfOf q).party = false → s.piecesClash q (s.scarfOf q).party pieces = false →
      (∀ e : Nat, s.scarfPieces q (s.scarfOf q).party pieces = .error e → ∃ t : State, exec (.mergePass q) s = .next t ∧ Stopped s t q e) ∧
      ∀ s1 : State, s.scarfPieces q (s.scarfOf q).party pieces = .ok s1 → ∃ t : State, exec (.mergePass q) s = .next t ∧
        (t.bay (s.scarfOf q).party).gbuf = (s1.bay (s.scarfOf q).party).gbuf ∧
        (t.bay (s.scarfOf q).party).regs = (s.bay (s.scarfOf q).party).regs ∧ (∀ r : PartId, r ≠ q → t.scarfOf r = s.scarfOf r) ∧
        ((s.scarfOf q).seg + 1 < lySegs (s.scarfOf q).record → SameMemory s t ∧ (t.scarfOf q).mode = .running ∧
          (t.scarfOf q).seg = (s.scarfOf q).seg + 1 ∧ (t.scarfOf q).segDue = (s.part q).time + 2 ∧
          (t.scarfOf q).landed = (s.scarfOf q).landed ++ [((s.scarfOf q).seg, (s.bay (s.scarfOf q).party).window.num)]) ∧
        (lySegs (s.scarfOf q).record ≤ (s.scarfOf q).seg + 1 → last t)) := by
  refine ⟨segment_full hmode hpass hheld hround hwait hdue hnew hseg, fun hfree hclash =>
    ⟨fun e => segment_stops hmode hpass hheld hround hwait hdue hseg hfree hclash, fun s1 hok => ?_⟩⟩
  obtain ⟨v, hv, hexec⟩ := segment_lands hmode hpass hheld hround hwait hdue hseg hg hfree hclash hok
  by_cases hmore : lySegs (s.scarfOf q).record ≤ (s.scarfOf q).seg + 1
  · obtain ⟨hends, hl⟩ := hlast s1 v hv
    rw [if_pos hmore] at hexec
    exact ⟨_, hexec, hends.gbuf.trans hv.gbuf, hends.regs.trans hv.regs, fun r hr => (hends.others r hr).trans (hv.others r hr),
      fun h => absurd hmore (not_le.mpr h), fun _ => hl⟩
  · rw [if_neg hmore] at hexec
    obtain ⟨fl, st, hctx⟩ := hv.context
    refine ⟨v, hexec, hv.gbuf, hv.regs, hv.others, fun _ => ⟨hv.memory, ?_⟩, fun h => absurd h hmore⟩
    rw [hctx]
    exact ⟨hmode, rfl, rfl, rfl⟩

/-! ## The two kinds of pass -/

/-- The roots of a segment, written to the destination shard. -/
theorem passSegment_combining (hcomb : lyMode (s.scarfOf q).record ≠ 2 ∨ (s.scarfOf q).writing = true) : ∃ sat,
    passSegment s q = landSegment s q ((joinRuns (s.segRoots q (s.scarfOf q) ((s.scarfOf q).pos (s.part q).lchip) (s.scarfOf q).seg).1).flatMap
      (fun x => pagePieces (s.runBytes q (s.scarfOf q).party (s.scarfOf q).record (lyDstVa (s.scarfOf q).record) x.1 x.2).1
        (s.runBytes q (s.scarfOf q).party (s.scarfOf q).record (lyDstVa (s.scarfOf q).record) x.1 x.2).2))
      (fun y => { y with sat := y.sat || sat }) := by
  rw [passSegment, if_neg]
  · exact ⟨_, rfl⟩
  · rintro ⟨hm, hw⟩
    exact hcomb.elim (fun h => h hm) fun h => absurd (h.symm.trans hw) (by decide)

/-- The sum of a pair of nodes for an element. -/
def levelSum (s : State) (q : PartId) (x : SNode × SNode) (i : Nat × Nat) : Int :=
  (nodeElem (mergeCtx (s.scarfOf q).record (s.bay (s.scarfOf q).party).kseed)
    (nodeKerf (mergeCtx (s.scarfOf q).record (s.bay (s.scarfOf q).party).kseed) (lyBase (s.scarfOf q).record + (s.scarfOf q).level)
      (x.1.j / 2) (prodOf ((lyDims (s.scarfOf q).record true).map Dim.n)) i.2) x.1.exp x.2.exp
    (s.staged q (s.scarfOf q).party (s.scarfOf q).record (mergeCtx (s.scarfOf q).record (s.bay (s.scarfOf q).party).kseed) x.1 i).1
    (s.staged q (s.scarfOf q).party (s.scarfOf q).record (mergeCtx (s.scarfOf q).record (s.bay (s.scarfOf q).party).kseed) x.2 i).1).1

/-- The sums of a level, written to the staging planes. -/
theorem passSegment_level (hmode2 : lyMode (s.scarfOf q).record = 2) (hwriting : (s.scarfOf q).writing = false) : ∃ flags sat,
    passSegment s q = landSegment s q ((levelPairs (s.scarfOf q).nodes (s.scarfOf q).level).flatMap (fun x =>
      (segElems (s.scarfOf q).record ((s.scarfOf q).pos (s.part q).lchip) (s.scarfOf q).seg).flatMap (fun i =>
        pagePieces (stageVa (s.scarfOf q).record x.1.plane i.1) (stageBytes [levelSum s q x i]))))
      (fun y => { y with flags := (y.flags ++ flags).eraseDups, sat := y.sat || sat }) := by
  rw [passSegment, if_pos ⟨hmode2, hwriting⟩]
  simp only [State.levelSegment, List.flatMap_map]
  exact ⟨_, _, rfl⟩

/-! ## Overflow rounds (R280) -/

/-- A context that has contributed to a round of a slot. -/
def contributed (s : State) (q : PartId) (round : Nat) (y : Scarf) : Scarf :=
  { y with orWait := false, orRound := some round, orTaken := ((s.part q).time, s.seenBy (s.scarfOf q).party.val) }

theorem scarfContribute_eq {d : RDesc} (hd : (s.part q).rds.find? (fun d => decide (d.slot.val = lySlot (s.scarfOf q).record)) = some d)
    (hcoff : (s.part q).polec = d.coff) (hphase : (s.part q).framec % 2 ^ d.pexp = d.phase) :
    ∃ w : NodeVal, s.scarfContribute q = { (s.onScarf q (contributed s q (((s.part q).framec - d.phase) / 2 ^ d.pexp))) with
        arrivals := s.arrivals ++ [(s.clock + 20 * (s.part q).k, w)] } ∧
      w.slot = d.slot ∧ w.round = ((s.part q).framec - d.phase) / 2 ^ d.pexp ∧ w.elems.length = d.nel := by
  unfold State.scarfContribute
  dsimp only
  rw [hd]
  dsimp only
  rw [if_pos ⟨hcoff, hphase⟩]
  exact ⟨_, rfl, rfl, rfl, by simp [Scarf.orElems]⟩

end Sys2Proof
end

section
/-!
PROOF. O48: the scarf engine from its command to its last segment, and the reads that a chip serves (R225, R268 to R281).
-/

namespace Sys2Proof
open Machine Laws

variable {s t : State} {q : PartId} {r : ScarfRead}

/-! ## Reads of another chip's engine (R225, R271, R273) -/

/-- What a chip answers a read with where its first byte is on no page that can be read. -/
theorem sourceAnswer_untranslated {e : Cause × Info} (hpos : 0 < r.n)
    (he : translate (s.part r.part) r.va ⟨true, false, false⟩ false = .error e) :
    s.sourceAnswer r = .scarfError r.part r.run (scarfCode e.1) := by
  have hchk : sourceChk (s.part r.part) .reset (remoteAllows (s.part r.part) r.bay r.chip r.mode .ldg) r.va r.n = some (scarfCode e.1) := by
    simp only [sourceChk, pageEnds, if_neg hpos.ne', List.findSome?_cons, he]
  simp only [State.sourceAnswer, hchk]

theorem sourceAnswer_forbidden {x : Xlat} (hpos : 0 < r.n) (hx : translate (s.part r.part) r.va ⟨true, false, false⟩ false = .ok x)
    (h : remoteAllows (s.part r.part) r.bay r.chip r.mode .ldg r.va = false) : s.sourceAnswer r = .scarfError r.part r.run 10 := by
  have hchk : sourceChk (s.part r.part) .reset (remoteAllows (s.part r.part) r.bay r.chip r.mode .ldg) r.va r.n = some 10 := by
    simp only [sourceChk, pageEnds, if_neg hpos.ne', List.findSome?_cons, hx, h, Bool.false_eq_true, if_false]
  simp only [State.sourceAnswer, hchk]

/-- A byte of this chip that another chip's engine may read (R203, R225, R229). -/
def Readable (s : State) (r : ScarfRead) (k : Nat) : Prop :=
  (∃ x : Xlat, translate (s.part r.part) (r.va + BitVec.ofNat 72 k) ⟨true, false, false⟩ false = .ok x) ∧
    remoteAllows (s.part r.part) r.bay r.chip r.mode .ldg (r.va + BitVec.ofNat 72 k) = true ∧
    lineChk (s.part r.part) .reset .ldg (r.va + BitVec.ofNat 72 k) = none

theorem sourceChk_readable (hpos : 0 < r.n) (h : ∀ k < r.n, Readable s r k) :
    sourceChk (s.part r.part) .reset (remoteAllows (s.part r.part) r.bay r.chip r.mode .ldg) r.va r.n = none := by
  have hstart : r.va + BitVec.ofNat 72 0 = r.va := BitVec.add_zero r.va
  have hends : ∀ a ∈ pageEnds r.va r.n, ∃ k < r.n, a = r.va + BitVec.ofNat 72 k := by
    intro a ha
    simp only [pageEnds, if_neg hpos.ne', List.mem_cons, List.not_mem_nil, or_false] at ha
    rcases ha with rfl | rfl
    · exact ⟨0, hpos, hstart.symm⟩
    · exact ⟨r.n - 1, by omega, rfl⟩
  have hlines : linesOk (s.part r.part) .reset .ldg r.va r.n = true := by
    refine List.all_eq_true.mpr fun i _ => ?_
    obtain ⟨-, -, hline⟩ := h (min (128 * i) (r.n - 1)) (by omega)
    rw [hline]
    rfl
  have hnone : (pageEnds r.va r.n).findSome? (fun a =>
      match translate (s.part r.part) a ⟨true, false, false⟩ false with
      | .error e => some (scarfCode e.1)
      | .ok _ => if remoteAllows (s.part r.part) r.bay r.chip r.mode .ldg a then none else some 10) = none := by
    rw [List.findSome?_eq_none_iff]
    intro a ha
    obtain ⟨k, hk, rfl⟩ := hends a ha
    obtain ⟨⟨x, hx⟩, hallows, -⟩ := h k hk
    simp only [hx, hallows, if_true]
  unfold sourceChk
  rw [hlines, if_pos rfl]
  split
  · next c hc => exact absurd (hc.symm.trans hnone) (by simp)
  · rfl

theorem sourceAnswer_data (hpos : 0 < r.n) (h : ∀ k < r.n, Readable s r k) :
    ∃ l : List Byte, s.sourceAnswer r = .scarfData r.part r.run r.index l ∧ l.length = r.n ∧ ∀ (k : Nat) (x : Xlat), k < r.n →
      translate (s.part r.part) (r.va + BitVec.ofNat 72 k) ⟨true, false, false⟩ false = .ok x → l[k]? = some (s.readPlace x.place 0) := by
  simp only [State.sourceAnswer, sourceChk_readable hpos h]
  refine ⟨_, rfl, by simp, fun k x hk hx => ?_⟩
  simp only [List.getElem?_map, List.getElem?_range hk, Option.map_some, hx]

theorem exec_sourceRead : exec (.sourceRead r) s = match translate (s.part r.part) r.va ⟨true, false, false⟩ false with
    | .error _ => .next (s.serveScarf r)
    | .ok x => .next (s.queueBurst r.part 0xF1 (some x.place) r.n (.scarf r)) := rfl

theorem serveScarf_eq {f : FabHeader} (hf : (s.part r.part).fab = some f) :
    s.serveScarf r = s.sendBy .bulk r.part 0 (flitsFor r.n) f r.chip (s.sourceAnswer r) := by
  simp only [State.serveScarf, hf]

theorem performBurst_scarf {x : Burst} (hx : x.act = .scarf r) (hmode : (s.part q).mode ≠ .preempted) :
    s.performBurst q x = s.serveScarf r := by
  simp only [State.performBurst, hx, within_of_ne hmode]

/-! ## Stops on a timeout or an error (R273) -/

theorem exec_timeout {f : Flight} (hf : f ∈ (s.scarfOf q).flights) (hmode : (s.scarfOf q).mode = .running) (hdata : f.data = none)
    (hchip : f.tr.chip ≠ (s.part q).lchip) (hlate : f.due + 2 * 2 ^ (s.part q).hdr.fexp < (s.part q).time) :
    exec (.timeout q) s = .next (s.scarfStop q 9) := by
  have hany : (s.scarfOf q).flights.any (fun f => f.data.isNone && decide (f.tr.chip ≠ (s.part q).lchip)
      && decide (f.due + 2 * 2 ^ (s.part q).hdr.fexp < (s.part q).time)) = true :=
    List.any_eq_true.mpr ⟨f, hf, by simp [hdata, hchip, hlate]⟩
  change execTimeout q s = _
  unfold execTimeout
  dsimp only
  rw [if_pos ⟨hmode, hany⟩]

theorem exec_errorFlit {code : Nat} (hmode : (s.scarfOf q).mode = .running) (hpass : (s.scarfOf q).pass = 0) :
    exec (.scarfErrorFlit q code) s = .next (s.scarfStop q code) := by
  change execScarfErrorFlit q code s = _
  unfold execScarfErrorFlit
  dsimp only
  rw [if_pos ⟨hmode, hpass⟩]

/-! ## O48 -/

/-- Settles O48: by the tests of a record in their order, and the rule for each event of a context. -/
theorem scarf : Obligations.Scarf := by
  unfold Obligations.Scarf
  refine ⟨?codes, ?node, ?context⟩
  case codes =>
    intro p b r unknown at' src dst table code field merge fails old nl
    have hold : old ↔ versionBad r := by
      simp only [old, field, versionBad, bits_eq]
    refine ⟨checkCode_le, (checkCode_of_record (.inl rfl)).trans (recordCode_eq_one.trans hold.symm),
      (checkCode_of_record (.inr rfl)).trans (recordCode_eq_two.trans (by rw [hold])), fails_reserved, fails_middle, fails_plain,
      fun k => fails_beyond, fun l e => fails_entry, fails_format, fails_mode, fun k => fails_placement, fun l => fails_list,
      fun l => fails_absent, fails_dims, fails_merge, fun va need => fails_span, fun l e => fails_source, fails_progress, fails_aligned,
      fun l => fails_tiling, fails_overlap⟩
  case node =>
    intro ctx kv ea eb x y hmode _
    exact nodeElem_shift hmode
  case context =>
    intro q s c p r stops
    have hstops {i : Instr} {code : Nat} (h : exec i s = .next (s.scarfStop q code)) : stops i code :=
      ⟨_, h, stopped_scarfStop (.refl s)⟩
    refine ⟨?begin, ?checkEnd, ?request, ?landing, ?timeout, ?error, ?receive, ?pass, ?source⟩
    case begin =>
      intro b m rest h hb hc hr hheld hlow
      have hexec := exec_reshardBegin h hb hc hr hheld hlow
      refine ⟨fun hreg => ?_, fun hreg => ?_⟩
      · rw [if_pos hreg] at hexec
        refine ⟨_, hexec, sameMemory_reading, begun_reading h _ rfl, ?_⟩
        rw [scarfOf_reading]
        exact ⟨rfl, rfl, rfl, record_started, rfl⟩
      · rw [if_neg (by rw [hreg]; decide)] at hexec
        obtain ⟨hctx, -⟩ := scarfStop_eq (s := scarfReading s q b m) (q := q) (code := 10)
        refine ⟨_, hexec, begun_refused h, ?_⟩
        rw [hctx]
        exact ⟨rfl, rfl, rfl⟩
    case checkEnd =>
      intro m hmode hcmd hend hheld
      refine ⟨fun hcode => hstops (exec_checkEnd_refuses hmode hcmd hend hheld hcode), fun x more hcode hword hplan => ?_⟩
      exact checkEnd_runs hmode hcmd hend hheld hcode hword hplan
    case request =>
      intro x rest hmode hpass hroom hheld hissue
      refine ⟨fun hchip => ?_, fun f hchip hf => ?_⟩
      · rw [← vaNat_eq]
        exact ⟨fun hnone => hstops (exec_request_unmapped hmode hpass hroom hheld hissue hchip hnone), fun k e hsome =>
          ⟨_, exec_request_local hmode hpass hroom hheld hissue hchip hsome, flies_of hissue rfl ⟨rfl, rfl, rfl, fun _ => rfl⟩ rfl⟩⟩
      · have hexec := exec_request_remote hmode hpass hroom hheld hissue hchip hf
        refine ⟨fun hnot => hstops (hexec.trans (if_pos (not_allowed_iff.mp hnot))), fun hall hslot => ?_, fun hall hslot => ?_⟩
        · rw [if_neg (fun hnot => not_allowed_iff.mpr hnot hall), if_pos hslot] at hexec
          exact ⟨_, hexec, flies_sent hissue linksOnly_sendChip⟩
        · rw [if_neg (fun hnot => not_allowed_iff.mpr hnot hall), if_neg (by rw [hslot]; decide)] at hexec
          exact hexec
    case landing =>
      intro l l' f d hmode hpass hheld hflights hdue hothers hdata hleft u raw pieces
      obtain ⟨x, hx, hxf, hnot⟩ := hleft
      have hpieces : pieces = landPieces u q (s.scarfOf q) f.tr d := rfl
      rw [hpieces]
      exact ⟨landing_full hmode hdue hdata rfl hheld hflights hothers hx hnot, fun hfree hclash =>
        ⟨fun e => landing_stops hmode hdue hdata rfl hheld hflights hothers hfree hclash,
          fun s1 => landing_lands hmode hdue hdata rfl hheld hflights hothers hx hxf hnot hfree hclash⟩⟩
    case timeout =>
      intro f hf hmode hdata hchip hlate
      exact hstops (exec_timeout hf hmode hdata hchip hlate)
    case error =>
      intro code hmode hpass
      exact hstops (exec_errorFlit hmode hpass)
    case receive =>
      intro port run code
      exact ⟨fun h => if_pos h, fun h => if_neg h⟩
    case pass =>
      intro hmode hpass hheld hround b pos es roots ctx sum combining ends
      refine ⟨fun hwait hdue hnew => ⟨fun hcomb => ?_, fun hcomb => ?_⟩, fun m n em en hnodes hmn hne hlt => segRoots_pair hnodes hmn hne hlt,
        fun d hwait hd hcoff hphase => ?_⟩
      · obtain ⟨sat, hseg⟩ := passSegment_combining hcomb
        exact segment_ends hmode hpass hheld hround hwait hdue hnew hseg (fun _ => rfl) fun s1 v hv => passEnd_completes hv hcomb
      · obtain ⟨hmode2, hwriting⟩ := not_or.mp hcomb
        have hmode2 := not_not.mp hmode2
        have hwriting := Bool.eq_false_iff.mpr hwriting
        obtain ⟨flags, sat, hseg⟩ := passSegment_level hmode2 hwriting
        exact segment_ends hmode hpass hheld hround hwait hdue hnew hseg (fun _ => rfl) fun s1 v hv => passEnd_level hv hmode2 hwriting
      · obtain ⟨w, hw, hrest⟩ := scarfContribute_eq hd hcoff hphase
        have hexec := exec_mergePass_contributes hmode hpass hheld hround hwait
        rw [hw] at hexec
        refine ⟨_, w, hexec, rfl, ⟨rfl, rfl, rfl, fun _ => rfl⟩, ?_, ?_, rfl, hrest⟩
        · exact congrArg Scarf.orWait scarfOf_onScarf
        · exact congrArg Scarf.orRound scarfOf_onScarf
    case source =>
      rintro r f rfl hf hpos
      refine ⟨serveScarf_eq hf, fun e he => ⟨?_, sourceAnswer_untranslated hpos he⟩, fun x hx => ⟨?_, sourceAnswer_forbidden hpos hx⟩,
        sourceAnswer_data hpos, fun x => performBurst_scarf⟩
      · rw [exec_sourceRead, he]
      · rw [exec_sourceRead, hx]

end Sys2Proof
end
